-- ==== Sys2Proof/Word.lean ====
section
/-! DEFINITION. The word types of the block and the named alternatives that commands carry as
operands: access paths, operating modes, splice outputs and check results.  A file of types only. -/

namespace Sys2Proof

/-- One byte (R5). -/
abbrev Byte := BitVec 8

/-- One 32-bit word or register value (R7). -/
abbrev Word := BitVec 32

/-- The path by which a register access arrives (R31, R36). -/
inductive Path where
  /-- BAR0 of the physical function. -/
  | bar0
  /-- The I3C management target. -/
  | i3c
  /-- The management core pair. -/
  | core
  /-- BAR0 of a virtual function. -/
  | vf
deriving DecidableEq, Repr

/-- Operating modes (Table 00.6, Table 15.9). -/
inductive Mode where
  | dormant | standby | doze | ready | active | readOnly | service | safe
deriving DecidableEq, Repr

/-- The mode code of PWR_MODE.MODE (Table 00.6). -/
def Mode.code : Mode → Nat
  | .dormant => 0 | .standby => 1 | .doze => 2 | .ready => 3
  | .active => 4 | .readOnly => 5 | .service => 6 | .safe => 7

/-- The mode a three-bit code names (Table 00.6). -/
def Mode.ofCode : Nat → Mode
  | 0 => .dormant | 1 => .standby | 2 => .doze | 3 => .ready
  | 4 => .active | 5 => .readOnly | 6 => .service | _ => .safe

/-- What the check code says of a splice word on arrival (R22). The check matrix of the
72-bit word is not given, so its finding is the word's own operand. -/
inductive WordCheck where
  | clean | corrected | uncorrectable
deriving DecidableEq, Repr

/-- Driver faults of an actuator that DRV_FAULT records (Table 08.15, R314). -/
inductive DriverFault where
  | vcmOverCurrent | vcmOpenCoil | vcmOverTemp | microOverCurrent | boost
deriving DecidableEq, Repr

/-- Events that the drive die reports in superframe position 14 (Table 01.2): a driver fault names its actuator, or is
the spindle's gate-driver fault. -/
inductive DriveEvent where
  | powerFail | tamper | overTemp | wake | pwrdis
  | driverFault (act : Nat) (fault : DriverFault)
  | spindleGate
deriving DecidableEq, Repr

/-- Direction of a splice word (Table 01.2). -/
inductive SpliceDir where
  | toDrive | toLogic
deriving DecidableEq, Repr

/-- NAND geometry as a parameter page gives it (R162): page size with spare and data area of a page in bytes, pages
of a block, blocks and planes of a LUN, bits per cell. -/
structure NandGeom where
  pageSize : Nat
  dataArea : Nat
  pages    : Nat
  blocks   : Nat
  planes   : Nat
  bits     : Nat
deriving DecidableEq, Repr

/-- A target that answers at bring-up (R161, R162): its chip enable, a bit for each of its LUNs, and the geometry of
its parameter page. -/
structure NandTarget where
  ce   : Nat
  luns : Nat
  geom : NandGeom
deriving DecidableEq, Repr

/-- What a splice word carries (Table 01.2, R20, R21, R24). -/
inductive SpliceWord where
  /-- A position with nothing to send. -/
  | idle
  /-- A motion, spindle or enable command with its apply stamp. -/
  | command (stamp value : Nat)
  /-- A sense sample. -/
  | sample (value : Nat)
  /-- A request or response of the management access that came by a path. -/
  | access (path : Path)
  /-- A drive-die event. -/
  | event (e : DriveEvent)
  /-- The acknowledgement of an event. -/
  | ack
  /-- The link check: the sender's sequence number and cycle count. -/
  | link (seq count : Nat)
deriving DecidableEq, Repr

/-- A partner that answers on the local bus at discovery (R511): provisional ID (0 for a legacy
I2C partner), static address (0 when it has none). -/
structure LbFound where
  pid    : Nat
  static : Nat
deriving DecidableEq, Repr

/-- Names a command in flight: its function (0 the physical function, n + 1 the controller of
tenant n), its submission queue and its command identifier. -/
structure CmdKey where
  fn  : Nat
  sq  : Nat
  cid : Nat
deriving DecidableEq, Repr

/-- A submission entry as fetched: opcode, namespace, command identifier, FUSE, PSDT, dwords 2, 3 and 10–15, the
metadata pointer, whether its data pointers are valid PRPs, and the data fetched through them. -/
structure Sqe where
  opc   : Nat
  nsid  : Nat
  cid   : Nat
  fuse  : Nat
  psdt  : Nat
  dw2   : Nat
  dw3   : Nat
  mptr  : Nat
  dw10  : Nat
  dw11  : Nat
  dw12  : Nat
  dw13  : Nat
  dw14  : Nat
  dw15  : Nat
  prpOk : Bool
  data  : List Byte
deriving DecidableEq, Repr

/-- How a fetch from host memory ended (R100). -/
inductive FetchEnd where
  | ok | poisoned | unsupported | completerAbort
deriving DecidableEq, Repr

/-- Who reads a unit from the media: a host command, an input port of a take's context, the task file, a read of the
partner by its tag, the resync, or the device itself. -/
inductive ReadFor where
  | cmd (key : CmdKey)
  | take (ctx port : Nat)
  | taskFile
  | pair (tag : Nat)
  | resync
  | device
deriving DecidableEq, Repr

/-- How a slot came out that band verification read (R271, R272): its position, the 32 stream bits from P − 8 on of its
first capture, the ladder step that ended it, whether it was lost, the start that was accepted (as an offset from P)
and the bits corrected. -/
structure SlotRead where
  pos    : Nat
  window : Nat
  step   : Nat
  lost   : Bool
  start  : Int
  bits   : Nat
deriving DecidableEq, Repr

/-- What an error code says of a codeword it reads (R465, R466). -/
inductive EccFinding where
  | clean | corrected | uncorrectable
deriving DecidableEq, Repr, Inhabited

/-- A message of the continuity link, its header fields and its body in the clear (Table 14.2). -/
structure LinkMsg where
  magic   : Nat
  version : Nat
  type    : Nat
  ackNow  : Bool
  epoch   : Nat
  tenant  : Nat
  gen     : Nat
  seq     : Nat
  nsid    : Nat
  body    : List Byte
deriving DecidableEq, Repr

end Sys2Proof
end

