-- ==== Sys2Proof/Syntax.lean ====
section
/-! DEFINITION. The commands of the block: one constructor per row of spec/opcode_table.json, with
the row's operands.  Each docstring gives the row's mnemonic, its rule and its summary; operands
that stand for what the outside shows the block (a media outcome, a sensor value, a decoder's
finding) are named there by their type. -/

namespace Sys2Proof

/-- A command of the block. -/
inductive Instr where
  /-- REGISTER_WRITE (R10): A write to a register field that has no row of its own takes effect as its access code states. -/
  | registerWrite (path : Path) (addr : Nat) (value : Word)
  /-- BLOCK_LOCK (R11): A write setting the LOCK field of a block locks its RWL fields, after any RWL value or action in the same write is taken. -/
  | blockLock (path : Path) (addr : Nat) (value : Word)
  /-- SPLICE_WORD_ARRIVE (R22): A splice word arrives at the other die and is corrected, used or discarded. -/
  | spliceWordArrive (dir : SpliceDir) (pos : Nat) (chk : WordCheck) (w : SpliceWord)
  /-- APPLY_STAMP_MATCH (R21): The drive die applies a held motion or spindle command when its splice cycle count matches the apply stamp. -/
  | applyStampMatch (out : Nat)
  /-- DISCARDED_COMMAND_LIMIT (R22): Commands for one output discarded in four consecutive sample periods start the emergency retract. -/
  | discardedCommandLimit (out : Nat)
  /-- SPLICE_LOST (R24): Eight consecutive failed link checks declare the splice lost; the drive die retracts and the logic die enters Safe. -/
  | spliceLost
  /-- SPLICE_TRAINED (R25): Splice training completes and events held since power-up are delivered in order. -/
  | spliceTrained (bad : Nat)
  /-- RC_OSCILLATOR_TRIM (R26): Once per second the internal RC oscillator is trimmed against the 38.4 MHz reference. -/
  | rcOscillatorTrim
  /-- TIMECODE_HANDOVER (R30): At a 32.768 kHz tick edge the timecode passes between the always-on domain and the logic die without decreasing. -/
  | timecodeHandover (toLogic : Bool) (count : Nat)
  /-- TIMECODE_LO_READ (R31): A read of DEV_TIMECODE_LO returns the low half and latches the high half for that access path. -/
  | timecodeLoRead (path : Path)
  /-- DELAY_LIST_TICK (R32): The delay-list tick fires each time the timecode passes a multiple of 1000 ns, or once with an elapsed count after handover. -/
  | delayListTick
  /-- VF_BAR0_UNCLAIMED (R34): An access to the BAR0 range of a nonexistent virtual function is not claimed and ends as Unsupported Request. -/
  | vfBar0Unclaimed (vf off : Nat) (wr : Bool)
  /-- SPLICE_LOST_CLEAR (R39): A write of 1 to DEV_SPLICE_STATUS.LOST clears it in Service mode and has no effect otherwise. -/
  | spliceLostClear (path : Path)
  /-- CELL_DECISION (R56): In the decision window of each cell the column decides the owner's grant, spare pick or idleness. -/
  | cellDecision (col cell : Nat) (uncorr : Bool)
  /-- SLATE_HEAL (R79): The management core pair rewrites the active slate copy from DRAM between frames. -/
  | slateHeal
  /-- FABRIC_CLOCK_GATE (R51): In Ready with no posted request and no queued work, the slate stops at frame end and the fabric clock is gated. -/
  | fabricClockGate
  /-- FABRIC_CLOCK_UNGATE (R51): A posted request ungates the fabric clock and the slate resumes at the next frame. -/
  | fabricClockUngate (owner col : Nat)
  /-- SLATE_SWAP (R71): Setting SLT_CTRL.SWAP orders validation of the shadow and a swap on success. -/
  | slateSwap (path : Path) (value : Word)
  /-- SLATE_VALIDATE (R71): Setting SLT_CTRL.VALIDATE validates the shadow without swapping. -/
  | slateValidate (path : Path) (value : Word)
  /-- SLATE_LOCK (R617): Setting SLT_CTRL.LOCK makes later shadow writes, swaps, validations and Slate Loads refused with LOCKED. -/
  | slateLock (path : Path) (value : Word)
  /-- SHADOW_DATA_ACCESS (R72): An access to SLT_SHADOW_DATA reads or writes four shadow bytes, or is dropped or refused, and advances WORD. -/
  | shadowDataAccess (path : Path) (wr : Option Word)
  /-- VALIDATION_DONE (R66): Slate validation ends with pass, or rejection with reason and reject info. -/
  | validationDone
  /-- SWAP_BOUNDARY (R73): At the swap boundary the shadow becomes active and spare rings restart. -/
  | swapBoundary
  /-- PCIE_CONVENTIONAL_RESET (R85): A fundamental reset, hot reset or link-down resets every NVMe controller and advances generations. -/
  | pcieConventionalReset
  /-- FUNCTION_LEVEL_RESET (R135): A Function Level Reset of a virtual function triggers an instance reset. -/
  | functionLevelReset (n : Nat)
  /-- SQ_TAIL_DOORBELL (R93): A submission queue tail doorbell write makes entries available for fetch, or is ignored for an uncreated queue. -/
  | sqTailDoorbell (fn y tail : Nat)
  /-- CQ_HEAD_DOORBELL (R93): A completion queue head doorbell write frees entries, or is ignored for an uncreated queue. -/
  | cqHeadDoorbell (fn y head : Nat)
  /-- COMMAND_FETCH (R94): A submission entry fetched in an HDR cell enters FETCHED and is decoded. -/
  | commandFetch (fn sq : Nat) (sqe : Sqe)
  /-- COMMAND_ADMIT (R150): A decoded command leaves ADMIT_WAIT when its buckets are positive and is charged. -/
  | commandAdmit (key : CmdKey)
  /-- RANGE_LOCK_GRANT (R109): A command in LOCK_WAIT takes its range-lock entries once no earlier conflicting command remains and entries are free. -/
  | rangeLockGrant (key : CmdKey)
  /-- COMPLETION_POST (R94): A completion entry and its interrupt are written in an HDW cell and the command becomes POSTED. -/
  | completionPost (key : CmdKey)
  /-- DELETE_IO_SUBMISSION_QUEUE (R101): Admin command 0x00 deletes an I/O submission queue. -/
  | deleteIoSubmissionQueue (key : CmdKey)
  /-- CREATE_IO_SUBMISSION_QUEUE (R101): Admin command 0x01 creates an I/O submission queue within the quota. -/
  | createIoSubmissionQueue (key : CmdKey)
  /-- GET_LOG_PAGE (R102): Admin command 0x02 returns a log page and may clear deferred write errors and latched events. -/
  | getLogPage (key : CmdKey)
  /-- DELETE_IO_COMPLETION_QUEUE (R101): Admin command 0x04 deletes an I/O completion queue. -/
  | deleteIoCompletionQueue (key : CmdKey)
  /-- CREATE_IO_COMPLETION_QUEUE (R101): Admin command 0x05 creates an I/O completion queue. -/
  | createIoCompletionQueue (key : CmdKey)
  /-- IDENTIFY (R101): Admin command 0x06 returns an Identify data structure for a supported CNS. -/
  | identify (key : CmdKey)
  /-- ABORT (R113): Admin command 0x08 tries to catch a named command and reports whether it was caught. -/
  | abort (key : CmdKey)
  /-- SET_FEATURES (R103): Admin command 0x09 sets a supported feature. -/
  | setFeatures (key : CmdKey)
  /-- GET_FEATURES (R103): Admin command 0x0A returns a supported feature. -/
  | getFeatures (key : CmdKey)
  /-- ASYNCHRONOUS_EVENT_REQUEST (R130): Admin command 0x0C waits for an asynchronous event and completes when one is reported. -/
  | asynchronousEventRequest (key : CmdKey)
  /-- NAMESPACE_MANAGEMENT (R86): Admin command 0x0D creates or deletes a namespace. -/
  | namespaceManagement (key : CmdKey)
  /-- FIRMWARE_COMMIT (R558): Admin command 0x10 checks a staged image and sets the slot to boot or activates it. -/
  | firmwareCommit (key : CmdKey)
  /-- FIRMWARE_IMAGE_DOWNLOAD (R558): Admin command 0x11 stages 4 KiB chunks of a firmware image into the staging slot. -/
  | firmwareImageDownload (key : CmdKey)
  /-- DEVICE_SELF_TEST (R578): Admin command 0x14 starts a short or extended self-test, or aborts one. -/
  | deviceSelfTest (key : CmdKey)
  /-- SELF_TEST_SEGMENT (R578): A self-test segment runs and records its pass or failure. -/
  | selfTestSegment (seg : Nat) (passed : Bool) (unit : Nat)
  /-- NAMESPACE_ATTACHMENT (R99): Admin command 0x15 attaches a namespace to or detaches it from controllers. -/
  | namespaceAttachment (key : CmdKey)
  /-- FORMAT_NVM (R97): Admin command 0x80 formats namespaces in Service mode. -/
  | formatNvm (key : CmdKey)
  /-- SANITIZE (R432): Admin command 0x84 runs a block erase or a crypto erase in Service mode. -/
  | sanitize (key : CmdKey)
  /-- SLATE_LOAD (R124): Vendor admin command 0xC1 writes an image into the shadow and validates or swaps it. -/
  | slateLoad (key : CmdKey)
  /-- SLATE_READ (R123): Vendor admin command 0xC2 returns the active or shadow slate image. -/
  | slateRead (key : CmdKey)
  /-- SCRIPT_REGISTER (R355): Vendor admin command 0xC5 checks a script image and registers its digest for an instance. -/
  | scriptRegister (key : CmdKey)
  /-- SCRIPT_DEREGISTER (R126): Vendor admin command 0xC8 removes a script registration. -/
  | scriptDeregister (key : CmdKey)
  /-- INSTANCE_CONFIGURE (R146): Vendor command 0xD0 checks and stores an instance record and takes its quotas. -/
  | instanceConfigure (key : CmdKey)
  /-- INSTANCE_READ (R145): Vendor command 0xD1 returns the stored instance record with state and generation. -/
  | instanceRead (key : CmdKey)
  /-- INSTANCE_ENABLE (R142): Vendor command 0xD2 starts the zero-fill of the window and enters SCRUBBING. -/
  | instanceEnable (key : CmdKey)
  /-- INSTANCE_DISABLE (R145): Vendor command 0xD3 removes an enabled instance or discards a configured record. -/
  | instanceDisable (key : CmdKey)
  /-- INSTANCE_RESET (R135): Vendor command 0xD4 triggers an instance reset and completes when RESETTING ends. -/
  | instanceReset (key : CmdKey)
  /-- RATE_SET (R152): Vendor command 0xD5 changes an instance's token bucket parameters from the next tick. -/
  | rateSet (key : CmdKey)
  /-- INSTANCE_QUIESCE (R143): Vendor command 0xD6 stops fetching and completes when the instance's work has completed. -/
  | instanceQuiesce (key : CmdKey)
  /-- INSTANCE_RESUME (R143): Vendor command 0xD7 returns a quiesced instance to ENABLED. -/
  | instanceResume (key : CmdKey)
  /-- FLUSH (R105): I/O command 0x00 completes once earlier writes of the queue to the namespaces have completed. -/
  | flush (key : CmdKey)
  /-- WRITE (R42): I/O command 0x01 fetches data into the write buffer and completes when it is power-protected. -/
  | write (key : CmdKey) (fetch : FetchEnd)
  /-- READ (R112): I/O command 0x02 returns data from the buffer or the media. -/
  | read (key : CmdKey) (delivered : Bool)
  /-- WRITE_ZEROES (R108): I/O command 0x08 marks logical blocks as zero. -/
  | writeZeroes (key : CmdKey)
  /-- DATASET_MANAGEMENT (R106): I/O command 0x09 deallocates ranges when its Deallocate bit is set. -/
  | datasetManagement (key : CmdKey)
  /-- VERIFY (R108): I/O command 0x0C reads and checks blocks without returning data. -/
  | verify (key : CmdKey)
  /-- ZONE_MANAGEMENT_SEND (R270): I/O command 0x79 resets, finishes or otherwise changes zones. -/
  | zoneManagementSend (key : CmdKey)
  /-- ZONE_MANAGEMENT_RECEIVE (R107): I/O command 0x7A returns zone descriptors. -/
  | zoneManagementReceive (key : CmdKey)
  /-- ZONE_APPEND (R108): I/O command 0x7D writes at a zone's write pointer under an exclusive zone lock. -/
  | zoneAppend (key : CmdKey) (fetch : FetchEnd)
  /-- TAKE_SUBMIT (R359): I/O command 0x81 fetches and checks a take descriptor and runs the take to commit or fault. -/
  | takeSubmit (key : CmdKey)
  /-- TAKE_STATUS (R383): I/O command 0x82 returns the status record of a take handle. -/
  | takeStatus (key : CmdKey)
  /-- TAKE_CANCEL (R117): I/O command 0x84 catches a take by handle before its commit. -/
  | takeCancel (key : CmdKey)
  /-- CC_EN_CLEAR (R135): A tenant write of CC.EN from 1 to 0 triggers an instance reset. -/
  | ccEnClear (n : Nat)
  /-- CC_EN_SET (R134): A write of CC.EN = 1 enables the controller, or is held until the instance enters ENABLED. -/
  | ccEnSet (fn cc : Nat)
  /-- VF_ENABLE_CLEAR (R135): Clearing SR-IOV VF Enable removes every instance. -/
  | vfEnableClear
  /-- NUMVFS_LOWER (R135): Lowering NumVFs removes the instances that lose their virtual functions. -/
  | numvfsLower (num : Nat)
  /-- RESETTING_END (R141): RESETTING ends in ENABLED or CONFIGURED once commits end, tasks stop and stale work permits. -/
  | resettingEnd (n : Nat)
  /-- WINDOW_FILL_DONE (R142): The zero-fill of a DRAM window ends and the instance enters ENABLED or CONFIGURED. -/
  | windowFillDone (n : Nat)
  /-- QUIESCE_DONE (R143): An instance in QUIESCING with no work left enters QUIESCED. -/
  | quiesceDone (n : Nat)
  /-- STALE_RESULT_DISCARD (R138): A result carrying an old generation is discarded and counted. -/
  | staleResultDiscard (n gen : Nat)
  /-- STALE_GENERATION_RECORD (R138): Once per 1 ms with discards, a STALE_GENERATION dailies record is written per instance. -/
  | staleGenerationRecord (n : Nat)
  /-- TAKE_PIECE_CHARGE (R151): A take input or output piece of up to 1 MiB is issued and charged when the byte level is positive. -/
  | takePieceCharge (ctx : Nat) (port : Option Nat) (most : Nat)
  /-- CHANNEL_BRING_UP (R167): A flash channel runs the bring-up sequence to ONLINE, retrying lower rates or fencing. -/
  | channelBringUp (ch : Nat) (targets : List NandTarget) (fails : Nat)
  /-- CHANNEL_STANDBY_RESTORE (R168): On leaving Standby a channel restores its kept training or falls back to full bring-up. -/
  | channelStandbyRestore (ch : Nat) (ok : Bool)
  /-- CHANNEL_RETRAIN (R170): FCH_CTRL.RETRAIN, or four LUN timeouts in 1 s, retrain a channel. -/
  | channelRetrain (ch fails : Nat)
  /-- FLASH_STATUS_POLL (R183): A Read Status Enhanced is issued at its scheduled time after an array command. -/
  | flashStatusPoll (ch lun : Nat) (busy fail : Bool)
  /-- FLASH_OPERATION_TIMEOUT (R183): An operation busy at twice its limit gets Reset LUN and fails back as a timeout. -/
  | flashOperationTimeout (ch lun : Nat) (resetOk : Bool)
  /-- HARD_DECODE_DONE (R175): A hard LDPC decode ends and the read stops or climbs the recovery ladder. -/
  | hardDecodeDone (ch lun : Nat) (syndromeZero crcOk : Bool)
  /-- SOFT_DECODE_DONE (R176): A pooled soft decode ends and the next queued request is served. -/
  | softDecodeDone (slot : Nat) (syndromeZero crcOk : Bool)
  /-- PROGRAM_FAIL (R184): A program reporting FAIL retires its block and is retried elsewhere. -/
  | programFail (ch lun : Nat)
  /-- ERASE_FAIL (R184): An erase reporting FAIL retires its block. -/
  | eraseFail (ch lun : Nat)
  /-- PROGRAM_LOOP_SAMPLE (R180): Every 64th program the LUN's loop count is read and averaged. -/
  | programLoopSample (ch lun loops : Nat)
  /-- FLASH_SUSPEND (R186): A read to a busy LUN suspends its program or erase when allowed. -/
  | flashSuspend (ch lun : Nat)
  /-- SUSPEND_HOLD_EXPIRE (R187): A suspended operation resumes after HOLD_MAX or when no read is queued. -/
  | suspendHoldExpire (ch lun : Nat)
  /-- LUN_FENCE (R192): A LUN meeting a fence condition, or written in FCH_LUN_FENCE, is fenced. -/
  | lunFence (ch lun : Nat) (written idFails : Bool)
  /-- CHANNEL_FENCE (R193): A channel meeting a fence condition, or written in FCH_CTRL.FENCE, is fenced. -/
  | channelFence (ch : Nat) (written : Bool)
  /-- CLEAR_FENCE (R196): FCH_CTRL.CLEAR_FENCE in Service mode removes a channel's fences and brings it up again. -/
  | clearFence (ch : Nat) (path : Path)
  /-- REBUILD_COMPLETE (R195): The rebuild of a fenced unit's codewords finishes and health event 0x000E is raised. -/
  | rebuildComplete (ch : Nat)
  /-- WRITE_BUFFER_FILL_DONE (R205): The last unit of a write enters the buffer and the write is complete. -/
  | writeBufferFillDone (key : CmdKey)
  /-- BUFFER_SPACE_FREED (R207): Freed buffer entries let a waiting write start its data fetch. -/
  | bufferSpaceFreed (key : CmdKey) (fetch : FetchEnd)
  /-- FLUSH_START (R208): A buffer entry starts its flush when the buffer is 25% full or the entry is 100 ms old. -/
  | flushStart (nsid unit : Nat)
  /-- ROW_PAD_TIMEOUT (R208): A stripe row still short 100 ms after its first entry is padded and programmed. -/
  | rowPadTimeout (stream lane : Nat)
  /-- SUPERBLOCK_OPEN_TIMEOUT (R211): Units with no superblock opened within 1 s become deferred write errors. -/
  | superblockOpenTimeout (lane : Nat)
  /-- JOURNAL_CODEWORD_WRITE (R213): A journal codeword is written at 126 records or 200 µs after its oldest record. -/
  | journalCodewordWrite
  /-- JOURNAL_DURABLE (R212): Both programs of a journal codeword pass and its records become durable. -/
  | journalDurable (pageSeq : Nat)
  /-- JRN_DURABLE_LO_READ (R213): A read of FTL_JRN_DURABLE_LO latches the high half. -/
  | jrnDurableLoRead (path : Path)
  /-- CHECKPOINT_START (R216): A checkpoint pass starts on journal volume, CKPT_NOW or 30 minutes. -/
  | checkpointStart
  /-- CKPT_NOW (R216): Setting FTL_CTRL.CKPT_NOW starts a checkpoint pass. -/
  | ckptNow (path : Path) (value : Word)
  /-- CHECKPOINT_COMPLETE (R217): A durable checkpoint writes a new root to the NVS and releases old checkpoint space. -/
  | checkpointComplete
  /-- GC_COLLECT (R219): A lane running short collects its superblock with fewest valid units. -/
  | gcCollect (lane : Nat)
  /-- GC_COPY_COMMIT (R220): A collected unit's copy commits only if the map still holds its source slot. -/
  | gcCopyCommit (nsid unit src : Nat)
  /-- SUPERBLOCK_ERASE (R221): A superblock whose records are durable is erased and ERASE_END appended. -/
  | superblockErase (lane seg : Nat)
  /-- DEALLOCATE_APPLY (R222): Within 1 s of a deallocate, MAP_CLEAR records are appended for its units. -/
  | deallocateApply
  /-- HEAT_EPOCH (R223): At each heat epoch every extent's heat decays and allocated extents become classified. -/
  | heatEpoch
  /-- DEMOTION_START (R225): Cold tiered extents are chosen and written to a disk band when free chunks fall low. -/
  | demotionStart
  /-- EXTENT_DEMOTED (R225): A demoted extent's EXTENT_SET becomes durable and its flash units are freed. -/
  | extentDemoted (nsid ext : Nat)
  /-- PROMOTION (R227): A hot or written DISK extent is promoted back to flash. -/
  | promotion (nsid ext : Nat)
  /-- BAND_COMPACTION (R228): A sparse band's live extents are rewritten and the band is reset. -/
  | bandCompaction (act band : Nat)
  /-- POWER_FAIL_EVENT (R229): V12 falls below the power-fail threshold; retract, path fence and the dump flush start. -/
  | powerFailEvent (mv : Nat)
  /-- DUMP_DURABLE (R229): The power-fail dump is durable and WP_n goes low. -/
  | dumpDurable
  /-- EVACUATION_START (R232): The spare pool falling below 2% starts evacuation of tiered extents. -/
  | evacuationStart
  /-- READ_ONLY_ORDER (R233): The device orders Read-Only when spares are below the floor and nothing can be freed. -/
  | readOnlyOrder
  /-- SENSOR_SAMPLE (R237): Each second the always-on domain reads every sensor and updates minimum and maximum. -/
  | sensorSample (logic drive hda : Int)
  /-- TEMP_HISTORY_BIN (R237): Each minute a sample is counted into the temperature history bins. -/
  | tempHistoryBin
  /-- TEMP_HISTORY_SAVE (R237): Every hour and at Dormant entry the temperature history is written to the NVS. -/
  | tempHistorySave
  /-- DAILIES_COPY (R552): The dailies ring is copied to the NVS at most once per 600 s and at Dormant entry. -/
  | dailiesCopy
  /-- PREAMP_FRAME (R241): DCH_CTRL.PREAMP_GO sends a preamp frame in Service mode. -/
  | preampFrame (act : Nat) (path : Path) (rdata : Nat)
  /-- PREAMP_FAULT (R242): A preamp pulling PA_SDIO low lowers the write gate and sets PREAMP_FAULT. -/
  | preampFault (act : Nat)
  /-- PREAMP_DISCOVERY (R244): Discovery identifies the preamp and checks every head's elements. -/
  | preampDiscovery (act ident : Nat) (checks : List Nat)
  /-- PREAMP_RESCAN (R244): DCH_CTRL.RESCAN reruns discovery in Service mode. -/
  | preampRescan (act : Nat) (path : Path) (ident : Nat) (checks : List Nat)
  /-- CLOCK_LOCK (R252): The sample clock locks to the clock track and CLK_LOCK sets. -/
  | clockLock (act : Nat)
  /-- CLOCK_LOSS (R253): CLK_LOCK drops after 64 bad bits, the write gate falls and the slot is reread. -/
  | clockLoss (act : Nat)
  /-- SERVO_WEDGE (R277): A servo field ends at its reference edge and the corrected PES becomes ready. -/
  | servoWedge (act wedge : Nat) (sync : Option Int) (id : Nat) (crossings : List Int)
  /-- SERVO_LOST (R278): Thirty-two consecutive invalid wedges declare the servo lost. -/
  | servoLost (act : Nat)
  /-- SECTOR_READ_QUEUE (R262): A sector read is queued and positions the head. -/
  | sectorReadQueue (act band unit : Nat) (for_ : ReadFor)
  /-- SECTOR_CAPTURE_DONE (R262): The capture of a slot completes and the primary decode starts. -/
  | sectorCaptureDone (act window : Nat)
  /-- SECTOR_DECODE_DONE (R256): A primary or recovery decode of a start ends and the slot is accepted or reframed. -/
  | sectorDecodeDone (act : Nat) (recovery syndromeZero crcOk : Bool)
  /-- SECTOR_WRITE_QUEUE (R267): A sector write is queued at the verified write pointer. -/
  | sectorWriteQueue (act band nsid unit : Nat)
  /-- SLOT_WRITE_END (R267): The write gate reaches the end of a slot and its verify is awaited. -/
  | slotWriteEnd (act : Nat)
  /-- WRITE_CUT (R264): A write-unsafe, preamp fault or clock loss cuts off a slot being written. -/
  | writeCut (act : Nat)
  /-- VERIFY_RESULT (R264): The verify reader's result for a slot is known and the VWP advances or the slot is relocated, rewritten or lost. -/
  | verifyResult (act pos window : Nat) (converged : Bool) (iters bits : Nat) (equal : Bool)
  /-- BAND_VERIFY_GO (R271): DCH_VERIFY_CTRL.GO starts band verification of a range. -/
  | bandVerifyGo (act : Nat) (path : Path) (value : Word)
  /-- BAND_VERIFY_TRACK (R272): Band verification reads one track while the actuator has no other queued work. -/
  | bandVerifyTrack (act : Nat) (reads : List SlotRead)
  /-- BAND_VERIFY_ABORT (R272): DCH_VERIFY_CTRL.ABORT ends a running band verification. -/
  | bandVerifyAbort (act : Nat) (path : Path)
  /-- WEDGE_LIST_RUN (R285): At a reference edge the actuator's wedge list evaluates its loops. -/
  | wedgeListRun (act : Nat)
  /-- CONTROL_TICK (R285): Every 40,000 control cycles the tick list evaluates its loops. -/
  | controlTick
  /-- LOOP_TABLE_CHECK (R292): SRV_CTRL.CHECK runs the loop-table checks over the record window. -/
  | loopTableCheck (path : Path) (value : Word)
  /-- CLEAR_FLAGS (R282): SRV_CTRL.CLEAR_FLAGS clears every sticky loop flag. -/
  | clearFlags (path : Path) (value : Word)
  /-- LOOP_RECORD_WRITE (R294): A write to a loop record's stored part takes effect only in Service mode with its list idle. -/
  | loopRecordWrite (path : Path) (addr : Nat) (value : Word)
  /-- LOAD (R299): SRV_ACT_CMD OP LOAD moves a parked actuator onto the disk. -/
  | load (act : Nat) (path : Path)
  /-- UNLOAD (R299): SRV_ACT_CMD OP UNLOAD moves a tracking actuator to the ramp. -/
  | unload (act : Nat) (path : Path)
  /-- SEEK_READ (R296): SRV_ACT_CMD OP SEEK_READ seeks to a track for reading. -/
  | seekRead (act head track : Nat) (path : Path)
  /-- SEEK_WRITE (R296): SRV_ACT_CMD OP SEEK_WRITE seeks to a track for writing. -/
  | seekWrite (act head track : Nat) (path : Path)
  /-- CLEAR_OFFLINE (R308): SRV_ACT_CMD OP CLEAR_OFFLINE returns an offline actuator to PARKED in Service mode. -/
  | clearOffline (act : Nat) (path : Path)
  /-- SERVO_FIELDS_SEEN (R299): A loading actuator sees servo fields and enters ACQUIRE. -/
  | servoFieldsSeen (act : Nat)
  /-- LOAD_TIMEOUT (R299): No servo field within 500 ms of LOADING unloads and counts a load failure. -/
  | loadTimeout (act : Nat)
  /-- ACQUIRE_DONE (R299): Four consecutive valid wedges move ACQUIRE to SETTLING. -/
  | acquireDone (act : Nat)
  /-- SEEK_END (R296): Wedge N of a seek is reached and the actuator settles. -/
  | seekEnd (act : Nat)
  /-- SETTLE_DONE (R297): ON_TRACK or WRITE_SAFE sets and SETTLING becomes TRACKING. -/
  | settleDone (act : Nat)
  /-- SETTLE_TIMEOUT (R299): No settle within 64 wedges returns to ACQUIRE and counts a settle failure. -/
  | settleTimeout (act : Nat)
  /-- HEADS_ON_RAMP (R299): Unloading heads reach the ramp and the actuator is PARKED. -/
  | headsOnRamp (act : Nat)
  /-- ACTUATOR_OFFLINE (R308): A failure event takes an actuator OFFLINE with health and reliability events. -/
  | actuatorOffline (act : Nat) (fault : Option DriverFault)
  /-- SPIN_START (R302): SRV_SPIN.START begins spindle alignment. -/
  | spinStart (path : Path) (value : Word)
  /-- SPIN_STOP (R302): SRV_SPIN.STOP decelerates the spindle when both actuators are parked. -/
  | spinStop (path : Path) (value : Word)
  /-- ALIGN_DONE (R303): The alignment time ends and the spindle ramps open-loop. -/
  | alignDone
  /-- RAMP_DONE (R303): The spindle reaches 120 rpm open-loop and hands over to back-EMF. -/
  | rampDone (rpm : Nat)
  /-- SPINDLE_HANDOVER_DONE (R303): Twelve valid zero crossings move the spindle to ACCEL. -/
  | spindleHandoverDone (crossings : Nat)
  /-- SPINDLE_HANDOVER_TIMEOUT (R302): No crossing within 200 ms returns to ALIGN, and a third failure faults. -/
  | spindleHandoverTimeout
  /-- AT_SPEED (R302): Speed within 0.05% for 64 revolutions enters AT_SPEED. -/
  | atSpeed (rpms : List Nat)
  /-- SPEED_DROP (R302): Speed below 99% of target returns the spindle to ACCEL. -/
  | speedDrop (rpm : Nat)
  /-- SPEED_LOW_UNLOAD (R304): Speed below 90% of target unloads both actuators. -/
  | speedLowUnload (rpm : Nat)
  /-- BRAKE_ENTER (R302): A decelerating spindle below 300 rpm enters BRAKE. -/
  | brakeEnter (rpm : Nat)
  /-- SPINDLE_STOPPED (R302): No zero crossing for 1 s in BRAKE leaves the spindle STOPPED. -/
  | spindleStopped
  /-- SPINDLE_FAULT (R305): A gate-driver fault or lost crossings put the spindle in FAULT and both actuators offline. -/
  | spindleFault (gateDriver overCurrent : Bool)
  /-- TARGET_RPM_WRITE (R304): A TARGET_RPM write is accepted only in STOPPED and within range. -/
  | targetRpmWrite (path : Path) (value : Word)
  /-- EMERGENCY_RETRACT (R306): The drive die retracts the heads on spindle back-EMF. -/
  | emergencyRetract (cause : Nat)
  /-- RETRACT_PARK_HOLD_END (R306): After heads reach the ramp the park hold ends, the VCM turns off and windings short. -/
  | retractParkHoldEnd (act : Nat)
  /-- TUNE_START (R310): SRV_TUNE_CTRL.START begins a relay auto-tune of a loop. -/
  | tuneStart (path : Path) (value : Word)
  /-- TUNE_ABORT (R310): SRV_TUNE_CTRL.ABORT ends a tune with RESULT ABORTED. -/
  | tuneAbort (path : Path) (value : Word)
  /-- TUNE_END (R312): The relay measurement ends and a gain proposal or failure result is stored. -/
  | tuneEnd
  /-- ADD (R328): Druot ADD writes ga + gb. -/
  | add (p : Nat) (f : BitVec 24)
  /-- SUB (R328): Druot SUB writes ga − gb. -/
  | sub (p : Nat) (f : BitVec 24)
  /-- AND (R328): Druot AND writes the bitwise and. -/
  | and (p : Nat) (f : BitVec 24)
  /-- OR (R328): Druot OR writes the bitwise or. -/
  | or (p : Nat) (f : BitVec 24)
  /-- XOR (R328): Druot XOR writes the bitwise exclusive or. -/
  | xor (p : Nat) (f : BitVec 24)
  /-- SLL (R328): Druot SLL shifts left by gb[4:0]. -/
  | sll (p : Nat) (f : BitVec 24)
  /-- SRL (R328): Druot SRL shifts right with zero fill. -/
  | srl (p : Nat) (f : BitVec 24)
  /-- SRA (R328): Druot SRA shifts right with sign fill. -/
  | sra (p : Nat) (f : BitVec 24)
  /-- SEQ (R328): Druot SEQ sets 1 when ga equals gb. -/
  | seq (p : Nat) (f : BitVec 24)
  /-- SNE (R328): Druot SNE sets 1 when ga differs from gb. -/
  | sne (p : Nat) (f : BitVec 24)
  /-- SLT (R328): Druot SLT sets 1 on signed less-than. -/
  | slt (p : Nat) (f : BitVec 24)
  /-- SLTU (R328): Druot SLTU sets 1 on unsigned less-than. -/
  | sltu (p : Nat) (f : BitVec 24)
  /-- MIN (R328): Druot MIN writes the signed minimum. -/
  | min (p : Nat) (f : BitVec 24)
  /-- MAX (R328): Druot MAX writes the signed maximum. -/
  | max (p : Nat) (f : BitVec 24)
  /-- MINU (R328): Druot MINU writes the unsigned minimum. -/
  | minu (p : Nat) (f : BitVec 24)
  /-- MAXU (R328): Druot MAXU writes the unsigned maximum. -/
  | maxu (p : Nat) (f : BitVec 24)
  /-- CLZ (R328): Druot CLZ counts leading zero bits. -/
  | clz (p : Nat) (f : BitVec 24)
  /-- POPC (R328): Druot POPC counts one bits. -/
  | popc (p : Nat) (f : BitVec 24)
  /-- ADDI (R328): Druot ADDI adds a sign-extended immediate. -/
  | addi (p : Nat) (f : BitVec 24)
  /-- ANDI (R328): Druot ANDI ands a zero-extended immediate. -/
  | andi (p : Nat) (f : BitVec 24)
  /-- ORI (R328): Druot ORI ors a zero-extended immediate. -/
  | ori (p : Nat) (f : BitVec 24)
  /-- XORI (R328): Druot XORI xors a zero-extended immediate. -/
  | xori (p : Nat) (f : BitVec 24)
  /-- SLLI (R328): Druot SLLI shifts left by an immediate. -/
  | slli (p : Nat) (f : BitVec 24)
  /-- SRLI (R328): Druot SRLI shifts right with zero fill by an immediate. -/
  | srli (p : Nat) (f : BitVec 24)
  /-- SRAI (R328): Druot SRAI shifts right with sign fill by an immediate. -/
  | srai (p : Nat) (f : BitVec 24)
  /-- SEQI (R328): Druot SEQI compares with an immediate for equality. -/
  | seqi (p : Nat) (f : BitVec 24)
  /-- SNEI (R328): Druot SNEI compares with an immediate for inequality. -/
  | snei (p : Nat) (f : BitVec 24)
  /-- SLTI (R328): Druot SLTI compares signed with an immediate. -/
  | slti (p : Nat) (f : BitVec 24)
  /-- SLTIU (R328): Druot SLTIU compares unsigned with an immediate. -/
  | sltiu (p : Nat) (f : BitVec 24)
  /-- LB (R331): Druot LB loads a sign-extended byte. -/
  | lb (p : Nat) (f : BitVec 24)
  /-- LH (R331): Druot LH loads a sign-extended half-word. -/
  | lh (p : Nat) (f : BitVec 24)
  /-- LW (R331): Druot LW loads a word. -/
  | lw (p : Nat) (f : BitVec 24)
  /-- LBU (R331): Druot LBU loads a zero-extended byte. -/
  | lbu (p : Nat) (f : BitVec 24)
  /-- LHU (R331): Druot LHU loads a zero-extended half-word. -/
  | lhu (p : Nat) (f : BitVec 24)
  /-- SB (R331): Druot SB stores a byte. -/
  | sb (p : Nat) (f : BitVec 24)
  /-- SH (R331): Druot SH stores a half-word. -/
  | sh (p : Nat) (f : BitVec 24)
  /-- SW (R331): Druot SW stores a word. -/
  | sw (p : Nat) (f : BitVec 24)
  /-- BEQZ (R330): Druot BEQZ branches when gt is zero. -/
  | beqz (p : Nat) (f : BitVec 24)
  /-- BNEZ (R330): Druot BNEZ branches when gt is not zero. -/
  | bnez (p : Nat) (f : BitVec 24)
  /-- JAL (R330): Druot JAL links and jumps by a word offset. -/
  | jal (p : Nat) (f : BitVec 24)
  /-- JALR (R330): Druot JALR links and jumps to a register target. -/
  | jalr (p : Nat) (f : BitVec 24)
  /-- LUI (R328): Druot LUI loads an upper immediate. -/
  | lui (p : Nat) (f : BitVec 24)
  /-- AUIPC (R328): Druot AUIPC adds an upper immediate to pc. -/
  | auipc (p : Nat) (f : BitVec 24)
  /-- MUL (R328): Druot MUL writes the low 32 bits of a product. -/
  | mul (p : Nat) (f : BitVec 24)
  /-- MULH (R328): Druot MULH writes the high bits of a signed product. -/
  | mulh (p : Nat) (f : BitVec 24)
  /-- MULHU (R328): Druot MULHU writes the high bits of an unsigned product. -/
  | mulhu (p : Nat) (f : BitVec 24)
  /-- DIV (R329): Druot DIV divides signed, toward zero. -/
  | div (p : Nat) (f : BitVec 24)
  /-- DIVU (R329): Druot DIVU divides unsigned. -/
  | divu (p : Nat) (f : BitVec 24)
  /-- REM (R329): Druot REM writes the signed remainder. -/
  | rem (p : Nat) (f : BitVec 24)
  /-- REMU (R329): Druot REMU writes the unsigned remainder. -/
  | remu (p : Nat) (f : BitVec 24)
  /-- FENCE (R344): Druot FENCE completes earlier accesses of the selected kinds before later ones start. -/
  | fence (p : Nat) (f : BitVec 24)
  /-- TEND (R333): Druot TEND waits for stores and doorbells and ends the task with a result. -/
  | tend (p : Nat) (f : BitVec 24)
  /-- TRAP (R347): Druot TRAP traps with cause SOFTWARE. -/
  | trap (p : Nat) (f : BitVec 24)
  /-- WFE (R334): Druot WFE waits for an event or a timeout. -/
  | wfe (p : Nat) (f : BitVec 24)
  /-- MFSR (R351): Druot MFSR reads a system register. -/
  | mfsr (p : Nat) (f : BitVec 24)
  /-- MTSR (R351): Druot MTSR writes a system register at M. -/
  | mtsr (p : Nat) (f : BitVec 24)
  /-- ERET (R350): Druot ERET returns from an M-level trap. -/
  | eret (p : Nat) (f : BitVec 24)
  /-- WFE_WAKE (R334): A waiting WFE returns on an event or timeout and writes its event bits. -/
  | wfeWake (p : Nat)
  /-- PORT_POP_RESUME (R323): A stalled pop completes when the port holds its width or the stream ends. -/
  | portPopResume (p : Nat)
  /-- PORT_PUSH_RESUME (R323): A stalled push completes when the output port is no longer FULL. -/
  | portPushResume (p : Nat)
  /-- DOORBELL_RING (R326): A write to a doorbell slot's RING checks the job and starts it, or is refused while BUSY. -/
  | doorbellRing (p page slot len : Nat)
  /-- BUDGET_GRANT (R346): An engine whose grant is spent takes a new grant from the take's remaining budget. -/
  | budgetGrant (p : Nat)
  /-- MERGE_ENTRY_DRAIN (R342): A merge-buffer entry drains 64 engine cycles after its last store. -/
  | mergeEntryDrain (p entry : Nat)
  /-- ICACHE_FILL (R319): An instruction cache line fill completes, with one refetch on a parity error. -/
  | icacheFill (p : Nat) (parityErrors : Nat)
  /-- ENGINE_FENCE (R377): An engine is fenced by a write to ENG_FENCED or a failure, stopping its task. -/
  | engineFence (e : Nat) (written : Bool)
  /-- ENGINE_UNFENCE (R353): A write to ENG_UNFENCE in Service mode clears an engine's fence. -/
  | engineUnfence (path : Path) (value : Word)
  /-- ENGINE_ACK_TIMEOUT (R377): An engine that does not acknowledge a dispatch or stop within 2 µs is fenced. -/
  | engineAckTimeout (e : Nat)
  /-- TAKE_DESCRIPTOR_FETCHED (R359): The take descriptor arrives and the descriptor checks are run. -/
  | takeDescriptorFetched (key : CmdKey) (fetched : Bool)
  /-- TAKE_PREPARE (R363): A take with its locks chooses a cluster, allocates shared SRAM and enters RUNNING, or waits. -/
  | takePrepare (ctx : Nat)
  /-- TAKE_CLUSTER_PLACED (R363): A waiting take is placed once a cluster has room and no older take blocks it. -/
  | takeClusterPlaced (ctx : Nat)
  /-- STAGE_PIECE_READ (R364): A 1 MiB piece of a KIND 0 input is read and decrypted into the stage ring. -/
  | stagePieceRead (ctx port : Nat)
  /-- TASK_DISPATCH (R371): An E-column grant dispatches one ready task of the instance to an engine. -/
  | taskDispatch (cluster n : Nat)
  /-- TASK_END (R369): A task ended by TEND becomes DONE, decrements successors or faults the take. -/
  | taskEnd (p : Nat)
  /-- TASK_DELAY_WAKE (R368): Delayed tasks whose WAKE has passed move to their ready lists. -/
  | taskDelayWake
  /-- OVERFLOW_DRAIN (R370): A chained overflow task enters its ready list once that list has room. -/
  | overflowDrain (cluster prio : Nat)
  /-- TAKE_RESTART (R378): When a fenced take's tasks have stopped it rewinds and returns to PREPARING, or faults at the limit. -/
  | takeRestart (ctx : Nat)
  /-- TAKE_FAULT_END (R376): A faulting take's tasks stop, its resources are released and it enters ENDED. -/
  | takeFaultEnd (ctx : Nat)
  /-- TAKE_COMMIT_END (R381): The commit's writes and report end and the Take Submit completes. -/
  | takeCommitEnd (ctx : Nat)
  /-- JOB_UNIT_ASSIGN (R387): A freed scanner or lane takes the waiting job whose owner holds fewest units. -/
  | jobUnitAssign (page : Nat)
  /-- SCAN (R396): Pattern OP 0x01 scans a source through an automaton and reports matches. -/
  | scan (p slot : Nat)
  /-- INSTALL (R392): Pattern OP 0x02 checks and installs an automaton image. -/
  | install (p slot : Nat)
  /-- UNINSTALL (R394): Pattern OP 0x03 frees a tenant set of the take. -/
  | uninstall (p slot : Nat)
  /-- LOOKUP (R403): Pattern OP 0x10 searches keys in the selected associative banks. -/
  | lookup (p slot : Nat)
  /-- ASSOC_WRITE (R405): Pattern OP 0x11 sets associative entries in place. -/
  | assocWrite (p slot : Nat)
  /-- INSERT (R405): Pattern OP 0x12 inserts entries into a positional bank, moving later entries down. -/
  | insert (p slot : Nat)
  /-- DELETE (R405): Pattern OP 0x13 clears the valid bit of named entries. -/
  | delete (p slot : Nat)
  /-- MOVER_STEP (R406): The mover copies one entry of an insert in one store cycle. -/
  | moverStep
  /-- SCAN_END (R397): A scan reaches its length, EOS or first match and writes its result area. -/
  | scanEnd (p slot : Nat)
  /-- COMPRESS (R412): Compression OP 0x01 compresses a source with inline verification. -/
  | compress (p slot : Nat)
  /-- DECOMPRESS (R414): Compression OP 0x02 decompresses a stream up to LIMIT. -/
  | decompress (p slot : Nat)
  /-- COMPRESS_BLOCK_VERIFIED (R412): The verifier's check of a compressed block ends and the block is written compressed or raw. -/
  | compressBlockVerified (p slot : Nat) (equal : Bool)
  /-- JOB_COMPLETE (R416): An accelerator job writes its result and its doorbell slot enters DONE. -/
  | jobComplete (p page slot : Nat)
  /-- BANK_OWNER_WRITE (R402): A PMX_BANK_OWNER write sets a bank's owner and invalidates its entries. -/
  | bankOwnerWrite (path : Path) (bank : Nat) (value : Word)
  /-- CMP_INJECT (R418): A write to CMP_INJECT in Service mode flips one bit of a lane's next verified block. -/
  | cmpInject (path : Path) (value : Word)
  /-- KEY_LOAD (R424): Key command LOAD unwraps a blob into a slot. -/
  | keyLoad (path : Path) (value : Word)
  /-- KEY_GENERATE (R423): Key command GENERATE fills a slot with a DRBG key. -/
  | keyGenerate (path : Path) (value : Word)
  /-- KEY_EXPORT (R423): Key command EXPORT wraps a slot into the blob window. -/
  | keyExport (path : Path) (value : Word)
  /-- KEY_ERASE (R423): Key command ERASE empties a slot. -/
  | keyErase (path : Path) (value : Word)
  /-- KEY_COMMAND_DONE (R423): A key command's slot and NVS copy are updated and BUSY clears. -/
  | keyCommandDone
  /-- KEY_AREA_COMPACT (R423): The key area is compacted into its other half once three-quarters full. -/
  | keyAreaCompact
  /-- BLOB_DATA_ACCESS (R446): An access to SEC_BLOB_DATA moves four blob-window bytes and advances WORD. -/
  | blobDataAccess (path : Path) (wr : Option Word)
  /-- NS_KEY_BIND (R446): A write to SEC_NS_KEY binds an XTS system slot to a namespace, or is refused. -/
  | nsKeyBind (path : Path) (value : Word)
  /-- DRBG_RESEED (R420): The DRBG reseeds every 65,536 requests or every second. -/
  | drbgReseed (healthFails : Nat) (ok : Bool)
  /-- ENTROPY_FAIL (R420): No successful reseed for 10 s sets ENTROPY_FAIL. -/
  | entropyFail
  /-- GCM_ENCRYPT (R434): AES job OP 0x01 encrypts with GCM and writes the tag. -/
  | gcmEncrypt (p slot : Nat)
  /-- GCM_DECRYPT (R435): AES job OP 0x02 checks the tag and then decrypts. -/
  | gcmDecrypt (p slot : Nat)
  /-- XTS_ENCRYPT (R434): AES job OP 0x03 encrypts data units with XTS. -/
  | xtsEncrypt (p slot : Nat)
  /-- XTS_DECRYPT (R434): AES job OP 0x04 decrypts data units with XTS. -/
  | xtsDecrypt (p slot : Nat)
  /-- AES_PIECE_END (R421): A 64 KiB piece of a processor AES job ends and waiting data-path work is served. -/
  | aesPieceEnd (p slot : Nat)
  /-- HASH (R437): Digest job OP 0x01 hashes a message. -/
  | hash (p slot : Nat)
  /-- HMAC (R437): Digest job OP 0x02 computes an HMAC. -/
  | hmac (p slot : Nat)
  /-- DIGEST_YIELD (R439): A digest job past its slice yields at a block boundary and its context is saved. -/
  | digestYield
  /-- DIGEST_RESUME (R440): A preempted digest job's context is restored and it continues. -/
  | digestResume
  /-- DIGEST_READ_BUSY (R438): A read of DIGEST while BUSY returns zeros and sets MISUSE. -/
  | digestReadBusy (p slot : Nat)
  /-- TAMPER_ALARM (R442): A tamper source trips; keys are erased, the SWK is zeroized and Safe is ordered. -/
  | tamperAlarm (cause : Nat)
  /-- LIFECYCLE_LOCK (R445): Two writes of 0x4C4B to LOCK_CODE within 1 ms in Service mode burn the lifecycle LOCKED. -/
  | lifecycleLock (path : Path) (value : Word)
  /-- DRAM_TRAINING (R449): A DRAM channel trains to ONLINE, retrying lower rates or failing. -/
  | dramTraining (ch fails : Nat) (rank1Ok : Bool)
  /-- ZQ_CALIBRATION (R450): Every 128 ms an online channel recalibrates ZQ. -/
  | zqCalibration (ch : Nat)
  /-- DQS_TRACKING (R450): Every 1 ms read DQS tracking runs. -/
  | dqsTracking (ch : Nat)
  /-- MR4_POLL (R447): Every 32 ms MR4 temperature is polled and the refresh rate set. -/
  | mr4Poll (ch rank : Nat) (hot : Bool)
  /-- REFRESH (R457): A rank receives REFab at its interval, or postponed refreshes are issued. -/
  | refresh (ch rank : Nat)
  /-- ROW_IDLE_PRECHARGE (R453): A bank idle for MEM_PAGE.IDLE cycles precharges its row. -/
  | rowIdlePrecharge (sub bank : Nat)
  /-- DRAM_COMMAND_ISSUE (R454): The subchannel scheduler issues the next read or write burst. -/
  | dramCommandIssue (sub : Nat)
  /-- RH_RESEED (R459): Every 1 ms each subchannel's row-hammer generator reseeds from the DRBG. -/
  | rhReseed (sub : Nat)
  /-- CA_PARITY_ALERT (R460): ALERT_n low on a subchannel stops, replays and resumes its commands. -/
  | caParityAlert (sub : Nat) (retrainOk : Bool)
  /-- RANK1_TRAINED (R463): Rank 1 finishes background training after Standby exit. -/
  | rank1Trained (ok : Bool)
  /-- FILL_BLOCK (R464): An unfilled 64 KiB block is filled with zeros and valid check bits. -/
  | fillBlock (ch : Nat)
  /-- PATROL_SCRUB (R470): The patrol scrubber reads the next DRAM block. -/
  | patrolScrub
  /-- SRAM_SCRUB (R470): Every valid SRAM word is read once per second. -/
  | sramScrub
  /-- HEAL (R471): MEM_HEAL_CTRL.GO reads a location and writes back a corrected codeword. -/
  | heal (path : Path) (value : Word)
  /-- FLIP_ARM (R472): MEM_FLIP_CTRL.ARM in Service mode arms a mask to flip the next write. -/
  | flipArm (path : Path) (value : Word)
  /-- MEM_RETRAIN (R474): MEM_CTRL.RETRAIN retrains a channel in Service mode. -/
  | memRetrain (path : Path) (value : Word)
  /-- LINK_ENABLE (R484): Setting CNT_CTRL.LINK_EN makes the device DOUBLE unless PRINCIPAL and starts training. -/
  | linkEnable (path : Path) (value : Word)
  /-- LINK_DISABLE (R484): Clearing LINK_EN sets role NONE and stops mirroring. -/
  | linkDisable (path : Path) (value : Word)
  /-- LINK_RETRAIN (R503): CNT_CTRL.RETRAIN takes the link down and retrains it. -/
  | linkRetrain (path : Path) (value : Word)
  /-- LINK_TRAINED (R482): Lanes lock and training frames pass, and HELLO is sent. -/
  | linkTrained (width : Nat)
  /-- LINK_TRAIN_RETRY (R483): Failed training or negotiation is retried after its interval. -/
  | linkTrainRetry
  /-- LINK_FRAME_RECEIVE (R478): A link frame is received, checked, acknowledged or NAKed. -/
  | linkFrameReceive (hdr : Word) (data : List Byte) (crc : Word)
  /-- LINK_FRAME_TIMEOUT (R478): No valid frame for 100 µs takes the link down. -/
  | linkFrameTimeout
  /-- HELLO (R482): The HELLO message carries version, role, epoch and nonce. -/
  | hello (w : List Byte)
  /-- CONFIRM (R482): The CONFIRM message proves the LINK key and session keys are formed and roles settle. -/
  | confirm (w : List Byte)
  /-- MIRROR_WRITE (R487): A WRITE message places mirrored write data in the double's buffer. -/
  | mirrorWrite (w : List Byte) (ofTake : Bool)
  /-- MAP_DELTA (R487): A MAP_DELTA message applies a logical change on the double. -/
  | mapDelta (w : List Byte)
  /-- TAKE_COMMIT (R487): A TAKE_COMMIT message releases the held output writes of a take. -/
  | takeCommit (w : List Byte)
  /-- SLATE_MESSAGE (R487): A SLATE message delivers an image that the double activates. -/
  | slateMessage (w : List Byte)
  /-- CONFIG (R488): A CONFIG message applies one configuration item on the double. -/
  | config (w : List Byte)
  /-- KEY_MESSAGE (R430): A KEY message loads or erases a key slot on the double. -/
  | keyMessage (w : List Byte)
  /-- ACK (R489): An ACK message acknowledges journaled messages to the principal. -/
  | ack (w : List Byte)
  /-- ACK_SEND (R489): The double sends an ACK at least every 2 µs while messages are unacknowledged. -/
  | ackSend
  /-- REFUSE (R491): A REFUSE message marks the write's extent dirty on the principal. -/
  | refuse (w : List Byte)
  /-- EPOCH_MESSAGE (R498): An EPOCH message with a higher epoch makes the receiver DOUBLE or, with HANDOVER, PRINCIPAL. -/
  | epochMessage (w : List Byte)
  /-- DIRTY (R501): A DIRTY message gives the double's dirty extents for the resync. -/
  | dirty (w : List Byte)
  /-- RESYNC_DATA (R501): A RESYNC_DATA message writes a copied unit on the double. -/
  | resyncData (w : List Byte)
  /-- RESYNC_DONE (R502): A RESYNC_DONE message ends a resync pass. -/
  | resyncDone (w : List Byte)
  /-- READ_REQ (R500): A READ_REQ message asks the double for data the principal cannot read. -/
  | readReq (w : List Byte)
  /-- READ_DATA (R500): A READ_DATA message supplies the requested data to the principal. -/
  | readData (w : List Byte)
  /-- ACK_TIMEOUT (R493): No ACK for ACK_TIMEOUT while the link is up separates the pair. -/
  | ackTimeout
  /-- RESYNC_EXTENT (R501): The principal copies one dirty extent under a shared lock. -/
  | resyncExtent (nsid ext : Nat)
  /-- RESYNC_PASS_TIMER (R502): Sixty seconds after a pass with refused extents the next resync pass starts. -/
  | resyncPassTimer
  /-- HEARTBEAT_PULSE (R495): Every 1 ms the device drives PAIR_HB low for 10 µs. -/
  | heartbeatPulse (overlap : Bool)
  /-- PARTNER_PULSE (R495): A partner pulse of at least 5 µs is seen on PAIR_HB. -/
  | partnerPulse (lowNs : Nat)
  /-- HEARTBEAT_LOST (R496): No partner pulse for CNT_HB.TIMEOUT sets HB_LOST and raises the pair alert. -/
  | heartbeatLost
  /-- PROMOTE (R499): Pair order PROMOTE stores the new epoch, makes the device PRINCIPAL and opens its data path. -/
  | promote (path : Path)
  /-- HANDOVER (R497): Pair order HANDOVER drains the principal and passes the role to the double. -/
  | handover (path : Path)
  /-- STEP_DOWN (R497): Pair order STEP_DOWN makes the device DOUBLE at the same epoch. -/
  | stepDown (path : Path)
  /-- ENEC (R505): CCC ENEC enables INT and HJ events. -/
  | enec (int hj : Bool)
  /-- DISEC (R505): CCC DISEC disables INT and HJ events. -/
  | disec (int hj : Bool)
  /-- RSTDAA (R505): CCC RSTDAA clears the dynamic address. -/
  | rstdaa
  /-- ENTDAA (R505): CCC ENTDAA assigns a dynamic address. -/
  | entdaa (da : Nat)
  /-- SETMWL (R505): CCC SETMWL stores the maximum write length. -/
  | setmwl (len : Nat)
  /-- SETMRL (R505): CCC SETMRL stores the maximum read length. -/
  | setmrl (len : Nat)
  /-- ENTHDR0 (R505): CCC ENTHDR0 enters HDR-DDR. -/
  | enthdr0
  /-- RSTACT (R505): CCC RSTACT sets the target reset action, with 0x01 resetting the I3C target logic. -/
  | rstact (action : Nat)
  /-- SETDASA (R505): CCC SETDASA assigns the dynamic address from the static address. -/
  | setdasa (stat da : Nat)
  /-- SETNEWDA (R505): CCC SETNEWDA changes the dynamic address. -/
  | setnewda (da : Nat)
  /-- GETMWL (R505): CCC GETMWL returns the stored write length. -/
  | getmwl
  /-- GETMRL (R505): CCC GETMRL returns the stored read length and IBI payload. -/
  | getmrl
  /-- GETPID (R505): CCC GETPID returns the provisional ID. -/
  | getpid
  /-- GETBCR (R505): CCC GETBCR returns the bus characteristics register. -/
  | getbcr
  /-- GETDCR (R505): CCC GETDCR returns the device characteristics register. -/
  | getdcr
  /-- GETSTATUS (R505): CCC GETSTATUS returns pending alerts and protocol error. -/
  | getstatus
  /-- GETMXDS (R505): CCC GETMXDS returns the data speed limits. -/
  | getmxds
  /-- GETCAPS (R505): CCC GETCAPS returns the HDR capabilities. -/
  | getcaps
  /-- HOT_JOIN (R506): A target without a dynamic address raises a hot-join at its interval. -/
  | hotJoin
  /-- I3C_WRITE (R508): Request frame OP WRITE writes consecutive registers. -/
  | i3cWrite (tag count addr : Nat) (data : List Word) (crc : Byte)
  /-- I3C_READ (R508): Request frame OP READ reads consecutive registers. -/
  | i3cRead (tag count addr : Nat) (crc : Byte)
  /-- I3C_WRITE_SAME (R508): Request frame OP WRITE_SAME writes one register repeatedly. -/
  | i3cWriteSame (tag count addr : Nat) (data : List Word) (crc : Byte)
  /-- I3C_READ_SAME (R508): Request frame OP READ_SAME reads one register repeatedly. -/
  | i3cReadSame (tag count addr : Nat) (crc : Byte)
  /-- I3C_RESPONSE_READ (R509): A private read returns the held response frame or NO_REQUEST. -/
  | i3cResponseRead
  /-- IBI_RAISE (R533): An enabled alert bit raises an in-band interrupt, retried every 1 ms until accepted. -/
  | ibiRaise (accepted : Bool)
  /-- LB_DISCOVERY (R511): The local-bus controller discovers and matches partners. -/
  | lbDiscovery (found : List LbFound)
  /-- LB_RESCAN (R511): MGT_LB_CTRL.RESCAN reruns local-bus discovery. -/
  | lbRescan (path : Path)
  /-- LB_HOT_JOIN (R512): A partner hot-join is accepted or ignored when the table is full. -/
  | lbHotJoin (pid : Nat)
  /-- LB_POLL (R513): A present partner is read at its period and compared with its limit. -/
  | lbPoll (entry : Nat) (acked : Bool) (reading : Int)
  /-- LB_REQUIRED_CHECK (R512): A REQUIRED partner absent 1 s after discovery raises LB_CHANGE. -/
  | lbRequiredCheck (desc : Nat)
  /-- TF_IDENTIFY (R514): Task-file OP IDENTIFY returns an Identify structure. -/
  | tfIdentify (path : Path)
  /-- TF_READ (R515): Task-file OP READ reads blocks into the buffer. -/
  | tfRead (path : Path)
  /-- TF_WRITE (R515): Task-file OP WRITE writes buffer data to blocks. -/
  | tfWrite (path : Path)
  /-- TF_WRITE_ZEROES (R514): Task-file OP WRITE_ZEROES zeroes blocks. -/
  | tfWriteZeroes (path : Path)
  /-- TF_FLUSH (R514): Task-file OP FLUSH flushes a namespace. -/
  | tfFlush (path : Path)
  /-- TF_GET_LOG (R514): Task-file OP GET_LOG returns a log page. -/
  | tfGetLog (path : Path)
  /-- TF_ABORT (R516): TF_CTRL.ABORT catches a task-file command before its media access. -/
  | tfAbort (path : Path)
  /-- TF_DATA_ACCESS (R516): An access to TF_DATA moves four buffer bytes, counts received bytes or sets OVERREAD. -/
  | tfDataAccess (path : Path) (wr : Option Word)
  /-- TF_COMMAND_DONE (R516): A task-file command reaches DONE and raises TF_DONE. -/
  | tfCommandDone
  /-- NRESET_ASSERT (R569): NRESET accepted fences the path, dumps, parks heads and holds the logic die in reset. -/
  | nresetAssert (heldNs : Nat)
  /-- NRESET_RELEASE (R569): The logic die restarts once dump and unload have ended and NRESET is high. -/
  | nresetRelease
  /-- WAKE_N (R517): WAKE_N accepted places a wake order to Ready. -/
  | wakeN (heldNs : Nat)
  /-- PWRDIS_ASSERT (R623): PWRDIS high places an orderly power-down to Dormant. -/
  | pwrdisAssert (heldNs : Nat)
  /-- PWRDIS_RELEASE (R518): PWRDIS release starts the device as from Dormant to Ready. -/
  | pwrdisRelease (heldNs : Nat)
  /-- MODE_ORDER_DORMANT (R520): PWR_MODE_CMD target 0 orders Dormant. -/
  | modeOrderDormant (path : Path)
  /-- MODE_ORDER_STANDBY (R520): PWR_MODE_CMD target 1 orders Standby. -/
  | modeOrderStandby (path : Path)
  /-- MODE_ORDER_DOZE (R520): PWR_MODE_CMD target 2 orders Doze. -/
  | modeOrderDoze (path : Path)
  /-- MODE_ORDER_READY (R520): PWR_MODE_CMD target 3 or 4 orders Ready. -/
  | modeOrderReady (path : Path)
  /-- MODE_ORDER_READ_ONLY (R520): PWR_MODE_CMD target 5 orders Read-Only. -/
  | modeOrderReadOnly (path : Path)
  /-- MODE_ORDER_SERVICE (R520): PWR_MODE_CMD target 6 orders Service. -/
  | modeOrderService (path : Path)
  /-- MODE_ORDER_SAFE (R520): PWR_MODE_CMD target 7 orders Safe. -/
  | modeOrderSafe (path : Path)
  /-- MODE_ORDER_LEAVE (R520): PWR_MODE_CMD target 8 leaves Read-Only or Service for Ready. -/
  | modeOrderLeave (path : Path)
  /-- SEQUENCER_WINDOW_CLOSE (R527): At the end of a window the sequencer ranks contention sets and applies winners. -/
  | sequencerWindowClose
  /-- MODE_DRAIN_TIMEOUT (R520): One second after a mode entry began, commands and takes still left are ended. -/
  | modeDrainTimeout
  /-- MODE_TRANSITION_DONE (R520): A mode transition's entry rules are met and PWR_MODE shows the new mode. -/
  | modeTransitionDone
  /-- STANDBY_ENTRY_DONE (R462): Standby entry conditions hold, rank 1 is shed and the logic die powers off. -/
  | standbyEntryDone
  /-- IDLE_TO_READY (R520): Ten microseconds of idleness move Active to Ready. -/
  | idleToReady
  /-- IDLE_POLICY (R524): After PWR_IDLE_ENTRY ms idle the device picks and starts an idle transition. -/
  | idlePolicy
  /-- NVS_UNLOCK (R545): A write to NVS_UNLOCK advances the unlock sequence or sets UNLOCK_ERR. -/
  | nvsUnlock (path : Path) (value : Word)
  /-- NVS_ARMED_EXPIRE (R545): ARMED clears 1 ms after it was set. -/
  | nvsArmedExpire
  /-- NVS_READ (R544): NVS command READ reads one unit. -/
  | nvsRead (path : Path)
  /-- NVS_PROGRAM (R548): NVS command PROGRAM programs one unit. -/
  | nvsProgram (path : Path)
  /-- NVS_ERASE (R550): NVS command ERASE erases a logical sector after programming its flag unit. -/
  | nvsErase (path : Path)
  /-- NVS_SUSPEND (R549): NVS command SUSPEND suspends the running operation after its minimum run. -/
  | nvsSuspend (path : Path)
  /-- NVS_RESUME (R549): NVS command RESUME resumes the suspended operation. -/
  | nvsResume (path : Path)
  /-- NVS_BLANK_CHECK (R545): NVS command BLANK_CHECK reports whether a sector is erased. -/
  | nvsBlankCheck (path : Path)
  /-- NVS_OPERATION_DONE (R548): A program or erase ends with pass or failure, replacing a failed slot. -/
  | nvsOperationDone (pass : Bool) (pulses : Nat)
  /-- NVS_AUTO_RESUME (R549): A suspended NVS operation resumes 10 ms later if no read waits. -/
  | nvsAutoResume
  /-- GAP_MOVE (R540): After every 64th counted erase the gap moves by one slot. -/
  | gapMove
  /-- UPD_DATA (R558): A write to UPD_DATA stages four bytes and stores each completed 4 KiB chunk. -/
  | updData (path : Path) (value : Word)
  /-- UPD_COMMIT (R558): UPD_CTRL.CMD COMMIT commits the staged image over the register path. -/
  | updCommit (path : Path) (value : Word)
  /-- UPD_DISCARD (R558): UPD_CTRL.CMD DISCARD ends staging ownership and invalidates the staging slot. -/
  | updDiscard (path : Path) (value : Word)
  /-- SETTINGS_SAVE (R563): UPD_CTRL.CMD SETTINGS_SAVE checks and writes a staged settings copy. -/
  | settingsSave (path : Path) (value : Word)
  /-- SET_DATA_ACCESS (R566): An access to UPD_SET_DATA moves four settings bytes and advances WORD. -/
  | setDataAccess (path : Path) (wr : Option Word)
  /-- STAGING_OWNER_TIMEOUT (R558): Ten minutes without staging release the staging owner. -/
  | stagingOwnerTimeout
  /-- FIRMWARE_ACTIVATION (R559): An immediate activation holds fetching, resets the core pair and attaches the new firmware. -/
  | firmwareActivation
  /-- TRIAL_CONFIRM (R560): Sixty seconds of open data path without a fault clear TRIAL. -/
  | trialConfirm
  /-- SETTINGS_UPDATE (R564): A configuration change writes a new settings copy with instance and bank items. -/
  | settingsUpdate
  /-- COLD_RESET (R572): V3P3_AON rises and the device runs the cold start sequence. -/
  | coldReset (lfPresent : Bool)
  /-- LOGIC_START (R572): The logic die powers up and runs the start from step 4. -/
  | logicStart (spliceTrains : Bool) (bad : Nat)
  /-- STANDBY_EXIT (R574): A wake from Standby restores the logic die from rank 0. -/
  | standbyExit (rank0Ok : Bool) (bad : Nat)
  /-- POWER_RETURN_RESTART (R595): With the dump durable and V12 up for 100 ms the logic die restarts as at a warm reset. -/
  | powerReturnRestart
  /-- V12_RISE (R594): V12 above the rising threshold turns the isolation switch on and ramps VHOLD. -/
  | v12Rise (mv : Nat)
  /-- HOLD_SWITCH_OFF (R594): V12 falling below VHOLD turns the isolation switch off. -/
  | holdSwitchOff (mv : Nat)
  /-- VHOLD_UNDERVOLTAGE (R596): VHOLD reaching its undervoltage threshold releases EN_CORE and EN_RET. -/
  | vholdUndervoltage (mv : Nat)
  /-- UNLOAD_TIMEOUT (R569): An actuator whose heads are not on the ramp 0.5 s after the reset unload started is retracted. -/
  | unloadTimeout (act : Nat)
  /-- ALERT_N_RISE (R460): ALERT_n of a DRAM subchannel rises and the controller precharges, replays the buffered commands and resumes. -/
  | alertNRise (sub : Nat)
  /-- HEATER_FAULT (R314): A drive-die heater fault turns that actuator's heater off until its next LOAD. -/
  | heaterFault (act : Nat)
  /-- SLOT_BIT_0 (R267): The stream reaches a waiting slot's bit 0 and the write gate rises, moving WAIT_SLOT to WRITING. -/
  | slotBit0 (act : Nat)
  /-- CAPTURE_WINDOW_OPEN (R262): The stream reaches P − 8 of the slot being read and the read moves from WAIT to CAPTURE. -/
  | captureWindowOpen (act : Nat)
  /-- VF_ENABLE_SET (R571): Setting SR-IOV VF Enable or raising NumVFs makes virtual functions exist, and instances recorded ENABLED enter SCRUBBING. -/
  | vfEnableSet (num : Nat)
  /-- PF_FUNCTION_LEVEL_RESET (R82): A Function Level Reset of the physical function resets the physical function's NVMe controller. -/
  | pfFunctionLevelReset
  /-- HDR_EXIT_PATTERN (R504): The I3C HDR exit pattern returns the management target from HDR to SDR. -/
  | hdrExitPattern
deriving DecidableEq, Repr

end Sys2Proof
end

