-- ==== Sys2Proof/Decode.lean ====
section
/-! DEFINITION. Decoding. The rows of the opcode table carry no bits, so no word spells a command by the table's
numbering. The processors of the block have an instruction word of their own (chapter 09, Table 09.7): what a
word makes a processor issue, and the word of an issue, stand here. -/

namespace Sys2Proof

/-- The command that a word spells by the bits of the opcode table: the table gives no row any bits, so no
word spells one. -/
def decodeTableWord (nbits w : Nat) : Option Instr :=
  let _ := (nbits, w)
  none

/-- What the Druot word `w` makes processor `p` issue: bits 31 to 24 are class and minor, the rest are the fields
(Table 09.7). A class and minor that the table does not list spell nothing (R328). -/
def decodeDruot (p : Nat) (w : BitVec 32) : Option Instr :=
  let f := w.extractLsb' 0 24
  match (w.extractLsb' 24 8).toNat with
  | 0x00 => some (.add p f)
  | 0x01 => some (.sub p f)
  | 0x02 => some (.and p f)
  | 0x03 => some (.or p f)
  | 0x04 => some (.xor p f)
  | 0x05 => some (.sll p f)
  | 0x06 => some (.srl p f)
  | 0x07 => some (.sra p f)
  | 0x08 => some (.seq p f)
  | 0x09 => some (.sne p f)
  | 0x0A => some (.slt p f)
  | 0x0B => some (.sltu p f)
  | 0x0C => some (.min p f)
  | 0x0D => some (.max p f)
  | 0x0E => some (.minu p f)
  | 0x0F => some (.maxu p f)
  | 0x10 => some (.clz p f)
  | 0x11 => some (.popc p f)
  | 0x20 => some (.addi p f)
  | 0x22 => some (.andi p f)
  | 0x23 => some (.ori p f)
  | 0x24 => some (.xori p f)
  | 0x25 => some (.slli p f)
  | 0x26 => some (.srli p f)
  | 0x27 => some (.srai p f)
  | 0x28 => some (.seqi p f)
  | 0x29 => some (.snei p f)
  | 0x2A => some (.slti p f)
  | 0x2B => some (.sltiu p f)
  | 0x40 => some (.lb p f)
  | 0x41 => some (.lh p f)
  | 0x42 => some (.lw p f)
  | 0x44 => some (.lbu p f)
  | 0x45 => some (.lhu p f)
  | 0x60 => some (.sb p f)
  | 0x61 => some (.sh p f)
  | 0x62 => some (.sw p f)
  | 0x80 => some (.beqz p f)
  | 0x81 => some (.bnez p f)
  | 0x82 => some (.jal p f)
  | 0xA0 => some (.jalr p f)
  | 0xA1 => some (.lui p f)
  | 0xA2 => some (.auipc p f)
  | 0xC0 => some (.mul p f)
  | 0xC1 => some (.mulh p f)
  | 0xC2 => some (.mulhu p f)
  | 0xC4 => some (.div p f)
  | 0xC5 => some (.divu p f)
  | 0xC6 => some (.rem p f)
  | 0xC7 => some (.remu p f)
  | 0xE0 => some (.fence p f)
  | 0xE1 => some (.tend p f)
  | 0xE2 => some (.trap p f)
  | 0xE3 => some (.wfe p f)
  | 0xE8 => some (.mfsr p f)
  | 0xE9 => some (.mtsr p f)
  | 0xEA => some (.eret p f)
  | _ => none

/-- Class and minor of an issue, as the top byte of its word, with its fields (Table 09.7); none for a command
that is no issue of a processor. -/
def druotParts (i : Instr) : Option (BitVec 8 × BitVec 24) := match i with
  | .add _ f => some (0x00, f)
  | .sub _ f => some (0x01, f)
  | .and _ f => some (0x02, f)
  | .or _ f => some (0x03, f)
  | .xor _ f => some (0x04, f)
  | .sll _ f => some (0x05, f)
  | .srl _ f => some (0x06, f)
  | .sra _ f => some (0x07, f)
  | .seq _ f => some (0x08, f)
  | .sne _ f => some (0x09, f)
  | .slt _ f => some (0x0A, f)
  | .sltu _ f => some (0x0B, f)
  | .min _ f => some (0x0C, f)
  | .max _ f => some (0x0D, f)
  | .minu _ f => some (0x0E, f)
  | .maxu _ f => some (0x0F, f)
  | .clz _ f => some (0x10, f)
  | .popc _ f => some (0x11, f)
  | .addi _ f => some (0x20, f)
  | .andi _ f => some (0x22, f)
  | .ori _ f => some (0x23, f)
  | .xori _ f => some (0x24, f)
  | .slli _ f => some (0x25, f)
  | .srli _ f => some (0x26, f)
  | .srai _ f => some (0x27, f)
  | .seqi _ f => some (0x28, f)
  | .snei _ f => some (0x29, f)
  | .slti _ f => some (0x2A, f)
  | .sltiu _ f => some (0x2B, f)
  | .lb _ f => some (0x40, f)
  | .lh _ f => some (0x41, f)
  | .lw _ f => some (0x42, f)
  | .lbu _ f => some (0x44, f)
  | .lhu _ f => some (0x45, f)
  | .sb _ f => some (0x60, f)
  | .sh _ f => some (0x61, f)
  | .sw _ f => some (0x62, f)
  | .beqz _ f => some (0x80, f)
  | .bnez _ f => some (0x81, f)
  | .jal _ f => some (0x82, f)
  | .jalr _ f => some (0xA0, f)
  | .lui _ f => some (0xA1, f)
  | .auipc _ f => some (0xA2, f)
  | .mul _ f => some (0xC0, f)
  | .mulh _ f => some (0xC1, f)
  | .mulhu _ f => some (0xC2, f)
  | .div _ f => some (0xC4, f)
  | .divu _ f => some (0xC5, f)
  | .rem _ f => some (0xC6, f)
  | .remu _ f => some (0xC7, f)
  | .fence _ f => some (0xE0, f)
  | .tend _ f => some (0xE1, f)
  | .trap _ f => some (0xE2, f)
  | .wfe _ f => some (0xE3, f)
  | .mfsr _ f => some (0xE8, f)
  | .mtsr _ f => some (0xE9, f)
  | .eret _ f => some (0xEA, f)
  | _ => none

/-- The Druot word of an issue. -/
def encodeDruot (i : Instr) : Option (BitVec 32) := match druotParts i with
  | some (op, f) => some (op ++ f)
  | none => none

end Sys2Proof
end

