-- ==== Sys2Proof/Machine/Operands.lean ====
section
/-! DEFINITION. Operand forms: little-endian fields of images, descriptors and records (R5), slices
of byte lists, and the check codes CRC-32C (R63) and CRC-8 (R508). -/

namespace Sys2Proof.Machine

/-- The number that a list of bytes spells, least significant byte first (R5). -/
def leNat : List Byte → Nat
  | [] => 0
  | b :: t => b.toNat + 256 * leNat t

/-- The `n` low bytes of a number, least significant first (R5). -/
def leBytes : Nat → Nat → List Byte
  | 0, _ => []
  | n + 1, v => BitVec.ofNat 8 v :: leBytes n (v / 256)

/-- The number that a list of bytes spells, most significant byte first. -/
def beNat (l : List Byte) : Nat := l.foldl (fun a b => a * 256 + b.toNat) 0

/-- The `n` low bytes of a number, most significant first. -/
def beBytes (n v : Nat) : List Byte := (leBytes n v).reverse

/-- `n` bytes of zero. -/
def zeros (n : Nat) : List Byte := List.replicate n 0

/-- Bytes `off` to `off + n - 1` of a list. -/
def slice (l : List Byte) (off n : Nat) : List Byte := (l.drop off).take n

/-- The `n`-byte little-endian field at an offset. -/
def field (l : List Byte) (off n : Nat) : Nat := leNat (slice l off n)

/-- A list of exactly `n` bytes: cut off, or filled with zeros. -/
def fit (n : Nat) (l : List Byte) : List Byte := l.take n ++ zeros (n - l.length)

/-- Every byte of a slice is zero. -/
def allZero (l : List Byte) (off n : Nat) : Bool := (slice l off n).all (· == 0)

/-- A list with the bytes from `off` on replaced. -/
def patch (l : List Byte) (off : Nat) (new : List Byte) : List Byte :=
  l.take off ++ new ++ l.drop (off + new.length)

/-- Bits `lo` to `lo + w - 1` of a number. -/
def bits (v lo w : Nat) : Nat := v / 2 ^ lo % 2 ^ w

/-- One bit of a number. -/
def bit (v i : Nat) : Bool := v.testBit i

/-- The signed value of the low `w` bits of a number. -/
def signedOf (w v : Nat) : Int :=
  if v % 2 ^ w < 2 ^ (w - 1) then (v % 2 ^ w : Nat) else (v % 2 ^ w : Nat) - 2 ^ w

/-- The low `w` bits of an integer in two's complement. -/
def unsignedOf (w : Nat) (v : Int) : Nat := (v % 2 ^ w).toNat

/-- An integer clamped to a range. -/
def clampInt (lo hi v : Int) : Int := max lo (min hi v)

/-- Rounds up to a multiple. -/
def roundUp (v m : Nat) : Nat := (v + m - 1) / m * m

/-- A quotient rounded up. -/
def ceilDiv (a b : Nat) : Nat := (a + b - 1) / b

/-- One bit step of a reflected 32-bit CRC. -/
def crcStep (poly : BitVec 32) (c : BitVec 32) : BitVec 32 :=
  if c.getLsbD 0 then (c >>> 1) ^^^ poly else c >>> 1

/-- A reflected CRC-32 with all-ones start and final inversion. -/
def crc32With (poly : BitVec 32) (l : List Byte) : Nat :=
  let c := l.foldl (fun (c : BitVec 32) b =>
    let c := c ^^^ b.setWidth 32
    crcStep poly (crcStep poly (crcStep poly (crcStep poly
      (crcStep poly (crcStep poly (crcStep poly (crcStep poly c)))))))) (0xFFFFFFFF : BitVec 32)
  (c ^^^ 0xFFFFFFFF).toNat

/-- CRC-32C (R63). -/
def crc32c (l : List Byte) : Nat := crc32With 0x82F63B78 l

/-- The CRC-32 of gzip (RFC 1952), which Table 11.9 names. -/
def crc32 (l : List Byte) : Nat := crc32With 0xEDB88320 l

/-- One bit step of CRC-8. -/
def crc8Step (c : Byte) : Byte := if c.getLsbD 7 then (c <<< 1) ^^^ 0x07 else c <<< 1

/-- CRC-8 with polynomial 0x07 and start 0 (R508). -/
def crc8 (l : List Byte) : Byte :=
  l.foldl (fun c b => crc8Step (crc8Step (crc8Step (crc8Step (crc8Step (crc8Step (crc8Step
    (crc8Step (c ^^^ b)))))))) ) 0

end Sys2Proof.Machine
end

