-- ==== Sys2Proof/Machine/Crypto.lean ====
section
/-! DEFINITION. The algorithms that Table 12.1 names by their standards: SHA-256 and SHA-384
(FIPS 180-4), SHA3-256 (FIPS 202), HMAC (RFC 2104), AES-256 with GCM (SP 800-38D), XTS (IEEE 1619)
and key wrap (RFC 3394). PRESUMED: the spec names the standards and does not restate them (log
entry 7). -/

namespace Sys2Proof.Machine

/-! ## SHA-256 -/

/-- Round constants of SHA-256. -/
def sha256K : List (BitVec 32) :=
  [0x428A2F98, 0x71374491, 0xB5C0FBCF, 0xE9B5DBA5, 0x3956C25B, 0x59F111F1,
   0x923F82A4, 0xAB1C5ED5, 0xD807AA98, 0x12835B01, 0x243185BE, 0x550C7DC3,
   0x72BE5D74, 0x80DEB1FE, 0x9BDC06A7, 0xC19BF174, 0xE49B69C1, 0xEFBE4786,
   0xFC19DC6, 0x240CA1CC] ++
  [0x2DE92C6F, 0x4A7484AA, 0x5CB0A9DC, 0x76F988DA, 0x983E5152, 0xA831C66D,
   0xB00327C8, 0xBF597FC7, 0xC6E00BF3, 0xD5A79147, 0x6CA6351, 0x14292967,
   0x27B70A85, 0x2E1B2138, 0x4D2C6DFC, 0x53380D13, 0x650A7354, 0x766A0ABB,
   0x81C2C92E, 0x92722C85] ++
  [0xA2BFE8A1, 0xA81A664B, 0xC24B8B70, 0xC76C51A3, 0xD192E819, 0xD6990624,
   0xF40E3585, 0x106AA070, 0x19A4C116, 0x1E376C08, 0x2748774C, 0x34B0BCB5,
   0x391C0CB3, 0x4ED8AA4A, 0x5B9CCA4F, 0x682E6FF3, 0x748F82EE, 0x78A5636F,
   0x84C87814, 0x8CC70208] ++
  [0x90BEFFFA, 0xA4506CEB, 0xBEF9A3F7, 0xC67178F2]

/-- Initial hash value of SHA-256. -/
def sha256Init : List (BitVec 32) :=
  [0x6A09E667, 0xBB67AE85, 0x3C6EF372, 0xA54FF53A,
   0x510E527F, 0x9B05688C, 0x1F83D9AB, 0x5BE0CD19]

/-- Message padding with a 64-byte or 128-byte block and a length field of `lb` bytes. -/
def shaPad (block lb : Nat) (m : List Byte) : List Byte :=
  let z := (2 * block - 1 - lb - m.length % block) % block
  m ++ [0x80] ++ zeros z ++ beBytes lb (8 * m.length)

/-- The first `n` blocks of a list. -/
def chunks (size : Nat) : Nat → List Byte → List (List Byte)
  | 0, _ => []
  | n + 1, l => l.take size :: chunks size n (l.drop size)

/-- Big-endian words of a block. -/
def beWords (w n : Nat) (l : List Byte) : List (BitVec w) :=
  (chunks (w / 8) n l).map fun c => BitVec.ofNat w (beNat c)

def sha256Schedule : Nat → List (BitVec 32) → List (BitVec 32)
  | 0, w => w
  | n + 1, w =>
    let t := w.length
    let a := w.getD (t - 15) 0
    let b := w.getD (t - 2) 0
    let s0 := a.rotateRight 7 ^^^ a.rotateRight 18 ^^^ (a >>> 3)
    let s1 := b.rotateRight 17 ^^^ b.rotateRight 19 ^^^ (b >>> 10)
    sha256Schedule n (w ++ [s1 + w.getD (t - 7) 0 + s0 + w.getD (t - 16) 0])

/-- One compression round over the eight working variables. -/
def sha256Round (v : List (BitVec 32)) (kw : BitVec 32) : List (BitVec 32) :=
  match v with
  | [a, b, c, d, e, f, g, h] =>
    let t1 := h + (e.rotateRight 6 ^^^ e.rotateRight 11 ^^^ e.rotateRight 25)
      + ((e &&& f) ^^^ (~~~e &&& g)) + kw
    let t2 := (a.rotateRight 2 ^^^ a.rotateRight 13 ^^^ a.rotateRight 22)
      + ((a &&& b) ^^^ (a &&& c) ^^^ (b &&& c))
    [t1 + t2, a, b, c, d + t1, e, f, g]
  | v => v

def sha256Block (h : List (BitVec 32)) (b : List Byte) : List (BitVec 32) :=
  let w := sha256Schedule 48 (beWords 32 16 b)
  List.zipWith (· + ·) h ((List.zipWith (· + ·) sha256K w).foldl sha256Round h)

/-- SHA-256. -/
def sha256 (m : List Byte) : List Byte :=
  let p := shaPad 64 8 m
  (((chunks 64 (p.length / 64) p).foldl sha256Block sha256Init).map fun x => beBytes 4 x.toNat).flatten

/-! ## SHA-384 -/

/-- Round constants of SHA-384. -/
def sha512K : List (BitVec 64) :=
  [0x428A2F98D728AE22, 0x7137449123EF65CD, 0xB5C0FBCFEC4D3B2F, 0xE9B5DBA58189DBBC,
   0x3956C25BF348B538, 0x59F111F1B605D019, 0x923F82A4AF194F9B, 0xAB1C5ED5DA6D8118,
   0xD807AA98A3030242, 0x12835B0145706FBE, 0x243185BE4EE4B28C, 0x550C7DC3D5FFB4E2,
   0x72BE5D74F27B896F, 0x80DEB1FE3B1696B1, 0x9BDC06A725C71235, 0xC19BF174CF692694,
   0xE49B69C19EF14AD2, 0xEFBE4786384F25E3, 0xFC19DC68B8CD5B5, 0x240CA1CC77AC9C65] ++
  [0x2DE92C6F592B0275, 0x4A7484AA6EA6E483, 0x5CB0A9DCBD41FBD4, 0x76F988DA831153B5,
   0x983E5152EE66DFAB, 0xA831C66D2DB43210, 0xB00327C898FB213F, 0xBF597FC7BEEF0EE4,
   0xC6E00BF33DA88FC2, 0xD5A79147930AA725, 0x6CA6351E003826F, 0x142929670A0E6E70,
   0x27B70A8546D22FFC, 0x2E1B21385C26C926, 0x4D2C6DFC5AC42AED, 0x53380D139D95B3DF,
   0x650A73548BAF63DE, 0x766A0ABB3C77B2A8, 0x81C2C92E47EDAEE6, 0x92722C851482353B] ++
  [0xA2BFE8A14CF10364, 0xA81A664BBC423001, 0xC24B8B70D0F89791, 0xC76C51A30654BE30,
   0xD192E819D6EF5218, 0xD69906245565A910, 0xF40E35855771202A, 0x106AA07032BBD1B8,
   0x19A4C116B8D2D0C8, 0x1E376C085141AB53, 0x2748774CDF8EEB99, 0x34B0BCB5E19B48A8,
   0x391C0CB3C5C95A63, 0x4ED8AA4AE3418ACB, 0x5B9CCA4F7763E373, 0x682E6FF3D6B2B8A3,
   0x748F82EE5DEFB2FC, 0x78A5636F43172F60, 0x84C87814A1F0AB72, 0x8CC702081A6439EC] ++
  [0x90BEFFFA23631E28, 0xA4506CEBDE82BDE9, 0xBEF9A3F7B2C67915, 0xC67178F2E372532B,
   0xCA273ECEEA26619C, 0xD186B8C721C0C207, 0xEADA7DD6CDE0EB1E, 0xF57D4F7FEE6ED178,
   0x6F067AA72176FBA, 0xA637DC5A2C898A6, 0x113F9804BEF90DAE, 0x1B710B35131C471B,
   0x28DB77F523047D84, 0x32CAAB7B40C72493, 0x3C9EBE0A15C9BEBC, 0x431D67C49C100D4C,
   0x4CC5D4BECB3E42B6, 0x597F299CFC657E2A, 0x5FCB6FAB3AD6FAEC, 0x6C44198C4A475817]

/-- Initial hash value of SHA-384. -/
def sha384Init : List (BitVec 64) :=
  [0xCBBB9D5DC1059ED8, 0x629A292A367CD507, 0x9159015A3070DD17, 0x152FECD8F70E5939,
   0x67332667FFC00B31, 0x8EB44A8768581511, 0xDB0C2E0D64F98FA7, 0x47B5481DBEFA4FA4]

def sha512Schedule : Nat → List (BitVec 64) → List (BitVec 64)
  | 0, w => w
  | n + 1, w =>
    let t := w.length
    let a := w.getD (t - 15) 0
    let b := w.getD (t - 2) 0
    let s0 := a.rotateRight 1 ^^^ a.rotateRight 8 ^^^ (a >>> 7)
    let s1 := b.rotateRight 19 ^^^ b.rotateRight 61 ^^^ (b >>> 6)
    sha512Schedule n (w ++ [s1 + w.getD (t - 7) 0 + s0 + w.getD (t - 16) 0])

def sha512Round (v : List (BitVec 64)) (kw : BitVec 64) : List (BitVec 64) :=
  match v with
  | [a, b, c, d, e, f, g, h] =>
    let t1 := h + (e.rotateRight 14 ^^^ e.rotateRight 18 ^^^ e.rotateRight 41)
      + ((e &&& f) ^^^ (~~~e &&& g)) + kw
    let t2 := (a.rotateRight 28 ^^^ a.rotateRight 34 ^^^ a.rotateRight 39)
      + ((a &&& b) ^^^ (a &&& c) ^^^ (b &&& c))
    [t1 + t2, a, b, c, d + t1, e, f, g]
  | v => v

def sha512Block (h : List (BitVec 64)) (b : List Byte) : List (BitVec 64) :=
  let w := sha512Schedule 64 (beWords 64 16 b)
  List.zipWith (· + ·) h ((List.zipWith (· + ·) sha512K w).foldl sha512Round h)

/-- SHA-384. -/
def sha384 (m : List Byte) : List Byte :=
  let p := shaPad 128 16 m
  ((((chunks 128 (p.length / 128) p).foldl sha512Block sha384Init).map fun x =>
    beBytes 8 x.toNat).flatten).take 48

/-! ## SHA3-256 -/

/-- Round constants of Keccak-f[1600]. -/
def keccakRc : List (BitVec 64) :=
  [0x1, 0x8082, 0x800000000000808A, 0x8000000080008000,
   0x808B, 0x80000001, 0x8000000080008081, 0x8000000000008009,
   0x8A, 0x88, 0x80008009, 0x8000000A,
   0x8000808B, 0x800000000000008B, 0x8000000000008089, 0x8000000000008003,
   0x8000000000008002, 0x8000000000000080, 0x800A, 0x800000008000000A] ++
  [0x8000000080008081, 0x8000000000008080, 0x80000001, 0x8000000080008008]

/-- Rotation offsets by lane x + 5 × y. -/
def keccakRot : List Nat :=
  [0, 1, 62, 28, 27, 36, 44, 6, 55, 20, 3, 10, 43, 25, 39, 41, 45, 15, 21, 8, 18, 2, 61, 56, 14]

def lane (a : List (BitVec 64)) (x y : Nat) : BitVec 64 := a.getD (x % 5 + 5 * (y % 5)) 0

def keccakRound (a : List (BitVec 64)) (rc : BitVec 64) : List (BitVec 64) :=
  let c := (List.range 5).map fun x => lane a x 0 ^^^ lane a x 1 ^^^ lane a x 2 ^^^ lane a x 3 ^^^ lane a x 4
  let a := (List.range 25).map fun i =>
    lane a i (i / 5) ^^^ c.getD ((i + 4) % 5) 0 ^^^ (c.getD ((i + 1) % 5) 0).rotateLeft 1
  let b := (List.range 25).map fun i =>
    let x := i % 5; let y := i / 5
    let x0 := (x + 3 * y) % 5
    (lane a x0 x).rotateLeft (keccakRot.getD (x0 + 5 * x) 0)
  let a := (List.range 25).map fun i =>
    lane b i (i / 5) ^^^ (~~~lane b (i + 1) (i / 5) &&& lane b (i + 2) (i / 5))
  match a with
  | h :: t => (h ^^^ rc) :: t
  | [] => []

def keccakF (a : List (BitVec 64)) : List (BitVec 64) := keccakRc.foldl keccakRound a

def sha3Absorb (a : List (BitVec 64)) (b : List Byte) : List (BitVec 64) :=
  keccakF ((List.range 25).map fun i =>
    a.getD i 0 ^^^ (if i < 17 then BitVec.ofNat 64 (field b (8 * i) 8) else 0))

/-- SHA3-256, with a rate of 136 bytes. -/
def sha3 (m : List Byte) : List Byte :=
  let z := 136 - 1 - m.length % 136
  let p := if z = 0 then m ++ [0x86] else m ++ [0x06] ++ zeros (z - 1) ++ [0x80]
  let a := (chunks 136 (p.length / 136) p).foldl sha3Absorb (List.replicate 25 0)
  ((a.take 4).map fun x => leBytes 8 x.toNat).flatten

/-! ## Digests and HMAC by algorithm code (Table 12.7) -/

/-- The digest of ALG 0 SHA-256, 1 SHA-384, 2 SHA3-256. -/
def digestOf (alg : Nat) (m : List Byte) : List Byte :=
  if alg = 0 then sha256 m else if alg = 1 then sha384 m else sha3 m

/-- Block size of an algorithm (R439). -/
def digestBlock (alg : Nat) : Nat := if alg = 0 then 64 else if alg = 1 then 128 else 136

/-- The HMAC key block: a key longer than a block is hashed first (RFC 2104). -/
def hmacKey (alg : Nat) (k : List Byte) : List Byte :=
  fit (digestBlock alg) (if digestBlock alg < k.length then digestOf alg k else k)

/-- HMAC (RFC 2104). -/
def hmacOf (alg : Nat) (k m : List Byte) : List Byte :=
  let kb := hmacKey alg k
  digestOf alg (kb.map (· ^^^ 0x5C) ++ digestOf alg (kb.map (· ^^^ 0x36) ++ m))

/-! ## AES-256 -/

/-- The AES substitution box. -/
def aesSbox : List Byte :=
  [0x63, 0x7C, 0x77, 0x7B, 0xF2, 0x6B, 0x6F, 0xC5, 0x30, 0x01, 0x67, 0x2B, 0xFE, 0xD7, 0xAB, 0x76] ++
  [0xCA, 0x82, 0xC9, 0x7D, 0xFA, 0x59, 0x47, 0xF0, 0xAD, 0xD4, 0xA2, 0xAF, 0x9C, 0xA4, 0x72, 0xC0] ++
  [0xB7, 0xFD, 0x93, 0x26, 0x36, 0x3F, 0xF7, 0xCC, 0x34, 0xA5, 0xE5, 0xF1, 0x71, 0xD8, 0x31, 0x15] ++
  [0x04, 0xC7, 0x23, 0xC3, 0x18, 0x96, 0x05, 0x9A, 0x07, 0x12, 0x80, 0xE2, 0xEB, 0x27, 0xB2, 0x75] ++
  [0x09, 0x83, 0x2C, 0x1A, 0x1B, 0x6E, 0x5A, 0xA0, 0x52, 0x3B, 0xD6, 0xB3, 0x29, 0xE3, 0x2F, 0x84] ++
  [0x53, 0xD1, 0x00, 0xED, 0x20, 0xFC, 0xB1, 0x5B, 0x6A, 0xCB, 0xBE, 0x39, 0x4A, 0x4C, 0x58, 0xCF] ++
  [0xD0, 0xEF, 0xAA, 0xFB, 0x43, 0x4D, 0x33, 0x85, 0x45, 0xF9, 0x02, 0x7F, 0x50, 0x3C, 0x9F, 0xA8] ++
  [0x51, 0xA3, 0x40, 0x8F, 0x92, 0x9D, 0x38, 0xF5, 0xBC, 0xB6, 0xDA, 0x21, 0x10, 0xFF, 0xF3, 0xD2] ++
  [0xCD, 0x0C, 0x13, 0xEC, 0x5F, 0x97, 0x44, 0x17, 0xC4, 0xA7, 0x7E, 0x3D, 0x64, 0x5D, 0x19, 0x73] ++
  [0x60, 0x81, 0x4F, 0xDC, 0x22, 0x2A, 0x90, 0x88, 0x46, 0xEE, 0xB8, 0x14, 0xDE, 0x5E, 0x0B, 0xDB] ++
  [0xE0, 0x32, 0x3A, 0x0A, 0x49, 0x06, 0x24, 0x5C, 0xC2, 0xD3, 0xAC, 0x62, 0x91, 0x95, 0xE4, 0x79] ++
  [0xE7, 0xC8, 0x37, 0x6D, 0x8D, 0xD5, 0x4E, 0xA9, 0x6C, 0x56, 0xF4, 0xEA, 0x65, 0x7A, 0xAE, 0x08] ++
  [0xBA, 0x78, 0x25, 0x2E, 0x1C, 0xA6, 0xB4, 0xC6, 0xE8, 0xDD, 0x74, 0x1F, 0x4B, 0xBD, 0x8B, 0x8A] ++
  [0x70, 0x3E, 0xB5, 0x66, 0x48, 0x03, 0xF6, 0x0E, 0x61, 0x35, 0x57, 0xB9, 0x86, 0xC1, 0x1D, 0x9E] ++
  [0xE1, 0xF8, 0x98, 0x11, 0x69, 0xD9, 0x8E, 0x94, 0x9B, 0x1E, 0x87, 0xE9, 0xCE, 0x55, 0x28, 0xDF] ++
  [0x8C, 0xA1, 0x89, 0x0D, 0xBF, 0xE6, 0x42, 0x68, 0x41, 0x99, 0x2D, 0x0F, 0xB0, 0x54, 0xBB, 0x16]

def aesSub (b : Byte) : Byte := aesSbox.getD b.toNat 0

/-- The inverse substitution. -/
def aesInvSub (b : Byte) : Byte := BitVec.ofNat 8 (aesSbox.idxOf b)

/-- Multiplication by x in GF(2^8). -/
def xtime (b : Byte) : Byte := if b.getLsbD 7 then (b <<< 1) ^^^ 0x1B else b <<< 1

def gmul (a b : Byte) : Byte :=
  ((List.range 8).foldl (fun (acc : Byte × Byte) i =>
    (if b.getLsbD i then acc.1 ^^^ acc.2 else acc.1, xtime acc.2)) (0, a)).1

/-- Bytes combined by exclusive or. -/
def xorBytes (a b : List Byte) : List Byte := List.zipWith (· ^^^ ·) a b

/-- Key expansion: 60 words from a 32-byte key. -/
def aesExpand : Nat → Byte → List (List Byte) → List (List Byte)
  | 0, _, w => w
  | n + 1, rc, w =>
    let i := w.length
    let t := w.getD (i - 1) []
    let t' := if i % 8 = 0 then
        match (t.drop 1 ++ t.take 1).map aesSub with
        | a :: r => (a ^^^ rc) :: r
        | [] => []
      else if i % 8 = 4 then t.map aesSub else t
    aesExpand n (if i % 8 = 0 then xtime rc else rc) (w ++ [xorBytes (w.getD (i - 8) []) t'])

def aesKeys (key : List Byte) : List (List Byte) :=
  let w := aesExpand 52 1 (chunks 4 8 key)
  (List.range 15).map fun r => (slice' w (4 * r) 4).flatten
where
  slice' (w : List (List Byte)) (o n : Nat) : List (List Byte) := (w.drop o).take n

def shiftRows (s : List Byte) : List Byte :=
  (List.range 16).map fun i => s.getD ((i + 4 * (i % 4)) % 16) 0

def invShiftRows (s : List Byte) : List Byte :=
  (List.range 16).map fun i => s.getD ((i + 16 - 4 * (i % 4)) % 16) 0

def mixWith (m0 m1 m2 m3 : Byte) (s : List Byte) : List Byte :=
  (List.range 16).map fun i =>
    let c := 4 * (i / 4)
    let at_ := fun j => s.getD (c + (i + j) % 4) 0
    gmul (at_ 0) m0 ^^^ gmul (at_ 1) m1 ^^^ gmul (at_ 2) m2 ^^^ gmul (at_ 3) m3

/-- AES-256 encryption of one 16-byte block. -/
def aesEnc (key blk : List Byte) : List Byte :=
  match aesKeys key with
  | k0 :: ks =>
    let s := (ks.take 13).foldl (fun s k =>
      xorBytes (mixWith 2 3 1 1 (shiftRows (s.map aesSub))) k) (xorBytes blk k0)
    xorBytes (shiftRows (s.map aesSub)) (ks.getD 13 [])
  | [] => []

/-- AES-256 decryption of one 16-byte block. -/
def aesDec (key blk : List Byte) : List Byte :=
  match (aesKeys key).reverse with
  | k0 :: ks =>
    let s := (ks.take 13).foldl (fun s k =>
      mixWith 14 11 13 9 (xorBytes ((invShiftRows s).map aesInvSub) k)) (xorBytes blk k0)
    xorBytes ((invShiftRows s).map aesInvSub) (ks.getD 13 [])
  | [] => []

/-! ## Key wrap (RFC 3394) -/

/-- The six rounds of wrapping over a list of 8-byte registers. -/
def wrapStep (key : List Byte) (st : List Byte × List (List Byte) × Nat) : List Byte × List (List Byte) × Nat :=
  let n := st.2.1.length
  (List.range n).foldl (fun st i =>
    let b := aesEnc key (st.1 ++ st.2.1.getD i [])
    let t := st.2.2 + 1
    (xorBytes (b.take 8) (beBytes 8 t), st.2.1.set i (b.drop 8), t)) st

def keyWrap (key p : List Byte) : List Byte :=
  let r := (List.range 6).foldl (fun st _ => wrapStep key st)
    (List.replicate 8 (0xA6 : Byte), chunks 8 (p.length / 8) p, 0)
  r.1 ++ r.2.1.flatten

def unwrapStep (key : List Byte) (st : List Byte × List (List Byte) × Nat) : List Byte × List (List Byte) × Nat :=
  let n := st.2.1.length
  (List.range n).foldl (fun st j =>
    let i := n - 1 - j
    let b := aesDec key (xorBytes st.1 (beBytes 8 st.2.2) ++ st.2.1.getD i [])
    (b.take 8, st.2.1.set i (b.drop 8), st.2.2 - 1)) st

/-- The unwrapped plaintext, if the integrity check passes. -/
def keyUnwrap (key c : List Byte) : Option (List Byte) :=
  let n := c.length / 8 - 1
  let r := (List.range 6).foldl (fun st _ => unwrapStep key st) (c.take 8, chunks 8 n (c.drop 8), 6 * n)
  if r.1 = List.replicate 8 0xA6 then some r.2.1.flatten else none

/-! ## GCM (SP 800-38D) -/

/-- Multiplication in GF(2^128) with GCM's bit order: bit 0 of the field is the first bit. -/
def ghashMul (x y : BitVec 128) : BitVec 128 :=
  ((List.range 128).foldl (fun (acc : BitVec 128 × BitVec 128) i =>
    (if x.getLsbD (127 - i) then acc.1 ^^^ acc.2 else acc.1,
     if acc.2.getLsbD 0 then (acc.2 >>> 1) ^^^ (0xE1 : BitVec 128) <<< 120 else acc.2 >>> 1)) (0, y)).1

def ghash (h : BitVec 128) (l : List Byte) : BitVec 128 :=
  (chunks 16 (l.length / 16) l).foldl (fun y b => ghashMul (y ^^^ BitVec.ofNat 128 (beNat b)) h) 0

/-- Zero padding to whole blocks. -/
def pad16 (l : List Byte) : List Byte := l ++ zeros ((16 - l.length % 16) % 16)

/-- Counter-mode keystream of `n` blocks from counter `c`. -/
def gcmStream (key iv : List Byte) (c n : Nat) : List Byte :=
  ((List.range n).map fun i => aesEnc key (iv ++ beBytes 4 (c + i))).flatten

/-- Encryption or decryption with a 12-byte IV. -/
def gcmCrypt (key iv m : List Byte) : List Byte :=
  xorBytes m (gcmStream key iv 2 ((m.length + 15) / 16))

/-- The 16-byte tag over additional data and ciphertext. -/
def gcmTag (key iv aad c : List Byte) : List Byte :=
  let h := BitVec.ofNat 128 (beNat (aesEnc key (zeros 16)))
  let s := ghash h (pad16 aad ++ pad16 c ++ beBytes 8 (8 * aad.length) ++ beBytes 8 (8 * c.length))
  xorBytes (beBytes 16 s.toNat) (gcmStream key iv 1 1)

/-! ## XTS (IEEE 1619) -/

/-- The next tweak: multiplication by x, least significant byte first. -/
def xtsNext (t : List Byte) : List Byte :=
  let v := leNat t
  let w := v * 2 % 2 ^ 128
  leBytes 16 (if v < 2 ^ 127 then w else w ^^^ 0x87)

def xtsBlocks (f : List Byte → List Byte) : List (List Byte) → List Byte → List Byte
  | [], _ => []
  | b :: r, t => xorBytes (f (xorBytes b t)) t ++ xtsBlocks f r (xtsNext t)

/-- One data unit under a 64-byte key (key 1, then key 2) with a 64-bit tweak followed by 64 zero
bits (R431); the unit is a multiple of 16 bytes. -/
def xtsUnit (enc : Bool) (key : List Byte) (tweak : Nat) (m : List Byte) : List Byte :=
  let k1 := key.take 32
  let t := aesEnc (key.drop 32) (leBytes 8 tweak ++ zeros 8)
  xtsBlocks (if enc then aesEnc k1 else aesDec k1) (chunks 16 (m.length / 16) m) t

end Sys2Proof.Machine
end

