-- ==== Sys2Proof/Config.lean ====
section
/-! DEFINITION. What the spec leaves to the implementation or does not state: constants without a
body, so that no proof can see a value.  Each names the rule that leaves it open; the assumption
log has an entry for each. -/

namespace Sys2Proof.Config

/-- The n-th free value: a random number, a value the spec calls undefined, or one it does not
state (log entry 1). -/
opaque freeValue : Nat → Nat

/-- Severity of a dailies record by SOURCE and REASON, 0–2: Table 06.12 gives the field and no
rule gives the value of each event (log entry 4). -/
opaque dailySeverity : Nat → Nat → Nat

/-- Severity of a health event by CODE, 0–2 (Table 06.9; log entry 4). -/
opaque healthSeverity : Nat → Nat

/-- The Asynchronous Event Configuration bit that masks a vendor event, if any, by its information
code (Table 03.7 says that the feature masks them and gives no bit; log entry 5). -/
opaque vendorEventBit : Nat → Option Nat

/-- REASON of a dailies record that a rule asks for without naming its reason, by SOURCE and a
number of the event within that source (log entry 8). -/
opaque openReason : Nat → Nat → Nat

/-! Chapter 13. -/

/-- Finding of the DRAM code on a burst whose error mask touches three components or more, and of
the SRAM code on a word with three flipped bits or more (R465 and R466 state two; log entry 6). -/
opaque dramFinding : Nat → EccFinding
opaque sramFinding : Nat → EccFinding

/-- Bank and row of a channel offset (R451: a fixed mapping that is not given). -/
opaque dramBank : Nat → Nat
opaque dramRow : Nat → Nat

/-- The 4 KiB of the write buffer that hold a unit of a namespace, and the place of an extent's entry in the extent
tables (Table 13.3 gives the areas; log entry 161). -/
opaque bufferSlot : Nat → Nat → Nat
opaque extentPlace : Nat → Nat → Nat

/-- Words of the on-chip memories whose size the spec does not give (Table 13.6). -/
opaque sramWords : Nat → Nat

/-! Chapter 16. -/

/-- The ECDSA P-384 signature (second argument, r then s) verifies in the vendor key over a SHA-384
digest (R444, R556); the key is fused. -/
opaque signatureOk : List Byte → List Byte → Bool

/-- A settings item passes its own checks (R562, R563): the items' formats are not given. -/
opaque settingsItemOk : Nat → List Byte → Bool

/-- The settings items that section 4 of an image spells (R556 gives the section, no layout; log entry 46). -/
opaque defaultSettings : List Byte → List (Nat × List Byte)

/-- Items of a settings copy migrated from its VERSION (R562 states no migration; log entry 46). -/
opaque migrateSettings : Nat → List (Nat × List Byte) → List (Nat × List Byte)

/-- Byte offset of a calibration record in the calibration area, by kind and number: 0 NAND record,
1 preamp record, 2 zone table, 3 servo calibration record, 4 loop table, 5 equalizer sets (Table 16.5
gives the area and not the places in it; log entry 12). -/
opaque calibOffset : Nat → Nat → Nat

/-- Device address at which a DRAM buffer of the data path lies, by its number (Table 13.3 gives the areas and not the
places in them; log entry 161): 0 the write buffer, 1 the continuity link, 2 the read staging buffers, 3 the map, 4
the stage ring of a take, 5 the firmware's working area, 6 the stored script images. -/
opaque bufferPlace : Nat → Nat

/-- Frames that the lane transmit buffer of the continuity link holds (R479 names it and gives no size; log entry
161). -/
opaque laneBuffer : Nat

/-! Chapter 05. -/

/-- The block of each LUN that holds dumps (0), the journal (1) and checkpoints (2): R210 and R229 give these their own
superblocks and no place (log entry 165). -/
opaque systemBlock : Nat → Nat

/-! Chapter 06. -/

/-- Chunk limit of tiered namespaces that a spare pool allows (R232 names the limit and gives no
formula; log entry 16). -/
opaque tierCap : Nat → Nat

/-! Chapter 03. -/

/-- A Namespace Management create of the NVM command set asks for a tiered namespace, by its data structure
(Table 03.2 has the types and no rule says how the host names one; log entry 40). -/
opaque createTiered : List Byte → Bool

/-- Bytes of an Identify data structure that no rule states, by CNS, function and NSID; the log bytes past the
end of a page, by page and offset; revision text of a firmware version; the effects word of an opcode, by admin
or I/O and opcode (log entry 41). -/
opaque identify : Nat → Nat → Nat → Nat → Byte
opaque logTail : Nat → Nat → Byte
opaque revision : Nat → Nat → Byte
opaque cmdEffects : Bool → Nat → Nat

/-- What the PCIe link negotiated (Table 03.14; the negotiation is the host's): the binary logarithm of the
width, the rate code less one, FLIT mode; the capability bits of CAP that no rule states, by function (log entry 50). -/
opaque linkWidth : Nat
opaque linkRate : Nat
opaque linkFlit : Bool
opaque capHigh : Nat → Nat

/-- What Table 03.1 fixes in the PCIe configuration space: device IDs of the physical and the virtual functions, class
code, BAR0 sizes in bytes, TotalVFs, First VF Offset, VF Stride, 10-bit tags, MSI-X vectors of the pool. -/
def deviceId (vf : Bool) : Nat := if vf then 0x9633 else 0x9632
def classCode : Nat := 0x010802
def bar0Size (vf : Bool) : Nat := if vf then 8 * 2 ^ 10 else 8 * 2 ^ 20
def totalVfs : Nat := 512
def firstVfOffset : Nat := 1
def vfStride : Nat := 1
def tags10 : Nat := 768
def msixPool : Nat := 4096

/-! Chapter 15. -/

/-- The MIPI manufacturer code of the provisional ID (Table 15.1 names the maker and gives no number), and the
bytes of GETCAPS after the first (log entry 51). -/
opaque manufacturer : Nat
opaque getCaps : Nat → Nat

/-! Chapter 10. -/

/-- DRAM page of the take area of a context (R373 gives no place; log entry 48). -/
opaque takeAreaPage : Nat → Nat

/-! Chapter 08. -/

/-- Heater power in Q15 of its full scale, by actuator and heater-current sample (Table 08.6 names the
input, Table 01.2 the sample, and no rule converts one to the other; log entry 19). -/
opaque heaterPower : Nat → Nat → Int

/-! Chapter 11: the compressor's choice of matches and codes is not stated (log entry 31). -/

/-- FLEVEL of a zlib header, by LEVEL. -/
opaque zlibLevel : Nat → Nat

/-- A compressed block by LEVEL: whether it is the last, the input before it and its own input. A Zstandard block with its
header; a Deflate block as the bits it puts after those before it. -/
opaque zstdBlock : Nat → Bool → List Byte → List Byte → List Byte
opaque deflateBlock : Nat → Bool → List Byte → List Byte → List Bool

end Sys2Proof.Config
end

