-- ==== Sys2Proof/Machine/RegTypes.lean ====
section
/-! DEFINITION. The shape of a register description: the place of a field in the management
address space, the access codes of Table 00.3, and one row of the register table. -/

namespace Sys2Proof.Machine

/-- Access codes of Table 00.3. `rwsClear` is an RWS status field whose description says that a
write of 1 clears it in Service mode (DEV_SPLICE_STATUS.LOST, SEC_TAMPER.CAUSE). -/
inductive Access where
  | ro | rw | wo | w1c | w1s | rc | rws | rwsClear | rwl
deriving DecidableEq, Repr

/-- The place of one field: register address, lowest bit and width. -/
structure Field where
  addr  : Nat
  lo    : Nat
  width : Nat
deriving DecidableEq, Repr

/-- One field of a register table: place in the word, access code, reset value, and whether the
field has a row of its own in the opcode table (R10). -/
structure FieldDesc where
  lo    : Nat
  width : Nat
  acc   : Access
  reset : Nat
  own   : Bool
deriving DecidableEq, Repr

/-- One register, or an array of registers of up to two dimensions: first address, stride and
count of each dimension, and the fields. -/
structure RegDesc where
  base   : Nat
  s1     : Nat
  n1     : Nat
  s2     : Nat
  n2     : Nat
  fields : List FieldDesc
deriving DecidableEq, Repr

end Sys2Proof.Machine
end

