-- ==== Sys2Proof/Machine/Regs.lean ====
section
/-! DEFINITION. The management registers of the block as the register tables of spec/ give them:
for each register its management address (`A.<register>`) and for each field its place
(`F.<register><Field>`), with the index of a repeated register as argument; then the table of
descriptors (`regTable`), one row per register, with each field's access code (Table 00.3) and
reset value.  A row's base addresses are those of Table 01.4 (R33). A field marked `own` has an
opcode-table row of its own, so that the plain register write leaves it alone (R10). -/

namespace Sys2Proof.Machine

-- DEV_ID, 01_two_dies_and_the_fabric.md Table 01.5, R38
def A.devId : Nat := 0
def F.devIdPart : Field := ⟨0, 16, 16⟩
def F.devIdFamily : Field := ⟨0, 8, 8⟩

-- DEV_STEP, 01_two_dies_and_the_fabric.md Table 01.6, R38
def A.devStep : Nat := 4
def F.devStepLogicStep : Field := ⟨4, 24, 8⟩
def F.devStepDriveStep : Field := ⟨4, 16, 8⟩
def F.devStepRomVersion : Field := ⟨4, 0, 16⟩

-- DEV_TIMECODE_LO, 01_two_dies_and_the_fabric.md Table 01.7, R38
def A.devTimecodeLo : Nat := 0x10
def F.devTimecodeLoTimeLo : Field := ⟨0x10, 0, 32⟩

-- DEV_TIMECODE_HI, 01_two_dies_and_the_fabric.md Table 01.7, R38
def A.devTimecodeHi : Nat := 0x14
def F.devTimecodeHiTimeHi : Field := ⟨0x14, 0, 32⟩

-- DEV_CLK_STATUS, 01_two_dies_and_the_fabric.md Table 01.8, R38
def A.devClkStatus : Nat := 0x20
def F.devClkStatusLfSrc : Field := ⟨0x20, 9, 1⟩
def F.devClkStatusCntLock : Field := ⟨0x20, 8, 1⟩
def F.devClkStatusPcieLock : Field := ⟨0x20, 7, 1⟩
def F.devClkStatusDdrLock : Field := ⟨0x20, 6, 1⟩
def F.devClkStatusOnfiLock : Field := ⟨0x20, 5, 1⟩
def F.devClkStatusAdc1Lock : Field := ⟨0x20, 4, 1⟩
def F.devClkStatusAdc0Lock : Field := ⟨0x20, 3, 1⟩
def F.devClkStatusCtlLock : Field := ⟨0x20, 2, 1⟩
def F.devClkStatusEngLock : Field := ⟨0x20, 1, 1⟩
def F.devClkStatusFabLock : Field := ⟨0x20, 0, 1⟩

-- DEV_SPLICE_STATUS, 01_two_dies_and_the_fabric.md Table 01.9, R38
def A.devSpliceStatus : Nat := 0x30
def F.devSpliceStatusCycleLo : Field := ⟨0x30, 16, 16⟩
def F.devSpliceStatusMgtFail : Field := ⟨0x30, 3, 1⟩
def F.devSpliceStatusLost : Field := ⟨0x30, 2, 1⟩
def F.devSpliceStatusUp : Field := ⟨0x30, 1, 1⟩
def F.devSpliceStatusTrained : Field := ⟨0x30, 0, 1⟩

-- DEV_SPLICE_ERR, 01_two_dies_and_the_fabric.md Table 01.10, R38
def A.devSpliceErr : Nat := 0x34
def F.devSpliceErrCorrected : Field := ⟨0x34, 16, 16⟩
def F.devSpliceErrUncorrected : Field := ⟨0x34, 8, 8⟩
def F.devSpliceErrLateApply : Field := ⟨0x34, 0, 8⟩

-- PWR_MODE, 15_management_modes_power.md Table 15.15, R535
def A.pwrMode : Nat := 0x1000
def F.pwrModeCause : Field := ⟨0x1000, 8, 8⟩
def F.pwrModeChanging : Field := ⟨0x1000, 3, 1⟩
def F.pwrModeMode : Field := ⟨0x1000, 0, 3⟩

-- PWR_MODE_CMD, 15_management_modes_power.md Table 15.15, R535
def A.pwrModeCmd : Nat := 0x1004
def F.pwrModeCmdTarget : Field := ⟨0x1004, 0, 4⟩

-- PWR_MODE_STATUS, 15_management_modes_power.md Table 15.15, R535
def A.pwrModeStatus : Nat := 0x1008
def F.pwrModeStatusBusy : Field := ⟨0x1008, 31, 1⟩
def F.pwrModeStatusResult : Field := ⟨0x1008, 0, 8⟩

-- PWR_WAKE_BUDGET, 15_management_modes_power.md Table 15.15, R535
def A.pwrWakeBudget : Nat := 0x100C
def F.pwrWakeBudgetUs : Field := ⟨0x100C, 0, 32⟩

-- PWR_IDLE_ENTRY, 15_management_modes_power.md Table 15.15, R535
def A.pwrIdleEntry : Nat := 0x1010
def F.pwrIdleEntryMs : Field := ⟨0x1010, 0, 16⟩

-- PWR_IDLE_STATUS, 15_management_modes_power.md Table 15.15, R535
def A.pwrIdleStatus : Nat := 0x1014
def F.pwrIdleStatusFellShort : Field := ⟨0x1014, 8, 1⟩
def F.pwrIdleStatusTarget : Field := ⟨0x1014, 0, 3⟩

-- PWR_ESTIMATE, 15_management_modes_power.md Table 15.15, R535
def A.pwrEstimate : Nat := 0x1018
def F.pwrEstimateDrive : Field := ⟨0x1018, 16, 16⟩
def F.pwrEstimateLogic : Field := ⟨0x1018, 0, 16⟩

-- SLT_CTRL, 02_the_slate.md Table 02.11, R80
def A.sltCtrl : Nat := 0x2000
def F.sltCtrlLock : Field := ⟨0x2000, 31, 1⟩
def F.sltCtrlPersist : Field := ⟨0x2000, 2, 1⟩
def F.sltCtrlValidate : Field := ⟨0x2000, 1, 1⟩
def F.sltCtrlSwap : Field := ⟨0x2000, 0, 1⟩

-- SLT_STATUS, 02_the_slate.md Table 02.12, R80
def A.sltStatus : Nat := 0x2004
def F.sltStatusRejectReason : Field := ⟨0x2004, 8, 8⟩
def F.sltStatusOrderResult : Field := ⟨0x2004, 6, 2⟩
def F.sltStatusRejected : Field := ⟨0x2004, 5, 1⟩
def F.sltStatusWriteDropped : Field := ⟨0x2004, 4, 1⟩
def F.sltStatusDefaultActive : Field := ⟨0x2004, 3, 1⟩
def F.sltStatusSwapPending : Field := ⟨0x2004, 2, 1⟩
def F.sltStatusBusy : Field := ⟨0x2004, 1, 1⟩
def F.sltStatusActiveValid : Field := ⟨0x2004, 0, 1⟩

-- SLT_REJECT_INFO, 02_the_slate.md Table 02.13, R80
def A.sltRejectInfo : Nat := 0x2008
def F.sltRejectInfoColumn : Field := ⟨0x2008, 16, 8⟩
def F.sltRejectInfoCellIndex : Field := ⟨0x2008, 0, 14⟩

-- SLT_VERSION, 02_the_slate.md Table 02.14, R80
def A.sltVersion : Nat := 0x200C
def F.sltVersionMaxVersion : Field := ⟨0x200C, 16, 16⟩
def F.sltVersionMinVersion : Field := ⟨0x200C, 0, 16⟩

-- SLT_ACTIVE_ID, 02_the_slate.md Table 02.15, R80
def A.sltActiveId : Nat := 0x2010
def F.sltActiveIdSlateId : Field := ⟨0x2010, 0, 32⟩

-- SLT_FRAME, 02_the_slate.md Table 02.15, R80
def A.sltFrame : Nat := 0x2014
def F.sltFrameFrame : Field := ⟨0x2014, 0, 32⟩

-- SLT_SWAP_FRAME, 02_the_slate.md Table 02.15, R80
def A.sltSwapFrame : Nat := 0x2018
def F.sltSwapFrameSwapFrame : Field := ⟨0x2018, 0, 32⟩

-- SLT_SHADOW_ADDR, 02_the_slate.md Table 02.16, R80
def A.sltShadowAddr : Nat := 0x2020
def F.sltShadowAddrWord : Field := ⟨0x2020, 2, 13⟩

-- SLT_SHADOW_DATA, 02_the_slate.md Table 02.16, R80
def A.sltShadowData : Nat := 0x2024
def F.sltShadowDataData : Field := ⟨0x2024, 0, 32⟩

-- SLT_ERR, 02_the_slate.md Table 02.17, R80
def A.sltErr : Nat := 0x2030
def F.sltErrCellUncorr : Field := ⟨0x2030, 0, 16⟩

-- SLT_COL_OWNED, 02_the_slate.md Table 02.18, R81
def A.sltColOwned (n : Nat) : Nat := 0x2100 + n * 0x10
def F.sltColOwnedOwned (n : Nat) : Field := ⟨0x2100 + n * 0x10, 0, 32⟩

-- SLT_COL_SPARE, 02_the_slate.md Table 02.18, R81
def A.sltColSpare (n : Nat) : Nat := 0x2104 + n * 0x10
def F.sltColSpareSpare (n : Nat) : Field := ⟨0x2104 + n * 0x10, 0, 32⟩

-- SLT_COL_IDLE, 02_the_slate.md Table 02.18, R81
def A.sltColIdle (n : Nat) : Nat := 0x2108 + n * 0x10
def F.sltColIdleIdle (n : Nat) : Field := ⟨0x2108 + n * 0x10, 0, 32⟩

-- SLT_COL_RING, 02_the_slate.md Table 02.18, R81
def A.sltColRing (n : Nat) : Nat := 0x210C + n * 0x10
def F.sltColRingLeft (n : Nat) : Field := ⟨0x210C + n * 0x10, 8, 8⟩

-- SLT_COL_PTR, 02_the_slate.md Table 02.18, R81
def A.sltColPtr (n : Nat) : Nat := 0x2300 + n * 4
def F.sltColPtrPtr (n : Nat) : Field := ⟨0x2300 + n * 4, 0, 9⟩

-- HIF_LINK_STATUS, 03_host_commands.md Table 03.14, R131
def A.hifLinkStatus : Nat := 0x3000
def F.hifLinkStatusLtssmState : Field := ⟨0x3000, 9, 3⟩
def F.hifLinkStatusFlit : Field := ⟨0x3000, 8, 1⟩
def F.hifLinkStatusWidth : Field := ⟨0x3000, 4, 4⟩
def F.hifLinkStatusRate : Field := ⟨0x3000, 0, 4⟩

-- HIF_LOCK_STATUS, 03_host_commands.md Table 03.15, R131
def A.hifLockStatus : Nat := 0x3010
def F.hifLockStatusPeak : Field := ⟨0x3010, 16, 13⟩
def F.hifLockStatusInUse : Field := ⟨0x3010, 0, 13⟩

-- HIF_EVENT_CNT, 03_host_commands.md Table 03.16, R131
def A.hifEventCnt : Nat := 0x3014
def F.hifEventCntFallback : Field := ⟨0x3014, 16, 16⟩
def F.hifEventCntLockStall : Field := ⟨0x3014, 8, 8⟩
def F.hifEventCntAbortCaught : Field := ⟨0x3014, 0, 8⟩

-- VIN_ALLOC_Q, 04_tenancy.md Table 04.11, R157
def A.vinAllocQ : Nat := 0x4000
def F.vinAllocQVectors : Field := ⟨0x4000, 16, 13⟩
def F.vinAllocQQpairs : Field := ⟨0x4000, 0, 13⟩

-- VIN_ALLOC_C, 04_tenancy.md Table 04.11, R157
def A.vinAllocC : Nat := 0x4004
def F.vinAllocCContexts : Field := ⟨0x4004, 0, 19⟩

-- VIN_ALLOC_T, 04_tenancy.md Table 04.11, R157
def A.vinAllocT : Nat := 0x4008
def F.vinAllocTTasks : Field := ⟨0x4008, 0, 17⟩

-- VIN_DRAM_FREE, 04_tenancy.md Table 04.11, R157
def A.vinDramFree : Nat := 0x400C
def F.vinDramFreeLastG : Field := ⟨0x400C, 16, 10⟩
def F.vinDramFreeFirstG : Field := ⟨0x400C, 0, 10⟩

-- VIN_STALE_TOTAL, 04_tenancy.md Table 04.11, R157
def A.vinStaleTotal : Nat := 0x4010
def F.vinStaleTotalCount : Field := ⟨0x4010, 0, 32⟩

-- VIN_ENABLED, 04_tenancy.md Table 04.11, R157
def A.vinEnabled : Nat := 0x4014
def F.vinEnabledMask : Field := ⟨0x4014, 0, 32⟩

-- VIN_ENABLED_SEL, 04_tenancy.md Table 04.11, R157
def A.vinEnabledSel : Nat := 0x4018
def F.vinEnabledSelSel : Field := ⟨0x4018, 0, 4⟩

-- FCH_CTRL, 05_flash_channels.md Table 05.10, R197
def A.fchCtrl (n : Nat) : Nat := 0x5000 + n * 0x100
def F.fchCtrlLock (n : Nat) : Field := ⟨0x5000 + n * 0x100, 31, 1⟩
def F.fchCtrlClearFence (n : Nat) : Field := ⟨0x5000 + n * 0x100, 3, 1⟩
def F.fchCtrlRetrain (n : Nat) : Field := ⟨0x5000 + n * 0x100, 2, 1⟩
def F.fchCtrlFence (n : Nat) : Field := ⟨0x5000 + n * 0x100, 1, 1⟩

-- FCH_STATUS, 05_flash_channels.md Table 05.11, R197
def A.fchStatus (n : Nat) : Nat := 0x5004 + n * 0x100
def F.fchStatusRebuildPct (n : Nat) : Field := ⟨0x5004 + n * 0x100, 16, 16⟩
def F.fchStatusNandRecBad (n : Nat) : Field := ⟨0x5004 + n * 0x100, 11, 1⟩
def F.fchStatusTargetMismatch (n : Nat) : Field := ⟨0x5004 + n * 0x100, 10, 1⟩
def F.fchStatusRate (n : Nat) : Field := ⟨0x5004 + n * 0x100, 7, 3⟩
def F.fchStatusState (n : Nat) : Field := ⟨0x5004 + n * 0x100, 0, 3⟩

-- FCH_CFG, 05_flash_channels.md Table 05.12, R197
def A.fchCfg (n : Nat) : Nat := 0x5008 + n * 0x100
def F.fchCfgRainGroup (n : Nat) : Field := ⟨0x5008 + n * 0x100, 10, 2⟩
def F.fchCfgCodeRate (n : Nat) : Field := ⟨0x5008 + n * 0x100, 4, 3⟩
def F.fchCfgMaxRate (n : Nat) : Field := ⟨0x5008 + n * 0x100, 0, 3⟩

-- FCH_PRESENT, 05_flash_channels.md Table 05.13, R197
def A.fchPresent (n : Nat) : Nat := 0x500C + n * 0x100
def F.fchPresentPresent (n : Nat) : Field := ⟨0x500C + n * 0x100, 0, 32⟩

-- FCH_LUN_FENCE, 05_flash_channels.md Table 05.13, R197
def A.fchLunFence (n : Nat) : Nat := 0x5010 + n * 0x100
def F.fchLunFenceFenced (n : Nat) : Field := ⟨0x5010 + n * 0x100, 0, 32⟩

-- FCH_SUSPEND, 05_flash_channels.md Table 05.14, R197
def A.fchSuspend (n : Nat) : Nat := 0x5014 + n * 0x100
def F.fchSuspendErsMax (n : Nat) : Field := ⟨0x5014 + n * 0x100, 24, 8⟩
def F.fchSuspendPgmMax (n : Nat) : Field := ⟨0x5014 + n * 0x100, 20, 4⟩
def F.fchSuspendErsMinRun (n : Nat) : Field := ⟨0x5014 + n * 0x100, 10, 10⟩
def F.fchSuspendPgmMinRun (n : Nat) : Field := ⟨0x5014 + n * 0x100, 0, 10⟩

-- FCH_SUSPEND2, 05_flash_channels.md Table 05.14, R197
def A.fchSuspend2 (n : Nat) : Nat := 0x5018 + n * 0x100
def F.fchSuspend2HoldMax (n : Nat) : Field := ⟨0x5018 + n * 0x100, 0, 16⟩

-- FCH_CNT_CW_READ, 05_flash_channels.md Table 05.15, R198
def A.fchCntCwRead (n : Nat) : Nat := 0x5040 + n * 0x100
def F.fchCntCwReadCount (n : Nat) : Field := ⟨0x5040 + n * 0x100, 0, 32⟩

-- FCH_CNT_RETRY, 05_flash_channels.md Table 05.15, R198
def A.fchCntRetry (n : Nat) : Nat := 0x5044 + n * 0x100
def F.fchCntRetryCount (n : Nat) : Field := ⟨0x5044 + n * 0x100, 0, 32⟩

-- FCH_CNT_SOFT, 05_flash_channels.md Table 05.15, R198
def A.fchCntSoft (n : Nat) : Nat := 0x5048 + n * 0x100
def F.fchCntSoftCount (n : Nat) : Field := ⟨0x5048 + n * 0x100, 0, 32⟩

-- FCH_CNT_RAIN, 05_flash_channels.md Table 05.15, R198
def A.fchCntRain (n : Nat) : Nat := 0x504C + n * 0x100
def F.fchCntRainCount (n : Nat) : Field := ⟨0x504C + n * 0x100, 0, 32⟩

-- FCH_CNT_UNCORR, 05_flash_channels.md Table 05.15, R198
def A.fchCntUncorr (n : Nat) : Nat := 0x5050 + n * 0x100
def F.fchCntUncorrCount (n : Nat) : Field := ⟨0x5050 + n * 0x100, 0, 32⟩

-- FCH_CNT_CRC_MISS, 05_flash_channels.md Table 05.15, R198
def A.fchCntCrcMiss (n : Nat) : Nat := 0x5054 + n * 0x100
def F.fchCntCrcMissCount (n : Nat) : Field := ⟨0x5054 + n * 0x100, 0, 32⟩

-- FCH_CNT_FAIL, 05_flash_channels.md Table 05.15, R198
def A.fchCntFail (n : Nat) : Nat := 0x5058 + n * 0x100
def F.fchCntFailPgmFail (n : Nat) : Field := ⟨0x5058 + n * 0x100, 24, 8⟩
def F.fchCntFailErsFail (n : Nat) : Field := ⟨0x5058 + n * 0x100, 16, 8⟩
def F.fchCntFailTimeout (n : Nat) : Field := ⟨0x5058 + n * 0x100, 8, 8⟩
def F.fchCntFailLunReset (n : Nat) : Field := ⟨0x5058 + n * 0x100, 0, 8⟩

-- FCH_CNT_SUSPEND, 05_flash_channels.md Table 05.15, R198
def A.fchCntSuspend (n : Nat) : Nat := 0x505C + n * 0x100
def F.fchCntSuspendPgm (n : Nat) : Field := ⟨0x505C + n * 0x100, 16, 16⟩
def F.fchCntSuspendErs (n : Nat) : Field := ⟨0x505C + n * 0x100, 0, 16⟩

-- FCH_PGM_LOOPS, 05_flash_channels.md Table 05.15, R198
def A.fchPgmLoops (n : Nat) : Nat := 0x5060 + n * 0x100
def F.fchPgmLoopsMax (n : Nat) : Field := ⟨0x5060 + n * 0x100, 8, 8⟩
def F.fchPgmLoopsAvg (n : Nat) : Field := ⟨0x5060 + n * 0x100, 0, 8⟩

-- FCH_SOFT_WAIT, 05_flash_channels.md Table 05.15, R198
def A.fchSoftWait (n : Nat) : Nat := 0x5064 + n * 0x100
def F.fchSoftWaitCount (n : Nat) : Field := ⟨0x5064 + n * 0x100, 0, 32⟩

-- FCH_RETRY_HIST, 05_flash_channels.md Table 05.15, R198
def A.fchRetryHist (n : Nat) (i : Nat) : Nat := 0x5080 + n * 0x100 + i * 4
def F.fchRetryHistCount (n : Nat) (i : Nat) : Field := ⟨0x5080 + n * 0x100 + i * 4, 0, 32⟩

-- FTL_CTRL, 06_flash_tier_and_tiering.md Table 06.13, R239
def A.ftlCtrl : Nat := 0x6000
def F.ftlCtrlLock : Field := ⟨0x6000, 31, 1⟩
def F.ftlCtrlCkptNow : Field := ⟨0x6000, 0, 1⟩

-- FTL_STATUS, 06_flash_tier_and_tiering.md Table 06.13, R239
def A.ftlStatus : Nat := 0x6004
def F.ftlStatusDumpReplayed : Field := ⟨0x6004, 9, 1⟩
def F.ftlStatusBlocksUnused : Field := ⟨0x6004, 8, 1⟩
def F.ftlStatusRoSpares : Field := ⟨0x6004, 7, 1⟩
def F.ftlStatusEvacActive : Field := ⟨0x6004, 6, 1⟩
def F.ftlStatusGcUrgent : Field := ⟨0x6004, 5, 1⟩
def F.ftlStatusCkptActive : Field := ⟨0x6004, 4, 1⟩
def F.ftlStatusState : Field := ⟨0x6004, 0, 3⟩

-- FTL_WB, 06_flash_tier_and_tiering.md Table 06.13, R239
def A.ftlWb : Nat := 0x6008
def F.ftlWbEff : Field := ⟨0x6008, 16, 16⟩
def F.ftlWbUsed : Field := ⟨0x6008, 0, 16⟩

-- FTL_SPARE, 06_flash_tier_and_tiering.md Table 06.13, R239
def A.ftlSpare : Nat := 0x600C
def F.ftlSpareBlocks : Field := ⟨0x600C, 0, 32⟩

-- FTL_SPARE_FLOOR, 06_flash_tier_and_tiering.md Table 06.13, R239
def A.ftlSpareFloor : Nat := 0x6010
def F.ftlSpareFloorBlocks : Field := ⟨0x6010, 0, 32⟩

-- FTL_TIER_CAP, 06_flash_tier_and_tiering.md Table 06.13, R239
def A.ftlTierCap : Nat := 0x6014
def F.ftlTierCapChunks : Field := ⟨0x6014, 0, 32⟩

-- FTL_RETIRED, 06_flash_tier_and_tiering.md Table 06.13, R239
def A.ftlRetired : Nat := 0x6018
def F.ftlRetiredBlocks : Field := ⟨0x6018, 0, 32⟩

-- FTL_WEAR, 06_flash_tier_and_tiering.md Table 06.13, R239
def A.ftlWear : Nat := 0x601C
def F.ftlWearAvgPe : Field := ⟨0x601C, 16, 16⟩
def F.ftlWearPctUsed : Field := ⟨0x601C, 0, 16⟩

-- FTL_RATED_PE, 06_flash_tier_and_tiering.md Table 06.13, R239
def A.ftlRatedPe : Nat := 0x6020
def F.ftlRatedPePe : Field := ⟨0x6020, 0, 32⟩

-- FTL_HEAT_CFG, 06_flash_tier_and_tiering.md Table 06.13, R239
def A.ftlHeatCfg : Nat := 0x6024
def F.ftlHeatCfgPromoteMin : Field := ⟨0x6024, 24, 8⟩
def F.ftlHeatCfgHotMin : Field := ⟨0x6024, 16, 8⟩
def F.ftlHeatCfgColdMax : Field := ⟨0x6024, 8, 8⟩

-- FTL_HEAT_EPOCH, 06_flash_tier_and_tiering.md Table 06.13, R239
def A.ftlHeatEpoch : Nat := 0x6028
def F.ftlHeatEpochSeconds : Field := ⟨0x6028, 0, 16⟩

-- FTL_MIGRATE_CFG, 06_flash_tier_and_tiering.md Table 06.13, R239
def A.ftlMigrateCfg : Nat := 0x602C
def F.ftlMigrateCfgHigh : Field := ⟨0x602C, 8, 8⟩
def F.ftlMigrateCfgLow : Field := ⟨0x602C, 0, 8⟩

-- FTL_JRN_DURABLE_LO, 06_flash_tier_and_tiering.md Table 06.13, R239
def A.ftlJrnDurableLo : Nat := 0x6030
def F.ftlJrnDurableLoSeqLo : Field := ⟨0x6030, 0, 32⟩

-- FTL_JRN_DURABLE_HI, 06_flash_tier_and_tiering.md Table 06.13, R239
def A.ftlJrnDurableHi : Nat := 0x6034
def F.ftlJrnDurableHiSeqHi : Field := ⟨0x6034, 0, 32⟩

-- FTL_CKPT, 06_flash_tier_and_tiering.md Table 06.13, R239
def A.ftlCkpt : Nat := 0x6038
def F.ftlCkptPass : Field := ⟨0x6038, 16, 16⟩
def F.ftlCkptProgress : Field := ⟨0x6038, 0, 16⟩

-- FTL_EVAC_PROGRESS, 06_flash_tier_and_tiering.md Table 06.13, R239
def A.ftlEvacProgress : Nat := 0x603C
def F.ftlEvacProgressBand : Field := ⟨0x603C, 0, 24⟩

-- FTL_EVAC_PCT, 06_flash_tier_and_tiering.md Table 06.13, R239
def A.ftlEvacPct : Nat := 0x6040
def F.ftlEvacPctPct : Field := ⟨0x6040, 0, 16⟩

-- FTL_GC_CNT, 06_flash_tier_and_tiering.md Table 06.13, R239
def A.ftlGcCnt : Nat := 0x6044
def F.ftlGcCntSuperblocks : Field := ⟨0x6044, 0, 32⟩

-- FTL_GC_DROPPED, 06_flash_tier_and_tiering.md Table 06.13, R239
def A.ftlGcDropped : Nat := 0x6048
def F.ftlGcDroppedUnits : Field := ⟨0x6048, 0, 32⟩

-- FTL_MIGRATE_CNT, 06_flash_tier_and_tiering.md Table 06.13, R239
def A.ftlMigrateCnt : Nat := 0x604C
def F.ftlMigrateCntBands : Field := ⟨0x604C, 16, 16⟩
def F.ftlMigrateCntPromoted : Field := ⟨0x604C, 0, 16⟩

-- FTL_FREE_SB, 06_flash_tier_and_tiering.md Table 06.13, R239
def A.ftlFreeSb (n : Nat) : Nat := 0x6050 + n * 4
def F.ftlFreeSbCount (n : Nat) : Field := ⟨0x6050 + n * 4, 0, 18⟩

-- DCH_CTRL, 07_disk_data_channel.md Table 07.11, R273
def A.dchCtrl (n : Nat) : Nat := 0x7000 + n * 0x400
def F.dchCtrlLock (n : Nat) : Field := ⟨0x7000 + n * 0x400, 31, 1⟩
def F.dchCtrlRescan (n : Nat) : Field := ⟨0x7000 + n * 0x400, 2, 1⟩
def F.dchCtrlPreampGo (n : Nat) : Field := ⟨0x7000 + n * 0x400, 1, 1⟩

-- DCH_STATUS, 07_disk_data_channel.md Table 07.11, R273
def A.dchStatus (n : Nat) : Nat := 0x7004 + n * 0x400
def F.dchStatusZoneTableBad (n : Nat) : Field := ⟨0x7004 + n * 0x400, 15, 1⟩
def F.dchStatusPreampRecBad (n : Nat) : Field := ⟨0x7004 + n * 0x400, 14, 1⟩
def F.dchStatusPreampIdBad (n : Nat) : Field := ⟨0x7004 + n * 0x400, 13, 1⟩
def F.dchStatusPreampFault (n : Nat) : Field := ⟨0x7004 + n * 0x400, 12, 1⟩
def F.dchStatusClkLock (n : Nat) : Field := ⟨0x7004 + n * 0x400, 11, 1⟩
def F.dchStatusHead (n : Nat) : Field := ⟨0x7004 + n * 0x400, 4, 4⟩
def F.dchStatusState (n : Nat) : Field := ⟨0x7004 + n * 0x400, 0, 3⟩

-- DCH_CFG, 07_disk_data_channel.md Table 07.12, R273
def A.dchCfg (n : Nat) : Nat := 0x7008 + n * 0x400
def F.dchCfgVerifyBitsMax (n : Nat) : Field := ⟨0x7008 + n * 0x400, 24, 8⟩
def F.dchCfgVerifyIterMax (n : Nat) : Field := ⟨0x7008 + n * 0x400, 20, 4⟩
def F.dchCfgLadderMax (n : Nat) : Field := ⟨0x7008 + n * 0x400, 16, 4⟩
def F.dchCfgRewriteMax (n : Nat) : Field := ⟨0x7008 + n * 0x400, 12, 4⟩

-- DCH_HEADS, 07_disk_data_channel.md Table 07.12, R273
def A.dchHeads (n : Nat) : Nat := 0x700C + n * 0x400
def F.dchHeadsOffline (n : Nat) : Field := ⟨0x700C + n * 0x400, 20, 10⟩
def F.dchHeadsReadOnly (n : Nat) : Field := ⟨0x700C + n * 0x400, 10, 10⟩
def F.dchHeadsPresent (n : Nat) : Field := ⟨0x700C + n * 0x400, 0, 10⟩

-- DCH_PREAMP, 07_disk_data_channel.md Table 07.13, R273
def A.dchPreamp (n : Nat) : Nat := 0x7010 + n * 0x400
def F.dchPreampBusy (n : Nat) : Field := ⟨0x7010 + n * 0x400, 31, 1⟩
def F.dchPreampRdata (n : Nat) : Field := ⟨0x7010 + n * 0x400, 16, 8⟩
def F.dchPreampFrame (n : Nat) : Field := ⟨0x7010 + n * 0x400, 0, 16⟩

-- DCH_BAND_SEL, 07_disk_data_channel.md Table 07.14, R273
def A.dchBandSel (n : Nat) : Nat := 0x7020 + n * 0x400
def F.dchBandSelBand (n : Nat) : Field := ⟨0x7020 + n * 0x400, 0, 24⟩

-- DCH_BAND_INFO, 07_disk_data_channel.md Table 07.14, R273
def A.dchBandInfo (n : Nat) : Nat := 0x7024 + n * 0x400
def F.dchBandInfoState (n : Nat) : Field := ⟨0x7024 + n * 0x400, 29, 3⟩
def F.dchBandInfoVwp (n : Nat) : Field := ⟨0x7024 + n * 0x400, 0, 22⟩

-- DCH_BAND_SPARE, 07_disk_data_channel.md Table 07.14, R273
def A.dchBandSpare (n : Nat) : Nat := 0x7028 + n * 0x400
def F.dchBandSpareSkip (n : Nat) : Field := ⟨0x7028 + n * 0x400, 26, 6⟩
def F.dchBandSpareReloc (n : Nat) : Field := ⟨0x7028 + n * 0x400, 17, 9⟩
def F.dchBandSpareCapacity (n : Nat) : Field := ⟨0x7028 + n * 0x400, 0, 17⟩

-- DCH_BAND_STAMP, 07_disk_data_channel.md Table 07.14, R273
def A.dchBandStamp (n : Nat) : Nat := 0x702C + n * 0x400
def F.dchBandStampStamp (n : Nat) : Field := ⟨0x702C + n * 0x400, 0, 32⟩

-- DCH_RCV, 07_disk_data_channel.md Table 07.13, R273
def A.dchRcv (n : Nat) : Nat := 0x7030 + n * 0x400
def F.dchRcvQueueFull (n : Nat) : Field := ⟨0x7030 + n * 0x400, 16, 16⟩

-- DCH_VERIFY_FIRST, 07_disk_data_channel.md Table 07.16, R272
def A.dchVerifyFirst (n : Nat) : Nat := 0x7034 + n * 0x400
def F.dchVerifyFirstFirstBand (n : Nat) : Field := ⟨0x7034 + n * 0x400, 0, 24⟩

-- DCH_VERIFY_CTRL, 07_disk_data_channel.md Table 07.16, R272
def A.dchVerifyCtrl (n : Nat) : Nat := 0x7038 + n * 0x400
def F.dchVerifyCtrlGo (n : Nat) : Field := ⟨0x7038 + n * 0x400, 31, 1⟩
def F.dchVerifyCtrlAbort (n : Nat) : Field := ⟨0x7038 + n * 0x400, 30, 1⟩
def F.dchVerifyCtrlAll (n : Nat) : Field := ⟨0x7038 + n * 0x400, 29, 1⟩
def F.dchVerifyCtrlCount (n : Nat) : Field := ⟨0x7038 + n * 0x400, 0, 24⟩

-- DCH_VERIFY_RESULT, 07_disk_data_channel.md Table 07.16, R272
def A.dchVerifyResult (n : Nat) : Nat := 0x703C + n * 0x400
def F.dchVerifyResultWeak (n : Nat) : Field := ⟨0x703C + n * 0x400, 16, 16⟩
def F.dchVerifyResultUncorr (n : Nat) : Field := ⟨0x703C + n * 0x400, 0, 16⟩

-- DCH_H_SECT_READ, 07_disk_data_channel.md Table 07.15, R274
def A.dchHSectRead (n : Nat) (i : Nat) : Nat := 0x7100 + n * 0x400 + i * 0x40
def F.dchHSectReadCount (n : Nat) (i : Nat) : Field := ⟨0x7100 + n * 0x400 + i * 0x40, 0, 32⟩

-- DCH_H_SECT_WRITE, 07_disk_data_channel.md Table 07.15, R274
def A.dchHSectWrite (n : Nat) (i : Nat) : Nat := 0x7104 + n * 0x400 + i * 0x40
def F.dchHSectWriteCount (n : Nat) (i : Nat) : Field := ⟨0x7104 + n * 0x400 + i * 0x40, 0, 32⟩

-- DCH_H_SYNC_MISS, 07_disk_data_channel.md Table 07.15, R274
def A.dchHSyncMiss (n : Nat) (i : Nat) : Nat := 0x7108 + n * 0x400 + i * 0x40
def F.dchHSyncMissCount (n : Nat) (i : Nat) : Field := ⟨0x7108 + n * 0x400 + i * 0x40, 0, 32⟩

-- DCH_H_SYNC_OFFSET, 07_disk_data_channel.md Table 07.15, R274
def A.dchHSyncOffset (n : Nat) (i : Nat) : Nat := 0x710C + n * 0x400 + i * 0x40
def F.dchHSyncOffsetCount (n : Nat) (i : Nat) : Field := ⟨0x710C + n * 0x400 + i * 0x40, 0, 32⟩

-- DCH_H_REFRAME_CAND, 07_disk_data_channel.md Table 07.15, R274
def A.dchHReframeCand (n : Nat) (i : Nat) : Nat := 0x7110 + n * 0x400 + i * 0x40
def F.dchHReframeCandCount (n : Nat) (i : Nat) : Field := ⟨0x7110 + n * 0x400 + i * 0x40, 0, 32⟩

-- DCH_H_REFRAME_OFFS, 07_disk_data_channel.md Table 07.15, R274
def A.dchHReframeOffs (n : Nat) (i : Nat) : Nat := 0x7114 + n * 0x400 + i * 0x40
def F.dchHReframeOffsCount (n : Nat) (i : Nat) : Field := ⟨0x7114 + n * 0x400 + i * 0x40, 0, 32⟩

-- DCH_H_LADDER, 07_disk_data_channel.md Table 07.15, R274
def A.dchHLadder (n : Nat) (i : Nat) : Nat := 0x7118 + n * 0x400 + i * 0x40
def F.dchHLadderCount (n : Nat) (i : Nat) : Field := ⟨0x7118 + n * 0x400 + i * 0x40, 0, 32⟩

-- DCH_H_UNCORR, 07_disk_data_channel.md Table 07.15, R274
def A.dchHUncorr (n : Nat) (i : Nat) : Nat := 0x711C + n * 0x400 + i * 0x40
def F.dchHUncorrCount (n : Nat) (i : Nat) : Field := ⟨0x711C + n * 0x400 + i * 0x40, 0, 32⟩

-- DCH_H_VERIFY_FAIL, 07_disk_data_channel.md Table 07.15, R274
def A.dchHVerifyFail (n : Nat) (i : Nat) : Nat := 0x7120 + n * 0x400 + i * 0x40
def F.dchHVerifyFailCount (n : Nat) (i : Nat) : Field := ⟨0x7120 + n * 0x400 + i * 0x40, 0, 32⟩

-- DCH_H_RELOCATE, 07_disk_data_channel.md Table 07.15, R274
def A.dchHRelocate (n : Nat) (i : Nat) : Nat := 0x7124 + n * 0x400 + i * 0x40
def F.dchHRelocateCount (n : Nat) (i : Nat) : Field := ⟨0x7124 + n * 0x400 + i * 0x40, 0, 32⟩

-- DCH_H_REWRITE, 07_disk_data_channel.md Table 07.15, R274
def A.dchHRewrite (n : Nat) (i : Nat) : Nat := 0x7128 + n * 0x400 + i * 0x40
def F.dchHRewriteCount (n : Nat) (i : Nat) : Field := ⟨0x7128 + n * 0x400 + i * 0x40, 0, 32⟩

-- DCH_H_CLOCK_LOSS, 07_disk_data_channel.md Table 07.15, R274
def A.dchHClockLoss (n : Nat) (i : Nat) : Nat := 0x712C + n * 0x400 + i * 0x40
def F.dchHClockLossCount (n : Nat) (i : Nat) : Field := ⟨0x712C + n * 0x400 + i * 0x40, 0, 32⟩

-- DCH_H_WRITE_CUT, 07_disk_data_channel.md Table 07.15, R274
def A.dchHWriteCut (n : Nat) (i : Nat) : Nat := 0x7130 + n * 0x400 + i * 0x40
def F.dchHWriteCutCount (n : Nat) (i : Nat) : Field := ⟨0x7130 + n * 0x400 + i * 0x40, 0, 32⟩

-- DCH_H_MAX_STEP, 07_disk_data_channel.md Table 07.15, R274
def A.dchHMaxStep (n : Nat) (i : Nat) : Nat := 0x7134 + n * 0x400 + i * 0x40
def F.dchHMaxStepStep (n : Nat) (i : Nat) : Field := ⟨0x7134 + n * 0x400 + i * 0x40, 0, 4⟩

-- SRV_CTRL, 08_servo_and_control_engine.md Table 08.17, R313
def A.srvCtrl : Nat := 0x8000
def F.srvCtrlLock : Field := ⟨0x8000, 31, 1⟩
def F.srvCtrlCheck : Field := ⟨0x8000, 2, 1⟩
def F.srvCtrlClearFlags : Field := ⟨0x8000, 1, 1⟩

-- SRV_STATUS, 08_servo_and_control_engine.md Table 08.17, R313
def A.srvStatus : Nat := 0x8004
def F.srvStatusReject : Field := ⟨0x8004, 24, 8⟩
def F.srvStatusTableValid : Field := ⟨0x8004, 23, 1⟩
def F.srvStatusRroMissing : Field := ⟨0x8004, 22, 1⟩
def F.srvStatusWriteRefused : Field := ⟨0x8004, 21, 1⟩
def F.srvStatusCmdDropped : Field := ⟨0x8004, 20, 1⟩
def F.srvStatusSpinState : Field := ⟨0x8004, 16, 4⟩
def F.srvStatusAct1State : Field := ⟨0x8004, 4, 4⟩
def F.srvStatusAct0State : Field := ⟨0x8004, 0, 4⟩

-- SRV_SPIN, 08_servo_and_control_engine.md Table 08.17, R313
def A.srvSpin : Nat := 0x8008
def F.srvSpinStart : Field := ⟨0x8008, 31, 1⟩
def F.srvSpinStop : Field := ⟨0x8008, 30, 1⟩
def F.srvSpinTargetRpm : Field := ⟨0x8008, 0, 14⟩

-- SRV_SPEED, 08_servo_and_control_engine.md Table 08.17, R313
def A.srvSpeed : Nat := 0x800C
def F.srvSpeedRpm : Field := ⟨0x800C, 0, 14⟩

-- SRV_ACT_CMD, 08_servo_and_control_engine.md Table 08.17, R313
def A.srvActCmd (n : Nat) : Nat := 0x8010 + n * 4
def F.srvActCmdOp (n : Nat) : Field := ⟨0x8010 + n * 4, 28, 4⟩
def F.srvActCmdHead (n : Nat) : Field := ⟨0x8010 + n * 4, 24, 4⟩
def F.srvActCmdTrack (n : Nat) : Field := ⟨0x8010 + n * 4, 0, 24⟩

-- SRV_ACT_STATUS, 08_servo_and_control_engine.md Table 08.17, R313
def A.srvActStatus (n : Nat) : Nat := 0x8018 + n * 4
def F.srvActStatusState (n : Nat) : Field := ⟨0x8018 + n * 4, 28, 4⟩
def F.srvActStatusBusy (n : Nat) : Field := ⟨0x8018 + n * 4, 27, 1⟩
def F.srvActStatusOnTrack (n : Nat) : Field := ⟨0x8018 + n * 4, 26, 1⟩
def F.srvActStatusWriteSafe (n : Nat) : Field := ⟨0x8018 + n * 4, 25, 1⟩
def F.srvActStatusTrack (n : Nat) : Field := ⟨0x8018 + n * 4, 0, 24⟩

-- SRV_OFFSET, 08_servo_and_control_engine.md Table 08.17, R313
def A.srvOffset (n : Nat) : Nat := 0x8020 + n * 4
def F.srvOffsetOffset (n : Nat) : Field := ⟨0x8020 + n * 4, 0, 16⟩

-- SRV_WINDOW, 08_servo_and_control_engine.md Table 08.17, R313
def A.srvWindow : Nat := 0x8028
def F.srvWindowWriteWindow : Field := ⟨0x8028, 16, 16⟩
def F.srvWindowReadWindow : Field := ⟨0x8028, 0, 16⟩

-- SRV_SETTLE, 08_servo_and_control_engine.md Table 08.17, R313
def A.srvSettle : Nat := 0x802C
def F.srvSettleWriteCount : Field := ⟨0x802C, 8, 8⟩
def F.srvSettleReadCount : Field := ⟨0x802C, 0, 8⟩

-- SRV_PWR_BUDGET, 08_servo_and_control_engine.md Table 08.17, R313
def A.srvPwrBudget : Nat := 0x8030
def F.srvPwrBudgetBudget : Field := ⟨0x8030, 0, 16⟩

-- SRV_HEATER, 08_servo_and_control_engine.md Table 08.17, R313
def A.srvHeater (n : Nat) : Nat := 0x8034 + n * 4
def F.srvHeaterWriteTarget (n : Nat) : Field := ⟨0x8034 + n * 4, 16, 16⟩
def F.srvHeaterReadTarget (n : Nat) : Field := ⟨0x8034 + n * 4, 0, 16⟩

-- SRV_HEATER_STEP, 08_servo_and_control_engine.md Table 08.17, R313
def A.srvHeaterStep : Nat := 0x803C
def F.srvHeaterStepStep : Field := ⟨0x803C, 0, 16⟩

-- SRV_LOOP_SEL, 08_servo_and_control_engine.md Table 08.17, R313
def A.srvLoopSel : Nat := 0x8040
def F.srvLoopSelLoop : Field := ⟨0x8040, 0, 6⟩

-- SRV_LOOP_FLAGS, 08_servo_and_control_engine.md Table 08.17, R313
def A.srvLoopFlags : Nat := 0x8044
def F.srvLoopFlagsFlags : Field := ⟨0x8044, 0, 8⟩

-- SRV_LOOP_VAL, 08_servo_and_control_engine.md Table 08.17, R313
def A.srvLoopVal : Nat := 0x8048
def F.srvLoopValError : Field := ⟨0x8048, 16, 16⟩
def F.srvLoopValOutput : Field := ⟨0x8048, 0, 16⟩

-- SRV_FLAG_SUM_LO, 08_servo_and_control_engine.md Table 08.17, R313
def A.srvFlagSumLo : Nat := 0x8050
def F.srvFlagSumLoAny : Field := ⟨0x8050, 0, 32⟩

-- SRV_FLAG_SUM_HI, 08_servo_and_control_engine.md Table 08.17, R313
def A.srvFlagSumHi : Nat := 0x8054
def F.srvFlagSumHiAny : Field := ⟨0x8054, 0, 16⟩

-- SRV_TUNE_CTRL, 08_servo_and_control_engine.md Table 08.17, R313
def A.srvTuneCtrl : Nat := 0x8060
def F.srvTuneCtrlStart : Field := ⟨0x8060, 31, 1⟩
def F.srvTuneCtrlAbort : Field := ⟨0x8060, 30, 1⟩
def F.srvTuneCtrlRule : Field := ⟨0x8060, 27, 3⟩
def F.srvTuneCtrlH : Field := ⟨0x8060, 6, 16⟩
def F.srvTuneCtrlLoop : Field := ⟨0x8060, 0, 6⟩

-- SRV_TUNE_CFG, 08_servo_and_control_engine.md Table 08.17, R313
def A.srvTuneCfg : Nat := 0x8064
def F.srvTuneCfgHyst : Field := ⟨0x8064, 16, 16⟩
def F.srvTuneCfgAbortLimit : Field := ⟨0x8064, 0, 16⟩

-- SRV_TUNE_STATUS, 08_servo_and_control_engine.md Table 08.17, R313
def A.srvTuneStatus : Nat := 0x8068
def F.srvTuneStatusState : Field := ⟨0x8068, 28, 4⟩
def F.srvTuneStatusResult : Field := ⟨0x8068, 24, 4⟩
def F.srvTuneStatusTu : Field := ⟨0x8068, 0, 24⟩

-- SRV_TUNE_AMP, 08_servo_and_control_engine.md Table 08.17, R313
def A.srvTuneAmp : Nat := 0x806C
def F.srvTuneAmpA : Field := ⟨0x806C, 0, 16⟩

-- SRV_TUNE_KPI, 08_servo_and_control_engine.md Table 08.17, R313
def A.srvTuneKpi : Nat := 0x8070
def F.srvTuneKpiKi : Field := ⟨0x8070, 16, 16⟩
def F.srvTuneKpiKp : Field := ⟨0x8070, 0, 16⟩

-- SRV_TUNE_KD, 08_servo_and_control_engine.md Table 08.17, R313
def A.srvTuneKd : Nat := 0x8074
def F.srvTuneKdShift : Field := ⟨0x8074, 16, 4⟩
def F.srvTuneKdKd : Field := ⟨0x8074, 0, 16⟩

-- SRV_RETRACT, 08_servo_and_control_engine.md Table 08.17, R313
def A.srvRetract : Nat := 0x8080
def F.srvRetractCount : Field := ⟨0x8080, 16, 16⟩
def F.srvRetractCause : Field := ⟨0x8080, 0, 8⟩

-- SRV_SERVO_ERR, 08_servo_and_control_engine.md Table 08.17, R313
def A.srvServoErr (n : Nat) : Nat := 0x8090 + n * 4
def F.srvServoErrInvalid (n : Nat) : Field := ⟨0x8090 + n * 4, 16, 16⟩
def F.srvServoErrLost (n : Nat) : Field := ⟨0x8090 + n * 4, 8, 8⟩
def F.srvServoErrSettleFail (n : Nat) : Field := ⟨0x8090 + n * 4, 0, 8⟩

-- ENG_VERSION, 09_druot_isa.md Table 09.13, R353
def A.engVersion : Nat := 0x9000
def F.engVersionMaxProfile : Field := ⟨0x9000, 16, 16⟩
def F.engVersionMinProfile : Field := ⟨0x9000, 0, 16⟩

-- ENG_FENCED, 09_druot_isa.md Table 09.13, R353
def A.engFenced : Nat := 0x9008
def F.engFencedFenced : Field := ⟨0x9008, 0, 32⟩

-- ENG_UNFENCE, 09_druot_isa.md Table 09.13, R353
def A.engUnfence : Nat := 0x900C
def F.engUnfenceUnfence : Field := ⟨0x900C, 0, 32⟩

-- ENG_E_STATE, 09_druot_isa.md Table 09.14, R353
def A.engEState (n : Nat) : Nat := 0x9100 + n * 0x20
def F.engEStateState (n : Nat) : Field := ⟨0x9100 + n * 0x20, 29, 3⟩
def F.engEStateInstance (n : Nat) : Field := ⟨0x9100 + n * 0x20, 20, 9⟩
def F.engEStateContext (n : Nat) : Field := ⟨0x9100 + n * 0x20, 0, 18⟩

-- ENG_E_RETIRED, 09_druot_isa.md Table 09.14, R353
def A.engERetired (n : Nat) : Nat := 0x9104 + n * 0x20
def F.engERetiredCount (n : Nat) : Field := ⟨0x9104 + n * 0x20, 0, 32⟩

-- ENG_E_BUSY, 09_druot_isa.md Table 09.14, R353
def A.engEBusy (n : Nat) : Nat := 0x9108 + n * 0x20
def F.engEBusyCount (n : Nat) : Field := ⟨0x9108 + n * 0x20, 0, 32⟩

-- ENG_E_TRAPS, 09_druot_isa.md Table 09.14, R353
def A.engETraps (n : Nat) : Nat := 0x910C + n * 0x20
def F.engETrapsLastCause (n : Nat) : Field := ⟨0x910C + n * 0x20, 24, 8⟩
def F.engETrapsCount (n : Nat) : Field := ⟨0x910C + n * 0x20, 0, 16⟩

-- ENG_E_MEMERR, 09_druot_isa.md Table 09.14, R353
def A.engEMemerr (n : Nat) : Nat := 0x9110 + n * 0x20
def F.engEMemerrLoadUncorr (n : Nat) : Field := ⟨0x9110 + n * 0x20, 16, 16⟩
def F.engEMemerrIcacheParity (n : Nat) : Field := ⟨0x9110 + n * 0x20, 0, 16⟩

-- TSK_VERSION, 10_takes.md Table 10.13, R384
def A.tskVersion : Nat := 0xA000
def F.tskVersionMaxScript : Field := ⟨0xA000, 16, 16⟩
def F.tskVersionMinScript : Field := ⟨0xA000, 0, 16⟩

-- TSK_DESC_VERSION, 10_takes.md Table 10.13, R384
def A.tskDescVersion : Nat := 0xA004
def F.tskDescVersionMaxDesc : Field := ⟨0xA004, 16, 16⟩
def F.tskDescVersionMinDesc : Field := ⟨0xA004, 0, 16⟩

-- TSK_CTX_USE, 10_takes.md Table 10.13, R384
def A.tskCtxUse : Nat := 0xA008
def F.tskCtxUseInUse : Field := ⟨0xA008, 0, 19⟩

-- TSK_TASK_USE, 10_takes.md Table 10.13, R384
def A.tskTaskUse : Nat := 0xA00C
def F.tskTaskUseInUse : Field := ⟨0xA00C, 0, 17⟩

-- TSK_STORE, 10_takes.md Table 10.13, R384
def A.tskStore : Nat := 0xA010
def F.tskStoreImages : Field := ⟨0xA010, 16, 16⟩
def F.tskStoreFree : Field := ⟨0xA010, 0, 16⟩

-- TSK_TICK, 10_takes.md Table 10.13, R384
def A.tskTick : Nat := 0xA014
def F.tskTickCount : Field := ⟨0xA014, 0, 32⟩

-- TSK_CNT_COMMIT, 10_takes.md Table 10.13, R384
def A.tskCntCommit : Nat := 0xA018
def F.tskCntCommitCount : Field := ⟨0xA018, 0, 32⟩

-- TSK_CNT_FAULT, 10_takes.md Table 10.13, R384
def A.tskCntFault : Nat := 0xA01C
def F.tskCntFaultCount : Field := ⟨0xA01C, 0, 32⟩

-- TSK_CNT_RESTART, 10_takes.md Table 10.13, R384
def A.tskCntRestart : Nat := 0xA020
def F.tskCntRestartCount : Field := ⟨0xA020, 0, 32⟩

-- TSK_CTX_SEL, 10_takes.md Table 10.13, R384
def A.tskCtxSel : Nat := 0xA030
def F.tskCtxSelHandle : Field := ⟨0xA030, 0, 18⟩

-- TSK_CTX_DATA, 10_takes.md Table 10.13, R384
def A.tskCtxData (n : Nat) : Nat := 0xA040 + n * 4
def F.tskCtxDataWord (n : Nat) : Field := ⟨0xA040 + n * 4, 0, 32⟩

-- TSK_C_READY01, 10_takes.md Table 10.14, R384
def A.tskCReady01 (n : Nat) : Nat := 0xA100 + n * 0x20
def F.tskCReady01Level1 (n : Nat) : Field := ⟨0xA100 + n * 0x20, 16, 16⟩
def F.tskCReady01Level0 (n : Nat) : Field := ⟨0xA100 + n * 0x20, 0, 16⟩

-- TSK_C_READY23, 10_takes.md Table 10.14, R384
def A.tskCReady23 (n : Nat) : Nat := 0xA104 + n * 0x20
def F.tskCReady23Level3 (n : Nat) : Field := ⟨0xA104 + n * 0x20, 16, 16⟩
def F.tskCReady23Level2 (n : Nat) : Field := ⟨0xA104 + n * 0x20, 0, 16⟩

-- TSK_C_DELAY, 10_takes.md Table 10.14, R384
def A.tskCDelay (n : Nat) : Nat := 0xA108 + n * 0x20
def F.tskCDelayCount (n : Nat) : Field := ⟨0xA108 + n * 0x20, 0, 17⟩

-- TSK_C_OVERFLOW, 10_takes.md Table 10.14, R384
def A.tskCOverflow (n : Nat) : Nat := 0xA10C + n * 0x20
def F.tskCOverflowCount (n : Nat) : Field := ⟨0xA10C + n * 0x20, 0, 17⟩

-- TSK_C_SHARED, 10_takes.md Table 10.14, R384
def A.tskCShared (n : Nat) : Nat := 0xA110 + n * 0x20
def F.tskCSharedLargest (n : Nat) : Field := ⟨0xA110 + n * 0x20, 8, 7⟩
def F.tskCSharedFree (n : Nat) : Field := ⟨0xA110 + n * 0x20, 0, 7⟩

-- TSK_C_DISPATCH, 10_takes.md Table 10.14, R384
def A.tskCDispatch (n : Nat) : Nat := 0xA114 + n * 0x20
def F.tskCDispatchCount (n : Nat) : Field := ⟨0xA114 + n * 0x20, 0, 32⟩

-- TSK_C_SWITCH, 10_takes.md Table 10.14, R384
def A.tskCSwitch (n : Nat) : Nat := 0xA118 + n * 0x20
def F.tskCSwitchCount (n : Nat) : Field := ⟨0xA118 + n * 0x20, 0, 32⟩

-- PMX_VERSION, 11_search_and_compression.md Table 11.13, R417
def A.pmxVersion : Nat := 0xB000
def F.pmxVersionMaxVersion : Field := ⟨0xB000, 16, 16⟩
def F.pmxVersionMinVersion : Field := ⟨0xB000, 0, 16⟩

-- PMX_STATUS, 11_search_and_compression.md Table 11.13, R417
def A.pmxStatus : Nat := 0xB004
def F.pmxStatusMoverBusy : Field := ⟨0xB004, 16, 1⟩
def F.pmxStatusMoverBank : Field := ⟨0xB004, 12, 4⟩
def F.pmxStatusScanBusy : Field := ⟨0xB004, 0, 8⟩

-- PMX_STORE, 11_search_and_compression.md Table 11.13, R417
def A.pmxStore : Nat := 0xB008
def F.pmxStoreTenantFree : Field := ⟨0xB008, 16, 12⟩
def F.pmxStoreSystemFree : Field := ⟨0xB008, 0, 10⟩

-- PMX_BANK_OWNER, 11_search_and_compression.md Table 11.13, R417
def A.pmxBankOwner (n : Nat) : Nat := 0xB040 + n * 4
def F.pmxBankOwnerOwner (n : Nat) : Field := ⟨0xB040 + n * 4, 16, 10⟩
def F.pmxBankOwnerValid (n : Nat) : Field := ⟨0xB040 + n * 4, 0, 13⟩

-- PMX_CNT_SCAN, 11_search_and_compression.md Table 11.13, R417
def A.pmxCntScan : Nat := 0xB080
def F.pmxCntScanKib : Field := ⟨0xB080, 0, 32⟩

-- PMX_CNT_LOOKUP, 11_search_and_compression.md Table 11.13, R417
def A.pmxCntLookup : Nat := 0xB084
def F.pmxCntLookupKeys : Field := ⟨0xB084, 0, 32⟩

-- PMX_CNT_UPDATE, 11_search_and_compression.md Table 11.13, R417
def A.pmxCntUpdate : Nat := 0xB088
def F.pmxCntUpdateCycles : Field := ⟨0xB088, 0, 32⟩

-- PMX_CNT_FALSE, 11_search_and_compression.md Table 11.13, R417
def A.pmxCntFalse : Nat := 0xB08C
def F.pmxCntFalseHits : Field := ⟨0xB08C, 0, 32⟩

-- PMX_CNT_SHADOW_UE, 11_search_and_compression.md Table 11.13, R417
def A.pmxCntShadowUe : Nat := 0xB090
def F.pmxCntShadowUeEntries : Field := ⟨0xB090, 0, 32⟩

-- PMX_CNT_INSTALL, 11_search_and_compression.md Table 11.13, R417
def A.pmxCntInstall : Nat := 0xB094
def F.pmxCntInstallRejected : Field := ⟨0xB094, 16, 16⟩
def F.pmxCntInstallDone : Field := ⟨0xB094, 0, 16⟩

-- CMP_STATUS, 11_search_and_compression.md Table 11.14, R418
def A.cmpStatus : Nat := 0xC000
def F.cmpStatusWaiting : Field := ⟨0xC000, 8, 8⟩
def F.cmpStatusLane : Field := ⟨0xC000, 0, 8⟩

-- CMP_INJECT, 11_search_and_compression.md Table 11.14, R418
def A.cmpInject : Nat := 0xC004
def F.cmpInjectLane : Field := ⟨0xC004, 0, 4⟩

-- CMP_CNT_JOBS, 11_search_and_compression.md Table 11.14, R418
def A.cmpCntJobs : Nat := 0xC010
def F.cmpCntJobsDecompress : Field := ⟨0xC010, 16, 16⟩
def F.cmpCntJobsCompress : Field := ⟨0xC010, 0, 16⟩

-- CMP_CNT_IN, 11_search_and_compression.md Table 11.14, R418
def A.cmpCntIn : Nat := 0xC014
def F.cmpCntInMib : Field := ⟨0xC014, 0, 32⟩

-- CMP_CNT_OUT, 11_search_and_compression.md Table 11.14, R418
def A.cmpCntOut : Nat := 0xC018
def F.cmpCntOutMib : Field := ⟨0xC018, 0, 32⟩

-- CMP_CNT_VERIFY, 11_search_and_compression.md Table 11.14, R418
def A.cmpCntVerify : Nat := 0xC01C
def F.cmpCntVerifyBlocks : Field := ⟨0xC01C, 0, 32⟩

-- CMP_CNT_ERR, 11_search_and_compression.md Table 11.14, R418
def A.cmpCntErr : Nat := 0xC020
def F.cmpCntErrExpansion : Field := ⟨0xC020, 24, 8⟩
def F.cmpCntErrCorrupt : Field := ⟨0xC020, 16, 8⟩
def F.cmpCntErrUnsupported : Field := ⟨0xC020, 8, 8⟩
def F.cmpCntErrOutputFull : Field := ⟨0xC020, 0, 8⟩

-- SEC_STATUS, 12_security.md Table 12.13, R446
def A.secStatus : Nat := 0xD000
def F.secStatusKeysDisabled : Field := ⟨0xD000, 4, 1⟩
def F.secStatusSwkNew : Field := ⟨0xD000, 3, 1⟩
def F.secStatusEntropyFail : Field := ⟨0xD000, 2, 1⟩
def F.secStatusTampered : Field := ⟨0xD000, 1, 1⟩

-- SEC_KEY_CMD, 12_security.md Table 12.13, R446
def A.secKeyCmd : Nat := 0xD004
def F.secKeyCmdOp : Field := ⟨0xD004, 28, 4⟩
def F.secKeyCmdClass : Field := ⟨0xD004, 24, 4⟩
def F.secKeyCmdWrapSlot : Field := ⟨0xD004, 12, 12⟩
def F.secKeyCmdSlot : Field := ⟨0xD004, 0, 12⟩

-- SEC_KEY_STATUS, 12_security.md Table 12.13, R446
def A.secKeyStatus : Nat := 0xD008
def F.secKeyStatusBusy : Field := ⟨0xD008, 31, 1⟩
def F.secKeyStatusResult : Field := ⟨0xD008, 0, 8⟩

-- SEC_BLOB_ADDR, 12_security.md Table 12.13, R446
def A.secBlobAddr : Nat := 0xD00C
def F.secBlobAddrWord : Field := ⟨0xD00C, 2, 6⟩

-- SEC_BLOB_DATA, 12_security.md Table 12.13, R446
def A.secBlobData : Nat := 0xD010
def F.secBlobDataData : Field := ⟨0xD010, 0, 32⟩

-- SEC_SLOT_SEL, 12_security.md Table 12.13, R446
def A.secSlotSel : Nat := 0xD014
def F.secSlotSelSlot : Field := ⟨0xD014, 0, 12⟩

-- SEC_SLOT_INFO, 12_security.md Table 12.13, R446
def A.secSlotInfo : Nat := 0xD018
def F.secSlotInfoFull : Field := ⟨0xD018, 31, 1⟩
def F.secSlotInfoClass : Field := ⟨0xD018, 28, 3⟩
def F.secSlotInfoBound : Field := ⟨0xD018, 27, 1⟩
def F.secSlotInfoKeyLen : Field := ⟨0xD018, 0, 8⟩

-- SEC_SLOT_LABEL, 12_security.md Table 12.13, R446
def A.secSlotLabel : Nat := 0xD01C
def F.secSlotLabelLabel : Field := ⟨0xD01C, 0, 32⟩

-- SEC_NS_SEL, 12_security.md Table 12.13, R446
def A.secNsSel : Nat := 0xD020
def F.secNsSelNsid : Field := ⟨0xD020, 0, 11⟩

-- SEC_NS_KEY, 12_security.md Table 12.13, R446
def A.secNsKey : Nat := 0xD024
def F.secNsKeyBound : Field := ⟨0xD024, 31, 1⟩
def F.secNsKeySlot : Field := ⟨0xD024, 0, 12⟩

-- SEC_DIGEST_CFG, 12_security.md Table 12.13, R446
def A.secDigestCfg : Nat := 0xD028
def F.secDigestCfgSlice : Field := ⟨0xD028, 0, 24⟩

-- SEC_TAMPER, 12_security.md Table 12.13, R446
def A.secTamper : Nat := 0xD02C
def F.secTamperCause : Field := ⟨0xD02C, 0, 5⟩

-- SEC_LIFECYCLE, 12_security.md Table 12.13, R446
def A.secLifecycle : Nat := 0xD030
def F.secLifecycleLockCode : Field := ⟨0xD030, 16, 16⟩
def F.secLifecycleState : Field := ⟨0xD030, 0, 1⟩

-- SEC_ROLLBACK, 12_security.md Table 12.13, R446
def A.secRollback : Nat := 0xD034
def F.secRollbackMinSvn : Field := ⟨0xD034, 0, 32⟩

-- SEC_CNT_AUTH, 12_security.md Table 12.13, R446
def A.secCntAuth : Nat := 0xD040
def F.secCntAuthAuthFail : Field := ⟨0xD040, 16, 16⟩
def F.secCntAuthMisuse : Field := ⟨0xD040, 0, 16⟩

-- SEC_CNT_DIGEST, 12_security.md Table 12.13, R446
def A.secCntDigest : Nat := 0xD044
def F.secCntDigestPreempt : Field := ⟨0xD044, 16, 16⟩
def F.secCntDigestJobs : Field := ⟨0xD044, 0, 16⟩

-- SEC_CNT_ENTROPY, 12_security.md Table 12.13, R446
def A.secCntEntropy : Nat := 0xD048
def F.secCntEntropyHealthFail : Field := ⟨0xD048, 16, 16⟩
def F.secCntEntropyReseed : Field := ⟨0xD048, 0, 16⟩

-- MEM_CTRL, 13_memory_and_ecc.md Table 13.8, R474
def A.memCtrl : Nat := 0xE000
def F.memCtrlLock : Field := ⟨0xE000, 31, 1⟩
def F.memCtrlScrubEn : Field := ⟨0xE000, 3, 1⟩
def F.memCtrlRetrain : Field := ⟨0xE000, 1, 2⟩

-- MEM_STATUS, 13_memory_and_ecc.md Table 13.8, R474
def A.memStatus : Nat := 0xE004
def F.memStatusCh1State : Field := ⟨0xE004, 28, 4⟩
def F.memStatusCh0State : Field := ⟨0xE004, 24, 4⟩
def F.memStatusCh1Rate : Field := ⟨0xE004, 20, 4⟩
def F.memStatusCh0Rate : Field := ⟨0xE004, 16, 4⟩
def F.memStatusRank1Off : Field := ⟨0xE004, 10, 1⟩
def F.memStatusMapTooLarge : Field := ⟨0xE004, 9, 1⟩
def F.memStatusSubFailed : Field := ⟨0xE004, 0, 4⟩

-- MEM_DDR_CFG, 13_memory_and_ecc.md Table 13.8, R474
def A.memDdrCfg : Nat := 0xE008
def F.memDdrCfgMaxRate : Field := ⟨0xE008, 4, 4⟩
def F.memDdrCfgRanks : Field := ⟨0xE008, 2, 1⟩
def F.memDdrCfgDensity : Field := ⟨0xE008, 0, 2⟩

-- MEM_PAGE, 13_memory_and_ecc.md Table 13.8, R474
def A.memPage : Nat := 0xE00C
def F.memPageIdle : Field := ⟨0xE00C, 0, 12⟩

-- MEM_WQ, 13_memory_and_ecc.md Table 13.8, R474
def A.memWq : Nat := 0xE010
def F.memWqHigh : Field := ⟨0xE010, 8, 6⟩
def F.memWqLow : Field := ⟨0xE010, 0, 6⟩

-- MEM_RH, 13_memory_and_ecc.md Table 13.8, R474
def A.memRh : Nat := 0xE014
def F.memRhRadius : Field := ⟨0xE014, 8, 1⟩
def F.memRhK : Field := ⟨0xE014, 0, 4⟩

-- MEM_SCRUB, 13_memory_and_ecc.md Table 13.8, R474
def A.memScrub : Nat := 0xE018
def F.memScrubPeriodH : Field := ⟨0xE018, 24, 8⟩
def F.memScrubProgress : Field := ⟨0xE018, 0, 16⟩

-- MEM_FILL, 13_memory_and_ecc.md Table 13.8, R474
def A.memFill : Nat := 0xE01C
def F.memFillLeft : Field := ⟨0xE01C, 0, 21⟩

-- MEM_HEAL_CTRL, 13_memory_and_ecc.md Table 13.8, R474
def A.memHealCtrl : Nat := 0xE020
def F.memHealCtrlGo : Field := ⟨0xE020, 31, 1⟩
def F.memHealCtrlResult : Field := ⟨0xE020, 8, 3⟩
def F.memHealCtrlMemId : Field := ⟨0xE020, 0, 8⟩

-- MEM_HEAL_ADDR, 13_memory_and_ecc.md Table 13.8, R474
def A.memHealAddr : Nat := 0xE024
def F.memHealAddrUnit : Field := ⟨0xE024, 0, 32⟩

-- MEM_ERR_UE_INFO, 13_memory_and_ecc.md Table 13.8, R474
def A.memErrUeInfo : Nat := 0xE030
def F.memErrUeInfoValid : Field := ⟨0xE030, 31, 1⟩
def F.memErrUeInfoMemId : Field := ⟨0xE030, 16, 8⟩
def F.memErrUeInfoRank : Field := ⟨0xE030, 4, 1⟩
def F.memErrUeInfoDevice : Field := ⟨0xE030, 0, 4⟩

-- MEM_ERR_UE_ADDR, 13_memory_and_ecc.md Table 13.8, R474
def A.memErrUeAddr : Nat := 0xE034
def F.memErrUeAddrUnit : Field := ⟨0xE034, 0, 32⟩

-- MEM_ERR_CE_INFO, 13_memory_and_ecc.md Table 13.8, R474
def A.memErrCeInfo : Nat := 0xE038
def F.memErrCeInfoValid : Field := ⟨0xE038, 31, 1⟩
def F.memErrCeInfoMemId : Field := ⟨0xE038, 16, 8⟩
def F.memErrCeInfoRank : Field := ⟨0xE038, 4, 1⟩
def F.memErrCeInfoDevice : Field := ⟨0xE038, 0, 4⟩

-- MEM_ERR_CE_ADDR, 13_memory_and_ecc.md Table 13.8, R474
def A.memErrCeAddr : Nat := 0xE03C
def F.memErrCeAddrUnit : Field := ⟨0xE03C, 0, 32⟩

-- MEM_FLIP_CTRL, 13_memory_and_ecc.md Table 13.8, R474
def A.memFlipCtrl : Nat := 0xE040
def F.memFlipCtrlArm : Field := ⟨0xE040, 31, 1⟩
def F.memFlipCtrlAddrMatch : Field := ⟨0xE040, 30, 1⟩
def F.memFlipCtrlMemId : Field := ⟨0xE040, 0, 8⟩

-- MEM_FLIP_ADDR, 13_memory_and_ecc.md Table 13.8, R474
def A.memFlipAddr : Nat := 0xE044
def F.memFlipAddrUnit : Field := ⟨0xE044, 0, 32⟩

-- MEM_FLIP_MASK, 13_memory_and_ecc.md Table 13.8, R474
def A.memFlipMask (n : Nat) : Nat := 0xE080 + n * 4
def F.memFlipMaskMask (n : Nat) : Field := ⟨0xE080 + n * 4, 0, 32⟩

-- MEM_SUB_CE, 13_memory_and_ecc.md Table 13.8, R474
def A.memSubCe (n : Nat) : Nat := 0xE100 + n * 0x20
def F.memSubCeCount (n : Nat) : Field := ⟨0xE100 + n * 0x20, 0, 32⟩

-- MEM_SUB_UE, 13_memory_and_ecc.md Table 13.8, R474
def A.memSubUe (n : Nat) : Nat := 0xE104 + n * 0x20
def F.memSubUeCount (n : Nat) : Field := ⟨0xE104 + n * 0x20, 0, 32⟩

-- MEM_SUB_CA, 13_memory_and_ecc.md Table 13.8, R474
def A.memSubCa (n : Nat) : Nat := 0xE108 + n * 0x20
def F.memSubCaAlerts (n : Nat) : Field := ⟨0xE108 + n * 0x20, 16, 16⟩
def F.memSubCaEpisodes (n : Nat) : Field := ⟨0xE108 + n * 0x20, 0, 16⟩

-- MEM_SUB_RH, 13_memory_and_ecc.md Table 13.8, R474
def A.memSubRh (n : Nat) : Nat := 0xE10C + n * 0x20
def F.memSubRhCount (n : Nat) : Field := ⟨0xE10C + n * 0x20, 0, 32⟩

-- MEM_SUB_RMW, 13_memory_and_ecc.md Table 13.8, R474
def A.memSubRmw (n : Nat) : Nat := 0xE110 + n * 0x20
def F.memSubRmwDropped (n : Nat) : Field := ⟨0xE110 + n * 0x20, 16, 16⟩
def F.memSubRmwDone (n : Nat) : Field := ⟨0xE110 + n * 0x20, 0, 16⟩

-- MEM_SRAM_CNT, 13_memory_and_ecc.md Table 13.8, R474
def A.memSramCnt (n : Nat) : Nat := 0xE200 + n * 4
def F.memSramCntCe (n : Nat) : Field := ⟨0xE200 + n * 4, 16, 16⟩
def F.memSramCntUe (n : Nat) : Field := ⟨0xE200 + n * 4, 0, 16⟩

-- CNT_CTRL, 14_continuity_pairs.md Table 14.13, R503
def A.cntCtrl : Nat := 0xF000
def F.cntCtrlLock : Field := ⟨0xF000, 31, 1⟩
def F.cntCtrlRetrain : Field := ⟨0xF000, 1, 1⟩
def F.cntCtrlLinkEn : Field := ⟨0xF000, 0, 1⟩

-- CNT_STATUS, 14_continuity_pairs.md Table 14.13, R503
def A.cntStatus : Nat := 0xF004
def F.cntStatusPairState : Field := ⟨0xF004, 28, 4⟩
def F.cntStatusRole : Field := ⟨0xF004, 26, 2⟩
def F.cntStatusHbPresent : Field := ⟨0xF004, 25, 1⟩
def F.cntStatusHbLost : Field := ⟨0xF004, 24, 1⟩
def F.cntStatusConflict : Field := ⟨0xF004, 23, 1⟩
def F.cntStatusVersionMismatch : Field := ⟨0xF004, 22, 1⟩
def F.cntStatusAuthFail : Field := ⟨0xF004, 21, 1⟩
def F.cntStatusDomainMismatch : Field := ⟨0xF004, 20, 1⟩
def F.cntStatusPeerReject : Field := ⟨0xF004, 19, 1⟩
def F.cntStatusLogOverflow : Field := ⟨0xF004, 18, 1⟩
def F.cntStatusWidth : Field := ⟨0xF004, 15, 3⟩

-- CNT_VERSION, 14_continuity_pairs.md Table 14.13, R503
def A.cntVersion : Nat := 0xF008
def F.cntVersionMaxVersion : Field := ⟨0xF008, 16, 16⟩
def F.cntVersionMinVersion : Field := ⟨0xF008, 0, 16⟩

-- CNT_NEGOTIATED, 14_continuity_pairs.md Table 14.13, R503
def A.cntNegotiated : Nat := 0xF00C
def F.cntNegotiatedVersion : Field := ⟨0xF00C, 0, 16⟩

-- CNT_CFG, 14_continuity_pairs.md Table 14.13, R503
def A.cntCfg : Nat := 0xF010
def F.cntCfgMode : Field := ⟨0xF010, 31, 1⟩
def F.cntCfgPolicy : Field := ⟨0xF010, 30, 1⟩
def F.cntCfgLinkSlot : Field := ⟨0xF010, 16, 12⟩
def F.cntCfgAckTimeout : Field := ⟨0xF010, 8, 8⟩

-- CNT_LAG, 14_continuity_pairs.md Table 14.13, R503
def A.cntLag : Nat := 0xF014
def F.cntLagLagMax : Field := ⟨0xF014, 16, 16⟩
def F.cntLagLag : Field := ⟨0xF014, 0, 16⟩

-- CNT_DEVNUM, 14_continuity_pairs.md Table 14.13, R503
def A.cntDevnum : Nat := 0xF018
def F.cntDevnumPartner : Field := ⟨0xF018, 12, 10⟩
def F.cntDevnumDevnum : Field := ⟨0xF018, 0, 10⟩

-- CNT_DOMAIN, 14_continuity_pairs.md Table 14.13, R503
def A.cntDomain : Nat := 0xF01C
def F.cntDomainDomain : Field := ⟨0xF01C, 0, 32⟩

-- CNT_EPOCH, 14_continuity_pairs.md Table 14.13, R503
def A.cntEpoch : Nat := 0xF020
def F.cntEpochEpoch : Field := ⟨0xF020, 0, 32⟩

-- CNT_PEER_EPOCH, 14_continuity_pairs.md Table 14.13, R503
def A.cntPeerEpoch : Nat := 0xF024
def F.cntPeerEpochEpoch : Field := ⟨0xF024, 0, 32⟩

-- CNT_ORDER, 14_continuity_pairs.md Table 14.13, R503
def A.cntOrder : Nat := 0xF028
def F.cntOrderOp : Field := ⟨0xF028, 28, 4⟩

-- CNT_ORDER_EPOCH, 14_continuity_pairs.md Table 14.13, R503
def A.cntOrderEpoch : Nat := 0xF02C
def F.cntOrderEpochEpoch : Field := ⟨0xF02C, 0, 32⟩

-- CNT_ORDER_STATUS, 14_continuity_pairs.md Table 14.13, R503
def A.cntOrderStatus : Nat := 0xF030
def F.cntOrderStatusBusy : Field := ⟨0xF030, 31, 1⟩
def F.cntOrderStatusResult : Field := ⟨0xF030, 0, 8⟩

-- CNT_RESYNC_PCT, 14_continuity_pairs.md Table 14.13, R503
def A.cntResyncPct : Nat := 0xF034
def F.cntResyncPctPct : Field := ⟨0xF034, 0, 16⟩

-- CNT_RESYNC_NSID, 14_continuity_pairs.md Table 14.13, R503
def A.cntResyncNsid : Nat := 0xF038
def F.cntResyncNsidNsid : Field := ⟨0xF038, 0, 11⟩

-- CNT_RESYNC_LBA_LO, 14_continuity_pairs.md Table 14.13, R503
def A.cntResyncLbaLo : Nat := 0xF03C
def F.cntResyncLbaLoLbaLo : Field := ⟨0xF03C, 0, 32⟩

-- CNT_RESYNC_LBA_HI, 14_continuity_pairs.md Table 14.13, R503
def A.cntResyncLbaHi : Nat := 0xF040
def F.cntResyncLbaHiLbaHi : Field := ⟨0xF040, 0, 32⟩

-- CNT_DIRTY, 14_continuity_pairs.md Table 14.13, R503
def A.cntDirty : Nat := 0xF044
def F.cntDirtyExtents : Field := ⟨0xF044, 0, 32⟩

-- CNT_HB, 14_continuity_pairs.md Table 14.13, R503
def A.cntHb : Nat := 0xF048
def F.cntHbTimeout : Field := ⟨0xF048, 0, 8⟩

-- CNT_CNT_LINK, 14_continuity_pairs.md Table 14.13, R503
def A.cntCntLink : Nat := 0xF050
def F.cntCntLinkReplays : Field := ⟨0xF050, 16, 16⟩
def F.cntCntLinkCrcErr : Field := ⟨0xF050, 0, 16⟩

-- CNT_CNT_PAIR, 14_continuity_pairs.md Table 14.13, R503
def A.cntCntPair : Nat := 0xF054
def F.cntCntPairSeparations : Field := ⟨0xF054, 16, 16⟩
def F.cntCntPairRefused : Field := ⟨0xF054, 0, 16⟩

-- CNT_CNT_MSG, 14_continuity_pairs.md Table 14.13, R503
def A.cntCntMsg : Nat := 0xF058
def F.cntCntMsgSent : Field := ⟨0xF058, 0, 32⟩

-- NVS_UNLOCK, 16_nvs_and_update.md Table 16.11, R565
def A.nvsUnlock : Nat := 0x10000
def F.nvsUnlockKey : Field := ⟨0x10000, 0, 16⟩

-- NVS_ADDR, 16_nvs_and_update.md Table 16.11, R565
def A.nvsAddr : Nat := 0x10004
def F.nvsAddrUnit : Field := ⟨0x10004, 3, 20⟩

-- NVS_DATA_LO, 16_nvs_and_update.md Table 16.11, R565
def A.nvsDataLo : Nat := 0x10008
def F.nvsDataLoData : Field := ⟨0x10008, 0, 32⟩

-- NVS_DATA_HI, 16_nvs_and_update.md Table 16.11, R565
def A.nvsDataHi : Nat := 0x1000C
def F.nvsDataHiData : Field := ⟨0x1000C, 0, 32⟩

-- NVS_CMD, 16_nvs_and_update.md Table 16.11, R565
def A.nvsCmd : Nat := 0x10010
def F.nvsCmdOp : Field := ⟨0x10010, 0, 4⟩

-- NVS_STATUS, 16_nvs_and_update.md Table 16.11, R565
def A.nvsStatus : Nat := 0x10014
def F.nvsStatusResult : Field := ⟨0x10014, 8, 8⟩
def F.nvsStatusImageFlagged : Field := ⟨0x10014, 7, 1⟩
def F.nvsStatusDropped : Field := ⟨0x10014, 6, 1⟩
def F.nvsStatusUnlockErr : Field := ⟨0x10014, 5, 1⟩
def F.nvsStatusArmed : Field := ⟨0x10014, 4, 1⟩
def F.nvsStatusBank : Field := ⟨0x10014, 3, 1⟩
def F.nvsStatusSuspended : Field := ⟨0x10014, 2, 1⟩
def F.nvsStatusFail : Field := ⟨0x10014, 1, 1⟩
def F.nvsStatusBusy : Field := ⟨0x10014, 0, 1⟩

-- NVS_PULSES, 16_nvs_and_update.md Table 16.11, R565
def A.nvsPulses : Nat := 0x10018
def F.nvsPulsesPulses : Field := ⟨0x10018, 0, 8⟩

-- NVS_RING, 16_nvs_and_update.md Table 16.11, R565
def A.nvsRing : Nat := 0x10020
def F.nvsRingGap : Field := ⟨0x10020, 16, 11⟩
def F.nvsRingStart : Field := ⟨0x10020, 0, 11⟩

-- NVS_MOVES, 16_nvs_and_update.md Table 16.11, R565
def A.nvsMoves : Nat := 0x10024
def F.nvsMovesMoves : Field := ⟨0x10024, 0, 24⟩

-- NVS_SPARES, 16_nvs_and_update.md Table 16.11, R565
def A.nvsSpares : Nat := 0x10028
def F.nvsSparesLeft : Field := ⟨0x10028, 0, 8⟩

-- NVS_CNT, 16_nvs_and_update.md Table 16.11, R565
def A.nvsCnt : Nat := 0x1002C
def F.nvsCntCorrected : Field := ⟨0x1002C, 16, 16⟩
def F.nvsCntUncorr : Field := ⟨0x1002C, 8, 8⟩
def F.nvsCntReerased : Field := ⟨0x1002C, 0, 8⟩

-- UPD_CTRL, 16_nvs_and_update.md Table 16.12, R566
def A.updCtrl : Nat := 0x11000
def F.updCtrlSlot : Field := ⟨0x11000, 8, 1⟩
def F.updCtrlAction : Field := ⟨0x11000, 4, 4⟩
def F.updCtrlCmd : Field := ⟨0x11000, 0, 4⟩

-- UPD_STATUS, 16_nvs_and_update.md Table 16.12, R566
def A.updStatus : Nat := 0x11004
def F.updStatusBusy : Field := ⟨0x11004, 31, 1⟩
def F.updStatusOwner : Field := ⟨0x11004, 8, 2⟩
def F.updStatusResult : Field := ⟨0x11004, 0, 8⟩

-- UPD_OFFSET, 16_nvs_and_update.md Table 16.12, R566
def A.updOffset : Nat := 0x11008
def F.updOffsetChunk : Field := ⟨0x11008, 12, 9⟩

-- UPD_DATA, 16_nvs_and_update.md Table 16.12, R566
def A.updData : Nat := 0x1100C
def F.updDataData : Field := ⟨0x1100C, 0, 32⟩

-- UPD_RUNNING, 16_nvs_and_update.md Table 16.12, R566
def A.updRunning : Nat := 0x11010
def F.updRunningVersion : Field := ⟨0x11010, 0, 32⟩

-- UPD_SLOT_A, 16_nvs_and_update.md Table 16.12, R566
def A.updSlotA : Nat := 0x11014
def F.updSlotAVersion : Field := ⟨0x11014, 0, 32⟩

-- UPD_SLOT_B, 16_nvs_and_update.md Table 16.12, R566
def A.updSlotB : Nat := 0x11018
def F.updSlotBVersion : Field := ⟨0x11018, 0, 32⟩

-- UPD_SLOTS, 16_nvs_and_update.md Table 16.12, R566
def A.updSlots : Nat := 0x1101C
def F.updSlotsTrialFailed : Field := ⟨0x1101C, 3, 1⟩
def F.updSlotsTrial : Field := ⟨0x1101C, 2, 1⟩
def F.updSlotsNext : Field := ⟨0x1101C, 1, 1⟩
def F.updSlotsActive : Field := ⟨0x1101C, 0, 1⟩

-- UPD_SETTINGS_VER, 16_nvs_and_update.md Table 16.12, R566
def A.updSettingsVer : Nat := 0x11020
def F.updSettingsVerMax : Field := ⟨0x11020, 16, 16⟩
def F.updSettingsVerMin : Field := ⟨0x11020, 0, 16⟩

-- UPD_SETTINGS_STATUS, 16_nvs_and_update.md Table 16.12, R566
def A.updSettingsStatus : Nat := 0x11024
def F.updSettingsStatusOutcome : Field := ⟨0x11024, 16, 2⟩
def F.updSettingsStatusVersion : Field := ⟨0x11024, 0, 16⟩

-- UPD_SET_OFFSET, 16_nvs_and_update.md Table 16.12, R566
def A.updSetOffset : Nat := 0x11028
def F.updSetOffsetWord : Field := ⟨0x11028, 2, 14⟩

-- UPD_SET_DATA, 16_nvs_and_update.md Table 16.12, R566
def A.updSetData : Nat := 0x1102C
def F.updSetDataData : Field := ⟨0x1102C, 0, 32⟩

-- UPD_SERVICE, 16_nvs_and_update.md Table 16.12, R566
def A.updService : Nat := 0x11030
def F.updServiceReq : Field := ⟨0x11030, 0, 1⟩

-- MGT_PROTO, 15_management_modes_power.md Table 15.16, R536
def A.mgtProto : Nat := 0x12000
def F.mgtProtoMax : Field := ⟨0x12000, 16, 16⟩
def F.mgtProtoMin : Field := ⟨0x12000, 0, 16⟩

-- MGT_PROTO_SEL, 15_management_modes_power.md Table 15.16, R536
def A.mgtProtoSel : Nat := 0x12004
def F.mgtProtoSelVersion : Field := ⟨0x12004, 0, 16⟩

-- MGT_I3C_CFG, 15_management_modes_power.md Table 15.16, R536
def A.mgtI3cCfg : Nat := 0x12008
def F.mgtI3cCfgI2cOnly : Field := ⟨0x12008, 31, 1⟩
def F.mgtI3cCfgStaticAddr : Field := ⟨0x12008, 0, 7⟩

-- MGT_I3C_STATUS, 15_management_modes_power.md Table 15.16, R536
def A.mgtI3cStatus : Nat := 0x1200C
def F.mgtI3cStatusHjEn : Field := ⟨0x1200C, 9, 1⟩
def F.mgtI3cStatusIntEn : Field := ⟨0x1200C, 8, 1⟩
def F.mgtI3cStatusDaValid : Field := ⟨0x1200C, 7, 1⟩
def F.mgtI3cStatusDynAddr : Field := ⟨0x1200C, 0, 7⟩

-- MGT_ALERT_STATUS, 15_management_modes_power.md Table 15.16, R536
def A.mgtAlertStatus : Nat := 0x12010
def F.mgtAlertStatusOpDone : Field := ⟨0x12010, 13, 1⟩
def F.mgtAlertStatusHoldupLow : Field := ⟨0x12010, 12, 1⟩
def F.mgtAlertStatusLbLimit : Field := ⟨0x12010, 11, 1⟩
def F.mgtAlertStatusLbChange : Field := ⟨0x12010, 10, 1⟩
def F.mgtAlertStatusTfDone : Field := ⟨0x12010, 9, 1⟩
def F.mgtAlertStatusFirmware : Field := ⟨0x12010, 8, 1⟩
def F.mgtAlertStatusPowerFail : Field := ⟨0x12010, 7, 1⟩
def F.mgtAlertStatusTamper : Field := ⟨0x12010, 6, 1⟩
def F.mgtAlertStatusPair : Field := ⟨0x12010, 5, 1⟩
def F.mgtAlertStatusDeferredWrite : Field := ⟨0x12010, 4, 1⟩
def F.mgtAlertStatusHealth : Field := ⟨0x12010, 3, 1⟩
def F.mgtAlertStatusThermalCrit : Field := ⟨0x12010, 2, 1⟩
def F.mgtAlertStatusThermalWarn : Field := ⟨0x12010, 1, 1⟩
def F.mgtAlertStatusModeChange : Field := ⟨0x12010, 0, 1⟩

-- MGT_ALERT_EN, 15_management_modes_power.md Table 15.16, R536
def A.mgtAlertEn : Nat := 0x12014
def F.mgtAlertEnEn : Field := ⟨0x12014, 0, 32⟩

-- MGT_ALERT_IBI, 15_management_modes_power.md Table 15.16, R536
def A.mgtAlertIbi : Nat := 0x12018
def F.mgtAlertIbiEn : Field := ⟨0x12018, 0, 32⟩

-- MGT_CNT, 15_management_modes_power.md Table 15.16, R536
def A.mgtCnt : Nat := 0x12020
def F.mgtCntFrameErr : Field := ⟨0x12020, 16, 16⟩
def F.mgtCntIbi : Field := ⟨0x12020, 0, 16⟩

-- TF_CMD, 15_management_modes_power.md Table 15.16, R536
def A.tfCmd : Nat := 0x12040
def F.tfCmdOp : Field := ⟨0x12040, 24, 8⟩

-- TF_NSID, 15_management_modes_power.md Table 15.16, R536
def A.tfNsid : Nat := 0x12044
def F.tfNsidNsid : Field := ⟨0x12044, 0, 32⟩

-- TF_LBA_LO, 15_management_modes_power.md Table 15.16, R536
def A.tfLbaLo : Nat := 0x12048
def F.tfLbaLoLbaLo : Field := ⟨0x12048, 0, 32⟩

-- TF_LBA_HI, 15_management_modes_power.md Table 15.16, R536
def A.tfLbaHi : Nat := 0x1204C
def F.tfLbaHiLbaHi : Field := ⟨0x1204C, 0, 32⟩

-- TF_COUNT, 15_management_modes_power.md Table 15.16, R536
def A.tfCount : Nat := 0x12050
def F.tfCountBlocks : Field := ⟨0x12050, 0, 32⟩

-- TF_LENGTH, 15_management_modes_power.md Table 15.16, R536
def A.tfLength : Nat := 0x12054
def F.tfLengthBytes : Field := ⟨0x12054, 0, 32⟩

-- TF_ARG, 15_management_modes_power.md Table 15.16, R536
def A.tfArg : Nat := 0x12058
def F.tfArgArg : Field := ⟨0x12058, 0, 8⟩

-- TF_CTRL, 15_management_modes_power.md Table 15.16, R536
def A.tfCtrl : Nat := 0x1205C
def F.tfCtrlAbort : Field := ⟨0x1205C, 1, 1⟩
def F.tfCtrlGo : Field := ⟨0x1205C, 0, 1⟩

-- TF_STATUS, 15_management_modes_power.md Table 15.16, R536
def A.tfStatus : Nat := 0x12060
def F.tfStatusState : Field := ⟨0x12060, 30, 2⟩
def F.tfStatusMode : Field := ⟨0x12060, 27, 3⟩
def F.tfStatusSct : Field := ⟨0x12060, 24, 3⟩
def F.tfStatusSc : Field := ⟨0x12060, 16, 8⟩
def F.tfStatusOverread : Field := ⟨0x12060, 3, 1⟩
def F.tfStatusDropped : Field := ⟨0x12060, 2, 1⟩
def F.tfStatusExtra : Field := ⟨0x12060, 1, 1⟩

-- TF_RECEIVED, 15_management_modes_power.md Table 15.16, R536
def A.tfReceived : Nat := 0x12064
def F.tfReceivedBytes : Field := ⟨0x12064, 0, 32⟩

-- TF_DATA, 15_management_modes_power.md Table 15.16, R536
def A.tfData : Nat := 0x12080
def F.tfDataData : Field := ⟨0x12080, 0, 32⟩

-- MGT_LB_CTRL, 15_management_modes_power.md Table 15.16, R536
def A.mgtLbCtrl : Nat := 0x12100
def F.mgtLbCtrlRescan : Field := ⟨0x12100, 1, 1⟩
def F.mgtLbCtrlEn : Field := ⟨0x12100, 0, 1⟩

-- MGT_LB_STATUS, 15_management_modes_power.md Table 15.16, R536
def A.mgtLbStatus : Nat := 0x12104
def F.mgtLbStatusHjIgnored : Field := ⟨0x12104, 16, 16⟩
def F.mgtLbStatusPresent : Field := ⟨0x12104, 0, 16⟩

-- MGT_LB_PID_LO, 15_management_modes_power.md Table 15.16, R536
def A.mgtLbPidLo (n : Nat) : Nat := 0x12140 + n * 0x10
def F.mgtLbPidLoPid (n : Nat) : Field := ⟨0x12140 + n * 0x10, 0, 32⟩

-- MGT_LB_ENTRY, 15_management_modes_power.md Table 15.16, R536
def A.mgtLbEntry (n : Nat) : Nat := 0x12144 + n * 0x10
def F.mgtLbEntryPidHi (n : Nat) : Field := ⟨0x12144 + n * 0x10, 16, 8⟩
def F.mgtLbEntryKind (n : Nat) : Field := ⟨0x12144 + n * 0x10, 8, 4⟩
def F.mgtLbEntryI2c (n : Nat) : Field := ⟨0x12144 + n * 0x10, 7, 1⟩
def F.mgtLbEntryAddr (n : Nat) : Field := ⟨0x12144 + n * 0x10, 0, 7⟩

-- MGT_LB_VALUE, 15_management_modes_power.md Table 15.16, R536
def A.mgtLbValue (n : Nat) : Nat := 0x12148 + n * 0x10
def F.mgtLbValueValue (n : Nat) : Field := ⟨0x12148 + n * 0x10, 0, 32⟩

-- MGT_LB_PID_TOP, 15_management_modes_power.md Table 15.16, R536
def A.mgtLbPidTop (n : Nat) : Nat := 0x1214C + n * 0x10
def F.mgtLbPidTopPidTop (n : Nat) : Field := ⟨0x1214C + n * 0x10, 0, 8⟩

-- MGT_OP_SEL, 15_management_modes_power.md Table 15.17, R536
def A.mgtOpSel : Nat := 0x12280
def F.mgtOpSelKind : Field := ⟨0x12280, 0, 3⟩

-- MGT_OP_INFO, 15_management_modes_power.md Table 15.17, R536
def A.mgtOpInfo : Nat := 0x12284
def F.mgtOpInfoState : Field := ⟨0x12284, 30, 2⟩
def F.mgtOpInfoPosBand : Field := ⟨0x12284, 29, 1⟩
def F.mgtOpInfoPct : Field := ⟨0x12284, 0, 16⟩

-- MGT_OP_POS_LO, 15_management_modes_power.md Table 15.17, R536
def A.mgtOpPosLo : Nat := 0x12288
def F.mgtOpPosLoPosLo : Field := ⟨0x12288, 0, 32⟩

-- MGT_OP_POS_HI, 15_management_modes_power.md Table 15.17, R536
def A.mgtOpPosHi : Nat := 0x1228C
def F.mgtOpPosHiPosHi : Field := ⟨0x1228C, 0, 32⟩

-- MGT_OP_END, 15_management_modes_power.md Table 15.17, R536
def A.mgtOpEnd : Nat := 0x12290
def F.mgtOpEndSct : Field := ⟨0x12290, 8, 8⟩
def F.mgtOpEndSc : Field := ⟨0x12290, 0, 8⟩

-- DRV_STATUS, 08_servo_and_control_engine.md Table 08.18, R314
def A.drvStatus : Nat := 0x20000
def F.drvStatusSpliceUp : Field := ⟨0x20000, 9, 1⟩
def F.drvStatusRetract : Field := ⟨0x20000, 8, 1⟩
def F.drvStatusPwrFail : Field := ⟨0x20000, 7, 1⟩
def F.drvStatusHoldOn : Field := ⟨0x20000, 6, 1⟩
def F.drvStatusBoostOk : Field := ⟨0x20000, 5, 1⟩
def F.drvStatusHtrEn : Field := ⟨0x20000, 4, 1⟩
def F.drvStatusSpinEn : Field := ⟨0x20000, 3, 1⟩
def F.drvStatusAct1En : Field := ⟨0x20000, 2, 1⟩
def F.drvStatusAct0En : Field := ⟨0x20000, 1, 1⟩
def F.drvStatusEnCore : Field := ⟨0x20000, 0, 1⟩

-- DRV_FAULT, 08_servo_and_control_engine.md Table 08.18, R314
def A.drvFault : Nat := 0x20004
def F.drvFaultVholdUv : Field := ⟨0x20004, 15, 1⟩
def F.drvFaultPowerFail : Field := ⟨0x20004, 14, 1⟩
def F.drvFaultBoost : Field := ⟨0x20004, 13, 1⟩
def F.drvFaultHtr1 : Field := ⟨0x20004, 12, 1⟩
def F.drvFaultHtr0 : Field := ⟨0x20004, 11, 1⟩
def F.drvFaultSpinOc : Field := ⟨0x20004, 10, 1⟩
def F.drvFaultSpinGate : Field := ⟨0x20004, 9, 1⟩
def F.drvFaultMa1 : Field := ⟨0x20004, 8, 1⟩
def F.drvFaultMa0 : Field := ⟨0x20004, 7, 1⟩
def F.drvFaultVcm1Ot : Field := ⟨0x20004, 6, 1⟩
def F.drvFaultVcm1Open : Field := ⟨0x20004, 5, 1⟩
def F.drvFaultVcm1Oc : Field := ⟨0x20004, 4, 1⟩
def F.drvFaultVcm0Ot : Field := ⟨0x20004, 3, 1⟩
def F.drvFaultVcm0Open : Field := ⟨0x20004, 2, 1⟩
def F.drvFaultVcm0Oc : Field := ⟨0x20004, 1, 1⟩

-- DRV_TEMP_LOGIC, 08_servo_and_control_engine.md Table 08.18, R314
def A.drvTempLogic : Nat := 0x20010
def F.drvTempLogicValid : Field := ⟨0x20010, 31, 1⟩
def F.drvTempLogicTemp : Field := ⟨0x20010, 0, 16⟩

-- DRV_TEMP_DRIVE, 08_servo_and_control_engine.md Table 08.18, R314
def A.drvTempDrive : Nat := 0x20014
def F.drvTempDriveValid : Field := ⟨0x20014, 31, 1⟩
def F.drvTempDriveTemp : Field := ⟨0x20014, 0, 16⟩

-- DRV_TEMP_HDA, 08_servo_and_control_engine.md Table 08.18, R314
def A.drvTempHda : Nat := 0x20018
def F.drvTempHdaValid : Field := ⟨0x20018, 31, 1⟩
def F.drvTempHdaTemp : Field := ⟨0x20018, 0, 16⟩

-- DRV_TEMP_VCM, 08_servo_and_control_engine.md Table 08.18, R314
def A.drvTempVcm : Nat := 0x2001C
def F.drvTempVcmAct1 : Field := ⟨0x2001C, 16, 16⟩
def F.drvTempVcmAct0 : Field := ⟨0x2001C, 0, 16⟩

-- DRV_V12, 08_servo_and_control_engine.md Table 08.18, R314
def A.drvV12 : Nat := 0x20020
def F.drvV12Mv : Field := ⟨0x20020, 0, 16⟩

-- DRV_VHOLD, 08_servo_and_control_engine.md Table 08.18, R314
def A.drvVhold : Nat := 0x20024
def F.drvVholdMv : Field := ⟨0x20024, 0, 16⟩

-- DRV_VBST, 08_servo_and_control_engine.md Table 08.18, R314
def A.drvVbst : Nat := 0x20028
def F.drvVbstMv : Field := ⟨0x20028, 0, 16⟩

-- DRV_V3P3, 08_servo_and_control_engine.md Table 08.18, R314
def A.drvV3p3 : Nat := 0x2002C
def F.drvV3p3Mv : Field := ⟨0x2002C, 0, 16⟩

-- DRV_V12_POWER, 08_servo_and_control_engine.md Table 08.18, R314
def A.drvV12Power : Nat := 0x20030
def F.drvV12PowerPower : Field := ⟨0x20030, 0, 16⟩

-- DRV_EVENTS, 08_servo_and_control_engine.md Table 08.18, R314
def A.drvEvents : Nat := 0x20034
def F.drvEventsPowerFail : Field := ⟨0x20034, 16, 16⟩
def F.drvEventsRetract : Field := ⟨0x20034, 0, 16⟩

-- INST_STATUS, 04_tenancy.md Table 04.8, R154
def A.instStatus (n : Nat) : Nat := 0x100100 + n * 0x1000
def F.instStatusGen (n : Nat) : Field := ⟨0x100100 + n * 0x1000, 16, 16⟩
def F.instStatusWindowLost (n : Nat) : Field := ⟨0x100100 + n * 0x1000, 6, 1⟩
def F.instStatusDwePending (n : Nat) : Field := ⟨0x100100 + n * 0x1000, 5, 1⟩
def F.instStatusTakesAllowed (n : Nat) : Field := ⟨0x100100 + n * 0x1000, 4, 1⟩
def F.instStatusState (n : Nat) : Field := ⟨0x100100 + n * 0x1000, 0, 3⟩

-- INST_QUOTA_Q, 04_tenancy.md Table 04.9, R154
def A.instQuotaQ (n : Nat) : Nat := 0x100104 + n * 0x1000
def F.instQuotaQLockLimit (n : Nat) : Field := ⟨0x100104 + n * 0x1000, 16, 12⟩
def F.instQuotaQMsixVectors (n : Nat) : Field := ⟨0x100104 + n * 0x1000, 8, 6⟩
def F.instQuotaQIoqPairs (n : Nat) : Field := ⟨0x100104 + n * 0x1000, 0, 8⟩

-- INST_QUOTA_C, 04_tenancy.md Table 04.9, R154
def A.instQuotaC (n : Nat) : Nat := 0x100108 + n * 0x1000
def F.instQuotaCContextQuota (n : Nat) : Field := ⟨0x100108 + n * 0x1000, 0, 19⟩

-- INST_QUOTA_T, 04_tenancy.md Table 04.9, R154
def A.instQuotaT (n : Nat) : Nat := 0x10010C + n * 0x1000
def F.instQuotaTScriptQuota (n : Nat) : Field := ⟨0x10010C + n * 0x1000, 24, 7⟩
def F.instQuotaTTaskQuota (n : Nat) : Field := ⟨0x10010C + n * 0x1000, 0, 17⟩

-- INST_DRAM, 04_tenancy.md Table 04.9, R154
def A.instDram (n : Nat) : Nat := 0x100110 + n * 0x1000
def F.instDramBaseG (n : Nat) : Field := ⟨0x100110 + n * 0x1000, 16, 10⟩
def F.instDramSizeG (n : Nat) : Field := ⟨0x100110 + n * 0x1000, 0, 6⟩

-- INST_KEYS, 04_tenancy.md Table 04.9, R154
def A.instKeys (n : Nat) : Nat := 0x100114 + n * 0x1000
def F.instKeysCount (n : Nat) : Field := ⟨0x100114 + n * 0x1000, 16, 13⟩
def F.instKeysFirst (n : Nat) : Field := ⟨0x100114 + n * 0x1000, 0, 12⟩

-- INST_BYTE_RATE, 04_tenancy.md Table 04.10, R154
def A.instByteRate (n : Nat) : Nat := 0x100118 + n * 0x1000
def F.instByteRateRate (n : Nat) : Field := ⟨0x100118 + n * 0x1000, 0, 32⟩

-- INST_BYTE_BURST, 04_tenancy.md Table 04.10, R154
def A.instByteBurst (n : Nat) : Nat := 0x10011C + n * 0x1000
def F.instByteBurstBurst (n : Nat) : Field := ⟨0x10011C + n * 0x1000, 0, 32⟩

-- INST_CMD_RATE, 04_tenancy.md Table 04.10, R154
def A.instCmdRate (n : Nat) : Nat := 0x100120 + n * 0x1000
def F.instCmdRateRate (n : Nat) : Field := ⟨0x100120 + n * 0x1000, 0, 32⟩

-- INST_CMD_BURST, 04_tenancy.md Table 04.10, R154
def A.instCmdBurst (n : Nat) : Nat := 0x100124 + n * 0x1000
def F.instCmdBurstBurst (n : Nat) : Field := ⟨0x100124 + n * 0x1000, 0, 32⟩

-- INST_BYTE_LEVEL, 04_tenancy.md Table 04.10, R154
def A.instByteLevel (n : Nat) : Nat := 0x100128 + n * 0x1000
def F.instByteLevelLevel (n : Nat) : Field := ⟨0x100128 + n * 0x1000, 0, 32⟩

-- INST_CMD_LEVEL, 04_tenancy.md Table 04.10, R154
def A.instCmdLevel (n : Nat) : Nat := 0x10012C + n * 0x1000
def F.instCmdLevelLevel (n : Nat) : Field := ⟨0x10012C + n * 0x1000, 0, 32⟩

-- INST_USE_A, 04_tenancy.md Table 04.10, R154
def A.instUseA (n : Nat) : Nat := 0x100130 + n * 0x1000
def F.instUseAContexts (n : Nat) : Field := ⟨0x100130 + n * 0x1000, 0, 19⟩

-- INST_USE_B, 04_tenancy.md Table 04.10, R154
def A.instUseB (n : Nat) : Nat := 0x100134 + n * 0x1000
def F.instUseBLocks (n : Nat) : Field := ⟨0x100134 + n * 0x1000, 20, 12⟩
def F.instUseBTasks (n : Nat) : Field := ⟨0x100134 + n * 0x1000, 0, 17⟩

-- INST_ADMIT_STALL, 04_tenancy.md Table 04.10, R154
def A.instAdmitStall (n : Nat) : Nat := 0x100138 + n * 0x1000
def F.instAdmitStallCount (n : Nat) : Field := ⟨0x100138 + n * 0x1000, 0, 32⟩

-- INST_STALE, 04_tenancy.md Table 04.10, R154
def A.instStale (n : Nat) : Nat := 0x10013C + n * 0x1000
def F.instStaleCount (n : Nat) : Field := ⟨0x10013C + n * 0x1000, 0, 32⟩

/-- Registers of the DEV block. -/
def regTableDev : List RegDesc := [
  -- DEV_ID
  ⟨0, 0x1000000, 1, 4, 1, [⟨16, 16, .ro, 0x9632, false⟩, ⟨8, 8, .ro, 1, false⟩]⟩,
  -- DEV_STEP
  ⟨4, 0x1000000, 1, 4, 1, [⟨24, 8, .ro, 0, false⟩, ⟨16, 8, .ro, 0, false⟩, ⟨0, 16, .ro, 0x100, false⟩]⟩,
  -- DEV_TIMECODE_LO
  ⟨0x10, 0x1000000, 1, 4, 1, [⟨0, 32, .ro, 0, false⟩]⟩,
  -- DEV_TIMECODE_HI
  ⟨0x14, 0x1000000, 1, 4, 1, [⟨0, 32, .ro, 0, false⟩]⟩,
  -- DEV_CLK_STATUS
  ⟨0x20, 0x1000000, 1, 4, 1, [⟨9, 1, .ro, 0, false⟩, ⟨8, 1, .ro, 0, false⟩, ⟨7, 1, .ro, 0, false⟩, ⟨6, 1, .ro, 0, false⟩, ⟨5, 1, .ro, 0, false⟩, ⟨4, 1, .ro, 0, false⟩, ⟨3, 1, .ro, 0, false⟩, ⟨2, 1, .ro, 0, false⟩, ⟨1, 1, .ro, 0, false⟩, ⟨0, 1, .ro, 0, false⟩]⟩,
  -- DEV_SPLICE_STATUS
  ⟨0x30, 0x1000000, 1, 4, 1, [⟨16, 16, .ro, 0, false⟩, ⟨3, 1, .w1c, 0, false⟩, ⟨2, 1, .rwsClear, 0, true⟩, ⟨1, 1, .ro, 0, false⟩, ⟨0, 1, .ro, 0, false⟩]⟩,
  -- DEV_SPLICE_ERR
  ⟨0x34, 0x1000000, 1, 4, 1, [⟨16, 16, .rc, 0, false⟩, ⟨8, 8, .rc, 0, false⟩, ⟨0, 8, .rc, 0, false⟩]⟩]

/-- Registers of the PWR block. -/
def regTablePwr : List RegDesc := [
  -- PWR_MODE
  ⟨0x1000, 0x1000000, 1, 4, 1, [⟨8, 8, .ro, 0, false⟩, ⟨3, 1, .ro, 0, false⟩, ⟨0, 3, .ro, 0, false⟩]⟩,
  -- PWR_MODE_CMD
  ⟨0x1004, 0x1000000, 1, 4, 1, [⟨0, 4, .wo, 0, true⟩]⟩,
  -- PWR_MODE_STATUS
  ⟨0x1008, 0x1000000, 1, 4, 1, [⟨31, 1, .ro, 0, false⟩, ⟨0, 8, .ro, 0, false⟩]⟩,
  -- PWR_WAKE_BUDGET
  ⟨0x100C, 0x1000000, 1, 4, 1, [⟨0, 32, .rw, 0, false⟩]⟩,
  -- PWR_IDLE_ENTRY
  ⟨0x1010, 0x1000000, 1, 4, 1, [⟨0, 16, .rw, 0x64, false⟩]⟩,
  -- PWR_IDLE_STATUS
  ⟨0x1014, 0x1000000, 1, 4, 1, [⟨8, 1, .ro, 0, false⟩, ⟨0, 3, .ro, 3, false⟩]⟩,
  -- PWR_ESTIMATE
  ⟨0x1018, 0x1000000, 1, 4, 1, [⟨16, 16, .ro, 0, false⟩, ⟨0, 16, .ro, 0, false⟩]⟩]

/-- Registers of the SLT block. -/
def regTableSlt : List RegDesc := [
  -- SLT_CTRL
  ⟨0x2000, 0x1000000, 1, 4, 1, [⟨31, 1, .w1s, 0, true⟩, ⟨2, 1, .rwl, 0, false⟩, ⟨1, 1, .w1s, 0, true⟩, ⟨0, 1, .w1s, 0, true⟩]⟩,
  -- SLT_STATUS
  ⟨0x2004, 0x1000000, 1, 4, 1, [⟨8, 8, .ro, 0, false⟩, ⟨6, 2, .ro, 0, false⟩, ⟨5, 1, .w1c, 0, false⟩, ⟨4, 1, .w1c, 0, false⟩, ⟨3, 1, .ro, 0, false⟩, ⟨2, 1, .ro, 0, false⟩, ⟨1, 1, .ro, 0, false⟩, ⟨0, 1, .ro, 0, false⟩]⟩,
  -- SLT_REJECT_INFO
  ⟨0x2008, 0x1000000, 1, 4, 1, [⟨16, 8, .ro, 0xFF, false⟩, ⟨0, 14, .ro, 0x3FFF, false⟩]⟩,
  -- SLT_VERSION
  ⟨0x200C, 0x1000000, 1, 4, 1, [⟨16, 16, .ro, 0x100, false⟩, ⟨0, 16, .ro, 0x100, false⟩]⟩,
  -- SLT_ACTIVE_ID
  ⟨0x2010, 0x1000000, 1, 4, 1, [⟨0, 32, .ro, 0, false⟩]⟩,
  -- SLT_FRAME
  ⟨0x2014, 0x1000000, 1, 4, 1, [⟨0, 32, .ro, 0, false⟩]⟩,
  -- SLT_SWAP_FRAME
  ⟨0x2018, 0x1000000, 1, 4, 1, [⟨0, 32, .ro, 0, false⟩]⟩,
  -- SLT_SHADOW_ADDR
  ⟨0x2020, 0x1000000, 1, 4, 1, [⟨2, 13, .rw, 0, false⟩]⟩,
  -- SLT_SHADOW_DATA
  ⟨0x2024, 0x1000000, 1, 4, 1, [⟨0, 32, .rw, 0, true⟩]⟩,
  -- SLT_ERR
  ⟨0x2030, 0x1000000, 1, 4, 1, [⟨0, 16, .rc, 0, false⟩]⟩,
  -- SLT_COL_OWNED
  ⟨0x2100, 0x10, 28, 0x1000000, 1, [⟨0, 32, .rc, 0, false⟩]⟩,
  -- SLT_COL_SPARE
  ⟨0x2104, 0x10, 28, 0x1000000, 1, [⟨0, 32, .rc, 0, false⟩]⟩,
  -- SLT_COL_IDLE
  ⟨0x2108, 0x10, 28, 0x1000000, 1, [⟨0, 32, .rc, 0, false⟩]⟩,
  -- SLT_COL_RING
  ⟨0x210C, 0x10, 28, 0x1000000, 1, [⟨8, 8, .ro, 0, false⟩]⟩,
  -- SLT_COL_PTR
  ⟨0x2300, 4, 28, 0x1000000, 1, [⟨0, 9, .ro, 0, false⟩]⟩]

/-- Registers of the HIF block. -/
def regTableHif : List RegDesc := [
  -- HIF_LINK_STATUS
  ⟨0x3000, 0x1000000, 1, 4, 1, [⟨9, 3, .ro, 0, false⟩, ⟨8, 1, .ro, 0, false⟩, ⟨4, 4, .ro, 0, false⟩, ⟨0, 4, .ro, 0, false⟩]⟩,
  -- HIF_LOCK_STATUS
  ⟨0x3010, 0x1000000, 1, 4, 1, [⟨16, 13, .rc, 0, false⟩, ⟨0, 13, .ro, 0, false⟩]⟩,
  -- HIF_EVENT_CNT
  ⟨0x3014, 0x1000000, 1, 4, 1, [⟨16, 16, .rc, 0, false⟩, ⟨8, 8, .rc, 0, false⟩, ⟨0, 8, .rc, 0, false⟩]⟩]

/-- Registers of the VIN block. -/
def regTableVin : List RegDesc := [
  -- VIN_ALLOC_Q
  ⟨0x4000, 0x1000000, 1, 4, 1, [⟨16, 13, .ro, 0x20, false⟩, ⟨0, 13, .ro, 0, false⟩]⟩,
  -- VIN_ALLOC_C
  ⟨0x4004, 0x1000000, 1, 4, 1, [⟨0, 19, .ro, 0, false⟩]⟩,
  -- VIN_ALLOC_T
  ⟨0x4008, 0x1000000, 1, 4, 1, [⟨0, 17, .ro, 0, false⟩]⟩,
  -- VIN_DRAM_FREE
  ⟨0x400C, 0x1000000, 1, 4, 1, [⟨16, 10, .ro, 0, false⟩, ⟨0, 10, .ro, 0, false⟩]⟩,
  -- VIN_STALE_TOTAL
  ⟨0x4010, 0x1000000, 1, 4, 1, [⟨0, 32, .ro, 0, false⟩]⟩,
  -- VIN_ENABLED
  ⟨0x4014, 0x1000000, 1, 4, 1, [⟨0, 32, .ro, 0, false⟩]⟩,
  -- VIN_ENABLED_SEL
  ⟨0x4018, 0x1000000, 1, 4, 1, [⟨0, 4, .rw, 0, false⟩]⟩]

/-- Registers of the FCH block. -/
def regTableFch : List RegDesc := [
  -- FCH_CTRL
  ⟨0x5000, 0x100, 16, 0x1000000, 1, [⟨31, 1, .w1s, 0, true⟩, ⟨3, 1, .w1s, 0, true⟩, ⟨2, 1, .w1s, 0, true⟩, ⟨1, 1, .w1s, 0, true⟩]⟩,
  -- FCH_STATUS
  ⟨0x5004, 0x100, 16, 0x1000000, 1, [⟨16, 16, .ro, 0, false⟩, ⟨11, 1, .ro, 0, false⟩, ⟨10, 1, .ro, 0, false⟩, ⟨7, 3, .ro, 0, false⟩, ⟨0, 3, .ro, 0, false⟩]⟩,
  -- FCH_CFG
  ⟨0x5008, 0x100, 16, 0x1000000, 1, [⟨10, 2, .rwl, 0, false⟩, ⟨4, 3, .rwl, 4, false⟩, ⟨0, 3, .rwl, 6, false⟩]⟩,
  -- FCH_PRESENT
  ⟨0x500C, 0x100, 16, 0x1000000, 1, [⟨0, 32, .ro, 0, false⟩]⟩,
  -- FCH_LUN_FENCE
  ⟨0x5010, 0x100, 16, 0x1000000, 1, [⟨0, 32, .w1s, 0, true⟩]⟩,
  -- FCH_SUSPEND
  ⟨0x5014, 0x100, 16, 0x1000000, 1, [⟨24, 8, .rw, 0x10, false⟩, ⟨20, 4, .rw, 2, false⟩, ⟨10, 10, .rw, 0x1E, false⟩, ⟨0, 10, .rw, 0x32, false⟩]⟩,
  -- FCH_SUSPEND2
  ⟨0x5018, 0x100, 16, 0x1000000, 1, [⟨0, 16, .rw, 0x7D0, false⟩]⟩,
  -- FCH_CNT_CW_READ
  ⟨0x5040, 0x100, 16, 0x1000000, 1, [⟨0, 32, .rc, 0, false⟩]⟩,
  -- FCH_CNT_RETRY
  ⟨0x5044, 0x100, 16, 0x1000000, 1, [⟨0, 32, .rc, 0, false⟩]⟩,
  -- FCH_CNT_SOFT
  ⟨0x5048, 0x100, 16, 0x1000000, 1, [⟨0, 32, .rc, 0, false⟩]⟩,
  -- FCH_CNT_RAIN
  ⟨0x504C, 0x100, 16, 0x1000000, 1, [⟨0, 32, .rc, 0, false⟩]⟩,
  -- FCH_CNT_UNCORR
  ⟨0x5050, 0x100, 16, 0x1000000, 1, [⟨0, 32, .rc, 0, false⟩]⟩,
  -- FCH_CNT_CRC_MISS
  ⟨0x5054, 0x100, 16, 0x1000000, 1, [⟨0, 32, .rc, 0, false⟩]⟩,
  -- FCH_CNT_FAIL
  ⟨0x5058, 0x100, 16, 0x1000000, 1, [⟨24, 8, .rc, 0, false⟩, ⟨16, 8, .rc, 0, false⟩, ⟨8, 8, .rc, 0, false⟩, ⟨0, 8, .rc, 0, false⟩]⟩,
  -- FCH_CNT_SUSPEND
  ⟨0x505C, 0x100, 16, 0x1000000, 1, [⟨16, 16, .rc, 0, false⟩, ⟨0, 16, .rc, 0, false⟩]⟩,
  -- FCH_PGM_LOOPS
  ⟨0x5060, 0x100, 16, 0x1000000, 1, [⟨8, 8, .rc, 0, false⟩, ⟨0, 8, .ro, 0, false⟩]⟩,
  -- FCH_SOFT_WAIT
  ⟨0x5064, 0x100, 16, 0x1000000, 1, [⟨0, 32, .rc, 0, false⟩]⟩,
  -- FCH_RETRY_HIST
  ⟨0x5080, 0x100, 16, 4, 16, [⟨0, 32, .rc, 0, false⟩]⟩]

/-- Registers of the FTL block. -/
def regTableFtl0 : List RegDesc := [
  -- FTL_CTRL
  ⟨0x6000, 0x1000000, 1, 4, 1, [⟨31, 1, .w1s, 0, true⟩, ⟨0, 1, .w1s, 0, true⟩]⟩,
  -- FTL_STATUS
  ⟨0x6004, 0x1000000, 1, 4, 1, [⟨9, 1, .w1c, 0, false⟩, ⟨8, 1, .ro, 0, false⟩, ⟨7, 1, .ro, 0, false⟩, ⟨6, 1, .ro, 0, false⟩, ⟨5, 1, .ro, 0, false⟩, ⟨4, 1, .ro, 0, false⟩, ⟨0, 3, .ro, 0, false⟩]⟩,
  -- FTL_WB
  ⟨0x6008, 0x1000000, 1, 4, 1, [⟨16, 16, .ro, 0, false⟩, ⟨0, 16, .ro, 0, false⟩]⟩,
  -- FTL_SPARE
  ⟨0x600C, 0x1000000, 1, 4, 1, [⟨0, 32, .ro, 0, false⟩]⟩,
  -- FTL_SPARE_FLOOR
  ⟨0x6010, 0x1000000, 1, 4, 1, [⟨0, 32, .ro, 0, false⟩]⟩,
  -- FTL_TIER_CAP
  ⟨0x6014, 0x1000000, 1, 4, 1, [⟨0, 32, .ro, 0, false⟩]⟩,
  -- FTL_RETIRED
  ⟨0x6018, 0x1000000, 1, 4, 1, [⟨0, 32, .ro, 0, false⟩]⟩,
  -- FTL_WEAR
  ⟨0x601C, 0x1000000, 1, 4, 1, [⟨16, 16, .ro, 0, false⟩, ⟨0, 16, .ro, 0, false⟩]⟩,
  -- FTL_RATED_PE
  ⟨0x6020, 0x1000000, 1, 4, 1, [⟨0, 32, .rwl, 0xBB8, false⟩]⟩,
  -- FTL_HEAT_CFG
  ⟨0x6024, 0x1000000, 1, 4, 1, [⟨24, 8, .rwl, 0xA0, false⟩, ⟨16, 8, .rwl, 0xC0, false⟩, ⟨8, 8, .rwl, 0x20, false⟩]⟩,
  -- FTL_HEAT_EPOCH
  ⟨0x6028, 0x1000000, 1, 4, 1, [⟨0, 16, .rwl, 0x258, false⟩]⟩,
  -- FTL_MIGRATE_CFG
  ⟨0x602C, 0x1000000, 1, 4, 1, [⟨8, 8, .rwl, 8, false⟩, ⟨0, 8, .rwl, 5, false⟩]⟩,
  -- FTL_JRN_DURABLE_LO
  ⟨0x6030, 0x1000000, 1, 4, 1, [⟨0, 32, .ro, 0, false⟩]⟩,
  -- FTL_JRN_DURABLE_HI
  ⟨0x6034, 0x1000000, 1, 4, 1, [⟨0, 32, .ro, 0, false⟩]⟩,
  -- FTL_CKPT
  ⟨0x6038, 0x1000000, 1, 4, 1, [⟨16, 16, .ro, 0, false⟩, ⟨0, 16, .ro, 0, false⟩]⟩,
  -- FTL_EVAC_PROGRESS
  ⟨0x603C, 0x1000000, 1, 4, 1, [⟨0, 24, .ro, 0, false⟩]⟩,
  -- FTL_EVAC_PCT
  ⟨0x6040, 0x1000000, 1, 4, 1, [⟨0, 16, .ro, 0x2710, false⟩]⟩,
  -- FTL_GC_CNT
  ⟨0x6044, 0x1000000, 1, 4, 1, [⟨0, 32, .rc, 0, false⟩]⟩,
  -- FTL_GC_DROPPED
  ⟨0x6048, 0x1000000, 1, 4, 1, [⟨0, 32, .rc, 0, false⟩]⟩,
  -- FTL_MIGRATE_CNT
  ⟨0x604C, 0x1000000, 1, 4, 1, [⟨16, 16, .rc, 0, false⟩, ⟨0, 16, .rc, 0, false⟩]⟩]

/-- Registers of the FTL block. -/
def regTableFtl1 : List RegDesc := [
  -- FTL_FREE_SB
  ⟨0x6050, 4, 4, 0x1000000, 1, [⟨0, 18, .ro, 0, false⟩]⟩]

/-- Registers of the FTL block. -/
def regTableFtl : List RegDesc := regTableFtl0 ++ regTableFtl1

/-- Registers of the DCH block. -/
def regTableDch0 : List RegDesc := [
  -- DCH_CTRL
  ⟨0x7000, 0x400, 2, 0x1000000, 1, [⟨31, 1, .w1s, 0, true⟩, ⟨2, 1, .w1s, 0, true⟩, ⟨1, 1, .w1s, 0, true⟩]⟩,
  -- DCH_STATUS
  ⟨0x7004, 0x400, 2, 0x1000000, 1, [⟨15, 1, .ro, 0, false⟩, ⟨14, 1, .ro, 0, false⟩, ⟨13, 1, .ro, 0, false⟩, ⟨12, 1, .w1c, 0, false⟩, ⟨11, 1, .ro, 0, false⟩, ⟨4, 4, .ro, 0, false⟩, ⟨0, 3, .ro, 0, false⟩]⟩,
  -- DCH_CFG
  ⟨0x7008, 0x400, 2, 0x1000000, 1, [⟨24, 8, .rwl, 0x78, false⟩, ⟨20, 4, .rwl, 6, false⟩, ⟨16, 4, .rwl, 8, false⟩, ⟨12, 4, .rwl, 2, false⟩]⟩,
  -- DCH_HEADS
  ⟨0x700C, 0x400, 2, 0x1000000, 1, [⟨20, 10, .ro, 0, false⟩, ⟨10, 10, .ro, 0, false⟩, ⟨0, 10, .ro, 0, false⟩]⟩,
  -- DCH_PREAMP
  ⟨0x7010, 0x400, 2, 0x1000000, 1, [⟨31, 1, .ro, 0, false⟩, ⟨16, 8, .ro, 0, false⟩, ⟨0, 16, .rw, 0, false⟩]⟩,
  -- DCH_BAND_SEL
  ⟨0x7020, 0x400, 2, 0x1000000, 1, [⟨0, 24, .rw, 0, false⟩]⟩,
  -- DCH_BAND_INFO
  ⟨0x7024, 0x400, 2, 0x1000000, 1, [⟨29, 3, .ro, 0, false⟩, ⟨0, 22, .ro, 0, false⟩]⟩,
  -- DCH_BAND_SPARE
  ⟨0x7028, 0x400, 2, 0x1000000, 1, [⟨26, 6, .ro, 0, false⟩, ⟨17, 9, .ro, 0, false⟩, ⟨0, 17, .ro, 0, false⟩]⟩,
  -- DCH_BAND_STAMP
  ⟨0x702C, 0x400, 2, 0x1000000, 1, [⟨0, 32, .ro, 0, false⟩]⟩,
  -- DCH_RCV
  ⟨0x7030, 0x400, 2, 0x1000000, 1, [⟨16, 16, .rc, 0, false⟩]⟩,
  -- DCH_VERIFY_FIRST
  ⟨0x7034, 0x400, 2, 0x1000000, 1, [⟨0, 24, .rw, 0, false⟩]⟩,
  -- DCH_VERIFY_CTRL
  ⟨0x7038, 0x400, 2, 0x1000000, 1, [⟨31, 1, .w1s, 0, true⟩, ⟨30, 1, .w1s, 0, true⟩, ⟨29, 1, .rw, 0, false⟩, ⟨0, 24, .rw, 0, false⟩]⟩,
  -- DCH_VERIFY_RESULT
  ⟨0x703C, 0x400, 2, 0x1000000, 1, [⟨16, 16, .rc, 0, false⟩, ⟨0, 16, .rc, 0, false⟩]⟩,
  -- DCH_H_SECT_READ
  ⟨0x7100, 0x400, 2, 0x40, 10, [⟨0, 32, .rc, 0, false⟩]⟩,
  -- DCH_H_SECT_WRITE
  ⟨0x7104, 0x400, 2, 0x40, 10, [⟨0, 32, .rc, 0, false⟩]⟩,
  -- DCH_H_SYNC_MISS
  ⟨0x7108, 0x400, 2, 0x40, 10, [⟨0, 32, .rc, 0, false⟩]⟩,
  -- DCH_H_SYNC_OFFSET
  ⟨0x710C, 0x400, 2, 0x40, 10, [⟨0, 32, .rc, 0, false⟩]⟩,
  -- DCH_H_REFRAME_CAND
  ⟨0x7110, 0x400, 2, 0x40, 10, [⟨0, 32, .rc, 0, false⟩]⟩,
  -- DCH_H_REFRAME_OFFS
  ⟨0x7114, 0x400, 2, 0x40, 10, [⟨0, 32, .rc, 0, false⟩]⟩,
  -- DCH_H_LADDER
  ⟨0x7118, 0x400, 2, 0x40, 10, [⟨0, 32, .rc, 0, false⟩]⟩]

/-- Registers of the DCH block. -/
def regTableDch1 : List RegDesc := [
  -- DCH_H_UNCORR
  ⟨0x711C, 0x400, 2, 0x40, 10, [⟨0, 32, .rc, 0, false⟩]⟩,
  -- DCH_H_VERIFY_FAIL
  ⟨0x7120, 0x400, 2, 0x40, 10, [⟨0, 32, .rc, 0, false⟩]⟩,
  -- DCH_H_RELOCATE
  ⟨0x7124, 0x400, 2, 0x40, 10, [⟨0, 32, .rc, 0, false⟩]⟩,
  -- DCH_H_REWRITE
  ⟨0x7128, 0x400, 2, 0x40, 10, [⟨0, 32, .rc, 0, false⟩]⟩,
  -- DCH_H_CLOCK_LOSS
  ⟨0x712C, 0x400, 2, 0x40, 10, [⟨0, 32, .rc, 0, false⟩]⟩,
  -- DCH_H_WRITE_CUT
  ⟨0x7130, 0x400, 2, 0x40, 10, [⟨0, 32, .rc, 0, false⟩]⟩,
  -- DCH_H_MAX_STEP
  ⟨0x7134, 0x400, 2, 0x40, 10, [⟨0, 4, .rc, 0, false⟩]⟩]

/-- Registers of the DCH block. -/
def regTableDch : List RegDesc := regTableDch0 ++ regTableDch1

/-- Registers of the SRV block. -/
def regTableSrv0 : List RegDesc := [
  -- SRV_CTRL
  ⟨0x8000, 0x1000000, 1, 4, 1, [⟨31, 1, .w1s, 0, true⟩, ⟨2, 1, .w1s, 0, true⟩, ⟨1, 1, .w1s, 0, true⟩]⟩,
  -- SRV_STATUS
  ⟨0x8004, 0x1000000, 1, 4, 1, [⟨24, 8, .ro, 0, false⟩, ⟨23, 1, .ro, 0, false⟩, ⟨22, 1, .ro, 0, false⟩, ⟨21, 1, .w1c, 0, false⟩, ⟨20, 1, .w1c, 0, false⟩, ⟨16, 4, .ro, 0, false⟩, ⟨4, 4, .ro, 0, false⟩, ⟨0, 4, .ro, 0, false⟩]⟩,
  -- SRV_SPIN
  ⟨0x8008, 0x1000000, 1, 4, 1, [⟨31, 1, .w1s, 0, true⟩, ⟨30, 1, .w1s, 0, true⟩, ⟨0, 14, .rw, 0x1C20, true⟩]⟩,
  -- SRV_SPEED
  ⟨0x800C, 0x1000000, 1, 4, 1, [⟨0, 14, .ro, 0, false⟩]⟩,
  -- SRV_ACT_CMD
  ⟨0x8010, 4, 2, 0x1000000, 1, [⟨28, 4, .wo, 0, true⟩, ⟨24, 4, .wo, 0, true⟩, ⟨0, 24, .wo, 0, true⟩]⟩,
  -- SRV_ACT_STATUS
  ⟨0x8018, 4, 2, 0x1000000, 1, [⟨28, 4, .ro, 0, false⟩, ⟨27, 1, .ro, 0, false⟩, ⟨26, 1, .ro, 0, false⟩, ⟨25, 1, .ro, 0, false⟩, ⟨0, 24, .ro, 0, false⟩]⟩,
  -- SRV_OFFSET
  ⟨0x8020, 4, 2, 0x1000000, 1, [⟨0, 16, .rw, 0, false⟩]⟩,
  -- SRV_WINDOW
  ⟨0x8028, 0x1000000, 1, 4, 1, [⟨16, 16, .rwl, 0xF5C, false⟩, ⟨0, 16, .rwl, 0x2000, false⟩]⟩,
  -- SRV_SETTLE
  ⟨0x802C, 0x1000000, 1, 4, 1, [⟨8, 8, .rwl, 8, false⟩, ⟨0, 8, .rwl, 3, false⟩]⟩,
  -- SRV_PWR_BUDGET
  ⟨0x8030, 0x1000000, 1, 4, 1, [⟨0, 16, .rw, 0xFA, false⟩]⟩,
  -- SRV_HEATER
  ⟨0x8034, 4, 2, 0x1000000, 1, [⟨16, 16, .rw, 0, false⟩, ⟨0, 16, .rw, 0, false⟩]⟩,
  -- SRV_HEATER_STEP
  ⟨0x803C, 0x1000000, 1, 4, 1, [⟨0, 16, .rw, 0x200, false⟩]⟩,
  -- SRV_LOOP_SEL
  ⟨0x8040, 0x1000000, 1, 4, 1, [⟨0, 6, .rw, 0, false⟩]⟩,
  -- SRV_LOOP_FLAGS
  ⟨0x8044, 0x1000000, 1, 4, 1, [⟨0, 8, .w1c, 0, false⟩]⟩,
  -- SRV_LOOP_VAL
  ⟨0x8048, 0x1000000, 1, 4, 1, [⟨16, 16, .ro, 0, false⟩, ⟨0, 16, .ro, 0, false⟩]⟩,
  -- SRV_FLAG_SUM_LO
  ⟨0x8050, 0x1000000, 1, 4, 1, [⟨0, 32, .ro, 0, false⟩]⟩,
  -- SRV_FLAG_SUM_HI
  ⟨0x8054, 0x1000000, 1, 4, 1, [⟨0, 16, .ro, 0, false⟩]⟩,
  -- SRV_TUNE_CTRL
  ⟨0x8060, 0x1000000, 1, 4, 1, [⟨31, 1, .w1s, 0, true⟩, ⟨30, 1, .w1s, 0, true⟩, ⟨27, 3, .rw, 0, false⟩, ⟨6, 16, .rw, 0x800, false⟩, ⟨0, 6, .rw, 0, false⟩]⟩,
  -- SRV_TUNE_CFG
  ⟨0x8064, 0x1000000, 1, 4, 1, [⟨16, 16, .rw, 0x100, false⟩, ⟨0, 16, .rw, 0x2000, false⟩]⟩,
  -- SRV_TUNE_STATUS
  ⟨0x8068, 0x1000000, 1, 4, 1, [⟨28, 4, .ro, 0, false⟩, ⟨24, 4, .ro, 0, false⟩, ⟨0, 24, .ro, 0, false⟩]⟩]

/-- Registers of the SRV block. -/
def regTableSrv1 : List RegDesc := [
  -- SRV_TUNE_AMP
  ⟨0x806C, 0x1000000, 1, 4, 1, [⟨0, 16, .ro, 0, false⟩]⟩,
  -- SRV_TUNE_KPI
  ⟨0x8070, 0x1000000, 1, 4, 1, [⟨16, 16, .ro, 0, false⟩, ⟨0, 16, .ro, 0, false⟩]⟩,
  -- SRV_TUNE_KD
  ⟨0x8074, 0x1000000, 1, 4, 1, [⟨16, 4, .ro, 0, false⟩, ⟨0, 16, .ro, 0, false⟩]⟩,
  -- SRV_RETRACT
  ⟨0x8080, 0x1000000, 1, 4, 1, [⟨16, 16, .ro, 0, false⟩, ⟨0, 8, .ro, 0, false⟩]⟩,
  -- SRV_SERVO_ERR
  ⟨0x8090, 4, 2, 0x1000000, 1, [⟨16, 16, .rc, 0, false⟩, ⟨8, 8, .rc, 0, false⟩, ⟨0, 8, .rc, 0, false⟩]⟩]

/-- Registers of the SRV block. -/
def regTableSrv : List RegDesc := regTableSrv0 ++ regTableSrv1

/-- Registers of the ENG block. -/
def regTableEng : List RegDesc := [
  -- ENG_VERSION
  ⟨0x9000, 0x1000000, 1, 4, 1, [⟨16, 16, .ro, 0x102, false⟩, ⟨0, 16, .ro, 0x100, false⟩]⟩,
  -- ENG_FENCED
  ⟨0x9008, 0x1000000, 1, 4, 1, [⟨0, 32, .w1s, 0, true⟩]⟩,
  -- ENG_UNFENCE
  ⟨0x900C, 0x1000000, 1, 4, 1, [⟨0, 32, .wo, 0, true⟩]⟩,
  -- ENG_E_STATE
  ⟨0x9100, 0x20, 32, 0x1000000, 1, [⟨29, 3, .ro, 0, false⟩, ⟨20, 9, .ro, 0, false⟩, ⟨0, 18, .ro, 0, false⟩]⟩,
  -- ENG_E_RETIRED
  ⟨0x9104, 0x20, 32, 0x1000000, 1, [⟨0, 32, .rc, 0, false⟩]⟩,
  -- ENG_E_BUSY
  ⟨0x9108, 0x20, 32, 0x1000000, 1, [⟨0, 32, .rc, 0, false⟩]⟩,
  -- ENG_E_TRAPS
  ⟨0x910C, 0x20, 32, 0x1000000, 1, [⟨24, 8, .ro, 0, false⟩, ⟨0, 16, .rc, 0, false⟩]⟩,
  -- ENG_E_MEMERR
  ⟨0x9110, 0x20, 32, 0x1000000, 1, [⟨16, 16, .rc, 0, false⟩, ⟨0, 16, .rc, 0, false⟩]⟩]

/-- Registers of the TSK block. -/
def regTableTsk : List RegDesc := [
  -- TSK_VERSION
  ⟨0xA000, 0x1000000, 1, 4, 1, [⟨16, 16, .ro, 0x100, false⟩, ⟨0, 16, .ro, 0x100, false⟩]⟩,
  -- TSK_DESC_VERSION
  ⟨0xA004, 0x1000000, 1, 4, 1, [⟨16, 16, .ro, 0x100, false⟩, ⟨0, 16, .ro, 0x100, false⟩]⟩,
  -- TSK_CTX_USE
  ⟨0xA008, 0x1000000, 1, 4, 1, [⟨0, 19, .ro, 0, false⟩]⟩,
  -- TSK_TASK_USE
  ⟨0xA00C, 0x1000000, 1, 4, 1, [⟨0, 17, .ro, 0, false⟩]⟩,
  -- TSK_STORE
  ⟨0xA010, 0x1000000, 1, 4, 1, [⟨16, 16, .ro, 0, false⟩, ⟨0, 16, .ro, 0x1000, false⟩]⟩,
  -- TSK_TICK
  ⟨0xA014, 0x1000000, 1, 4, 1, [⟨0, 32, .ro, 0, false⟩]⟩,
  -- TSK_CNT_COMMIT
  ⟨0xA018, 0x1000000, 1, 4, 1, [⟨0, 32, .rc, 0, false⟩]⟩,
  -- TSK_CNT_FAULT
  ⟨0xA01C, 0x1000000, 1, 4, 1, [⟨0, 32, .rc, 0, false⟩]⟩,
  -- TSK_CNT_RESTART
  ⟨0xA020, 0x1000000, 1, 4, 1, [⟨0, 32, .rc, 0, false⟩]⟩,
  -- TSK_CTX_SEL
  ⟨0xA030, 0x1000000, 1, 4, 1, [⟨0, 18, .rw, 0, false⟩]⟩,
  -- TSK_CTX_DATA
  ⟨0xA040, 4, 16, 0x1000000, 1, [⟨0, 32, .ro, 0, false⟩]⟩,
  -- TSK_C_READY01
  ⟨0xA100, 0x20, 4, 0x1000000, 1, [⟨16, 16, .ro, 0, false⟩, ⟨0, 16, .ro, 0, false⟩]⟩,
  -- TSK_C_READY23
  ⟨0xA104, 0x20, 4, 0x1000000, 1, [⟨16, 16, .ro, 0, false⟩, ⟨0, 16, .ro, 0, false⟩]⟩,
  -- TSK_C_DELAY
  ⟨0xA108, 0x20, 4, 0x1000000, 1, [⟨0, 17, .ro, 0, false⟩]⟩,
  -- TSK_C_OVERFLOW
  ⟨0xA10C, 0x20, 4, 0x1000000, 1, [⟨0, 17, .ro, 0, false⟩]⟩,
  -- TSK_C_SHARED
  ⟨0xA110, 0x20, 4, 0x1000000, 1, [⟨8, 7, .ro, 0x40, false⟩, ⟨0, 7, .ro, 0x40, false⟩]⟩,
  -- TSK_C_DISPATCH
  ⟨0xA114, 0x20, 4, 0x1000000, 1, [⟨0, 32, .rc, 0, false⟩]⟩,
  -- TSK_C_SWITCH
  ⟨0xA118, 0x20, 4, 0x1000000, 1, [⟨0, 32, .rc, 0, false⟩]⟩]

/-- Registers of the PMX block. -/
def regTablePmx : List RegDesc := [
  -- PMX_VERSION
  ⟨0xB000, 0x1000000, 1, 4, 1, [⟨16, 16, .ro, 0x100, false⟩, ⟨0, 16, .ro, 0x100, false⟩]⟩,
  -- PMX_STATUS
  ⟨0xB004, 0x1000000, 1, 4, 1, [⟨16, 1, .ro, 0, false⟩, ⟨12, 4, .ro, 0, false⟩, ⟨0, 8, .ro, 0, false⟩]⟩,
  -- PMX_STORE
  ⟨0xB008, 0x1000000, 1, 4, 1, [⟨16, 12, .ro, 0x600, false⟩, ⟨0, 10, .ro, 0x200, false⟩]⟩,
  -- PMX_BANK_OWNER
  ⟨0xB040, 4, 16, 0x1000000, 1, [⟨16, 10, .rw, 0x3FF, true⟩, ⟨0, 13, .ro, 0, false⟩]⟩,
  -- PMX_CNT_SCAN
  ⟨0xB080, 0x1000000, 1, 4, 1, [⟨0, 32, .rc, 0, false⟩]⟩,
  -- PMX_CNT_LOOKUP
  ⟨0xB084, 0x1000000, 1, 4, 1, [⟨0, 32, .rc, 0, false⟩]⟩,
  -- PMX_CNT_UPDATE
  ⟨0xB088, 0x1000000, 1, 4, 1, [⟨0, 32, .rc, 0, false⟩]⟩,
  -- PMX_CNT_FALSE
  ⟨0xB08C, 0x1000000, 1, 4, 1, [⟨0, 32, .rc, 0, false⟩]⟩,
  -- PMX_CNT_SHADOW_UE
  ⟨0xB090, 0x1000000, 1, 4, 1, [⟨0, 32, .rc, 0, false⟩]⟩,
  -- PMX_CNT_INSTALL
  ⟨0xB094, 0x1000000, 1, 4, 1, [⟨16, 16, .rc, 0, false⟩, ⟨0, 16, .rc, 0, false⟩]⟩]

/-- Registers of the CMP block. -/
def regTableCmp : List RegDesc := [
  -- CMP_STATUS
  ⟨0xC000, 0x1000000, 1, 4, 1, [⟨8, 8, .ro, 0, false⟩, ⟨0, 8, .ro, 0, false⟩]⟩,
  -- CMP_INJECT
  ⟨0xC004, 0x1000000, 1, 4, 1, [⟨0, 4, .w1s, 0, true⟩]⟩,
  -- CMP_CNT_JOBS
  ⟨0xC010, 0x1000000, 1, 4, 1, [⟨16, 16, .rc, 0, false⟩, ⟨0, 16, .rc, 0, false⟩]⟩,
  -- CMP_CNT_IN
  ⟨0xC014, 0x1000000, 1, 4, 1, [⟨0, 32, .rc, 0, false⟩]⟩,
  -- CMP_CNT_OUT
  ⟨0xC018, 0x1000000, 1, 4, 1, [⟨0, 32, .rc, 0, false⟩]⟩,
  -- CMP_CNT_VERIFY
  ⟨0xC01C, 0x1000000, 1, 4, 1, [⟨0, 32, .rc, 0, false⟩]⟩,
  -- CMP_CNT_ERR
  ⟨0xC020, 0x1000000, 1, 4, 1, [⟨24, 8, .rc, 0, false⟩, ⟨16, 8, .rc, 0, false⟩, ⟨8, 8, .rc, 0, false⟩, ⟨0, 8, .rc, 0, false⟩]⟩]

/-- Registers of the SEC block. -/
def regTableSec : List RegDesc := [
  -- SEC_STATUS
  ⟨0xD000, 0x1000000, 1, 4, 1, [⟨4, 1, .ro, 0, false⟩, ⟨3, 1, .ro, 0, false⟩, ⟨2, 1, .ro, 0, false⟩, ⟨1, 1, .ro, 0, false⟩]⟩,
  -- SEC_KEY_CMD
  ⟨0xD004, 0x1000000, 1, 4, 1, [⟨28, 4, .wo, 0, true⟩, ⟨24, 4, .wo, 0, true⟩, ⟨12, 12, .wo, 0, true⟩, ⟨0, 12, .wo, 0, true⟩]⟩,
  -- SEC_KEY_STATUS
  ⟨0xD008, 0x1000000, 1, 4, 1, [⟨31, 1, .ro, 0, false⟩, ⟨0, 8, .ro, 0, false⟩]⟩,
  -- SEC_BLOB_ADDR
  ⟨0xD00C, 0x1000000, 1, 4, 1, [⟨2, 6, .rw, 0, false⟩]⟩,
  -- SEC_BLOB_DATA
  ⟨0xD010, 0x1000000, 1, 4, 1, [⟨0, 32, .rw, 0, true⟩]⟩,
  -- SEC_SLOT_SEL
  ⟨0xD014, 0x1000000, 1, 4, 1, [⟨0, 12, .rw, 0, false⟩]⟩,
  -- SEC_SLOT_INFO
  ⟨0xD018, 0x1000000, 1, 4, 1, [⟨31, 1, .ro, 0, false⟩, ⟨28, 3, .ro, 0, false⟩, ⟨27, 1, .ro, 0, false⟩, ⟨0, 8, .ro, 0, false⟩]⟩,
  -- SEC_SLOT_LABEL
  ⟨0xD01C, 0x1000000, 1, 4, 1, [⟨0, 32, .ro, 0, false⟩]⟩,
  -- SEC_NS_SEL
  ⟨0xD020, 0x1000000, 1, 4, 1, [⟨0, 11, .rw, 1, false⟩]⟩,
  -- SEC_NS_KEY
  ⟨0xD024, 0x1000000, 1, 4, 1, [⟨31, 1, .ro, 0, false⟩, ⟨0, 12, .rw, 0, true⟩]⟩,
  -- SEC_DIGEST_CFG
  ⟨0xD028, 0x1000000, 1, 4, 1, [⟨0, 24, .rw, 0x400, false⟩]⟩,
  -- SEC_TAMPER
  ⟨0xD02C, 0x1000000, 1, 4, 1, [⟨0, 5, .rwsClear, 0, false⟩]⟩,
  -- SEC_LIFECYCLE
  ⟨0xD030, 0x1000000, 1, 4, 1, [⟨16, 16, .wo, 0, true⟩, ⟨0, 1, .ro, 0, false⟩]⟩,
  -- SEC_ROLLBACK
  ⟨0xD034, 0x1000000, 1, 4, 1, [⟨0, 32, .ro, 0, false⟩]⟩,
  -- SEC_CNT_AUTH
  ⟨0xD040, 0x1000000, 1, 4, 1, [⟨16, 16, .rc, 0, false⟩, ⟨0, 16, .rc, 0, false⟩]⟩,
  -- SEC_CNT_DIGEST
  ⟨0xD044, 0x1000000, 1, 4, 1, [⟨16, 16, .rc, 0, false⟩, ⟨0, 16, .rc, 0, false⟩]⟩,
  -- SEC_CNT_ENTROPY
  ⟨0xD048, 0x1000000, 1, 4, 1, [⟨16, 16, .rc, 0, false⟩, ⟨0, 16, .rc, 0, false⟩]⟩]

/-- Registers of the MEM block. -/
def regTableMem0 : List RegDesc := [
  -- MEM_CTRL
  ⟨0xE000, 0x1000000, 1, 4, 1, [⟨31, 1, .w1s, 0, true⟩, ⟨3, 1, .rwl, 1, false⟩, ⟨1, 2, .w1s, 0, true⟩]⟩,
  -- MEM_STATUS
  ⟨0xE004, 0x1000000, 1, 4, 1, [⟨28, 4, .ro, 0, false⟩, ⟨24, 4, .ro, 0, false⟩, ⟨20, 4, .ro, 0, false⟩, ⟨16, 4, .ro, 0, false⟩, ⟨10, 1, .ro, 0, false⟩, ⟨9, 1, .ro, 0, false⟩, ⟨0, 4, .ro, 0, false⟩]⟩,
  -- MEM_DDR_CFG
  ⟨0xE008, 0x1000000, 1, 4, 1, [⟨4, 4, .rwl, 6, false⟩, ⟨2, 1, .rwl, 1, false⟩, ⟨0, 2, .rwl, 0, false⟩]⟩,
  -- MEM_PAGE
  ⟨0xE00C, 0x1000000, 1, 4, 1, [⟨0, 12, .rwl, 0x80, false⟩]⟩,
  -- MEM_WQ
  ⟨0xE010, 0x1000000, 1, 4, 1, [⟨8, 6, .rwl, 0x30, false⟩, ⟨0, 6, .rwl, 0x10, false⟩]⟩,
  -- MEM_RH
  ⟨0xE014, 0x1000000, 1, 4, 1, [⟨8, 1, .rwl, 0, false⟩, ⟨0, 4, .rwl, 0xB, false⟩]⟩,
  -- MEM_SCRUB
  ⟨0xE018, 0x1000000, 1, 4, 1, [⟨24, 8, .rwl, 0x18, false⟩, ⟨0, 16, .ro, 0, false⟩]⟩,
  -- MEM_FILL
  ⟨0xE01C, 0x1000000, 1, 4, 1, [⟨0, 21, .ro, 0, false⟩]⟩,
  -- MEM_HEAL_CTRL
  ⟨0xE020, 0x1000000, 1, 4, 1, [⟨31, 1, .w1s, 0, true⟩, ⟨8, 3, .ro, 0, false⟩, ⟨0, 8, .rw, 0, false⟩]⟩,
  -- MEM_HEAL_ADDR
  ⟨0xE024, 0x1000000, 1, 4, 1, [⟨0, 32, .rw, 0, false⟩]⟩,
  -- MEM_ERR_UE_INFO
  ⟨0xE030, 0x1000000, 1, 4, 1, [⟨31, 1, .w1c, 0, false⟩, ⟨16, 8, .ro, 0, false⟩, ⟨4, 1, .ro, 0, false⟩, ⟨0, 4, .ro, 0, false⟩]⟩,
  -- MEM_ERR_UE_ADDR
  ⟨0xE034, 0x1000000, 1, 4, 1, [⟨0, 32, .ro, 0, false⟩]⟩,
  -- MEM_ERR_CE_INFO
  ⟨0xE038, 0x1000000, 1, 4, 1, [⟨31, 1, .ro, 0, false⟩, ⟨16, 8, .ro, 0, false⟩, ⟨4, 1, .ro, 0, false⟩, ⟨0, 4, .ro, 0, false⟩]⟩,
  -- MEM_ERR_CE_ADDR
  ⟨0xE03C, 0x1000000, 1, 4, 1, [⟨0, 32, .ro, 0, false⟩]⟩,
  -- MEM_FLIP_CTRL
  ⟨0xE040, 0x1000000, 1, 4, 1, [⟨31, 1, .w1s, 0, true⟩, ⟨30, 1, .rw, 0, false⟩, ⟨0, 8, .rw, 0, false⟩]⟩,
  -- MEM_FLIP_ADDR
  ⟨0xE044, 0x1000000, 1, 4, 1, [⟨0, 32, .rw, 0, false⟩]⟩,
  -- MEM_FLIP_MASK
  ⟨0xE080, 4, 20, 0x1000000, 1, [⟨0, 32, .rw, 0, false⟩]⟩,
  -- MEM_SUB_CE
  ⟨0xE100, 0x20, 4, 0x1000000, 1, [⟨0, 32, .rc, 0, false⟩]⟩,
  -- MEM_SUB_UE
  ⟨0xE104, 0x20, 4, 0x1000000, 1, [⟨0, 32, .rc, 0, false⟩]⟩,
  -- MEM_SUB_CA
  ⟨0xE108, 0x20, 4, 0x1000000, 1, [⟨16, 16, .rc, 0, false⟩, ⟨0, 16, .rc, 0, false⟩]⟩]

/-- Registers of the MEM block. -/
def regTableMem1 : List RegDesc := [
  -- MEM_SUB_RH
  ⟨0xE10C, 0x20, 4, 0x1000000, 1, [⟨0, 32, .rc, 0, false⟩]⟩,
  -- MEM_SUB_RMW
  ⟨0xE110, 0x20, 4, 0x1000000, 1, [⟨16, 16, .rc, 0, false⟩, ⟨0, 16, .rc, 0, false⟩]⟩,
  -- MEM_SRAM_CNT
  ⟨0xE200, 4, 64, 0x1000000, 1, [⟨16, 16, .rc, 0, false⟩, ⟨0, 16, .rc, 0, false⟩]⟩]

/-- Registers of the MEM block. -/
def regTableMem : List RegDesc := regTableMem0 ++ regTableMem1

/-- Registers of the CNT block. -/
def regTableCnt0 : List RegDesc := [
  -- CNT_CTRL
  ⟨0xF000, 0x1000000, 1, 4, 1, [⟨31, 1, .w1s, 0, true⟩, ⟨1, 1, .w1s, 0, true⟩, ⟨0, 1, .rwl, 0, true⟩]⟩,
  -- CNT_STATUS
  ⟨0xF004, 0x1000000, 1, 4, 1, [⟨28, 4, .ro, 0, false⟩, ⟨26, 2, .ro, 0, false⟩, ⟨25, 1, .ro, 0, false⟩, ⟨24, 1, .w1c, 0, false⟩, ⟨23, 1, .ro, 0, false⟩, ⟨22, 1, .ro, 0, false⟩, ⟨21, 1, .w1c, 0, false⟩, ⟨20, 1, .ro, 0, false⟩, ⟨19, 1, .w1c, 0, false⟩, ⟨18, 1, .ro, 0, false⟩, ⟨15, 3, .ro, 0, false⟩]⟩,
  -- CNT_VERSION
  ⟨0xF008, 0x1000000, 1, 4, 1, [⟨16, 16, .ro, 0x100, false⟩, ⟨0, 16, .ro, 0x100, false⟩]⟩,
  -- CNT_NEGOTIATED
  ⟨0xF00C, 0x1000000, 1, 4, 1, [⟨0, 16, .ro, 0, false⟩]⟩,
  -- CNT_CFG
  ⟨0xF010, 0x1000000, 1, 4, 1, [⟨31, 1, .rwl, 0, false⟩, ⟨30, 1, .rwl, 0, false⟩, ⟨16, 12, .rwl, 0, false⟩, ⟨8, 8, .rwl, 0x14, false⟩]⟩,
  -- CNT_LAG
  ⟨0xF014, 0x1000000, 1, 4, 1, [⟨16, 16, .rwl, 0x40, false⟩, ⟨0, 16, .ro, 0, false⟩]⟩,
  -- CNT_DEVNUM
  ⟨0xF018, 0x1000000, 1, 4, 1, [⟨12, 10, .ro, 0, false⟩, ⟨0, 10, .rwl, 0, false⟩]⟩,
  -- CNT_DOMAIN
  ⟨0xF01C, 0x1000000, 1, 4, 1, [⟨0, 32, .rwl, 0, false⟩]⟩,
  -- CNT_EPOCH
  ⟨0xF020, 0x1000000, 1, 4, 1, [⟨0, 32, .ro, 0, false⟩]⟩,
  -- CNT_PEER_EPOCH
  ⟨0xF024, 0x1000000, 1, 4, 1, [⟨0, 32, .ro, 0, false⟩]⟩,
  -- CNT_ORDER
  ⟨0xF028, 0x1000000, 1, 4, 1, [⟨28, 4, .wo, 0, true⟩]⟩,
  -- CNT_ORDER_EPOCH
  ⟨0xF02C, 0x1000000, 1, 4, 1, [⟨0, 32, .rw, 0, false⟩]⟩,
  -- CNT_ORDER_STATUS
  ⟨0xF030, 0x1000000, 1, 4, 1, [⟨31, 1, .ro, 0, false⟩, ⟨0, 8, .ro, 0, false⟩]⟩,
  -- CNT_RESYNC_PCT
  ⟨0xF034, 0x1000000, 1, 4, 1, [⟨0, 16, .ro, 0x2710, false⟩]⟩,
  -- CNT_RESYNC_NSID
  ⟨0xF038, 0x1000000, 1, 4, 1, [⟨0, 11, .ro, 0, false⟩]⟩,
  -- CNT_RESYNC_LBA_LO
  ⟨0xF03C, 0x1000000, 1, 4, 1, [⟨0, 32, .ro, 0, false⟩]⟩,
  -- CNT_RESYNC_LBA_HI
  ⟨0xF040, 0x1000000, 1, 4, 1, [⟨0, 32, .ro, 0, false⟩]⟩,
  -- CNT_DIRTY
  ⟨0xF044, 0x1000000, 1, 4, 1, [⟨0, 32, .ro, 0, false⟩]⟩,
  -- CNT_HB
  ⟨0xF048, 0x1000000, 1, 4, 1, [⟨0, 8, .rw, 5, false⟩]⟩,
  -- CNT_CNT_LINK
  ⟨0xF050, 0x1000000, 1, 4, 1, [⟨16, 16, .rc, 0, false⟩, ⟨0, 16, .rc, 0, false⟩]⟩]

/-- Registers of the CNT block. -/
def regTableCnt1 : List RegDesc := [
  -- CNT_CNT_PAIR
  ⟨0xF054, 0x1000000, 1, 4, 1, [⟨16, 16, .rc, 0, false⟩, ⟨0, 16, .rc, 0, false⟩]⟩,
  -- CNT_CNT_MSG
  ⟨0xF058, 0x1000000, 1, 4, 1, [⟨0, 32, .rc, 0, false⟩]⟩]

/-- Registers of the CNT block. -/
def regTableCnt : List RegDesc := regTableCnt0 ++ regTableCnt1

/-- Registers of the NVS block. -/
def regTableNvs : List RegDesc := [
  -- NVS_UNLOCK
  ⟨0x10000, 0x1000000, 1, 4, 1, [⟨0, 16, .wo, 0, true⟩]⟩,
  -- NVS_ADDR
  ⟨0x10004, 0x1000000, 1, 4, 1, [⟨3, 20, .rw, 0, false⟩]⟩,
  -- NVS_DATA_LO
  ⟨0x10008, 0x1000000, 1, 4, 1, [⟨0, 32, .rw, 0, false⟩]⟩,
  -- NVS_DATA_HI
  ⟨0x1000C, 0x1000000, 1, 4, 1, [⟨0, 32, .rw, 0, false⟩]⟩,
  -- NVS_CMD
  ⟨0x10010, 0x1000000, 1, 4, 1, [⟨0, 4, .wo, 0, true⟩]⟩,
  -- NVS_STATUS
  ⟨0x10014, 0x1000000, 1, 4, 1, [⟨8, 8, .ro, 0, false⟩, ⟨7, 1, .ro, 0, false⟩, ⟨6, 1, .w1c, 0, false⟩, ⟨5, 1, .w1c, 0, false⟩, ⟨4, 1, .ro, 0, false⟩, ⟨3, 1, .ro, 0, false⟩, ⟨2, 1, .ro, 0, false⟩, ⟨1, 1, .w1c, 0, false⟩, ⟨0, 1, .ro, 0, false⟩]⟩,
  -- NVS_PULSES
  ⟨0x10018, 0x1000000, 1, 4, 1, [⟨0, 8, .ro, 0, false⟩]⟩,
  -- NVS_RING
  ⟨0x10020, 0x1000000, 1, 4, 1, [⟨16, 11, .ro, 0x780, false⟩, ⟨0, 11, .ro, 0, false⟩]⟩,
  -- NVS_MOVES
  ⟨0x10024, 0x1000000, 1, 4, 1, [⟨0, 24, .ro, 0, false⟩]⟩,
  -- NVS_SPARES
  ⟨0x10028, 0x1000000, 1, 4, 1, [⟨0, 8, .ro, 0x7D, false⟩]⟩,
  -- NVS_CNT
  ⟨0x1002C, 0x1000000, 1, 4, 1, [⟨16, 16, .rc, 0, false⟩, ⟨8, 8, .rc, 0, false⟩, ⟨0, 8, .rc, 0, false⟩]⟩]

/-- Registers of the UPD block. -/
def regTableUpd : List RegDesc := [
  -- UPD_CTRL
  ⟨0x11000, 0x1000000, 1, 4, 1, [⟨8, 1, .rw, 0, false⟩, ⟨4, 4, .rw, 0, false⟩, ⟨0, 4, .wo, 0, true⟩]⟩,
  -- UPD_STATUS
  ⟨0x11004, 0x1000000, 1, 4, 1, [⟨31, 1, .ro, 0, false⟩, ⟨8, 2, .ro, 0, false⟩, ⟨0, 8, .ro, 0, false⟩]⟩,
  -- UPD_OFFSET
  ⟨0x11008, 0x1000000, 1, 4, 1, [⟨12, 9, .rw, 0, false⟩]⟩,
  -- UPD_DATA
  ⟨0x1100C, 0x1000000, 1, 4, 1, [⟨0, 32, .wo, 0, true⟩]⟩,
  -- UPD_RUNNING
  ⟨0x11010, 0x1000000, 1, 4, 1, [⟨0, 32, .ro, 0, false⟩]⟩,
  -- UPD_SLOT_A
  ⟨0x11014, 0x1000000, 1, 4, 1, [⟨0, 32, .ro, 0, false⟩]⟩,
  -- UPD_SLOT_B
  ⟨0x11018, 0x1000000, 1, 4, 1, [⟨0, 32, .ro, 0, false⟩]⟩,
  -- UPD_SLOTS
  ⟨0x1101C, 0x1000000, 1, 4, 1, [⟨3, 1, .ro, 0, false⟩, ⟨2, 1, .ro, 0, false⟩, ⟨1, 1, .ro, 0, false⟩, ⟨0, 1, .ro, 0, false⟩]⟩,
  -- UPD_SETTINGS_VER
  ⟨0x11020, 0x1000000, 1, 4, 1, [⟨16, 16, .ro, 0, false⟩, ⟨0, 16, .ro, 0, false⟩]⟩,
  -- UPD_SETTINGS_STATUS
  ⟨0x11024, 0x1000000, 1, 4, 1, [⟨16, 2, .ro, 0, false⟩, ⟨0, 16, .ro, 0, false⟩]⟩,
  -- UPD_SET_OFFSET
  ⟨0x11028, 0x1000000, 1, 4, 1, [⟨2, 14, .rw, 0, false⟩]⟩,
  -- UPD_SET_DATA
  ⟨0x1102C, 0x1000000, 1, 4, 1, [⟨0, 32, .rw, 0, true⟩]⟩,
  -- UPD_SERVICE
  ⟨0x11030, 0x1000000, 1, 4, 1, [⟨0, 1, .rws, 0, false⟩]⟩]

/-- Registers of the MGT block. -/
def regTableMgt0 : List RegDesc := [
  -- MGT_PROTO
  ⟨0x12000, 0x1000000, 1, 4, 1, [⟨16, 16, .ro, 0x100, false⟩, ⟨0, 16, .ro, 0x100, false⟩]⟩,
  -- MGT_PROTO_SEL
  ⟨0x12004, 0x1000000, 1, 4, 1, [⟨0, 16, .rw, 0x100, false⟩]⟩,
  -- MGT_I3C_CFG
  ⟨0x12008, 0x1000000, 1, 4, 1, [⟨31, 1, .rws, 0, false⟩, ⟨0, 7, .rws, 0x5A, false⟩]⟩,
  -- MGT_I3C_STATUS
  ⟨0x1200C, 0x1000000, 1, 4, 1, [⟨9, 1, .ro, 1, false⟩, ⟨8, 1, .ro, 1, false⟩, ⟨7, 1, .ro, 0, false⟩, ⟨0, 7, .ro, 0, false⟩]⟩,
  -- MGT_ALERT_STATUS
  ⟨0x12010, 0x1000000, 1, 4, 1, [⟨13, 1, .w1c, 0, false⟩, ⟨12, 1, .w1c, 0, false⟩, ⟨11, 1, .w1c, 0, false⟩, ⟨10, 1, .w1c, 0, false⟩, ⟨9, 1, .w1c, 0, false⟩, ⟨8, 1, .w1c, 0, false⟩, ⟨7, 1, .w1c, 0, false⟩, ⟨6, 1, .w1c, 0, false⟩, ⟨5, 1, .w1c, 0, false⟩, ⟨4, 1, .w1c, 0, false⟩, ⟨3, 1, .w1c, 0, false⟩, ⟨2, 1, .w1c, 0, false⟩, ⟨1, 1, .w1c, 0, false⟩, ⟨0, 1, .w1c, 0, false⟩]⟩,
  -- MGT_ALERT_EN
  ⟨0x12014, 0x1000000, 1, 4, 1, [⟨0, 32, .rw, 0x3FFF, false⟩]⟩,
  -- MGT_ALERT_IBI
  ⟨0x12018, 0x1000000, 1, 4, 1, [⟨0, 32, .rw, 0x3FFF, false⟩]⟩,
  -- MGT_CNT
  ⟨0x12020, 0x1000000, 1, 4, 1, [⟨16, 16, .rc, 0, false⟩, ⟨0, 16, .rc, 0, false⟩]⟩,
  -- TF_CMD
  ⟨0x12040, 0x1000000, 1, 4, 1, [⟨24, 8, .rw, 0, false⟩]⟩,
  -- TF_NSID
  ⟨0x12044, 0x1000000, 1, 4, 1, [⟨0, 32, .rw, 0, false⟩]⟩,
  -- TF_LBA_LO
  ⟨0x12048, 0x1000000, 1, 4, 1, [⟨0, 32, .rw, 0, false⟩]⟩,
  -- TF_LBA_HI
  ⟨0x1204C, 0x1000000, 1, 4, 1, [⟨0, 32, .rw, 0, false⟩]⟩,
  -- TF_COUNT
  ⟨0x12050, 0x1000000, 1, 4, 1, [⟨0, 32, .rw, 0, false⟩]⟩,
  -- TF_LENGTH
  ⟨0x12054, 0x1000000, 1, 4, 1, [⟨0, 32, .rw, 0, false⟩]⟩,
  -- TF_ARG
  ⟨0x12058, 0x1000000, 1, 4, 1, [⟨0, 8, .rw, 0, false⟩]⟩,
  -- TF_CTRL
  ⟨0x1205C, 0x1000000, 1, 4, 1, [⟨1, 1, .w1s, 0, true⟩, ⟨0, 1, .w1s, 0, true⟩]⟩,
  -- TF_STATUS
  ⟨0x12060, 0x1000000, 1, 4, 1, [⟨30, 2, .ro, 0, false⟩, ⟨27, 3, .ro, 0, false⟩, ⟨24, 3, .ro, 0, false⟩, ⟨16, 8, .ro, 0, false⟩, ⟨3, 1, .w1c, 0, false⟩, ⟨2, 1, .w1c, 0, false⟩, ⟨1, 1, .w1c, 0, false⟩]⟩,
  -- TF_RECEIVED
  ⟨0x12064, 0x1000000, 1, 4, 1, [⟨0, 32, .ro, 0, false⟩]⟩,
  -- TF_DATA
  ⟨0x12080, 0x1000000, 1, 4, 1, [⟨0, 32, .rw, 0, true⟩]⟩,
  -- MGT_LB_CTRL
  ⟨0x12100, 0x1000000, 1, 4, 1, [⟨1, 1, .w1s, 0, true⟩, ⟨0, 1, .rws, 1, false⟩]⟩]

/-- Registers of the MGT block. -/
def regTableMgt1 : List RegDesc := [
  -- MGT_LB_STATUS
  ⟨0x12104, 0x1000000, 1, 4, 1, [⟨16, 16, .rc, 0, false⟩, ⟨0, 16, .ro, 0, false⟩]⟩,
  -- MGT_LB_PID_LO
  ⟨0x12140, 0x10, 16, 0x1000000, 1, [⟨0, 32, .ro, 0, false⟩]⟩,
  -- MGT_LB_ENTRY
  ⟨0x12144, 0x10, 16, 0x1000000, 1, [⟨16, 8, .ro, 0, false⟩, ⟨8, 4, .ro, 0, false⟩, ⟨7, 1, .ro, 0, false⟩, ⟨0, 7, .ro, 0, false⟩]⟩,
  -- MGT_LB_VALUE
  ⟨0x12148, 0x10, 16, 0x1000000, 1, [⟨0, 32, .ro, 0, false⟩]⟩,
  -- MGT_LB_PID_TOP
  ⟨0x1214C, 0x10, 16, 0x1000000, 1, [⟨0, 8, .ro, 0, false⟩]⟩,
  -- MGT_OP_SEL
  ⟨0x12280, 0x1000000, 1, 4, 1, [⟨0, 3, .rw, 0, false⟩]⟩,
  -- MGT_OP_INFO
  ⟨0x12284, 0x1000000, 1, 4, 1, [⟨30, 2, .ro, 0, false⟩, ⟨29, 1, .ro, 0, false⟩, ⟨0, 16, .ro, 0, false⟩]⟩,
  -- MGT_OP_POS_LO
  ⟨0x12288, 0x1000000, 1, 4, 1, [⟨0, 32, .ro, 0, false⟩]⟩,
  -- MGT_OP_POS_HI
  ⟨0x1228C, 0x1000000, 1, 4, 1, [⟨0, 32, .ro, 0, false⟩]⟩,
  -- MGT_OP_END
  ⟨0x12290, 0x1000000, 1, 4, 1, [⟨8, 8, .ro, 0, false⟩, ⟨0, 8, .ro, 0, false⟩]⟩]

/-- Registers of the MGT block. -/
def regTableMgt : List RegDesc := regTableMgt0 ++ regTableMgt1

/-- Registers of the DRV block. -/
def regTableDrv : List RegDesc := [
  -- DRV_STATUS
  ⟨0x20000, 0x1000000, 1, 4, 1, [⟨9, 1, .ro, 0, false⟩, ⟨8, 1, .ro, 0, false⟩, ⟨7, 1, .ro, 0, false⟩, ⟨6, 1, .ro, 0, false⟩, ⟨5, 1, .ro, 0, false⟩, ⟨4, 1, .ro, 0, false⟩, ⟨3, 1, .ro, 0, false⟩, ⟨2, 1, .ro, 0, false⟩, ⟨1, 1, .ro, 0, false⟩, ⟨0, 1, .ro, 0, false⟩]⟩,
  -- DRV_FAULT
  ⟨0x20004, 0x1000000, 1, 4, 1, [⟨15, 1, .w1c, 0, false⟩, ⟨14, 1, .w1c, 0, false⟩, ⟨13, 1, .w1c, 0, false⟩, ⟨12, 1, .w1c, 0, false⟩, ⟨11, 1, .w1c, 0, false⟩, ⟨10, 1, .w1c, 0, false⟩, ⟨9, 1, .w1c, 0, false⟩, ⟨8, 1, .w1c, 0, false⟩, ⟨7, 1, .w1c, 0, false⟩, ⟨6, 1, .w1c, 0, false⟩, ⟨5, 1, .w1c, 0, false⟩, ⟨4, 1, .w1c, 0, false⟩, ⟨3, 1, .w1c, 0, false⟩, ⟨2, 1, .w1c, 0, false⟩, ⟨1, 1, .w1c, 0, false⟩]⟩,
  -- DRV_TEMP_LOGIC
  ⟨0x20010, 0x1000000, 1, 4, 1, [⟨31, 1, .ro, 0, false⟩, ⟨0, 16, .ro, 0, false⟩]⟩,
  -- DRV_TEMP_DRIVE
  ⟨0x20014, 0x1000000, 1, 4, 1, [⟨31, 1, .ro, 0, false⟩, ⟨0, 16, .ro, 0, false⟩]⟩,
  -- DRV_TEMP_HDA
  ⟨0x20018, 0x1000000, 1, 4, 1, [⟨31, 1, .ro, 0, false⟩, ⟨0, 16, .ro, 0, false⟩]⟩,
  -- DRV_TEMP_VCM
  ⟨0x2001C, 0x1000000, 1, 4, 1, [⟨16, 16, .ro, 0, false⟩, ⟨0, 16, .ro, 0, false⟩]⟩,
  -- DRV_V12
  ⟨0x20020, 0x1000000, 1, 4, 1, [⟨0, 16, .ro, 0, false⟩]⟩,
  -- DRV_VHOLD
  ⟨0x20024, 0x1000000, 1, 4, 1, [⟨0, 16, .ro, 0, false⟩]⟩,
  -- DRV_VBST
  ⟨0x20028, 0x1000000, 1, 4, 1, [⟨0, 16, .ro, 0, false⟩]⟩,
  -- DRV_V3P3
  ⟨0x2002C, 0x1000000, 1, 4, 1, [⟨0, 16, .ro, 0, false⟩]⟩,
  -- DRV_V12_POWER
  ⟨0x20030, 0x1000000, 1, 4, 1, [⟨0, 16, .ro, 0, false⟩]⟩,
  -- DRV_EVENTS
  ⟨0x20034, 0x1000000, 1, 4, 1, [⟨16, 16, .rc, 0, false⟩, ⟨0, 16, .rc, 0, false⟩]⟩]

/-- Registers of the INST block. -/
def regTableInst : List RegDesc := [
  -- INST_STATUS
  ⟨0x100100, 0x1000, 512, 0x1000000, 1, [⟨16, 16, .ro, 0, false⟩, ⟨6, 1, .w1c, 0, false⟩, ⟨5, 1, .ro, 0, false⟩, ⟨4, 1, .ro, 0, false⟩, ⟨0, 3, .ro, 0, false⟩]⟩,
  -- INST_QUOTA_Q
  ⟨0x100104, 0x1000, 512, 0x1000000, 1, [⟨16, 12, .ro, 0, false⟩, ⟨8, 6, .ro, 0, false⟩, ⟨0, 8, .ro, 0, false⟩]⟩,
  -- INST_QUOTA_C
  ⟨0x100108, 0x1000, 512, 0x1000000, 1, [⟨0, 19, .ro, 0, false⟩]⟩,
  -- INST_QUOTA_T
  ⟨0x10010C, 0x1000, 512, 0x1000000, 1, [⟨24, 7, .ro, 0, false⟩, ⟨0, 17, .ro, 0, false⟩]⟩,
  -- INST_DRAM
  ⟨0x100110, 0x1000, 512, 0x1000000, 1, [⟨16, 10, .ro, 0, false⟩, ⟨0, 6, .ro, 0, false⟩]⟩,
  -- INST_KEYS
  ⟨0x100114, 0x1000, 512, 0x1000000, 1, [⟨16, 13, .ro, 0, false⟩, ⟨0, 12, .ro, 0, false⟩]⟩,
  -- INST_BYTE_RATE
  ⟨0x100118, 0x1000, 512, 0x1000000, 1, [⟨0, 32, .ro, 0, false⟩]⟩,
  -- INST_BYTE_BURST
  ⟨0x10011C, 0x1000, 512, 0x1000000, 1, [⟨0, 32, .ro, 0, false⟩]⟩,
  -- INST_CMD_RATE
  ⟨0x100120, 0x1000, 512, 0x1000000, 1, [⟨0, 32, .ro, 0, false⟩]⟩,
  -- INST_CMD_BURST
  ⟨0x100124, 0x1000, 512, 0x1000000, 1, [⟨0, 32, .ro, 0, false⟩]⟩,
  -- INST_BYTE_LEVEL
  ⟨0x100128, 0x1000, 512, 0x1000000, 1, [⟨0, 32, .ro, 0, false⟩]⟩,
  -- INST_CMD_LEVEL
  ⟨0x10012C, 0x1000, 512, 0x1000000, 1, [⟨0, 32, .ro, 0, false⟩]⟩,
  -- INST_USE_A
  ⟨0x100130, 0x1000, 512, 0x1000000, 1, [⟨0, 19, .ro, 0, false⟩]⟩,
  -- INST_USE_B
  ⟨0x100134, 0x1000, 512, 0x1000000, 1, [⟨20, 12, .ro, 0, false⟩, ⟨0, 17, .ro, 0, false⟩]⟩,
  -- INST_ADMIT_STALL
  ⟨0x100138, 0x1000, 512, 0x1000000, 1, [⟨0, 32, .ro, 0, false⟩]⟩,
  -- INST_STALE
  ⟨0x10013C, 0x1000, 512, 0x1000000, 1, [⟨0, 32, .ro, 0, false⟩]⟩]

/-- The registers of the block that holds management address `a` (Table 01.4, R33). -/
def regTable (a : Nat) : List RegDesc :=
  if a ≥ 0x100000 then (if a < 0x300000 then regTableInst else [])
  else if a ≥ 0x20000 then (if a < 0x30000 then regTableDrv else [])
  else match a / 0x1000 with
  | 0 => regTableDev
  | 1 => regTablePwr
  | 2 => regTableSlt
  | 3 => regTableHif
  | 4 => regTableVin
  | 5 => regTableFch
  | 6 => regTableFtl
  | 7 => regTableDch
  | 8 => regTableSrv
  | 9 => regTableEng
  | 10 => regTableTsk
  | 11 => regTablePmx
  | 12 => regTableCmp
  | 13 => regTableSec
  | 14 => regTableMem
  | 15 => regTableCnt
  | 16 => regTableNvs
  | 17 => regTableUpd
  | 18 => regTableMgt
  | _ => []

end Sys2Proof.Machine
end

