-- ==== Sys2Proof/Machine/State.lean ====
section
/-! DEFINITION. The whole state of the block as plain data, chapter by chapter of the spec; the
reasons a step can stop; and the state right after a cold reset. -/

namespace Sys2Proof.Machine

/-! ## Shared records -/

/-- A table of like things kept by number, in one canonical form: numbers strictly rising, and no
entry equal to what an unlisted number reads as. -/
abbrev Sparse (α : Type) := List (Nat × α)

/-- One dailies record (Table 06.12): timecode in ns, SOURCE, SEVERITY, REASON, the tenant (0xFFFF
for none) with its generation, and DETAIL. -/
structure Daily where
  time     : Nat
  source   : Nat
  severity : Nat
  reason   : Nat
  tenant   : Nat
  gen      : Nat
  detail   : List Nat
deriving DecidableEq, Repr

/-- One health event (Table 06.9). -/
structure HealthEvent where
  time     : Nat
  code     : Nat
  severity : Nat
  unitKind : Nat
  unit     : Nat
  nsid     : Nat
  detail   : Nat
deriving DecidableEq, Repr

/-! ## Chapter 01: dies, splice, timecode -/

/-- A motion or spindle command held on the drive die until its apply stamp (R21). -/
structure HeldOutput where
  stamp : Nat
  value : Nat
deriving DecidableEq, Repr

/-- The fabric, the splice and the timecode (chapter 01). -/
structure Fabric where
  /-- The published timecode in units of 1/64 ns (R29, R30). -/
  timecode : Nat
  /-- The keeper's own count, which may trail the published value after a handover (R30). -/
  keeper : Nat
  /-- The logic die keeps the timecode; otherwise the always-on domain does (R29). -/
  logicKeeps : Bool
  /-- Multiples of 1000 ns already delivered as delay-list ticks (R32). -/
  tickMark : Nat
  /-- The upper halves latched per access path: BAR0, I3C, management core pair (R31). -/
  hiBar0 : Nat
  hiI3c  : Nat
  hiCore : Nat
  /-- Splice cycle counts of the two dies (R21) and the part of a control cycle elapsed. -/
  cycleLogic : Nat
  cycleDrive : Nat
  cyclePart  : Nat
  /-- Commands held until their stamp, by output number (Table 01.2: 0–2 and 3–5 the VCM,
  microactuator and heater of actuators 0 and 1; 6 the spindle; 7 boost, bias and enables). -/
  held : Sparse (List HeldOutput)
  /-- The value each drive-die output has now. -/
  outputs : Sparse Nat
  /-- Consecutive discarded commands by output (R22). -/
  discards : Sparse Nat
  /-- Consecutive failed link checks at the drive die and at the logic die (R24). -/
  failsDrive : Nat
  failsLogic : Nat
  /-- The sequence number each die expects of the next link check. -/
  seqDrive : Nat
  seqLogic : Nat
  /-- Failed transmissions in a row of the management access in progress, by path number, and the paths whose
  access in progress has failed four times (R23). -/
  mgtTries : Sparse Nat
  mgtFailed : List Path
  /-- Events held on the drive die until the splice is up, oldest first (R25). -/
  heldEvents : List DriveEvent
  /-- Events delivered to the logic die and not yet acknowledged, oldest first. -/
  events : List DriveEvent
  /-- The last sense sample received per drive-to-logic superframe position 0–7 (Table 01.2). -/
  samples : Sparse Nat
  /-- Timecode of the last trim of the internal RC oscillator; none before the first (R26). -/
  rcTrimAt : Option Nat
  /-- The always-on domain runs from its internal RC oscillator: no signal was present on LFXIN when it was
  powered up (R26). -/
  lfRc : Bool
deriving DecidableEq, Repr

/-- The fabric after a cold reset: the timecode starts at zero (R29); every list is empty. -/
def Fabric.reset : Fabric :=
  { timecode := 0, keeper := 0, logicKeeps := false, tickMark := 0, hiBar0 := 0, hiI3c := 0,
    hiCore := 0, cycleLogic := 0, cycleDrive := 0, cyclePart := 0, held := [], outputs := [],
    discards := [], failsDrive := 0, failsLogic := 0, seqDrive := 0, seqLogic := 0, mgtTries := [],
    mgtFailed := [], heldEvents := [], events := [],
    samples := [], rcTrimAt := none, lfRc := false }

/-! ## Chapter 02: the slate -/

/-- A slate activation or validation in progress (R71, R74). -/
structure SlateJob where
  /-- Swap on success; otherwise validate only. -/
  swap : Bool
  /-- The Slate Load command that asked for it, if any. -/
  cmd  : Option CmdKey
  /-- The partner message that asked for it, if any. -/
  partner : Option LinkMsg
deriving DecidableEq, Repr

/-- The slate engine (chapter 02). Images are bytes by offset; an unlisted offset holds 0. -/
structure Slate where
  active   : Sparse Byte
  shadow   : Sparse Byte
  /-- The copy of the active image in DRAM rank 0 (R75). -/
  dramCopy : Option (Sparse Byte)
  /-- The columns are granting (R78). -/
  running  : Bool
  /-- The fabric clock is gated in Ready; the slate is stopped (R51). -/
  gated    : Bool
  /-- Fabric cycle within the frame, 0–16,383 (R43). -/
  frameCycle : Nat
  job      : Option SlateJob
  /-- The frame at whose start the shadow becomes active (R71). -/
  swapDue  : Option Nat
  /-- When the last dailies record of a refused shadow write was written (R617). -/
  lockDaily : Option Nat
  /-- Active cells to be rewritten by the next heal (R79). -/
  badCells : List Nat
  /-- Cells that units have asked for and not been granted, by column, owner and direction; those asked for in
  the running decision window; and cells granted and not used yet (R45, R48). -/
  posted   : Sparse Nat
  fresh    : Sparse Nat
  granted  : Sparse Nat
  /-- Columns decided in the running decision window (R48). -/
  decided  : List Nat
  /-- The rings have restarted for the swap that the next frame brings (R60, R73). -/
  ringsNew : Bool
  /-- The half of the slate SRAM that holds the active copy (R71, R79). -/
  bank     : Nat
deriving DecidableEq, Repr

def Slate.reset : Slate :=
  { active := [], shadow := [], dramCopy := none, running := false, gated := false,
    frameCycle := 0, job := none, swapDue := none, lockDaily := none, badCells := [],
    posted := [], fresh := [], granted := [], decided := [], ringsNew := false, bank := 0 }

/-! ## Chapter 03: host commands; chapter 04: tenancy -/

/-- Command states of Table 03.3. -/
inductive CmdSt where
  | fetched | decoded | admitWait | lockWait | executing | completing | posted | discarded
deriving DecidableEq, Repr

/-- One range a command locks (R108). -/
structure LockRange where
  ns    : Nat
  first : Nat
  count : Nat
  excl  : Bool
deriving DecidableEq, Repr

/-- A fetched command (R94). -/
structure Cmd where
  key     : CmdKey
  sqe     : Sqe
  st      : CmdSt
  /-- Generation carried (R137). -/
  gen     : Nat
  /-- Fetch order and, once it leaves ADMIT_WAIT, arrival order at the range-lock table (R109). -/
  seq     : Nat
  arrival : Nat
  /-- Bytes charged at admission (R150), for the refund of R115. -/
  charged : Nat
  /-- The ranges the command needs (R108), and whether its entries are held. -/
  ranges  : List LockRange
  held    : Bool
  /-- One of the entries held is the reserved entry of the tenant (R111). -/
  reserved : Bool
  /-- A read served from a covering write in flight: that write's arrival order (R110). -/
  fallback : Option Nat
  /-- All data of a write is in the write buffer. -/
  dataIn  : Bool
  /-- Store index of the script of a Take Submit that has passed decode (R126, R356). -/
  image   : Option Nat
  /-- The descriptor fetch of a Take Submit has been issued (R359). -/
  fetching : Bool
  /-- It is an order waiting in the sequencer or already accepted by it (R99). -/
  ordered : Bool
  won     : Bool
  /-- Final status: code type, code, dwords 0 and 1, and the data returned. -/
  sct     : Nat
  sc      : Nat
  dw0     : Nat
  dw1     : Nat
  out     : List Byte
  /-- The Abort or Take Cancel that caught it, whose completion follows (R116). -/
  caught  : Bool
deriving DecidableEq, Repr

/-- A completion entry in a host completion queue, with the data delivered before it. -/
structure Cqe where
  sq     : Nat
  cid    : Nat
  sqHead : Nat
  sct    : Nat
  sc     : Nat
  dw0    : Nat
  dw1    : Nat
  phase  : Bool
  data   : List Byte
deriving DecidableEq, Repr

/-- A submission queue (R90). -/
structure Sq where
  size : Nat
  head : Nat
  tail : Nat
  cq   : Nat
  base : Nat
deriving DecidableEq, Repr

/-- A completion queue (R90); `entries` are those the host has not freed yet, oldest first. -/
structure Cq where
  size    : Nat
  head    : Nat
  tail    : Nat
  phase   : Bool
  vector  : Nat
  ien     : Bool
  base    : Nat
  entries : List Cqe
deriving DecidableEq, Repr

/-- An asynchronous event: type, information and log page (Table 03.13). -/
structure AsyncEvent where
  type : Nat
  info : Nat
  page : Nat
deriving DecidableEq, Repr

/-- One deferred write error (Table 03.10). -/
structure Dwe where
  nsid  : Nat
  sq    : Nat
  cid   : Nat
  first : Nat
  count : Nat
  cause : Nat
  time  : Nat
deriving DecidableEq, Repr

/-- An entry of the Error Information page (Table 03.6, NVMe). -/
structure ErrEntry where
  count : Nat
  sq    : Nat
  cid   : Nat
  sct   : Nat
  sc    : Nat
  lba   : Nat
  nsid  : Nat
deriving DecidableEq, Repr

/-- An MSI-X table entry (R83). -/
structure MsixEntry where
  addr   : Nat
  data   : Nat
  masked : Bool
  pend   : Bool
deriving DecidableEq, Repr

def MsixEntry.reset : MsixEntry := { addr := 0, data := 0, masked := true, pend := false }

/-- One NVMe controller: the physical function's (function 0) or a tenant's (function n + 1). -/
structure Ctrl where
  cc   : Nat
  rdy  : Bool
  /-- CSTS.SHST (Table 03.17), and the interrupt mask that INTMS and INTMC set and clear. -/
  shst : Nat
  intMask : Nat
  /-- A write of CC.EN = 1 held until the tenant is ENABLED (R134). -/
  enHeld : Bool
  aqa  : Nat
  asq  : Nat
  acq  : Nat
  sqs  : Sparse (Option Sq)
  cqs  : Sparse (Option Cq)
  /-- Features (Table 03.7). -/
  arb      : Nat
  power    : Nat
  tempOver : Sparse Nat
  tempUnder : Sparse Nat
  numSq    : Option Nat
  numCq    : Option Nat
  coalesce : Nat
  vecCfg   : Sparse Nat
  atomic   : Nat
  evCfg    : Nat
  /-- Outstanding Asynchronous Event Requests, oldest first (R130). -/
  aers     : List CmdKey
  /-- Events held until a request arrives, oldest first, and events latched until their page is read. -/
  events   : List AsyncEvent
  latched  : List AsyncEvent
  /-- Round-robin position and commands served in this turn (R91). -/
  rrSq     : Nat
  rrServed : Nat
  changedNs    : List Nat
  changedZones : List (Nat × Nat)
  /-- Log page 0xC0 of the controller and the namespaces with a condition set (R118–R122, R618). -/
  dwes     : List Dwe
  dweLost  : Nat
  dweConds : List Nat
  errors   : List ErrEntry
  errCount : Nat
  /-- Interrupts sent, and the MSI-X table. -/
  msix     : Sparse MsixEntry
  irqs     : List Nat
deriving DecidableEq, Repr

/-- A controller after reset: Arbitration Burst reads 3 (R91). -/
def Ctrl.reset : Ctrl :=
  { cc := 0, rdy := false, shst := 0, intMask := 0, enHeld := false, aqa := 0, asq := 0, acq := 0, sqs := [], cqs := [],
    arb := 3, power := 0, tempOver := [], tempUnder := [], numSq := none, numCq := none,
    coalesce := 0, vecCfg := [], atomic := 0, evCfg := 0, aers := [], events := [], latched := [],
    rrSq := 0, rrServed := 0, changedNs := [], changedZones := [], dwes := [], dweLost := 0,
    dweConds := [], errors := [], errCount := 0, msix := [], irqs := [] }

/-- Namespace types (Table 03.2). -/
inductive NsType where
  | flash | tiered | zoned
deriving DecidableEq, Repr

/-- A namespace (R86). -/
structure Namespace where
  type     : NsType
  /-- Bytes of a logical block: 512 or 4096. -/
  block    : Nat
  /-- Size in logical blocks. -/
  size     : Nat
  /-- Functions it is attached to. -/
  attached : List Nat
  /-- Marked degraded (R583). -/
  degraded : Bool
  /-- Its units that a second loss in their stripe made unrecoverable, until they are written again or deallocated
  (R196, R583). -/
  lost     : List Nat
  /-- A Format or Sanitize was cut off; it reports Namespace Not Ready (R529). -/
  notReady : Bool
  /-- First band of each zone for a zoned-disk namespace: (actuator, band) by zone number. -/
  zones    : List (Nat × Nat)
deriving DecidableEq, Repr

/-- What the host saw of the last register access that answered it (R34). -/
inductive BusResult where
  | none | done | data (v : Nat) | unsupported
deriving DecidableEq, Repr

/-- What the host programs in the PCIe configuration space (Table 03.1), and what the device reports there: maximum
payload and read request size in bytes, 10-bit tags, ASPM L1 and its substates, and LTR enabled, and the errors that AER
has reported with their functions, oldest first (R100). -/
structure Pcie where
  mps     : Nat
  mrrs    : Nat
  tags10  : Bool
  aspmL1  : Bool
  l1ss    : Bool
  ltr     : Bool
  aer     : List (Nat × FetchEnd)
deriving DecidableEq, Repr

def Pcie.reset : Pcie :=
  { mps := 128, mrrs := 512, tags10 := false, aspmL1 := false, l1ss := false, ltr := false, aer := [] }

/-- The host interface (chapter 03). -/
structure HostIf where
  ctrls   : Sparse Ctrl
  /-- Commands in flight, in fetch order. -/
  cmds    : List Cmd
  /-- Next fetch number and next arrival number at the range-lock table. -/
  nextSeq : Nat
  nextArrival : Nat
  nss     : Sparse (Option Namespace)
  vfEnable : Bool
  numVfs  : Nat
  /-- Outcome of the last BAR0 access. -/
  bus     : BusResult
  /-- Fetching is held by a firmware activation (R92, R559). -/
  fwHold  : Bool
  /-- Tenants whose fetching R111 has stopped. -/
  lockStall : List Nat
  /-- PF link power state L1.2 (R520). -/
  linkL12 : Bool
  pcie    : Pcie
deriving DecidableEq, Repr

def HostIf.reset : HostIf :=
  { ctrls := [], cmds := [], nextSeq := 0, nextArrival := 0, nss := [], vfEnable := false,
    numVfs := 0, bus := .none, fwHold := false,
    lockStall := [], linkL12 := false, pcie := Pcie.reset }

/-- States of a tenant's virtual machine interface (Table 04.1). -/
inductive InstSt where
  | disabled | configured | scrubbing | enabled | quiescing | quiesced | resetting
deriving DecidableEq, Repr

def InstSt.code : InstSt → Nat
  | .disabled => 0 | .configured => 1 | .scrubbing => 2 | .enabled => 3
  | .quiescing => 4 | .quiesced => 5 | .resetting => 6

def InstSt.ofCode : Nat → InstSt
  | 1 => .configured | 2 => .scrubbing | 3 => .enabled
  | 4 => .quiescing | 5 => .quiesced | 6 => .resetting | _ => .disabled

/-- The configuration record (Table 04.4). -/
structure InstRec where
  ioqPairs : Nat
  queueEntries : Nat
  msixVectors : Nat
  lockLimit : Nat
  contextQuota : Nat
  taskQuota : Nat
  keyFirst : Nat
  keyCount : Nat
  dramBase : Nat
  dramSize : Nat
  scriptQuota : Nat
  takesAllowed : Bool
  byteRate : Nat
  byteBurst : Nat
  cmdRate : Nat
  cmdBurst : Nat
deriving DecidableEq, Repr

/-- What the device keeps per tenant beside its registers (chapter 04). The state code, the
generation, the bucket levels and the counters stand in the INST registers of its window. -/
structure Tenant where
  record   : Option InstRec
  /-- Rates of a Rate Set that the next tick puts in force (R152): BYTE_RATE, BYTE_BURST,
  CMD_RATE, CMD_BURST. -/
  newRates : Option (Nat × Nat × Nat × Nat)
  /-- Generations of the results that have come back stale and are not discarded yet (R138). -/
  staleOps : List Nat
  /-- Output commits in progress (R141, R622). -/
  commits  : Nat
  /-- The RESETTING in progress is a removal (R136). -/
  removing : Bool
  /-- The keys of a removed instance are erased once the sealing of its commits has ended (Table 04.2, R622). -/
  eraseDue : Bool
  /-- A generation advance held by R139. -/
  advanceHeld : Bool
  /-- Set-up commands of the tenant still pending. -/
  pend     : List CmdKey
  /-- An Instance Disable waits for the fill to end (R619). -/
  disableWait : Bool
  /-- Stale discards since the last record, with the oldest generation (R138). -/
  staleCount : Nat
  staleOldest : Nat
  staleSince : Option Nat
  /-- The state recorded in the settings is ENABLED (R571). -/
  wasEnabled : Bool
  /-- SCRUBBING was entered at a start and needs the host data path open (R570). -/
  fillAtStart : Bool
deriving DecidableEq, Repr

def Tenant.reset : Tenant :=
  { record := none, newRates := none, staleOps := [], commits := 0, removing := false, eraseDue := false,
    advanceHeld := false, pend := [], disableWait := false, staleCount := 0, staleOldest := 0,
    staleSince := none, wasEnabled := false, fillAtStart := false }

/-! ## Chapter 05: flash channels -/

/-- Array operations of a LUN (R164, R181). -/
inductive FlashKind where
  | read | program | erase
deriving DecidableEq, Repr

/-- Who issued a flash operation, and what it is for. -/
inductive FlashUser where
  /-- A unit that a reader waits for (an entry of the read table). -/
  | unit (reader : ReadFor) (unit : Nat)
  /-- A page of a stripe row of a superblock: lane, first segment, row. -/
  | row (lane seg row : Nat)
  /-- Erase of a superblock's block: lane, first segment. -/
  | erase (lane seg : Nat)
  /-- A journal codeword, by PAGE_SEQ (R212); a page of a checkpoint (R216); a page of a dump (R229). -/
  | journal (pageSeq : Nat)
  | ckpt
  | dump
  /-- The read of a unit that collection copies: namespace, unit, source slot (R220). -/
  | copy (nsid unit src : Nat)
  /-- The read of a unit that the rebuild of a fenced channel moves (R195). -/
  | rebuild (ch nsid unit src : Nat)
  /-- A member read of a reconstruction (R191). -/
  | member (id : Nat)
  /-- A read whose issuer is gone. -/
  | media
deriving DecidableEq, Repr

/-- One operation of a LUN queue (R181–R187). -/
structure FlashOp where
  kind  : FlashKind
  user  : FlashUser
  /-- Slate owner code that pays for it. -/
  owner : Nat
  /-- The flash translation layer issues it for itself (R182). -/
  own   : Bool
  block : Nat
  page  : Nat
  cw    : Nat
  planes : Nat
  /-- Start of the array command, or of its last resume; none while queued. -/
  began : Option Nat
  /-- When the command was first issued, for the busy limit. -/
  issued : Option Nat
  /-- Suspended since. -/
  suspendedAt : Option Nat
  suspends : Nat
  /-- Recovery-ladder step of a read (Table 05.8). -/
  step  : Nat
  /-- The array has reported ready. -/
  ready : Bool
  /-- Next status poll (R183). -/
  pollAt : Nat
  /-- Its place among all operations, oldest first (R181), and when it was queued (R48). -/
  order : Nat
  at_   : Nat
  /-- Generation of the instance it was issued for (R137). -/
  gen   : Nat
  /-- Cells of its data transfer used so far (R171). -/
  moved : Nat
  /-- Reads of step 16 done so far, and the hint table that step 0 used (R177). -/
  soft  : Nat
  skip  : Nat
deriving DecidableEq, Repr

/-- One LUN. Presence and fences stand in FCH_PRESENT and FCH_LUN_FENCE. -/
structure Lun where
  queue    : List FlashOp
  held     : List FlashOp
  /-- The threshold shifts that the LUN holds, by read level; none before the first is set (R177). -/
  shift    : List Nat
  /-- Times of recent timeouts, and whether the last Reset LUN did not bring the LUN back (R192). -/
  timeouts : List Nat
  resetBad : Bool
  programs : Nat
  retired  : Nat
  /-- Programs done when the loop count was last sampled (R180). -/
  sampled  : Nat
deriving DecidableEq, Repr

def Lun.reset : Lun :=
  { queue := [], held := [], shift := [], timeouts := [], resetBad := false, sampled := 0, programs := 0, retired := 0 }

/-- A soft-decode request (R176). -/
structure SoftReq where
  ch  : Nat
  lun : Nat
deriving DecidableEq, Repr

/-- One channel. State, rate, rebuild progress and counters stand in its FCH registers. -/
structure Channel where
  luns     : Sparse Lun
  /-- Soft requests kept by the channel while the soft queue is full. -/
  softHeld : List SoftReq
  /-- Last 64 program loop counts, newest first (R180). -/
  loops    : List Nat
  /-- Trained rate kept through Standby (R168), and the LUNs recorded at bring-up (R161). -/
  keptRate : Option Nat
  present  : Nat
  /-- A channel fence is recorded in the NVS (R194). -/
  fenced   : Bool
  /-- (LUN, time) of recent timeouts (R170). -/
  timeouts : List (Nat × Nat)
  /-- Its blocks must be erased before use (R196, R218), and the superblocks, by key, that have been since. -/
  eraseFirst : Bool
  erasedSbs  : List Nat
  /-- A retrain is due or runs (R170). -/
  retraining : Bool
  /-- A rebuild runs (R195). -/
  rebuilding : Bool
  /-- Operations that failed back to their issuer since the last fence or failure. -/
  failedBack : List FlashOp
  /-- Codewords of the fenced unit still to be rebuilt and rebuilt so far (R195). -/
  rebuildLeft : Nat
  rebuildDone : Nat
deriving DecidableEq, Repr

def Channel.reset : Channel :=
  { luns := [], softHeld := [], loops := [], keptRate := none, present := 0, fenced := false, timeouts := [],
    eraseFirst := false, erasedSbs := [], retraining := false, rebuilding := false, failedBack := [], rebuildLeft := 0,
    rebuildDone := 0 }

/-- The NAND record once it has passed R165. -/
structure NandRec where
  levels : Nat
  ageClasses : Nat
  loopFeature : Nat
  suspOp : Nat
  softDelta : Nat
  trMax : Nat
  tprogMax : Nat
  tbersMax : Nat
  peLimits : List Nat
  shiftFeature : Nat
  resumeOp : Nat
  /-- Start shifts of each age class, and the shifts of retry tables 1–15, by read level. -/
  defaultShift : List (List Nat)
  retryShift : List (List Nat)
deriving DecidableEq, Repr

/-- A reconstruction in progress (R191): the place of the lost codeword, whom it is for, the member channels whose
reads have not ended, and whether one of them failed. -/
structure Recon where
  id    : Nat
  ch    : Nat
  lun   : Nat
  op    : FlashOp
  left  : List Nat
  failed : Bool
deriving DecidableEq, Repr

/-- The flash channels (chapter 05). -/
structure Flash where
  chans   : Sparse Channel
  /-- Waiting soft-decode requests, oldest first (at most 64), and those being decoded (at most 4). -/
  softQueue : List SoftReq
  softBusy  : List SoftReq
  /-- Block hints by global LUN × 16,384 + block (R178). -/
  hints   : Sparse Nat
  nandRec : Option NandRec
  geom    : Option NandGeom
  /-- The power-fail rules of R189 are in force: no erase starts and reads stay held. -/
  powerFail : Bool
  /-- WP_n is driven high (Table 05.2). -/
  wpHigh  : Bool
  recons  : List Recon
  /-- Next number of an operation or a reconstruction. -/
  nextOp  : Nat
  /-- Program/erase count of a block, by the key of its hint (R165, R234). -/
  peCounts : Sparse Nat
  /-- CODE_RATE and RAIN_GROUP of each channel when the flash tier was last formatted (R173, R190, R197). -/
  formatCfg : Sparse (Nat × Nat)
deriving DecidableEq, Repr

def Flash.reset : Flash :=
  { chans := [], softQueue := [], softBusy := [], hints := [], nandRec := none, geom := none,
    powerFail := false, wpHigh := false, recons := [], nextOp := 0, peCounts := [], formatCfg := [] }

/-! ## Chapter 06: flash translation, tiering and health -/

/-- Write streams (Table 06.3). -/
inductive Stream where
  | hostHot | hostWarm | gcCold | migrateOut
deriving DecidableEq, Repr

/-- A unit in the write buffer (R205, R206). -/
structure WbEntry where
  nsid     : Nat
  unit     : Nat
  data     : List Byte
  /-- The bytes of the unit that the write covers, `lo` to before `hi`; the merge gives the others (R205). -/
  lo       : Nat
  hi       : Nat
  key      : CmdKey
  gen      : Nat
  complete : Bool
  age      : Nat
  /-- Order of entry: a later write of the same unit has a higher number. -/
  order    : Nat
  flushing : Bool
  /-- Slot of its lane that the flush fills, once assigned. -/
  slot     : Option Nat
  /-- Journal record that maps the unit to its media copy, once appended. -/
  mapped   : Option Nat
deriving DecidableEq, Repr

/-- Journal record types (Table 06.5). -/
inductive JrnKind where
  | mapSet | mapClear | mapZero | extentSet | sbOpen | sbClose | eraseBegin | eraseEnd
  | blockRetire | bandReset | dwe | dumpReplayed
deriving DecidableEq, Repr

/-- A journal record (R212, R214). -/
structure JrnRec where
  seq   : Nat
  kind  : JrnKind
  ns    : Nat
  count : Nat
  a     : Nat
  b     : Nat
  c     : Nat
  time  : Nat
deriving DecidableEq, Repr

/-- A journal codeword being programmed on two channels (R212). -/
structure JrnCw where
  pageSeq : Nat
  recs    : List JrnRec
  bytes   : List Byte
  /-- Channels whose program has not ended, and programs that have passed (R212). -/
  left    : List Nat
  passed  : Nat
deriving DecidableEq, Repr

/-- Extent states (Table 06.1). -/
inductive ExtSt where
  | unalloc | flash | disk | moving
deriving DecidableEq, Repr

/-- An extent entry (Table 06.1). -/
structure Extent where
  st         : ExtSt
  classified : Bool
  heat       : Nat
  /-- FLASH, MOVING: chunk index. DISK: actuator, band and slot in the band. -/
  chunk      : Nat
  act        : Nat
  band       : Nat
  slot       : Nat
deriving DecidableEq, Repr

def Extent.reset : Extent :=
  { st := .unalloc, classified := false, heat := 128, chunk := 0, act := 0, band := 0, slot := 0 }

/-- Superblock states. -/
inductive SbSt where
  | free | opened | closed | erasing | eraseIncomplete
deriving DecidableEq, Repr

/-- A superblock, kept by lane × 2^18 + first segment (R199, R200). -/
structure Superblock where
  st      : SbSt
  stream  : Option Stream
  valid   : Nat
  /-- Its member channels at its opening, in channel order (R199, R201). -/
  chans   : List Nat
  /-- Next data slot to be filled, and slots in all. -/
  next    : Nat
  slots   : Nat
  /-- Sequence number of the last record that moved or cleared one of its units (R221). -/
  lastSeq : Nat
  /-- ERASE_BEGIN record, once appended. -/
  eraseSeq : Nat
  /-- A block of the running erase did not pass (R183, R221). -/
  eraseBad : Bool
deriving DecidableEq, Repr

/-- m of R201. -/
def Superblock.members (x : Superblock) : Nat := x.chans.length

def Superblock.reset : Superblock :=
  { st := .free, stream := none, valid := 0, chans := [], next := 0, slots := 16384,
    lastSeq := 0, eraseSeq := 0, eraseBad := false }

/-- The stripe row being filled in an open superblock (R208). -/
structure RowFill where
  filled  : Nat
  firstAt : Nat
  /-- Owner of the data that opened it, whose flash cells the row takes (log entry 171). -/
  owner   : Nat
deriving DecidableEq, Repr

/-- A power-fail dump on the media (R229, R231). -/
structure Dump where
  seq     : Nat
  entries : List WbEntry
  tail    : List JrnRec
  dailies : List Daily
  /-- Entries that it could not hold (R461). -/
  lost    : List WbEntry
deriving DecidableEq, Repr

/-- A unit being copied to a new flash slot (R220, R227): its source slot for a collection, none for a
promotion; the new slot, or none while its lane has none to give; its stream; its ciphertext as it was stored (R40);
whether the copy has been programmed. -/
structure UnitCopy where
  nsid  : Nat
  unit  : Nat
  src   : Option Nat
  dst   : Option Nat
  stream : Stream
  data  : List Byte
  ready : Bool
deriving DecidableEq, Repr

/-- A stripe row or a superblock erase under way: the channels that have not reported yet. -/
structure RowProg where
  lane  : Nat
  seg   : Nat
  /-- Row of the superblock; none for an erase. -/
  row   : Option Nat
  left  : List Nat
deriving DecidableEq, Repr

/-- A map copied by a checkpoint pass (R216): chunks and extent tables. -/
structure MapCopy where
  map     : Sparse Nat
  extents : Sparse Extent
deriving DecidableEq, Repr

/-- A demotion, compaction or evacuation band being written (R225, R228). -/
structure BandMove where
  act     : Nat
  band    : Nat
  /-- (nsid, extent) in band-slot order. -/
  extents : List (Nat × Nat)
  /-- The old band of a compaction. -/
  old     : Option Nat
  /-- Units written and verified so far, in band order; and the last EXTENT_SET appended. -/
  done    : Nat
  lastSeq : Option Nat
deriving DecidableEq, Repr

/-- Temperature history of a sensor (Table 06.10). -/
structure TempHist where
  bins  : List Nat
  min   : Int
  max   : Int
  none  : Bool
  above : Nat
deriving DecidableEq, Repr

def TempHist.reset : TempHist :=
  { bins := [0, 0, 0, 0, 0, 0, 0, 0, 0, 0, 0, 0, 0, 0, 0, 0], min := -128, max := -128, none := true, above := 0 }

/-- A deallocation still to be applied (R222). -/
structure Dealloc where
  nsid  : Nat
  first : Nat
  count : Nat
  time  : Nat
deriving DecidableEq, Repr

/-- A unit that a reader waits for from the media (R174, R262, R364): the instance and the generation it was issued
for (R137), the band and band unit that hold it where no flash does, and whether the media has lost it. -/
structure UnitRead where
  reader : ReadFor
  inst   : Nat
  gen    : Nat
  nsid   : Nat
  unit   : Nat
  band   : Option (Nat × Nat)
  lost   : Bool
deriving DecidableEq, Repr

/-- Map, buffer, journal, tiering, health and dailies (chapter 06). -/
structure Ftl where
  wb       : List WbEntry
  nextOrder : Nat
  /-- Records appended and not yet in a codeword being programmed, oldest first. -/
  tail     : List JrnRec
  /-- Journal codewords on the media since the last checkpoint, by PAGE_SEQ (R212, R217). -/
  jrn      : Sparse (List Byte)
  nextSeq  : Nat
  durable  : Nat
  durHi    : Sparse Nat
  pageSeq  : Nat
  cws      : List JrnCw
  /-- Extent entries by nsid × 2^32 + extent; map entries by nsid × 2^40 + unit. -/
  extents  : Sparse Extent
  map      : Sparse Nat
  /-- The information bytes of each programmed slot, ciphertext (R40) and header (R172), by lane × 2^32 + slot value;
  and of each parity codeword (R190), by superblock, row and codeword. -/
  media    : Sparse (List Byte)
  parity   : Sparse (List Byte)
  /-- Units of DISK extents marked UNMAPPED in their band's slot record (R222), by map key. -/
  diskClear : Sparse Bool
  /-- Copies and rows under way. -/
  copies   : List UnitCopy
  progs    : List RowProg
  /-- Member channels of each RAIN group, and its LUN numbers, when the segments were assigned (R200). -/
  groups   : List (List Nat)
  groupLuns : List (List Nat)
  /-- Chunks freed once a record is durable (R204): sequence number and chunk. -/
  chunkFree : List (Nat × Nat)
  /-- The map as the last complete checkpoint holds it, and as the running pass does (R216). -/
  ckpt     : Option MapCopy
  ckptNext : Option MapCopy
  sbs      : Sparse Superblock
  rows     : Sparse (Option RowFill)
  /-- Lanes that are urgent: 4 free superblocks or fewer, until there are 6 (R219). -/
  urgent   : List Nat
  /-- Promotions whose EXTENT_SET is not durable: namespace, extent and the record's number (R227). -/
  promos   : List (Nat × Nat × Nat)
  /-- Since when a lane has had no superblock that can be opened (R211). -/
  openWait : Sparse (Option Nat)
  chunks   : Nat
  freeChunks : List Nat
  nextChunk : Nat
  /-- Checkpoint pass in progress: START_SEQ. Last complete pass and when it ended. -/
  ckptStart : Option Nat
  ckptAt    : Nat
  ckptPass  : Nat
  rootStart : Nat
  /-- Pages of the running pass and of the dump to be programmed (R216, R229). -/
  ckptPages : Nat
  jrnBytes  : Nat
  deallocs : List Dealloc
  epochAt  : Nat
  moves    : List BandMove
  /-- Demotion began below LOW and goes on until free tiered chunks are above HIGH (R225). -/
  demoting : Bool
  lastAct  : Nat
  dump     : Option Dump
  /-- The dump reloaded at the last start is still being flushed (R231). -/
  replaying : Bool
  /-- Entries of the reloaded dump, in ciphertext, whose namespace has no key yet. -/
  dumpWaits : List WbEntry
  dumpBad  : Bool
  /-- What a dump whose writing was cut would have held (Table 17.4). -/
  dumpCut  : Option (List WbEntry)
  /-- A power-fail or reset flush is in progress. -/
  dumping  : Bool
  rawBlocks : Nat
  poolAtFormat : Nat
  evacTotal : Nat
  evacDone  : Nat
  evacBelow : Bool
  peSum    : Nat
  peMax    : Nat
  pctRaised : Bool
  spareRaised : Bool
  retiredBlocks : List Nat
  /-- Units that readers wait for from the media. -/
  reads    : List UnitRead
  dailies  : List Daily
  /-- Dailies records not yet copied to the NVS. -/
  dailiesNew : Nat
  dailiesAt : Option Nat
  /-- The copies in the NVS of the dailies and of the temperature history (R237, R238). -/
  dailiesSaved : List Daily
  events   : List HealthEvent
  eventsLost : Nat
  temps    : Sparse TempHist
  tempsSavedAt : Nat
  tempsSaved : Sparse TempHist
  binAt    : Nat
  /-- When the sensors were last read (R237). -/
  sensorAt : Option Nat
  unrecovered : Nat
  dweCount : Nat
  /-- SMART counters (R235): data units and commands by function. -/
  unitsRead  : Sparse Nat
  unitsWritten : Sparse Nat
  readCmds : Sparse Nat
  writeCmds : Sparse Nat
deriving DecidableEq, Repr

def Ftl.reset : Ftl :=
  { wb := [], nextOrder := 0, tail := [], jrn := [], nextSeq := 1, durable := 0, durHi := [],
    pageSeq := 0, cws := [], extents := [], map := [], media := [], diskClear := [],
    parity := [], copies := [], progs := [], groups := [], groupLuns := [], chunkFree := [], ckpt := none, ckptNext := none, sbs := [], rows := [],
    urgent := [], promos := [], openWait := [], chunks := 0, freeChunks := [], nextChunk := 0, ckptStart := none, ckptAt := 0,
    ckptPass := 0, rootStart := 1, ckptPages := 0, jrnBytes := 0, deallocs := [], epochAt := 0, moves := [],
    demoting := false, lastAct := 1, dump := none, replaying := false, dumpWaits := [], dumpBad := false, dumpCut := none, dumping := false,
    rawBlocks := 0, poolAtFormat := 0, evacTotal := 0, evacDone := 0, evacBelow := false,
    peSum := 0, peMax := 0, pctRaised := false, spareRaised := false, retiredBlocks := [],
    reads := [], dailies := [], dailiesNew := 0, dailiesAt := none, events := [], eventsLost := 0, temps := [],
    dailiesSaved := [], tempsSaved := [], tempsSavedAt := 0, binAt := 0, sensorAt := none, unrecovered := 0, dweCount := 0, unitsRead := [],
    unitsWritten := [], readCmds := [], writeCmds := [] }

/-! ## Chapter 07: disk data channel -/

/-- A preamp record that has passed R243. -/
structure PreampRec where
  idAddr   : Nat
  idValue  : Nat
  heads    : Nat
  select   : Nat
  mode     : Nat
  sleep    : Nat
  idle     : Nat
  read     : Nat
  write    : Nat
  check    : Nat
  /-- Delay from writer to verify reader at the outer zone, in ns. -/
  lag      : Nat
deriving DecidableEq, Repr

/-- Condition of a head (Table 07.3). -/
inductive HeadCond where
  | good | readOnly | offline
deriving DecidableEq, Repr

/-- A recording-zone record (Table 07.4). -/
structure ZoneRec where
  firstBand  : Nat
  bandCount  : Nat
  tracks     : Nat
  firstTrack : Nat
  wedgeBits  : Nat
  slots      : Nat
  bitRate    : Nat
  phase      : Int
  act        : Nat
  head       : Nat
  spares     : Nat
deriving DecidableEq, Repr

/-- Band states (DCH_BAND_INFO.STATE). -/
inductive BandSt where
  | empty | opened | full | clockBad | retired | unusable
deriving DecidableEq, Repr

/-- A band (R249–R251, R263–R266). -/
structure Band where
  st       : BandSt
  vwp      : Nat
  stamp    : Nat
  reloc    : List (Nat × Nat)
  skip     : List Nat
  /-- Positions that join the skip list at the next BAND_RESET, in order (R266). -/
  nextSkip : List Nat
  capacity : Nat
  /-- Consecutive revolutions with loss of lock (R253). -/
  losses   : Nat
  /-- When the last revolution with a loss was counted. -/
  lossAt   : Nat
  /-- Next position the writer takes. -/
  nextPos  : Nat
  /-- Spare positions whose own write failed verify. -/
  badSpares : List Nat
  /-- Timecode at which the band trailer was written; none while there is none (R251). -/
  trailerAt : Option Nat
  /-- In-place rewrites used, by position (R265). -/
  rewrites : Sparse Nat
  /-- Compaction is wanted because of a verification finding (R272). -/
  weak     : Bool
  /-- Write pointer of the zone that is this band, and its explicit or closed state (R270). -/
  zwp      : Nat
  zopen    : Nat
deriving DecidableEq, Repr

def Band.reset : Band :=
  { st := .empty, vwp := 0, stamp := 0, reloc := [], skip := [], nextSkip := [], capacity := 65536, losses := 0, lossAt := 0,
    nextPos := 0, badSpares := [], trailerAt := none, rewrites := [], weak := false, zwp := 0, zopen := 0 }

/-- What a disk access is for. -/
inductive DiskUser where
  /-- A reader: a command, a take, the task file, the partner, the resync, or the device (promotion). -/
  | reader (r : ReadFor)
  /-- A zoned unit in the write buffer. -/
  | buffer (nsid unit : Nat)
  /-- A unit of an extent that moves to a band. -/
  | move (nsid unit : Nat)
deriving DecidableEq, Repr

/-- Sector read states (Table 07.9). -/
inductive ReadSt where
  | position | wait | capture | decode | reframe | ladder
deriving DecidableEq, Repr

/-- A sector read in progress (R262). -/
structure SectorRead where
  user  : DiskUser
  /-- The instance it reads for, and its generation (R137). -/
  inst  : Nat
  gen   : Nat
  band  : Nat
  unit  : Nat
  pos   : Nat
  st    : ReadSt
  step  : Nat
  /-- Recorded detections as offsets from the predicted sync position P, best first (R255). -/
  dets  : List Int
  /-- Starts still to be framed, and the start being decoded (R256). -/
  starts : List Int
  start : Int
  /-- First start of this capture. -/
  first : Int
deriving DecidableEq, Repr

/-- An accepted sector in the holding buffer (R262): whom it is for, and its 512 B pieces not yet drained to DRAM. -/
structure HeldSector where
  user  : DiskUser
  inst  : Nat
  gen   : Nat
  band  : Nat
  unit  : Nat
  left  : List Nat
deriving DecidableEq, Repr

/-- Sector write states (Table 07.10). -/
inductive WriteSt where
  | position | waitSlot | writing | verifyWait
deriving DecidableEq, Repr

/-- A sector write in progress (R267). -/
structure SectorWrite where
  user  : DiskUser
  band  : Nat
  unit  : Nat
  /-- Original position and position written now. -/
  orig  : Nat
  pos   : Nat
  st    : WriteSt
deriving DecidableEq, Repr

/-- A band verification (R271, R272). -/
structure BandVerify where
  first : Nat
  count : Nat
  done  : Nat
  track : Nat
deriving DecidableEq, Repr

/-- One actuator's data channel. State, head, lock and counters stand in its DCH registers. -/
structure DiskAct where
  preamp   : Option PreampRec
  heads    : Sparse HeadCond
  /-- Heads whose data reader failed: reads use the verify reader (Table 07.3). -/
  useVerify : List Nat
  reads    : List SectorRead
  writes   : List SectorWrite
  /-- Slots in the recovery decoder's queue (R257). -/
  recovery : Nat
  /-- Accepted sectors not yet drained to DRAM: up to 32 (R262). -/
  holding  : List HeldSector
  gate     : Bool
  verify   : Option BandVerify
deriving DecidableEq, Repr

def DiskAct.reset : DiskAct :=
  { preamp := none, heads := [], useVerify := [], reads := [], writes := [], recovery := 0,
    holding := [], gate := false, verify := none }

/-- The disk tier (chapter 07). -/
structure Disk where
  acts  : Sparse DiskAct
  zones : List ZoneRec
  bands : Sparse Band
  /-- What each written unit of a band holds (ciphertext, R40), by band × 65,536 + unit. -/
  data  : Sparse (List Byte)
deriving DecidableEq, Repr

def Disk.reset : Disk := { acts := [], zones := [], bands := [], data := [] }

/-! ## Chapter 08: servo, motion and the control engine -/

/-- A loop record (Table 08.5): the stored part, then the run-time part. -/
structure Loop where
  kind     : Nat
  trigger  : Nat
  order    : Nat
  input    : Nat
  output   : Nat
  shift    : Nat
  flags    : Nat
  kp       : Int
  ki       : Int
  kd       : Int
  kf       : Int
  setpoint : Int
  outMin   : Int
  outMax   : Int
  phase    : Nat
  cand     : List Nat
  ffGain   : Int
  /-- The reserved bytes 0x07, 0x1E and 0x1F, which a legal record has at 0. -/
  resv     : Nat
  integ    : Int
  sticky   : Nat
  ePrev    : Int
  dFilt    : Int
  outOwn   : Int
  outSel   : Int
  evals    : Nat
deriving DecidableEq, Repr

/-- A disabled loop with zero state. -/
def Loop.reset : Loop :=
  { kind := 0, trigger := 255, order := 0, input := 0, output := 0, shift := 0, flags := 0, kp := 0,
    ki := 0, kd := 0, kf := 0, setpoint := 0, outMin := 0, outMax := 0, phase := 0,
    cand := [255, 255, 255, 255], ffGain := 0, resv := 0, integ := 0, sticky := 0, ePrev := 0, dFilt := 0,
    outOwn := 0, outSel := 0, evals := 0 }

/-- Header of the loop table (Table 08.9). -/
structure LoopHeader where
  wedges     : Nat
  retractVel : Nat
  retractMs  : Nat
  parkHold   : Nat
  loadVel    : Nat
  maStroke   : Nat
  r0Nom      : Nat
  sensNom    : Nat
deriving DecidableEq, Repr

/-- A servo calibration record that passed R279. -/
structure ServoCal where
  act     : Nat
  head    : Nat
  ends    : List Nat
  r0      : List Nat
  sens    : List Nat
  rro     : List Int
deriving DecidableEq, Repr

/-- A seek in progress (R296). -/
structure Seek where
  start : Int
  dist  : Int
  wedges : Nat
  n     : Nat
  /-- A head switch: the seek starts from the track that the new head's first valid wedge gives. -/
  acquire : Bool
deriving DecidableEq, Repr

/-- What the drive die drives a VCM with: nothing, the control engine's demand, a velocity regulated on the back-EMF
(R299, Table 08.14), or a current held on the ramp (Table 08.14). -/
inductive VcmDrive where
  | off | demand | velocity (v : Int) | hold (current : Nat)
deriving DecidableEq, Repr

/-- What the spindle drivers do (R302, Table 08.14). -/
inductive SpinDrive where
  | off | demand | rectify | shorted
deriving DecidableEq, Repr

/-- One actuator. State, BUSY, ON_TRACK, WRITE_SAFE and TRACK stand in SRV_ACT_STATUS. -/
structure ActServo where
  head     : Nat
  target   : Nat
  /-- The last motion command was SEEK_WRITE (R297, R298). -/
  write    : Bool
  seek     : Option Seek
  wedge    : Nat
  pes      : Int
  position : Int
  valid    : Bool
  tAA      : Int
  invalidRun : Nat
  validRun : Nat
  readRun  : Nat
  writeRun : Nat
  settleWedges : Nat
  loadFails   : Nat
  settleFails : Nat
  lostTimes   : List Nat
  satRun   : Nat
  enteredAt : Nat
  /-- Last two setpoints, for the second difference of FF_TRAJ. -/
  sp1      : Int
  sp2      : Int
  /-- Read offset and heater step requested by the ladder for a reread (R298). -/
  reqOffset : Int
  reqHeater : Bool
  heaterOff : Bool
  /-- OFFLINE is recorded in the NVS (R308). -/
  recorded : Bool
  /-- A failure of Table 08.15 waits for the heads to be parked. -/
  failing  : Bool
  /-- Start of the retract in progress, and when its heads reached the ramp (Table 08.14). -/
  retract  : Option Nat
  holdAt   : Option Nat
  /-- What the drive die drives the VCM with. -/
  vcm      : VcmDrive
deriving DecidableEq, Repr

def ActServo.reset : ActServo :=
  { head := 0, target := 0, write := false, seek := none, wedge := 0, pes := 0,
    position := 0, valid := false, tAA := 0, invalidRun := 0, validRun := 0, readRun := 0,
    writeRun := 0, settleWedges := 0, loadFails := 0, settleFails := 0, lostTimes := [], satRun := 0,
    enteredAt := 0, sp1 := 0, sp2 := 0, reqOffset := 0, reqHeater := false, heaterOff := false,
    recorded := false, failing := false, retract := none,
    holdAt := none, vcm := .off }

/-- A relay auto-tune in progress (R310, R311). -/
structure Tune where
  loop    : Nat
  rule    : Nat
  h       : Int
  u0      : Int
  /-- The relay's side, once the error has left the hysteresis band. -/
  high    : Option Bool
  samples : Nat
  lastSwitch : Nat
  /-- Sample numbers of rising switches, newest first. -/
  rising  : List Nat
  maxIn   : Int
  minIn   : Int
  invalid : Nat
  /-- Result code once the measurement has ended. -/
  ended   : Option Nat
deriving DecidableEq, Repr

/-- Servo, control engine and spindle (chapter 08). -/
structure Servo where
  loops   : Sparse Loop
  header  : Option LoopHeader
  profile : List Nat
  seekTimes : List Nat
  cals    : List ServoCal
  acts    : Sparse ActServo
  /-- Last valid input by code (Table 08.6), and codes whose sample is now invalid. -/
  inputs  : Sparse Int
  badInputs : List Nat
  /-- Spindle: handover failures, time of entry to the state, what its drivers do. -/
  handoverFails : Nat
  spinAt  : Nat
  spinDrive : SpinDrive
  tune    : Option Tune
  /-- The last command sent for each drive-die output, with its apply stamp (R286). -/
  sent    : Sparse (Option HeldOutput)
  /-- Control ticks since splice training, and the splice cycle count of the next one (R285). -/
  ticks   : Nat
  tickDue : Nat
  /-- Lists whose trigger has come, in the order of their triggers, with the splice cycle count of each (R285). -/
  waiting : List (Nat × Nat)
deriving DecidableEq, Repr

def Servo.reset : Servo :=
  { loops := [], header := none, profile := [], seekTimes := [], cals := [], acts := [],
    inputs := [], badInputs := [], handoverFails := 0, spinAt := 0, spinDrive := .off, tune := none, sent := [], ticks := 0,
    tickDue := 0, waiting := [] }

/-! ## Chapter 09: Druot processors -/

/-- What a stalled processor waits for. -/
inductive Stall where
  /-- A pop: destination register, port, width, sign extension (R323). -/
  | pop (d port width : Nat) (sext : Bool)
  /-- A push: port, width, value (R323). -/
  | push (port width value : Nat)
  /-- WFE: destination register and time of the timeout (R334). -/
  | wfe (d until_ : Nat)
  /-- A budget grant (R346). -/
  | grant
  /-- TEND waiting for stores and doorbells (R333), with its result word. -/
  | tend (result : Nat)
deriving DecidableEq, Repr

/-- A doorbell slot (Table 09.4). -/
structure Doorbell where
  desc    : Nat
  state   : Nat
  refused : Bool
  code    : Nat
  result  : Nat
  result2 : Nat
deriving DecidableEq, Repr

def Doorbell.reset : Doorbell :=
  { desc := 0, state := 0, refused := false, code := 0, result := 0, result2 := 0 }

/-- A merge-buffer entry (R342): one word with the bytes written so far. -/
structure MergeEntry where
  /-- In cluster shared SRAM; otherwise local data SRAM. -/
  shared : Bool
  word   : Nat
  /-- The four bytes, none where not written. -/
  bytes  : List (Option Byte)
  last   : Nat
deriving DecidableEq, Repr

/-- One MPU region: base and limit registers (Table 09.11). -/
structure MpuRegion where
  base  : Nat
  limit : Nat
deriving DecidableEq, Repr

def MpuRegion.reset : MpuRegion := { base := 0, limit := 0 }

/-- A Druot processor (R315, R351): a tenant engine or a management core. -/
structure Proc where
  regs   : Sparse Word
  pc     : Word
  /-- A task is running (always so on a management core out of reset). -/
  running : Bool
  stall  : Option Stall
  local_ : Sparse Byte
  mpu    : Sparse MpuRegion
  slots  : Sparse Doorbell
  merge  : List MergeEntry
  /-- Event bits latched for WFE (R334). -/
  events : Nat
  grant  : Nat
  /-- Size of the current grant when it was taken (R346, R372). -/
  grantSize : Nat
  retired : Nat
  /-- Timecode of the dispatch (T) or of the reset (M), for CYCLE. -/
  since  : Nat
  cycleHi : Nat
  retiredHi : Nat
  timeHi : Nat
  /-- Running task: context handle, task number, tenant, generation, profile, text length. -/
  ctx    : Nat
  task   : Nat
  tenant : Nat
  gen    : Nat
  profile : Nat
  textLen : Nat
  /-- M-level trap registers. -/
  epc    : Word
  cause  : Word
  badaddr : Word
  status : Word
  tvec   : Word
  winBase : Nat
  winSize : Nat
  /-- Tenant of the last dispatch; none when the switch of R158 must run (R371). -/
  lastTenant : Option Nat
  /-- Lines of the instruction cache filled since it was last invalidated. -/
  icache : List Nat
  /-- Until when the engine takes no dispatch because of aborted slots (R349). -/
  slotAbortUntil : Nat
  /-- Times of recent BUS traps (R377), and busy time not yet in ENG_E_BUSY, in 1/64 ns. -/
  busTraps : List Nat
  busyPart : Nat
deriving DecidableEq, Repr

def Proc.reset : Proc :=
  { regs := [], pc := 0, running := false, stall := none, local_ := [], mpu := [], slots := [],
    merge := [], events := 0, grant := 0, grantSize := 0, retired := 0, since := 0, cycleHi := 0, retiredHi := 0,
    timeHi := 0, ctx := 0, task := 0, tenant := 0, gen := 0, profile := 0x0102, textLen := 0,
    epc := 0, cause := 0, badaddr := 0, status := 0, tvec := 0, winBase := 0, winSize := 0,
    lastTenant := none, icache := [], slotAbortUntil := 0, busTraps := [], busyPart := 0 }

/-- The engines (chapter 09): processors 0–31 are the tenant engines, 0x3E and 0x3F the management
cores; cluster shared SRAM by cluster × 2^22 + offset. Fences stand in ENG_FENCED. -/
structure Engines where
  procs  : Sparse Proc
  shared : Sparse Byte
  /-- Section 2 of the image as it was loaded into each engine, and section 3 into the control engine, number 32 (R557). -/
  micro  : Sparse (List Byte)
deriving DecidableEq, Repr

def Engines.reset : Engines := { procs := [], shared := [], micro := [] }

/-! ## Chapter 10: takes -/

/-- A script image in the script store (R356). -/
structure Script where
  digest : List Byte
  image  : List Byte
  /-- 64 KiB units it takes. -/
  units  : Nat
deriving DecidableEq, Repr

/-- A range entry of a take descriptor (Table 10.3). -/
structure TakeRange where
  kind   : Nat
  port   : Nat
  nsid   : Nat
  addr   : Nat
  span   : Nat
  length : Nat
  stage  : Nat
deriving DecidableEq, Repr

/-- A region entry (Table 10.4). -/
structure TakeRegion where
  offset : Nat
  size   : Nat
  perm   : Nat
deriving DecidableEq, Repr

/-- A task entry of the descriptor (Table 10.5). -/
structure TakeTask where
  entry : Nat
  prio  : Nat
  arg   : Nat
  after : Nat
  delay : Nat
deriving DecidableEq, Repr

/-- A take descriptor (Tables 10.2 to 10.5). -/
structure TakeDesc where
  sealed   : Bool
  clusters : Nat
  shared   : Nat
  budget   : Nat
  sealKey  : Nat
  report   : Nat
  digest   : List Byte
  ins      : List TakeRange
  outs     : List TakeRange
  regions  : List TakeRegion
  tasks    : List TakeTask
deriving DecidableEq, Repr

/-- Task states (Table 10.8). -/
inductive TaskSt where
  | free | waiting | delayed | ready | overflow | running | done
deriving DecidableEq, Repr

/-- A task table entry (Table 10.8). NEXT and SIBLING are the order of the lists below and of the
take's own task numbers. -/
structure TaskEntry where
  ctx    : Nat
  prio   : Nat
  entry  : Nat
  st     : TaskSt
  arg    : Nat
  deps   : Nat
  index  : Nat
  engine : Nat
  wake   : Nat
  succ   : Nat
  result : Nat
deriving DecidableEq, Repr

/-- Take states (Table 10.7). -/
inductive TakeSt where
  | free | preparing | running | restarting | faulting | committing | ended
deriving DecidableEq, Repr

def TakeSt.code : TakeSt → Nat
  | .free => 0 | .preparing => 1 | .running => 2 | .restarting => 3
  | .faulting => 4 | .committing => 5 | .ended => 6

/-- A context record (Table 10.9) with its take area (R373). -/
structure Ctx where
  tenant    : Nat
  gen       : Nat
  st        : TakeSt
  cluster   : Nat
  total     : Nat
  done      : Nat
  budgetLeft : Nat
  restarts  : Nat
  reason    : Nat
  retired   : Nat
  retiredAll : Nat
  script    : Nat
  /-- Task table entries of task 0, 1, … -/
  tasks     : List Nat
  key       : CmdKey
  sharedBase : Nat
  sharedSize : Nat
  faultTask : Nat
  faultPc   : Nat
  faultAddr : Nat
  result    : Nat
  desc      : TakeDesc
  /-- Range locks granted; before that the context is held in state FREE (R361). -/
  locked    : Bool
  /-- It waits for a cluster, with its place in the order of waiting takes (R363). -/
  waiting   : Option Nat
  /-- Bytes consumed and bytes read into the stage ring, per input port. -/
  consumed  : Sparse Nat
  staged    : Sparse Nat
  /-- Bytes pushed, per output port. -/
  produced  : Sparse Nat
  /-- Input ports with ERROR, SHORT and OVERREAD set (Table 09.2, R365). -/
  portError : List Nat
  portShort : List Nat
  portOver  : List Nat
  /-- The fenced engine that sent the take to RESTARTING (R378). -/
  fencedBy  : Nat
  /-- Bytes of the input piece issued and charged on each port and not yet staged, and bytes of outputs charged
  (R151). -/
  issued    : Sparse Nat
  outCharged : Nat
  /-- Commit: the bytes of each output, sealed where SEAL is set, once read; WRITE messages sent (R381,
  R487). -/
  outData : Option (List (List Byte))
  outMsgs : Nat
  timeStart : Nat
  timeEnd   : Nat
  detail    : Nat
  /-- Caught by Take Cancel or Abort (R380). -/
  cancelled : Bool
  restarted : Bool
  /-- Its tenant was reset or removed while it committed: no completion (R140, R622). -/
  silent    : Bool
  /-- Commit has been told that KIND 2 outputs and the report are not made (R622). -/
  noHost    : Bool
deriving DecidableEq, Repr

/-- Scripts, contexts and the task scheduler (chapter 10). -/
structure Takes where
  /-- Script store by store index. -/
  images  : Sparse (Option Script)
  /-- Registrations: store index by tenant × 64 + slot. -/
  slots   : Sparse (Option Nat)
  ctxs    : Sparse (Option Ctx)
  /-- Allocation pointer (R362). -/
  pointer : Nat
  tasks   : Sparse (Option TaskEntry)
  /-- Ready lists by cluster × 4 + priority; delay lists and overflow chains by cluster. -/
  ready   : Sparse (List Nat)
  delay   : Sparse (List Nat)
  chain   : Sparse (List Nat)
  /-- Next place in the order of waiting takes. -/
  nextWait : Nat
  /-- Reports and KIND 2 outputs written to host memory: (address, bytes), newest first. -/
  hostWrites : List (Nat × List Byte)
deriving DecidableEq, Repr

def Takes.reset : Takes :=
  { images := [], slots := [], ctxs := [], pointer := 0, tasks := [], ready := [], delay := [],
    chain := [], nextWait := 0, hostWrites := [] }

/-! ## Chapter 11: pattern search and compression -/

/-- A job rung on a doorbell page 0–3 and not yet completed (R326, R385, R387). -/
structure AccJob where
  /-- Ringing processor, doorbell page and slot. -/
  proc   : Nat
  page   : Nat
  slot   : Nat
  /-- Slate code of the owner (R386): a tenant, or FIRMWARE at M. -/
  owner  : Nat
  /-- Context of the running take; none at M. -/
  ctx    : Option Nat
  gen    : Nat
  /-- Order of the rings, and the device DRAM address of the window at the ring (R326). -/
  order  : Nat
  win    : Nat
  desc   : List Byte
  /-- The scanner, lane or engine that serves it; none while it waits. -/
  unit   : Option Nat
  /-- Bytes, keys, records or blocks done so far. -/
  pos    : Nat
  /-- Scan: the current state. -/
  dfa    : Nat
  /-- Scan: matches; lookup: keys with a hit; AES and digest: bytes in the current slice. -/
  hits   : Nat
  /-- Lookup: false hits dropped. -/
  dropped : Nat
  /-- Scan from a port: the port reached EOS. Digest: the job has been preempted. -/
  eos    : Bool
  /-- Compression: input consumed by blocks written, output bytes, blocks, raw blocks. -/
  consumed : Nat
  produced : Nat
  blocks : Nat
  raws   : Nat
  /-- Compression: input of the block at the verifier, the bits of the compressed block, and the bits of the byte that is
  not whole yet. -/
  blockIn  : List Byte
  blockOut : Option (List Bool)
  bits     : List Bool
  /-- Bytes taken from the source so far (checksums cover them). -/
  taken  : List Byte
  /-- AES, digest: the key copied at the start (R427); digest: the expected value read at the ring
  and the saved context of a preempted job (R440); compression: the chain read at the ring. -/
  key    : List Byte
  expect : List Byte
  saved  : Option (List Byte)
  /-- Completion code with RESULT and RESULT2, once the work has ended. -/
  code   : Option (Nat × Nat × Nat)
deriving DecidableEq, Repr

/-- An installed automaton set (R393), kept under its first page. -/
structure AutoSet where
  handle : Nat
  pages  : Nat
  /-- Context of the owning take; none for a system set. -/
  ctx    : Option Nat
  pub    : Bool
  image  : List Byte
deriving DecidableEq, Repr

/-- An associative entry (Table 11.6). -/
structure AssocEntry where
  valid : Bool
  prio  : Nat
  tag   : Nat
  key   : BitVec 144
  care  : BitVec 144
deriving DecidableEq, Repr

def AssocEntry.reset : AssocEntry := { valid := false, prio := 0, tag := 0, key := 0, care := 0 }

/-- An insert being carried out by the mover (R406). -/
structure Mover where
  bank  : Nat
  entry : Nat
  /-- The entry the next step writes. -/
  next  : Nat
  newRec : AssocEntry
  proc  : Nat
  slot  : Nat
deriving DecidableEq, Repr

/-- The pattern unit. Bank owners stand in PMX_BANK_OWNER. -/
structure Pmx where
  jobs    : List AccJob
  sets    : Sparse (Option AutoSet)
  /-- Install counts by first page (R393). -/
  counts  : Sparse Nat
  /-- Search array and shadow copy by position. -/
  search  : Sparse AssocEntry
  shadow  : Sparse AssocEntry
  mover   : Option Mover
deriving DecidableEq, Repr

def Pmx.reset : Pmx :=
  { jobs := [], sets := [], counts := [], search := [], shadow := [], mover := none }

/-- The compression unit. -/
structure Cmp where
  jobs : List AccJob
  /-- Ring order over all accelerator units. -/
  nextRing : Nat
  /-- Parts of a MiB not yet in CMP_CNT_IN, CMP_CNT_OUT, and of a KiB in PMX_CNT_SCAN. -/
  inPart  : Nat
  outPart : Nat
  scanPart : Nat
deriving DecidableEq, Repr

def Cmp.reset : Cmp := { jobs := [], nextRing := 0, inPart := 0, outPart := 0, scanPart := 0 }

/-! ## Chapter 12: ciphers, digests and key custody -/

/-- A filled key slot (R422). -/
structure KeySlot where
  cls   : Nat
  label : Nat
  key   : List Byte
deriving DecidableEq, Repr

/-- A key command in progress (R423): it has passed its checks; the slot and its NVS copy are not
updated yet. -/
structure KeyCmd where
  slot   : Nat
  /-- The slot contents it leaves. -/
  newKey : Option KeySlot
  /-- The blob an EXPORT leaves in the window; none for the other commands. -/
  blob   : Option (List Byte)
deriving DecidableEq, Repr

/-- A digest result window (Table 12.8). -/
structure DigestWin where
  digest   : List Byte
  compared : Bool
  equal    : Bool
  misuse   : Bool
  ready    : Bool
deriving DecidableEq, Repr

def DigestWin.reset : DigestWin :=
  { digest := [], compared := false, equal := false, misuse := false, ready := false }

/-- One record of the key area: the slot's blob under the SWK, with the always-on power count for
a SEAL key (R428, R429). -/
structure StoredKey where
  blob  : List Byte
  count : Option Nat
deriving DecidableEq, Repr

/-- Keys, randomness and cryptographic jobs (chapter 12). -/
structure Sec where
  slots   : Sparse (Option KeySlot)
  /-- The 256-byte blob window. -/
  blob    : Sparse Byte
  /-- Key slot bound to each namespace (SEC_NS_KEY). -/
  nsKeys  : Sparse (Option Nat)
  /-- The storage wrap key and the context wrap key, while the key store holds them. -/
  swk     : Option (List Byte)
  cwk     : Option (List Byte)
  /-- The NVS record of the SWK, and the stored blobs of the key area. -/
  swkStored : Option (List Byte)
  stored  : Sparse (Option StoredKey)
  /-- Records used in the active half of the key area (for its compaction). -/
  areaUsed : Nat
  compacting : Bool
  cmd     : Option KeyCmd
  /-- DRBG: requests since the last reseed, when it was, and whether it holds state. -/
  requests : Nat
  reseedAt : Nat
  drbgLive : Bool
  /-- Slots whose words could not be read, which the management core pair reloads (Table 13.4). -/
  reloads : List Nat
  /-- Mask generator of the AES cores: its seed, and the blocks masked since it was last reseeded (R419). -/
  maskSeed : List Byte
  maskBlocks : Nat
  aes     : List AccJob
  digests : List AccJob
  windows : Sparse DigestWin
  /-- Always-on power count (R429). -/
  powerCount : Nat
  /-- When LOCK_CODE was last written with 0x4C4B (R445). -/
  lockAt  : Option Nat
deriving DecidableEq, Repr

def Sec.reset : Sec :=
  { slots := [], blob := [], nsKeys := [], swk := none, cwk := none, swkStored := none, stored := [],
    areaUsed := 0, compacting := false, cmd := none, requests := 0, reseedAt := 0, drbgLive := false,
    reloads := [], maskSeed := [], maskBlocks := 0, aes := [], digests := [], windows := [], powerCount := 0, lockAt := none }

/-! ## Chapter 13: DRAM and on-chip memory protection -/

/-- A queued burst of a subchannel (R454, R456): for a write the bytes written so far. -/
structure BurstReq where
  order : Nat
  rank  : Nat
  /-- Burst index (address / 64). -/
  burst : Nat
  bytes : List (Option Byte)
  at_   : Nat
  /-- How often it has been passed over. -/
  passed : Nat
deriving DecidableEq, Repr

/-- A bank of a subchannel: its open row and when it was last accessed (R453). -/
structure BankRow where
  row  : Option Nat
  used : Nat
deriving DecidableEq, Repr

def BankRow.reset : BankRow := { row := none, used := 0 }

/-- A subchannel: queues, retry buffer and CA parity episode (R454, R460, R461). -/
structure Subchannel where
  reads  : List BurstReq
  writes : List BurstReq
  draining : Bool
  nextOrder : Nat
  /-- Bank rows by rank × 64 + bank. -/
  rows   : Sparse BankRow
  /-- The last 32 commands, newest first: burst and whether it was a write. -/
  retry  : List (Nat × Bool)
  alertLow : Bool
  /-- Replays of the episode, and when the last replay ended. -/
  replays : Nat
  replayEnd : Option Nat
  /-- When the row-hammer generator was last reseeded (R459). -/
  seededAt : Nat
  rmwPart : Nat
deriving DecidableEq, Repr

def Subchannel.reset : Subchannel :=
  { reads := [], writes := [], draining := false, nextOrder := 0, rows := [], retry := [],
    alertLow := false, replays := 0, replayEnd := none, seededAt := 0, rmwPart := 0 }

/-- Refresh of one rank (R457): refreshes postponed, last refresh, above 85 °C. -/
structure RankRefresh where
  postponed : Nat
  lastAt    : Nat
  hot       : Bool
  /-- In self-refresh. -/
  selfRef   : Bool
deriving DecidableEq, Repr

def RankRefresh.reset : RankRefresh := { postponed := 0, lastAt := 0, hot := false, selfRef := false }

/-- Corrected errors of one memory in the second being counted (R473). -/
structure CeSecond where
  since : Nat
  count : Nat
  unit  : Nat
deriving DecidableEq, Repr

/-- DRAM and the protection of on-chip memories (chapter 13). Codeword errors are kept as the XOR
mask between the stored codeword and the correct one, by MEM_ID × 2^32 + unit. -/
structure Mem where
  /-- DRAM bytes by device address (R451). -/
  dram     : Sparse Byte
  masks    : Sparse Nat
  /-- Valid bits of SRAM words, by MEM_ID × 2^32 + word (R466). -/
  valid    : Sparse Bool
  /-- Filled 64 KiB blocks, by (rank × 2 + channel) × 2^19 + block (R464). -/
  filled   : Sparse Bool
  subs     : Sparse Subchannel
  /-- Refresh state by channel × 2 + rank. -/
  ranks    : Sparse RankRefresh
  /-- Next burst of the patrol scrub, and the SRAM scrub's last pass. -/
  scrubPos : Nat
  sramAt   : Nat
  ces      : Sparse (Option CeSecond)
  zqAt     : Sparse Nat
  dqsAt    : Sparse Nat
  mr4At    : Sparse Nat
  /-- Rank 1 trains in the background after Standby (R463). -/
  rank1Training : Bool
  /-- Units lost on a failed subchannel, for the dump (R461). -/
  lostUnits : List (Nat × Nat)
deriving DecidableEq, Repr

def Mem.reset : Mem :=
  { dram := [], masks := [], valid := [], filled := [], subs := [], ranks := [], scrubPos := 0,
    sramAt := 0, ces := [], zqAt := [], dqsAt := [], mr4At := [], rank1Training := false,
    lostUnits := [] }

/-! ## Chapter 14: mirrored pairs -/

/-- A mirror message sent and not yet acknowledged (R480, R489). -/
structure OutMsg where
  seq   : Nat
  type  : Nat
  epoch : Nat
  nsid  : Nat
  tenant : Nat
  gen   : Nat
  body  : List Byte
  /-- The write it belongs to, if any, and the first unit concerned. -/
  key   : Option CmdKey
  unit  : Nat
  sentAt : Nat
deriving DecidableEq, Repr

/-- A data frame in the replay buffer (R478): its sequence number, its message, its sends. -/
structure LinkFrame where
  seq   : Nat
  msg   : Nat
  sends : Nat
  /-- The owner whose cells carry it (R54), and, in the first frame of a message, the length of the message. -/
  owner : Nat
  head  : Option Nat
  /-- Its 256 message bytes (Table 14.1). -/
  data  : List Byte
deriving DecidableEq, Repr

/-- A resync pass (R501, R502). -/
structure Resync where
  total  : Nat
  copied : Nat
  /-- Extents refused in this pass. -/
  refused : List (Nat × Nat)
  /-- The extent being copied, under a shared range lock: its media reads have been started. -/
  lock    : Option (Nat × Nat)
  /-- MSG_SEQ of RESYNC_DONE once sent. -/
  doneSeq : Option Nat
deriving DecidableEq, Repr

/-- A pair order in progress (R497). -/
structure PairOrder where
  op    : Nat
  epoch : Nat
deriving DecidableEq, Repr

/-- A script image being assembled on the double (R488). -/
structure ImageParts where
  digest : List Byte
  total  : Nat
  bytes  : List Byte
deriving DecidableEq, Repr

/-- A read sent to the double (R500). -/
structure PairRead where
  tag  : Nat
  key  : CmdKey
  /-- Generation carried (R137). -/
  gen  : Nat
  nsid : Nat
  lba  : Nat
  count : Nat
  /-- Tag of the first message of the same read, and the data once it has arrived. -/
  group : Nat
  data : Option (List Byte)
deriving DecidableEq, Repr

/-- A read that the double makes for the principal (R500): its tag, range, and the instance and generation of the
request. -/
structure PairServe where
  tag    : Nat
  nsid   : Nat
  lba    : Nat
  count  : Nat
  tenant : Nat
  gen    : Nat
deriving DecidableEq, Repr

/-- A mirror message that waits on the double: as an order in the sequencer (R486), or behind one that does,
since messages are applied in MSG_SEQ order (R487). -/
structure PairWait where
  msg     : LinkMsg
  ofTake  : Bool
  ordered : Bool
deriving DecidableEq, Repr

/-- The continuity link and the pair (chapter 14). Pair state, role, epoch and flags stand in the
CNT registers. -/
structure Cnt where
  out     : List OutMsg
  frames  : List LinkFrame
  /-- Next data-frame sequence to send and expected; next MSG_SEQ to send and expected. -/
  txSeq   : Nat
  /-- Frames that wait for a CNT grant, in order (R477, R480), and until when the lane transmit buffer still holds
  frames sent before (R479). -/
  unsent  : List LinkFrame
  laneBusy : Nat
  /-- Frames at the end of the replay buffer that a NAK makes the sender send again (R478). -/
  resend  : Nat
  /-- The data frame sent last on the line, 264 bytes (Table 14.1). -/
  line    : List Byte
  rxSeq   : Nat
  msgTx   : Nat
  msgRx   : Nat
  lastFrameAt : Nat
  /-- A NAK is to be sent with the sequence expected (R478). -/
  nak     : Bool
  helloSent : Option (List Byte)
  helloSeen : Option (List Byte)
  /-- Session keys of the sending and the receiving direction (R482). -/
  keys    : Option (List Byte × List Byte)
  proven  : Bool
  /-- Role and epoch stored in the NVS (Table 14.6). -/
  role    : Nat
  epoch   : Nat
  /-- The role is settled, so that a PRINCIPAL opens its host data path (R485). -/
  settled : Bool
  /-- This device does not apply mirrored messages; its partner does not (R493). -/
  hold    : Bool
  peerHold : Bool
  /-- Dirty extents by nsid × 2^32 + extent, those the partner listed, and the separation log. -/
  dirty   : Sparse Bool
  peerDirty : List (Nat × Nat)
  log     : List (Nat × Nat)
  resync  : Option Resync
  passDue : Option Nat
  retryDue : Option Nat
  /-- WRITE messages of a take commit held until TAKE_COMMIT (R487). -/
  heldWrites : List LinkMsg
  slateParts : Sparse Byte
  slateBytes : Nat
  /-- Script images being assembled (R488). -/
  images  : List ImageParts
  /-- Highest MSG_SEQ journaled, acknowledged by an ACK sent, and when the last ACK was sent. -/
  journaled : Option Nat
  ackSent : Option Nat
  ackAt   : Nat
  ackNow  : Bool
  /-- Own heartbeat: last pulse and a delay to be applied; last partner pulse (R495). -/
  pulseAt : Nat
  pulseDelay : Nat
  partnerAt : Option Nat
  order   : Option PairOrder
  /-- Partner messages that wait as orders in the sequencer (R486). -/
  waiting : List PairWait
  reads   : List PairRead
  nextTag : Nat
  serving : List PairServe
  /-- Upper half of CNT_RESYNC_LBA latched for each access path (Table 14.13). -/
  lbaHi : Sparse Nat
deriving DecidableEq, Repr

def Cnt.reset : Cnt :=
  { out := [], frames := [], unsent := [], laneBusy := 0, txSeq := 0, resend := 0, line := [], rxSeq := 0, msgTx := 0, msgRx := 0, lastFrameAt := 0,
    nak := false, helloSent := none, helloSeen := none, keys := none, proven := false, role := 0,
    epoch := 0, settled := false, hold := false, peerHold := false, dirty := [], peerDirty := [],
    log := [], resync := none, passDue := none, retryDue := none, heldWrites := [],
    slateParts := [], slateBytes := 0, images := [], journaled := none, ackSent := none,
    ackAt := 0, ackNow := false, pulseAt := 0, pulseDelay := 0, partnerAt := none, order := none, waiting := [],
    reads := [], nextTag := 0, serving := [], lbaHi := [] }

/-! ## Chapter 15: management bus, order sequencer, modes; chapter 17: start-up -/

/-- The side an order comes from (R526). -/
inductive Side where
  | device | i3c | nvme | partner
deriving DecidableEq, Repr

/-- What an order acts on; orders that share a target contradict (R527). -/
inductive Target where
  | mode | slot (n : Nat) | ns (n : Nat) | firmware | pairRole | inst (n : Nat) | slate
deriving DecidableEq, Repr

/-- What an order does once it wins its window (Table 15.12). -/
inductive OrderOp where
  /-- A mode order; `leave` marks target 8, and `reg` one written to PWR_MODE_CMD, which reports its end in
  PWR_MODE_STATUS. -/
  | mode (target : Mode) (leave : Bool) (cause : Nat) (reg : Bool)
  /-- Power-down by the PWRDIS pin. -/
  | powerDown
  /-- A key store command (SEC_KEY_CMD). -/
  | key (op cls wrap slot : Nat)
  /-- UPD_CTRL.CMD COMMIT over the register path. -/
  | firmware (action slot : Nat)
  /-- A pair order (CNT_ORDER). -/
  | pair (op epoch : Nat)
  /-- An NVMe command that is an order. -/
  | nvme (key : CmdKey)
  /-- Slate activation requested by SLT_CTRL (swap, or validate only). -/
  | slate (swap : Bool)
  /-- The task-file command in progress. -/
  | taskFile
  /-- A partner message held in the continuity state, by its sequence number. -/
  | partnerMsg (seq : Nat)
deriving DecidableEq, Repr

/-- An order waiting for the end of its window (R527). -/
structure Order where
  op      : OrderOp
  mgmt    : Bool
  targets : List Target
  prec    : Nat
  side    : Side
  arrival : Nat
deriving DecidableEq, Repr

/-- A mode transition in progress (R520). -/
structure Transition where
  target  : Mode
  cause   : Nat
  start   : Nat
  side    : Side
  /-- The order was written to PWR_MODE_CMD. -/
  reg     : Bool
  /-- It is a LEAVE order. -/
  leave   : Bool
  /-- It is the power-down by PWRDIS. -/
  pwrdis  : Bool
  /-- It is a transition of the idle policy, which work abandons (R525). -/
  idle    : Bool
  /-- The one-second drain limit has been applied (R520). -/
  drained : Bool
deriving DecidableEq, Repr

/-- What started the start sequence in progress (Table 17.1, R572, R573). -/
inductive StartKind where
  | cold | warm | logicDormant | logicPwrdis | logicStandby
deriving DecidableEq, Repr

/-- The start sequence in progress (Tables 17.3 and 17.10). -/
structure StartSeq where
  kind      : StartKind
  /-- The last step that ended. -/
  step      : Nat
  /-- The trigger names Ready (R573). -/
  wantReady : Bool
  /-- UPD_SERVICE.REQ was set at this start (R562, R573). -/
  service   : Bool
deriving DecidableEq, Repr

/-- The warm-reset entry in progress (R569). -/
structure ResetSeq where
  /-- The dump of step 2 is durable or was not needed. -/
  dumped   : Bool
  /-- When the unload of step 3 started. -/
  unloadAt : Nat
deriving DecidableEq, Repr

/-- One kind of long operation (R534, Table 17.17). -/
structure LongOp where
  state   : Nat
  posBand : Bool
  pct     : Nat
  pos     : Nat
  sct     : Nat
  sc      : Nat
deriving DecidableEq, Repr

/-- A self-test in progress (R578). -/
structure SelfTest where
  extended : Bool
  /-- The next segment to run. -/
  segment  : Nat
  /-- First failing segment and its unit. -/
  failed   : Option (Nat × Nat)
deriving DecidableEq, Repr

/-- One entry of the self-test log page 0x06 (R580). -/
structure SelfTestResult where
  extended : Bool
  result   : Nat
  segment  : Nat
  unit     : Nat
deriving DecidableEq, Repr

/-- Modes, orders, resets, start-up and supplies (chapters 15, 17 and 18). -/
structure Power where
  trans      : Option Transition
  /-- PWRDIS waits for the end of a Safe entry (R623). -/
  pwrdisWait : Bool
  window     : List Order
  /-- Level of the PWRDIS pin and of NRESET (true: asserted). -/
  pwrdis     : Bool
  nreset     : Bool
  /-- Since when the device has been idle (R523). -/
  idleSince  : Option Nat
  starting   : Option StartSeq
  resetting  : Option ResetSeq
  /-- The logic die is held in reset (R569, Table 17.4). -/
  logicHeld  : Bool
  /-- A power-fail event is being handled: nothing is fetched or completed until the restart (R229, R595). -/
  failing    : Bool
  /-- The device itself is bringing the disk up (true) or down (false) for a mode (R303, R573). -/
  spin       : Option Bool
  /-- When step 12 of the last start was reached (R589). -/
  step12At : Option Nat
  /-- The digest of the running image kept through Standby (R574). -/
  keptDigest : Option (List Byte)
  /-- Consecutive starts that reached Safe with FIRMWARE_FAULT (R589). -/
  faultStarts : Nat
  /-- When the host data path last opened. -/
  openedAt   : Option Nat
  /-- The host data path is open. -/
  pathOpen   : Bool
  longOps    : Sparse LongOp
  selfTest   : Option SelfTest
  selfTests  : List SelfTestResult
  /-- Since when V12 has been above its rising threshold after a power fail (R595). -/
  v12UpSince : Option Nat
  /-- Tenants that were not QUIESCED when a PWRDIS power-down began (R570). -/
  notQuiesced : List Nat
  /-- Since when a sensor has been at its OVER_TEMP trip (Table 15.15). -/
  hotSince   : Option Nat
  /-- EN_RET drives the retention rails: low only in Dormant (R599). -/
  enRet      : Bool
  /-- A voltage step requested on the AVS bus (R600). -/
  avsVid     : Nat
deriving DecidableEq, Repr

def LongOp.reset : LongOp := { state := 0, posBand := false, pct := 0, pos := 0, sct := 0, sc := 0 }

/-- Nothing running, nothing ordered, pins released: the always-on domain runs, and a cold start waits for the
splice to train (Table 17.3). -/
def Power.reset : Power :=
  { trans := none, pwrdisWait := false, window := [], pwrdis := false, nreset := false, idleSince := none
    starting := some { kind := .cold, step := 4, wantReady := false, service := false }
    resetting := none, logicHeld := false, failing := false, spin := none, step12At := none,
    keptDigest := none, faultStarts := 0, openedAt := none, pathOpen := false, longOps := [],
    selfTest := none, selfTests := [], v12UpSince := none, notQuiesced := [], hotSince := none,
    enRet := true, avsVid := 0 }

/-- A partner descriptor of the settings (Table 15.5). -/
structure LbDesc where
  pid      : Nat
  static   : Nat
  kind     : Nat
  reg      : Nat
  len      : Nat
  period   : Nat
  limit    : Int
  below    : Bool
  required : Bool
deriving DecidableEq, Repr

/-- An entry of the partner table (R511–R513). -/
structure LbPartner where
  pid      : Nat
  addr     : Nat
  i2c      : Bool
  kind     : Nat
  desc     : Option Nat
  naks     : Nat
  value    : Int
  lastPoll : Nat
  /-- The byte of the last control write that the partner took (R513). -/
  ctrl     : Option Nat
deriving DecidableEq, Repr

/-- Where the task-file command in BUSY stands. -/
inductive TfPhase where
  | idle
  /-- It waits in the order sequencer. -/
  | order
  /-- It waits for its range lock. -/
  | lock
  /-- Its media access has begun; a mirrored write waits for the double. -/
  | run
  /-- Its status is final. -/
  | ended
deriving DecidableEq, Repr

/-- The task file's command and buffer (R514–R516). -/
structure TaskFile where
  /-- Bytes written to TF_DATA since the last GO. -/
  inBuf   : List Byte
  /-- Data of the completed command still to be read. -/
  outBuf  : List Byte
  phase   : TfPhase
  /-- The range it locks, and its arrival order at the range-lock table (R108). -/
  ranges  : List LockRange
  arrival : Nat
  /-- The media reads of a READ have been started. -/
  reading : Bool
  /-- Status of the command when it completes: code type, code and mode. -/
  sct     : Nat
  sc      : Nat
  mode    : Nat
  /-- Data to return when the command completes. -/
  result  : List Byte
deriving DecidableEq, Repr

def TaskFile.reset : TaskFile :=
  { inBuf := [], outBuf := [], phase := .idle, ranges := [], arrival := 0, reading := false, sct := 0, sc := 0, mode := 0, result := [] }

/-- The I3C target, the local bus and the task file (chapter 15). -/
structure Mgmt where
  mwl       : Nat
  mrl       : Nat
  /-- The bus is in HDR-DDR, entered with ENTHDR0, until the HDR exit pattern. -/
  hdr       : Bool
  /-- A protocol error since the last GETSTATUS (Table 15.2). -/
  protoErr  : Bool
  /-- Device number last stored from the settings, for the provisional ID. -/
  devnum    : Nat
  /-- The response frame held (R509). -/
  response  : Option (List Byte)
  /-- What the last private read or direct GET command returned. -/
  lastRead  : List Byte
  /-- The last target reset action set by RSTACT. -/
  rstAct    : Nat
  /-- When the next hot-join request is due; none when none is due (R506). -/
  hjDue     : Option Nat
  hotJoins  : Nat
  /-- Alert bits whose in-band interrupt is still to be accepted (R533). -/
  ibiPending : List Nat
  /-- Earliest time of the next in-band interrupt attempt. -/
  ibiRetryAt : Nat
  lbDescs   : List LbDesc
  lbTable   : Sparse (Option LbPartner)
  /-- When the last discovery ended, for the REQUIRED check (R512). -/
  lbFoundAt : Option Nat
  /-- REQUIRED descriptors checked since then. -/
  lbChecked : List Nat
  tf        : TaskFile
  /-- Upper halves latched by a read of a POS_LO register, per path (R31): BAR0, I3C, core. -/
  posHi     : Sparse Nat
deriving DecidableEq, Repr

/-- The management unit at always-on power-up (Table 15.2: INT and HJ enabled). -/
def Mgmt.reset : Mgmt :=
  { mwl := 265, mrl := 261, hdr := false, protoErr := false, devnum := 0, response := none,
    lastRead := [], rstAct := 0, hjDue := some 640000000, hotJoins := 0, ibiPending := [],
    ibiRetryAt := 0, lbDescs := [], lbTable := [], lbFoundAt := none, lbChecked := [], tf := TaskFile.reset,
    posHi := [] }

/-! ## Chapter 16: non-volatile store and firmware update -/

/-- The NVS operation running or suspended (R544, R548, R549). -/
structure NvsOp where
  erase   : Bool
  /-- Logical unit (byte address / 8) and the ring slot it lay in at the start. -/
  unit    : Nat
  slot    : Nat
  data    : BitVec 64
  /-- Start or last resume, and when it was suspended. -/
  ranFrom : Nat
  suspendedAt : Option Nat
  /-- A SUSPEND is held until the operation has run 200 µs. -/
  suspendHeld : Bool
deriving DecidableEq, Repr

/-- The NVS array and its controller (R537–R554). Units are kept by physical sector × 512 + unit,
an unlisted unit being erased. GAP, START, MOVES and spares left stand in the NVS registers. -/
structure Nvs where
  units    : Sparse (BitVec 64)
  /-- Sectors whose flag unit is not blank (R550). -/
  flags    : Sparse Bool
  /-- Codeword condition of a unit: 0 clean, 1 correctable, 2 uncorrectable (R537). -/
  errs     : Sparse Nat
  /-- First unlock word written: when and by which path (R545, R546). -/
  unlockAt : Option (Nat × Path)
  armedAt  : Option Nat
  owner    : Option Path
  op       : Option NvsOp
  /-- Unit of a read that waits for its busy bank (R544). -/
  readWaits : Option Nat
  counted  : Nat
  gapDue   : Bool
  /-- REMAP records: physical sector by ring slot (Table 16.1). -/
  remaps   : Sparse Nat
  /-- The BOOT record in force: NEXT slot, TRIAL, TRIAL_FAILED. -/
  bootNext : Nat
  trial    : Bool
  trialFailed : Bool
  /-- The power-fail rule of R552 is in force: nothing starts or resumes. -/
  stopped  : Bool
  /-- A zeroize of R553 has run; its dailies record waits for the logic die. -/
  zeroized : Bool
  /-- Firmware slots with a sector that the start-up pass found erase-incomplete (R551). -/
  flagged  : List Nat
deriving DecidableEq, Repr

def Nvs.reset : Nvs :=
  { units := [], flags := [], errs := [], unlockAt := none, armedAt := none, owner := none,
    op := none, readWaits := none, counted := 0, gapDue := false, remaps := [],
    bootNext := 0, trial := false, trialFailed := false, stopped := false,
    zeroized := false, flagged := [] }

/-- A commit or activation in progress (R558, R559): the NVMe command or the register path. -/
structure Commit where
  key    : Option CmdKey
  action : Nat
  slot   : Nat
  /-- Step of Table 16.8 reached by an immediate activation. -/
  active : Bool
deriving DecidableEq, Repr

/-- Firmware update and settings (R555–R566). Slot A and B image bytes are in the NVS array. -/
structure Upd where
  /-- Bytes written to UPD_DATA since the last whole chunk. -/
  chunk    : List Byte
  lastStage : Nat
  /-- Staged slot holds an image that passed its check, by slot. -/
  valid    : Sparse Bool
  commit   : Option Commit
  /-- SVN and section contents of the running image: offsets of sections 2 and 3. -/
  runningImage : List Byte
  /-- The settings staging buffer (R563) and the stored copy in use (R561). -/
  stage    : Sparse Byte
  inUse    : Nat
  /-- A change of items 0x0003 or 0x0004 waits for its copy, with the commands that wait (R564). -/
  dirty    : Bool
  waiting  : List CmdKey
  /-- PCIe notice and timing of the 60 s of R560: since when the path has been open. -/
  trialFrom : Option Nat
deriving DecidableEq, Repr

def Upd.reset : Upd :=
  { chunk := [], lastStage := 0, valid := [], commit := none, runningImage := [], stage := [],
    inUse := 0, dirty := false, waiting := [], trialFrom := none }

/-! ## The whole state -/

/-- Reasons a step stops. No command of this block stops with a fault: every effect of the spec,
an error report included, is a next state. The one name below is raised by no command; it is
kept so that the type of reasons is inhabited, and raising it would be safe. -/
inductive Fault where
  /-- Raised by nobody. Safe: a stop proves no claim about a next state. -/
  | unraised
deriving DecidableEq, Repr

/-- Reasons a command is not run. -/
inductive Refusal where
  /-- The command has no meaning in the model yet. Raised by `exec` for such an arm only. Safe. -/
  | notModelled (mnemonic : String)
deriving DecidableEq, Repr

/-- The block: the management registers, the state of each unit, the counter of free values (the
model's own, log entry 1) and the queue of waiting commands. -/
structure State where
  /-- Register values by management address; an unlisted address holds its reset value. -/
  regs : Sparse Word
  fab  : Fabric
  slt  : Slate
  host : HostIf
  ten  : Sparse Tenant
  fch  : Flash
  ftl  : Ftl
  dch  : Disk
  srv  : Servo
  eng  : Engines
  tsk  : Takes
  pmx  : Pmx
  cmp  : Cmp
  sec  : Sec
  mem  : Mem
  cnt  : Cnt
  mgt  : Mgmt
  nvs  : Nvs
  upd  : Upd
  pwr  : Power
  /-- Draws made so far from `Config.freeValue`. -/
  freeCtr : Nat
  /-- Commands that wait, first in, first out. -/
  pending : List Instr
deriving DecidableEq, Repr

/-- The block right after a cold reset: every register at its reset value, every unit at rest, no
command waiting. -/
def State.reset : State :=
  { regs := [], fab := Fabric.reset, slt := Slate.reset, host := HostIf.reset, ten := [],
    fch := Flash.reset, ftl := Ftl.reset, dch := Disk.reset, srv := Servo.reset,
    eng := Engines.reset, tsk := Takes.reset, pmx := Pmx.reset, cmp := Cmp.reset, sec := Sec.reset,
    mem := Mem.reset, cnt := Cnt.reset, mgt := Mgmt.reset, nvs := Nvs.reset, upd := Upd.reset,
    pwr := Power.reset, freeCtr := 0, pending := [] }

end Sys2Proof.Machine
end

