-- ==== Sys2Proof/Machine/Ops.lean ====
section
/-! DEFINITION. The named operations over the state: sparse tables in canonical form, register
values and their fields, time, free values, and access to the record of each unit by number. -/

namespace Sys2Proof.Machine

/-! ## Sparse tables -/

/-- What entry `k` reads as; an unlisted entry reads as `d k`. -/
def sparseGet {α : Type} (d : Nat → α) : Sparse α → Nat → α
  | [], k => d k
  | (k', v) :: t, k => if k' = k then v else sparseGet d t k

/-- Enters a value before the first higher number. -/
def sparseInsert {α : Type} (k : Nat) (v : α) : Sparse α → Sparse α
  | [] => [(k, v)]
  | (k', v') :: t => if k < k' then (k, v) :: (k', v') :: t else (k', v') :: sparseInsert k v t

/-- Writes entry `k`, keeping the numbers rising and leaving out a value equal to the default. -/
def sparsePut {α : Type} [DecidableEq α] (d : Nat → α) (m : Sparse α) (k : Nat) (v : α) : Sparse α :=
  let others := m.filter fun e => e.1 != k
  if v = d k then others else sparseInsert k v others

/-- The canonical form: numbers strictly rising, no entry equal to its default. -/
def Sparse.wf {α : Type} [DecidableEq α] (d : Nat → α) : Sparse α → Bool
  | [] => true
  | (k, v) :: t => v != d k && (t.all fun e => k < e.1) && Sparse.wf d t

/-- Rewrites every listed entry, dropping those that become the default. -/
def sparseMap {α : Type} [DecidableEq α] (d : Nat → α) (f : Nat → α → α) : Sparse α → Sparse α
  | [] => []
  | (k, v) :: t =>
    if f k v = d k then sparseMap d f t else (k, f k v) :: sparseMap d f t

/-- Keeps the listed entries whose number passes. -/
def sparseKeep {α : Type} (p : Nat → Bool) (m : Sparse α) : Sparse α := m.filter fun e => p e.1

/-- The first `n` bytes that a sparse table of bytes holds from offset `i` on (unlisted bytes are 0). -/
def denseFrom : Nat → Nat → Sparse Byte → List Byte
  | _, 0, _ => []
  | i, n + 1, [] => 0 :: denseFrom (i + 1) n []
  | i, n + 1, (k, v) :: t => if k = i then v :: denseFrom (i + 1) n t else 0 :: denseFrom (i + 1) n ((k, v) :: t)

/-- The first `n` bytes of a sparse table of bytes. -/
def denseBytes (n : Nat) (m : Sparse Byte) : List Byte := denseFrom 0 n m

/-- A list of bytes as a sparse table, from offset 0. -/
def sparseBytes (l : List Byte) : Sparse Byte :=
  (l.zipIdx.filter fun e => e.1 != 0).map fun e => (e.2, e.1)

/-! ## Register values (R7, R10) -/

/-- The value of a field in a register word. -/
def Field.get (f : Field) (w : Word) : Nat := w.toNat / 2 ^ f.lo % 2 ^ f.width

/-- A register word with the field replaced; the field keeps the low bits of `v`. -/
def Field.put (f : Field) (w : Word) (v : Nat) : Word :=
  BitVec.ofNat 32 (w.toNat / 2 ^ (f.lo + f.width) * 2 ^ (f.lo + f.width)
    + v % 2 ^ f.width * 2 ^ f.lo + w.toNat % 2 ^ f.lo)

/-- The largest value a field holds. -/
def Field.max (f : Field) : Nat := 2 ^ f.width - 1

/-- The index of address `a` lies on the register row `r` (an array of up to two dimensions). -/
def RegDesc.covers (r : RegDesc) (a : Nat) : Bool :=
  r.base ≤ a &&
    let off := a - r.base
    (List.range r.n2).any fun j =>
      r.s2 * j ≤ off && (off - r.s2 * j) % r.s1 = 0 && (off - r.s2 * j) / r.s1 < r.n1

/-- The row of the register table that describes address `a`, if a register is defined there. -/
def regDesc? (a : Nat) : Option RegDesc := (regTable a).find? (·.covers a)

/-- The reset value of the register at address `a` (0 where none is defined, R9, R33). -/
def regReset (a : Nat) : Word :=
  match regDesc? a with
  | some r => r.fields.foldl (fun w f => Field.put ⟨a, f.lo, f.width⟩ w f.reset) 0
  | none   => 0

namespace State

/-- The stored value of the register at a management address. -/
def reg (s : State) (a : Nat) : Word := sparseGet regReset s.regs a

def setReg (s : State) (a : Nat) (w : Word) : State :=
  { s with regs := sparsePut regReset s.regs a w }

def getF (s : State) (f : Field) : Nat := f.get (s.reg f.addr)

def setF (s : State) (f : Field) (v : Nat) : State := s.setReg f.addr (f.put (s.reg f.addr) v)

/-- A one-bit field as a condition. -/
def onF (s : State) (f : Field) : Bool := s.getF f != 0

/-- Adds to a counter that saturates at its all-ones value. -/
def addF (s : State) (f : Field) (n : Nat) : State := s.setF f (min (s.getF f + n) f.max)

def incF (s : State) (f : Field) : State := s.addF f 1

/-- Takes from a field, not below zero. -/
def subF (s : State) (f : Field) (n : Nat) : State := s.setF f (s.getF f - n)

def setFIf (s : State) (c : Bool) (f : Field) (v : Nat) : State := if c then s.setF f v else s

/-- Applies an update only where the condition holds. -/
def when (s : State) (c : Bool) (g : State → State) : State := if c then g s else s

/-! ## Time (R29) -/

/-- The timecode in nanoseconds. -/
def now (s : State) : Nat := s.fab.timecode / 64

/-- The published timecode in 1/64 ns. -/
def tick (s : State) : Nat := s.fab.timecode

/-- At least `ns` nanoseconds have passed since timecode `t` (in 1/64 ns). -/
def since (s : State) (t ns : Nat) : Bool := t + ns * 64 ≤ s.fab.timecode

/-! ## Free values (log entry 1) -/

/-- The next free value. -/
def free (s : State) : Nat := Config.freeValue s.freeCtr

/-- The state after one free value has been drawn. -/
def drew (s : State) : State := { s with freeCtr := s.freeCtr + 1 }

/-! ## Modes -/

/-- The mode that PWR_MODE reads (Table 15.9). -/
def mode (s : State) : Mode := Mode.ofCode (s.getF F.pwrModeMode)

def inMode (s : State) (m : Mode) : Bool := s.getF F.pwrModeMode == m.code

/-- The logic die is powered and out of reset: in every mode but Dormant and Standby (Table 01.3), and during
a start from step 5 on, while PWR_MODE still reads the old mode (R573). -/
def logicOn (s : State) : Bool :=
  !s.pwr.logicHeld && (2 ≤ s.getF F.pwrModeMode || match s.pwr.starting with
    | some x => decide (5 ≤ x.step)
    | none => false)

/-! ## Records of the units by number -/

def tenant (s : State) (n : Nat) : Tenant := sparseGet (fun _ => Tenant.reset) s.ten n
def setTenant (s : State) (n : Nat) (t : Tenant) : State :=
  { s with ten := sparsePut (fun _ => Tenant.reset) s.ten n t }
def modTenant (s : State) (n : Nat) (g : Tenant → Tenant) : State := s.setTenant n (g (s.tenant n))

def ctrl (s : State) (fn : Nat) : Ctrl := sparseGet (fun _ => Ctrl.reset) s.host.ctrls fn
def setCtrl (s : State) (fn : Nat) (c : Ctrl) : State :=
  { s with host := { s.host with ctrls := sparsePut (fun _ => Ctrl.reset) s.host.ctrls fn c } }
def modCtrl (s : State) (fn : Nat) (g : Ctrl → Ctrl) : State := s.setCtrl fn (g (s.ctrl fn))

/-- The namespace with an NSID, if it exists. -/
def ns (s : State) (nsid : Nat) : Option Namespace := sparseGet (fun _ => none) s.host.nss nsid
def setNs (s : State) (nsid : Nat) (n : Option Namespace) : State :=
  { s with host := { s.host with nss := sparsePut (fun _ => none) s.host.nss nsid n } }
def modNs (s : State) (nsid : Nat) (g : Namespace → Namespace) : State :=
  s.setNs nsid ((s.ns nsid).map g)

def chan (s : State) (c : Nat) : Channel := sparseGet (fun _ => Channel.reset) s.fch.chans c
def setChan (s : State) (c : Nat) (x : Channel) : State :=
  { s with fch := { s.fch with chans := sparsePut (fun _ => Channel.reset) s.fch.chans c x } }
def modChan (s : State) (c : Nat) (g : Channel → Channel) : State := s.setChan c (g (s.chan c))

def lun (s : State) (c l : Nat) : Lun := sparseGet (fun _ => Lun.reset) (s.chan c).luns l
def setLun (s : State) (c l : Nat) (x : Lun) : State :=
  s.modChan c fun ch => { ch with luns := sparsePut (fun _ => Lun.reset) ch.luns l x }
def modLun (s : State) (c l : Nat) (g : Lun → Lun) : State := s.setLun c l (g (s.lun c l))

def diskAct (s : State) (a : Nat) : DiskAct := sparseGet (fun _ => DiskAct.reset) s.dch.acts a
def setDiskAct (s : State) (a : Nat) (x : DiskAct) : State :=
  { s with dch := { s.dch with acts := sparsePut (fun _ => DiskAct.reset) s.dch.acts a x } }
def modDiskAct (s : State) (a : Nat) (g : DiskAct → DiskAct) : State :=
  s.setDiskAct a (g (s.diskAct a))

def band (s : State) (b : Nat) : Band := sparseGet (fun _ => Band.reset) s.dch.bands b
def setBand (s : State) (b : Nat) (x : Band) : State :=
  { s with dch := { s.dch with bands := sparsePut (fun _ => Band.reset) s.dch.bands b x } }
def modBand (s : State) (b : Nat) (g : Band → Band) : State := s.setBand b (g (s.band b))

def servoAct (s : State) (a : Nat) : ActServo := sparseGet (fun _ => ActServo.reset) s.srv.acts a
def setServoAct (s : State) (a : Nat) (x : ActServo) : State :=
  { s with srv := { s.srv with acts := sparsePut (fun _ => ActServo.reset) s.srv.acts a x } }
def modServoAct (s : State) (a : Nat) (g : ActServo → ActServo) : State :=
  s.setServoAct a (g (s.servoAct a))

def loop (s : State) (l : Nat) : Loop := sparseGet (fun _ => Loop.reset) s.srv.loops l
def setLoop (s : State) (l : Nat) (x : Loop) : State :=
  { s with srv := { s.srv with loops := sparsePut (fun _ => Loop.reset) s.srv.loops l x } }
def modLoop (s : State) (l : Nat) (g : Loop → Loop) : State := s.setLoop l (g (s.loop l))

def proc (s : State) (p : Nat) : Proc := sparseGet (fun _ => Proc.reset) s.eng.procs p
def setProc (s : State) (p : Nat) (x : Proc) : State :=
  { s with eng := { s.eng with procs := sparsePut (fun _ => Proc.reset) s.eng.procs p x } }
def modProc (s : State) (p : Nat) (g : Proc → Proc) : State := s.setProc p (g (s.proc p))

def ctx (s : State) (h : Nat) : Option Ctx := sparseGet (fun _ => none) s.tsk.ctxs h
def setCtx (s : State) (h : Nat) (c : Option Ctx) : State :=
  { s with tsk := { s.tsk with ctxs := sparsePut (fun _ => none) s.tsk.ctxs h c } }
def modCtx (s : State) (h : Nat) (g : Ctx → Ctx) : State := s.setCtx h ((s.ctx h).map g)

def task (s : State) (i : Nat) : Option TaskEntry := sparseGet (fun _ => none) s.tsk.tasks i
def setTask (s : State) (i : Nat) (t : Option TaskEntry) : State :=
  { s with tsk := { s.tsk with tasks := sparsePut (fun _ => none) s.tsk.tasks i t } }
def modTask (s : State) (i : Nat) (g : TaskEntry → TaskEntry) : State :=
  s.setTask i ((s.task i).map g)

def keySlot (s : State) (k : Nat) : Option KeySlot := sparseGet (fun _ => none) s.sec.slots k
def setKeySlot (s : State) (k : Nat) (x : Option KeySlot) : State :=
  { s with sec := { s.sec with slots := sparsePut (fun _ => none) s.sec.slots k x } }

def subch (s : State) (i : Nat) : Subchannel := sparseGet (fun _ => Subchannel.reset) s.mem.subs i
def setSubch (s : State) (i : Nat) (x : Subchannel) : State :=
  { s with mem := { s.mem with subs := sparsePut (fun _ => Subchannel.reset) s.mem.subs i x } }
def modSubch (s : State) (i : Nat) (g : Subchannel → Subchannel) : State :=
  s.setSubch i (g (s.subch i))

def modFab (s : State) (g : Fabric → Fabric) : State := { s with fab := g s.fab }
def modSlt (s : State) (g : Slate → Slate) : State := { s with slt := g s.slt }
def modHost (s : State) (g : HostIf → HostIf) : State := { s with host := g s.host }
def modFch (s : State) (g : Flash → Flash) : State := { s with fch := g s.fch }
def modFtl (s : State) (g : Ftl → Ftl) : State := { s with ftl := g s.ftl }
def modDch (s : State) (g : Disk → Disk) : State := { s with dch := g s.dch }
def modSrv (s : State) (g : Servo → Servo) : State := { s with srv := g s.srv }
def modEng (s : State) (g : Engines → Engines) : State := { s with eng := g s.eng }
def modTsk (s : State) (g : Takes → Takes) : State := { s with tsk := g s.tsk }
def modPmx (s : State) (g : Pmx → Pmx) : State := { s with pmx := g s.pmx }
def modCmp (s : State) (g : Cmp → Cmp) : State := { s with cmp := g s.cmp }
def modSec (s : State) (g : Sec → Sec) : State := { s with sec := g s.sec }
def modMem (s : State) (g : Mem → Mem) : State := { s with mem := g s.mem }
def modCnt (s : State) (g : Cnt → Cnt) : State := { s with cnt := g s.cnt }
def modMgt (s : State) (g : Mgmt → Mgmt) : State := { s with mgt := g s.mgt }
def modNvs (s : State) (g : Nvs → Nvs) : State := { s with nvs := g s.nvs }
def modUpd (s : State) (g : Upd → Upd) : State := { s with upd := g s.upd }
def modPwr (s : State) (g : Power → Power) : State := { s with pwr := g s.pwr }

end State

/-- Folds an update over a list. -/
def forEach {α : Type} (l : List α) (s : State) (g : State → α → State) : State := l.foldl g s

/-- Answers a next state: every meaning of this model ends so. -/
abbrev done (s : State) : Host.Outcome State Fault Refusal := .next s

end Sys2Proof.Machine
end

