-- ==== Sys2Proof/Machine/Flags.lean ====
section
/-! DEFINITION. Reports: alert bits and ALERT_N (R532, R533), dailies records (R238), health events
(R236), asynchronous events (R129, R130), and the status a command ends with. -/

namespace Sys2Proof.Machine

/-! ## Sources of dailies records: register blocks in the order of Table 01.4 -/

def src.dev : Nat := 0
def src.pwr : Nat := 1
def src.slt : Nat := 2
def src.hif : Nat := 3
def src.vin : Nat := 4
def src.fch : Nat := 5
def src.ftl : Nat := 6
def src.dch : Nat := 7
def src.srv : Nat := 8
def src.eng : Nat := 9
def src.tsk : Nat := 10
def src.pmx : Nat := 11
def src.cmp : Nat := 12
def src.sec : Nat := 13
def src.mem : Nat := 14
def src.cnt : Nat := 15
def src.nvs : Nat := 16
def src.upd : Nat := 17
def src.mgt : Nat := 18
def src.drv : Nat := 19

/-- INSTANCE of a dailies record that concerns no tenant (Table 06.12). -/
def noTenant : Nat := 0xFFFF

namespace State

/-! ## Alerts -/

/-- Sets an alert bit (R532). If the bit was clear and is enabled in MGT_ALERT_IBI, an in-band
interrupt for it is due (R533). -/
def raiseAlert (s : State) (bitNo : Nat) : State :=
  let f : Field := ⟨A.mgtAlertStatus, bitNo, 1⟩
  if s.onF f then s
  else
    let s := s.setF f 1
    if bit (s.getF F.mgtAlertIbiEn) bitNo then
      s.modMgt fun m => { m with ibiPending := m.ibiPending ++ [bitNo] }
    else s

/-- Alert bits by name (Table 15.16). -/
def alertModeChange (s : State) : State := s.raiseAlert 0
def alertThermalWarn (s : State) : State := s.raiseAlert 1
def alertThermalCrit (s : State) : State := s.raiseAlert 2
def alertHealth (s : State) : State := s.raiseAlert 3
def alertDeferredWrite (s : State) : State := s.raiseAlert 4
def alertPair (s : State) : State := s.raiseAlert 5
def alertTamper (s : State) : State := s.raiseAlert 6
def alertPowerFail (s : State) : State := s.raiseAlert 7
def alertFirmware (s : State) : State := s.raiseAlert 8
def alertTfDone (s : State) : State := s.raiseAlert 9
def alertLbChange (s : State) : State := s.raiseAlert 10
def alertLbLimit (s : State) : State := s.raiseAlert 11
def alertHoldupLow (s : State) : State := s.raiseAlert 12
def alertOpDone (s : State) : State := s.raiseAlert 13

/-! ## Dailies -/

/-- Writes a dailies record for a tenant and generation: the ring keeps 4096 (R238). -/
def dailyFor (s : State) (source reason tenant gen : Nat) (detail : List Nat) : State :=
  s.modFtl fun f =>
    let r : Daily :=
      { time := s.now, source := source, severity := Config.dailySeverity source reason,
        reason := reason, tenant := tenant, gen := gen, detail := detail }
    let l := f.dailies ++ [r]
    { f with dailies := l.drop (l.length - 4096), dailiesNew := f.dailiesNew + 1 }

/-- Writes a dailies record that concerns no tenant. -/
def daily (s : State) (source reason : Nat) (detail : List Nat) : State :=
  s.dailyFor source reason noTenant 0 detail

/-- A dailies record whose reason no rule names. -/
def dailyOpen (s : State) (source event : Nat) (detail : List Nat) : State :=
  s.daily source (Config.openReason source event) detail

/-- A reset by its place in Table 17.1, with the timecode (Table 17.9). -/
def noteReset (s : State) (kind : Nat) : State := s.daily src.dev 0x0500 [kind, s.now]

/-- What the agent on the access path read (R31, R36). -/
def busData (s : State) (v : Nat) : State := s.modHost fun h => { h with bus := .data v }

/-! ## Asynchronous events -/

/-- The enable bit of Asynchronous Event Configuration that masks an event, if one is known: the
NVMe bits of the notices; the bits of the vendor events are not stated (log entry 5). -/
def eventMaskBit (type info : Nat) : Option Nat :=
  if type = 2 ∧ info = 0x00 then some 8
  else if type = 2 ∧ info = 0x01 then some 9
  else if type = 2 ∧ info = 0xEF then some 27
  else if type = 1 then some (if info = 0 then 2 else if info = 1 then 1 else 0)
  else if type = 7 then Config.vendorEventBit info
  else none

/-- The event is enabled in a controller's Asynchronous Event Configuration (Table 03.7). -/
def eventEnabled (c : Ctrl) (type info : Nat) : Bool :=
  match eventMaskBit type info with
  | some b => bit c.evCfg b
  | none   => true

/-- Ends a command with a status: code type, code, dwords 0 and 1 and returned data. The completion
entry itself is posted by the completion poster (Table 03.3). -/
def endCmd (s : State) (key : CmdKey) (sct sc dw0 dw1 : Nat) (out : List Byte) : State :=
  s.modHost fun h =>
    { h with cmds := h.cmds.map fun c =>
        if c.key = key ∧ c.st ≠ .posted ∧ c.st ≠ .discarded ∧ c.st ≠ .completing then
          { c with st := .completing, sct := sct, sc := sc, dw0 := dw0, dw1 := dw1, out := out }
        else c }

/-- Raises an event at one controller (R130): an outstanding request reports it, otherwise it is
held; a held or latched event of the same type and information absorbs it. -/
def raiseEvent (s : State) (fn type info page : Nat) : State :=
  let c := s.ctrl fn
  let e : AsyncEvent := { type := type, info := info, page := page }
  if !eventEnabled c type info then s
  else if c.events.contains e || c.latched.contains e then s
  else match c.aers with
  | key :: rest =>
    (s.setCtrl fn { c with aers := rest, latched := if page = 0 then c.latched else c.latched ++ [e] })
      |>.endCmd key 0 0 (type + 2 ^ 8 * info + 2 ^ 16 * page) 0 []
  | [] => s.setCtrl fn { c with events := c.events ++ [e] }

/-- Functions a namespace is attached to. -/
def attachedTo (s : State) (nsid : Nat) : List Nat :=
  match s.ns nsid with
  | some n => n.attached
  | none   => []

/-- Raises an event at the physical function and at every tenant's controller of a namespace
(R129). -/
def raiseEventNs (s : State) (nsid type info page : Nat) : State :=
  forEach ((s.attachedTo nsid).filter (· ≠ 0)) (s.raiseEvent 0 type info page)
    fun s fn => s.raiseEvent fn type info page

/-- Raises an event at the physical function and at one tenant's controller. -/
def raiseEventTenant (s : State) (n type info page : Nat) : State :=
  (s.raiseEvent 0 type info page).raiseEvent (n + 1) type info page

/-! ## Long operations (R534, Table 15.17) -/

def longOp (s : State) (kind : Nat) : LongOp := sparseGet (fun _ => LongOp.reset) s.pwr.longOps kind
def setLongOp (s : State) (kind : Nat) (x : LongOp) : State :=
  s.modPwr fun p => { p with longOps := sparsePut (fun _ => LongOp.reset) p.longOps kind x }

/-- An operation of a kind starts: its earlier ending is forgotten. `band` says that its position is a
band. -/
def startLongOp (s : State) (kind : Nat) (band : Bool) : State :=
  s.setLongOp kind { LongOp.reset with state := 1, posBand := band }

/-- Progress in units of 0.01% and position of a running operation. -/
def longOpProgress (s : State) (kind pct pos : Nat) : State :=
  let x := s.longOp kind
  if x.state = 1 then s.setLongOp kind { x with pct := pct, pos := pos } else s

/-- A running operation ends with a status; its end sets OP_DONE. -/
def endLongOp (s : State) (kind sct sc : Nat) : State :=
  let x := s.longOp kind
  if x.state = 1 then
    (s.setLongOp kind { x with state := 2, pct := if sct = 0 && sc = 0 then 10000 else x.pct, sct := sct, sc := sc }).alertOpDone
  else s

/-! ## Health events -/

/-- Enters one health event for one namespace (R236): 64 entries, the oldest overwritten and
counted. Raises event 0xC2 and the health alert. -/
def healthEntry (s : State) (code kind unit nsid detail : Nat) : State :=
  let e : HealthEvent :=
    { time := s.now, code := code, severity := Config.healthSeverity code, unitKind := kind,
      unit := unit, nsid := nsid, detail := detail }
  let s := s.modFtl fun f =>
    let l := f.events ++ [e]
    { f with events := l.drop (l.length - 64),
             eventsLost := if 64 < l.length then min (f.eventsLost + 1) 0xFFFF else f.eventsLost }
  (s.raiseEventNs nsid 7 0xC2 0xC2).alertHealth

/-- NSIDs that exist. -/
def nsids (s : State) : List Nat := s.host.nss.map (·.1)

/-- NSIDs of the given types. -/
def nsidsOf (s : State) (p : NsType → Bool) : List Nat :=
  s.nsids.filter fun i => match s.ns i with
    | some n => p n.type
    | none   => false

/-- Enters a health event once for each namespace it affects (R236), or once with NSID 0 where it
affects none, and writes its FTL dailies record (Table 06.12, REASON 0x0200 + code). -/
def health (s : State) (code kind unit : Nat) (affects : List Nat) (detail : Nat) : State :=
  let s := forEach (if affects.isEmpty then [0] else affects) s fun s i =>
    s.healthEntry code kind unit i detail
  s.daily src.ftl (0x0200 + code) [kind, unit, detail]

/-- The reliability event of Table 03.13, at every controller of the namespaces concerned. -/
def reliabilityEvent (s : State) (affects : List Nat) : State :=
  forEach affects (s.raiseEvent 0 1 0x00 0x02) fun s i => s.raiseEventNs i 1 0x00 0x02

/-! ## Randomness (R419, R420) -/

/-- `n` bytes of DRBG output: free values. One request. -/
def drbg (s : State) (n : Nat) : List Byte × State :=
  let l := (List.range n).map fun i => BitVec.ofNat 8 (Config.freeValue (s.freeCtr + i))
  (l, { s with freeCtr := s.freeCtr + n, sec := { s.sec with requests := s.sec.requests + 1 } })

/-- AES work on `n` blocks of 16 bytes (R419): after every 4096 blocks the mask generator is reseeded by a request to
the DRBG; while ENTROPY_FAIL is set it goes on without (R420). No rule gives the first seed (log entry 167). -/
def useMasks (s : State) (n : Nat) : State :=
  let k := s.sec.maskBlocks + n
  if k < 4096 || s.onF F.secStatusEntropyFail then { s with sec := { s.sec with maskBlocks := k } }
  else
    let s := forEach (List.range (k / 4096)) s fun s _ =>
      let (m, s) := s.drbg 32
      { s with sec := { s.sec with maskSeed := m } }
    { s with sec := { s.sec with maskBlocks := k % 4096 } }

end State

end Sys2Proof.Machine
end

