-- ==== Sys2Proof/Machine/Orders.lean ====
section
/-! DEFINITION. Placing orders in the order sequencer's window (R526, R527) and fencing the host
data path. -/

namespace Sys2Proof.Machine

/-- Precedence of a mode order by its target (R527, key 1). -/
def modePrec : Mode → Nat
  | .safe => 0
  | .service => 1
  | .readOnly => 2
  | _ => 3

/-- The side of an order that arrives by a register access path (R526). -/
def pathSide : Path → Side
  | .i3c => .i3c
  | .bar0 => .nvme
  | .vf => .nvme
  | .core => .device

namespace State

/-- The device brings the disk up or down by itself (R303). -/
def spinTo (s : State) (up : Bool) : State := s.modPwr fun p => { p with spin := some up }

/-- An idle transition is abandoned (R525): the mode stays, and a disk on its way down comes up again. -/
def abandonIdle (s : State) : State := match s.pwr.trans with
  | some t =>
    if t.idle then
      let s := (s.modPwr fun p => { p with trans := none }).setF F.pwrModeChanging 0
      let s := s.modHost fun h => { h with linkL12 := false }
      if s.pwr.spin = some false then s.spinTo true else s
    else s
  | none => s

/-- Places an order in the window that is open now (R527); an order ends idleness and abandons an idle
transition (R523, R525). -/
def placeOrder (s : State) (op : OrderOp) (mgmt : Bool) (targets : List Target) (prec : Nat)
    (side : Side) : State :=
  s.abandonIdle.modPwr fun p =>
    { p with idleSince := none
             window := p.window ++
        [{ op := op, mgmt := mgmt, targets := targets, prec := prec, side := side,
           arrival := s.tick }] }

/-- Places a mode order that the device raises itself, or a pin (Table 15.12). -/
def placeMode (s : State) (target : Mode) (leave : Bool) (cause : Nat) (side : Side) : State :=
  s.placeOrder (.mode target leave cause false) true [.mode] (if leave then 3 else modePrec target) side

/-- A non-mode order is not accepted while a start or a mode transition runs whose target does not accept it
(R529); Dormant and Standby accept none (R530). -/
def orderBarred (s : State) (ok : Mode → Bool) : Bool :=
  s.pwr.starting.isSome || match s.pwr.trans with
    | some t => !t.idle && (t.target = .dormant || t.target = .standby || !ok t.target)
    | none => false

/-- An order of the device itself to Safe, with its CAUSE (Table 15.15). -/
def orderSafe (s : State) (cause : Nat) : State := s.placeMode .safe false cause .device

/-- The physical function and every other function whose controller holds state. -/
def functions (s : State) : List Nat := 0 :: (s.host.ctrls.map (·.1)).filter (· ≠ 0)

/-- The mode register changes (R520): CAUSE, the alert, and event 0xC1 at every controller (Table 03.13,
Table 04.12). -/
def enterMode (s : State) (m : Mode) (cause : Nat) : State :=
  let s := s.setF F.pwrModeCause cause
  if s.inMode m then s
  else forEach s.functions (s.setF F.pwrModeMode m.code).alertModeChange fun s fn => s.raiseEvent fn 7 0xC1 0

/-- Work breaks idleness (R520, R525): an idle transition is abandoned, and Ready becomes Active, which ungates every
gated clock (R28): the slate goes on at slot 0 of the next frame (R51). -/
def breakIdle (s : State) : State :=
  let s := s.abandonIdle.modPwr fun p => { p with idleSince := none }
  if s.inMode .ready && s.pwr.trans.isNone then
    (s.enterMode .active 0).modSlt fun x => { x with gated := false, frameCycle := if x.gated then 0 else x.frameCycle }
  else s

/-- Closes the host data path (R485, R498, R520). -/
def closePath (s : State) : State := s.modPwr fun p => { p with pathOpen := false, openedAt := none }

/-- Opens the host data path. -/
def openPath (s : State) : State :=
  s.modPwr fun p => { p with pathOpen := true, openedAt := some s.tick }

end State

end Sys2Proof.Machine
end

