-- ==== Sys2Proof/Machine/RegAccess.lean ====
section
/-! DEFINITION. Register accesses as Table 00.3 states them (R8–R11, R33–R36): which fields a write
changes, which values a register ignores, LOCK, and clearing on read. -/

namespace Sys2Proof.Machine

/-- The LOCK field of the block that holds an address, if the block has one (Table 00.3, RWL). The
FCH and DCH blocks have one for each channel and actuator. -/
def lockField (a : Nat) : Option Field :=
  if a / 0x1000 = 2 then some F.sltCtrlLock
  else if a / 0x1000 = 5 then some (F.fchCtrlLock ((a - 0x5000) / 0x100))
  else if a / 0x1000 = 6 then some F.ftlCtrlLock
  else if a / 0x1000 = 7 then some (F.dchCtrlLock ((a - 0x7000) / 0x400))
  else if a / 0x1000 = 8 then some F.srvCtrlLock
  else if a / 0x1000 = 14 then some F.memCtrlLock
  else if a / 0x1000 = 15 then some F.cntCtrlLock
  else none

/-- The address lies in a drive-die block, reachable with the logic die off (Table 01.4). -/
def onDriveDie (a : Nat) : Bool :=
  a / 0x1000 = 1 || a / 0x1000 = 16 || a / 0x1000 = 18 || (0x20000 ≤ a && a < 0x30000)

/-- The value of one field after a write, by access code (Table 00.3). A write-only field keeps
nothing, and a field with a command of its own is left to that command. -/
def FieldDesc.written (f : FieldDesc) (locked service : Bool) (old new : Nat) : Nat :=
  if f.own then old
  else match f.acc with
  | .ro | .rc | .wo => old
  | .rw | .rws => new
  | .w1c => old &&& (2 ^ f.width - 1 - new)
  | .w1s => old ||| new
  | .rwsClear => if service then old &&& (2 ^ f.width - 1 - new) else old
  | .rwl => if locked then old else new

/-- Values that a field ignores although its access code would take them, as its register table
says; `w` is the whole word written. -/
def fieldIgnores (a lo v : Nat) (w : Word) : Bool :=
  let v16 := signedOf 16 v
  (a = A.fchCfg ((a - 0x5000) / 0x100) && a / 0x1000 = 5 && lo = 4 && v = 7)
  || (a = A.ftlHeatEpoch && lo = 0 && v < 60)
  || (a = A.dchCfg ((a - 0x7000) / 0x400) && a / 0x1000 = 7 && lo = 20 && v = 0)
  || ((a = A.srvOffset 0 || a = A.srvOffset 1) && lo = 0 && (v16 < -0x2000 || 0x2000 < v16))
  || (a = A.srvSettle && (lo = 8 || lo = 0) && v = 0)
  || (a = A.srvPwrBudget && lo = 0 && (v < 60 || 409 < v))
  || (a = A.memRh && lo = 0 && (v < 8 || 14 < v))
  || (a = A.memScrub && lo = 24 && (v = 0 || 168 < v))
  || ((a = A.memHealCtrl || a = A.memFlipCtrl) && lo = 0 &&
        !(v < 2 || (0x10 ≤ v && v ≤ 0x16) || (0x18 ≤ v && v < 0x1C) || (0x20 ≤ v && v < 0x40)))
  || (a = A.cntCfg && lo = 8 && (v = 0 || 100 < v))
  || (a = A.cntLag && lo = 16 && (v = 0 || 1024 < v))
  || (a = A.cntHb && lo = 0 && v < 2)
  || (a = A.mgtI3cCfg && lo = 0 && (v < 8 || 0x78 ≤ v))
  || (a = A.mgtProtoSel && lo = 0 && v ≠ 0x0100)
  || (a = A.ftlMigrateCfg && F.ftlMigrateCfgHigh.get w ≤ F.ftlMigrateCfgLow.get w)
  || (a = A.memWq && (F.memWqHigh.get w ≤ F.memWqLow.get w || 56 < F.memWqHigh.get w))
  || (a = A.memDdrCfg && !(F.memDdrCfgDensity.get w = 0
        || (F.memDdrCfgDensity.get w = 1 && F.memDdrCfgRanks.get w = 0)))

/-- The register word after a plain write (R10). -/
def writtenWord (r : RegDesc) (a : Nat) (locked service : Bool) (old new : Word) : Word :=
  r.fields.foldl (fun w f =>
    let p : Field := ⟨a, f.lo, f.width⟩
    if fieldIgnores a f.lo (p.get new) new then w
    else p.put w (f.written locked service (p.get old) (p.get new))) old

/-- The register word after a read that clears its RC fields (Table 00.3). -/
def readClears (r : RegDesc) (a : Nat) (old : Word) : Word :=
  r.fields.foldl (fun w f => if f.acc = .rc then (⟨a, f.lo, f.width⟩ : Field).put w f.reset else w) old

/-- Length of a codeword by CODE_RATE (Table 05.7). -/
def cwLength (rate : Nat) : Nat := [4376, 4424, 4472, 4520, 4568, 4624, 4672].getD rate 4568

namespace State

/-- CODE_RATE keeps its value where a page has no room for the codewords of the new one (R173): floor(P / C) is less
than its data area divided by 4096. -/
def keepRate (s : State) (a : Nat) (old w : Word) : Word :=
  let f := F.fchCfgCodeRate ((a - 0x5000) / 0x100)
  if a / 0x1000 = 5 && f.addr = a && s.fch.geom.any fun g => g.pageSize / cwLength (f.get w) < g.dataArea / 4096 then
    f.put w (f.get old)
  else w

/-- The word that a register holds after a plain write. -/
def wordAfter (s : State) (r : RegDesc) (a : Nat) (locked service : Bool) (v : Word) : Word :=
  s.keepRate a (s.reg a) (writtenWord r a locked service (s.reg a) v)

/-- RWL fields of the register are locked. -/
def lockedAt (s : State) (a : Nat) : Bool :=
  match lockField a with
  | some f => s.onF f
  | none => false

/-- A task-file command register or TF_DATA: writes in BUSY are ignored and set DROPPED (R514). -/
def tfRegister (a : Nat) : Bool := A.tfCmd ≤ a && a ≤ A.tfArg

/-- An NVS register that the path of the first unlock word owns (R546). -/
def nvsOwned (a : Nat) : Bool :=
  a = A.nvsUnlock || a = A.nvsAddr || a = A.nvsDataLo || a = A.nvsDataHi || a = A.nvsCmd

/-- An access crosses the splice: I3C enters on the drive die, every other path on the logic die (R37). -/
def crossesSplice (path : Path) (a : Nat) : Bool := if path = .i3c then !onDriveDie a else onDriveDie a

/-- The failed access of a path has been answered (R23). -/
def mgtFailureTold (s : State) (path : Path) : State :=
  s.modFab fun f => { f with mgtFailed := f.mgtFailed.erase path }

/-- The access path may write the address now: R23 for an access whose words were lost and for a splice that is down,
R35 for a logic die that is off (BAR0 and the management core pair lie on it), R34 for a virtual function, R514 and
R546 for the registers they name. The state carries DROPPED where they set it. -/
def admitWrite (s : State) (path : Path) (a : Nat) : Bool × State :=
  if !s.logicOn && !(path = .i3c && onDriveDie a) then (false, s)
  else if path = .vf && !(0x100000 ≤ a && a < 0x300000 && s.host.vfEnable
      && (a - 0x100000) / 0x1000 < s.host.numVfs) then (false, s)
  else if crossesSplice path a && !s.onF F.devSpliceStatusUp then (false, s.setF F.devSpliceStatusMgtFail 1)
  else if crossesSplice path a && s.fab.mgtFailed.contains path then (false, s.mgtFailureTold path)
  else if tfRegister a && s.getF F.tfStatusState = 1 then (false, s.setF F.tfStatusDropped 1)
  else if nvsOwned a && (match s.nvs.owner with | some p => p ≠ path | none => false) then
    (false, s.setF F.nvsStatusDropped 1)
  else (true, s)

/-- A plain register write (R10): every field without a command of its own takes its value. -/
def regWrite (s : State) (path : Path) (a : Nat) (v : Word) : State :=
  match s.admitWrite path a with
  | (false, s) => s
  | (true, s) => match regDesc? a with
    | none => s
    | some r => s.setReg a (s.wordAfter r a (s.lockedAt a) (s.inMode .service) v)

/-- A write that also triggers an action: the plain fields of the word are written first, then the
action runs (R36), then a LOCK in the same word is set (R11). The action is not reached where the path
may not write. -/
def regAction (s : State) (path : Path) (a : Nat) (v : Word) (act : State → State) : State :=
  match s.admitWrite path a with
  | (false, s) => s
  | (true, _) =>
    let s := act (s.regWrite path a v)
    match lockField a with
    | some f => if f.addr = a && f.get v = 1 then s.setF f 1 else s
    | none => s

/-- Clears the RC fields of a register that has been read. -/
def clearOnRead (s : State) (a : Nat) : State :=
  match regDesc? a with
  | none => s
  | some r => s.setReg a (readClears r a (s.reg a))

end State

end Sys2Proof.Machine
end

