-- ==== Sys2Proof/Machine/Memory.lean ====
section
/-! DEFINITION. DRAM and on-chip memory protection (chapter 13): address decoding, error codes,
the fill map, burst queues, refresh, neighbour refresh, CA parity replay, scrub, heal and fault
injection, and the commands of that chapter. -/

namespace Sys2Proof.Machine

/-! ## Addresses (R448, R451) -/

/-- The legal values of MEM_DDR_CFG (R448). -/
def ddrCfgLegal (density ranks : Nat) : Bool := density = 0 || (density = 1 && ranks = 0)

/-- Where a device DRAM address lies: rank, channel, offset in the channel's rank, subchannel. -/
structure DramLoc where
  rank : Nat
  channel : Nat
  offset : Nat
  sub : Nat
deriving DecidableEq, Repr

/-- Address decoding with rank 0 capacity `r0` of one channel (R451). -/
def dramDecode (r0 a : Nat) : DramLoc :=
  let rank := if a < 2 * r0 then 0 else 1
  let o := if a < 2 * r0 then a else a - 2 * r0
  let offset := o / 2 ^ 13 * 4096 + o % 4096
  { rank := rank, channel := o / 4096 % 2, offset := offset, sub := offset / 64 % 2 }

namespace State

/-- Rank 0 capacity of one channel in bytes (R448). -/
def rankBytes (s : State) : Nat :=
  if s.getF F.memDdrCfgDensity = 0 then 16 * 2 ^ 30 else 32 * 2 ^ 30

/-- Ranks populated. -/
def rankCount (s : State) : Nat := s.getF F.memDdrCfgRanks + 1

/-- Bytes of DRAM in the device. -/
def dramBytes (s : State) : Nat := 2 * s.rankBytes * s.rankCount

def dramLoc (s : State) (a : Nat) : DramLoc := dramDecode s.rankBytes a

/-- CHc_STATE of MEM_STATUS. -/
def chStateF (c : Nat) : Field := if c = 0 then F.memStatusCh0State else F.memStatusCh1State
def chRateF (c : Nat) : Field := if c = 0 then F.memStatusCh0Rate else F.memStatusCh1Rate

end State

/-! ## Error codes (R465, R466) -/

/-- Components that an error mask touches: bit 64 × d + 4 × beat + dq is component d (R472). -/
def maskComponents (mask : Nat) : List Nat :=
  (List.range 10).filter fun d => bits mask (64 * d) 64 != 0

/-- Number of set bits among the low `n`. -/
def popCount (n v : Nat) : Nat := (List.range n).countP fun i => bit v i

/-- What the DRAM code finds: one component corrects, two are detected (R465). -/
def dramFinding (mask : Nat) : EccFinding :=
  match (maskComponents mask).length with
  | 0 => .clean
  | 1 => .corrected
  | 2 => .uncorrectable
  | _ => Config.dramFinding mask

/-- What the SRAM code finds: one bit corrects, two are detected (R466). -/
def sramFinding (mask : Nat) : EccFinding :=
  match popCount 39 mask with
  | 0 => .clean
  | 1 => .corrected
  | 2 => .uncorrectable
  | _ => Config.sramFinding mask

/-- The key of a codeword: memory identifier and unit. -/
def memKey (id unit : Nat) : Nat := id * 2 ^ 40 + unit

namespace State

def maskOf (s : State) (id unit : Nat) : Nat := sparseGet (fun _ => 0) s.mem.masks (memKey id unit)
def setMask (s : State) (id unit m : Nat) : State :=
  s.modMem fun x => { x with masks := sparsePut (fun _ => 0) x.masks (memKey id unit) m }

def finding (s : State) (id unit : Nat) : EccFinding :=
  if id < 2 then dramFinding (s.maskOf id unit) else sramFinding (s.maskOf id unit)

/-- Writes the record of a second of corrected errors that has ended (R473). -/
def closeCeSecond (s : State) (id : Nat) : State :=
  match sparseGet (fun _ => none) s.mem.ces id with
  | none => s
  | some c =>
    if s.since c.since 1000000000 then
      (s.daily src.mem 0x0300 [c.count, id, c.unit]).modMem fun x =>
        { x with ces := sparsePut (fun _ => none) x.ces id none }
    else s

/-- The rank that MEM_ERR registers report for a DRAM burst index. -/
def unitRank (s : State) (id unit : Nat) : Nat := if id < 2 then (s.dramLoc (unit * 64)).rank else 0

/-- DEVICE of an error: the DRAM component, or 0xF for SRAM. -/
def errDevice (s : State) (id unit : Nat) : Nat :=
  if id < 2 then (maskComponents (s.maskOf id unit)).headD 0 else 0xF

/-- Counts and latches a corrected error (R468, R473). -/
def noteCorrected (s : State) (id unit : Nat) : State :=
  let s := s.closeCeSecond id
  let s := if id < 2 then s.incF (F.memSubCeCount (2 * id + (s.dramLoc (unit * 64)).sub))
           else s.incF (F.memSramCntCe id)
  let s := ((((s.setF F.memErrCeInfoValid 1).setF F.memErrCeInfoMemId id).setF F.memErrCeInfoRank
    (s.unitRank id unit)).setF F.memErrCeInfoDevice (s.errDevice id unit)).setF F.memErrCeAddrUnit unit
  s.modMem fun x =>
    let c := (sparseGet (fun _ => none) x.ces id).getD { since := s.tick, count := 0, unit := unit }
    let c := some { c with count := c.count + 1, unit := unit }
    { x with ces := sparsePut (fun _ => none) x.ces id c }

/-- Counts, latches and records an uncorrectable read (R469). -/
def noteUncorrectable (s : State) (id unit : Nat) : State :=
  let dev := s.errDevice id unit
  let s := if id < 2 then s.incF (F.memSubUeCount (2 * id + (s.dramLoc (unit * 64)).sub))
           else s.incF (F.memSramCntUe id)
  let s := if s.onF F.memErrUeInfoValid then s else
    ((((s.setF F.memErrUeInfoValid 1).setF F.memErrUeInfoMemId id).setF F.memErrUeInfoRank
      (s.unitRank id unit)).setF F.memErrUeInfoDevice dev).setF F.memErrUeAddrUnit unit
  s.daily src.mem 0x0301 [id, unit, dev]

/-- Reads one codeword: false when it is uncorrectable, and the state with the error reported. -/
def readCodeword (s : State) (id unit : Nat) : Bool × State :=
  match s.finding id unit with
  | .clean => (true, s)
  | .corrected => (true, s.noteCorrected id unit)
  | .uncorrectable => (false, s.noteUncorrectable id unit)

/-- The mask armed in MEM_FLIP_MASK, word 0 lowest (R472). -/
def flipMask (s : State) : Nat :=
  (List.range 20).foldl (fun m w => m + s.getF (F.memFlipMaskMask w) * 2 ^ (32 * w)) 0

/-- A write lands on a codeword: its error mask becomes clean, or the armed flip when it names
this write; ARM and the mask words then clear (R472). -/
def writeCodeword (s : State) (id unit : Nat) : State :=
  if s.onF F.memFlipCtrlArm && s.getF F.memFlipCtrlMemId = id &&
      (!s.onF F.memFlipCtrlAddrMatch || s.getF F.memFlipAddrUnit = unit) then
    let m := if id < 2 then s.flipMask % 2 ^ 640 else s.flipMask % 2 ^ 39
    let s := s.setMask id unit m
    forEach (List.range 20) (s.setF F.memFlipCtrlArm 0) fun s w => s.setF (F.memFlipMaskMask w) 0
  else s.setMask id unit 0

/-! ## On-chip SRAM words (R466–R468) -/

def sramValid (s : State) (id word : Nat) : Bool :=
  sparseGet (fun _ => false) s.mem.valid (memKey id word)
    || (id = 0x10 && s.slt.running && word < 2 * 8192 && word % 8192 < 4936)
    || (id = 0x15 && (s.keySlot (word / 32)).isSome)

/-- Reads one SRAM word: a word that is not valid reads as zero with no check (R466). A slate that runs has written its
image's words, and a slot that holds a key its 32 words of the key store (log entry 191). -/
def sramRead (s : State) (id word : Nat) : Bool × State :=
  if s.sramValid id word then s.readCodeword id word else (true, s)

/-- Writes one whole SRAM word: sets its valid bit (R467). -/
def sramWrite (s : State) (id word : Nat) : State :=
  (s.modMem fun x => { x with valid := sparsePut (fun _ => false) x.valid (memKey id word) true })
    |>.writeCodeword id word

/-- A copy of `n` words is written into an SRAM from word `first` on: its codewords become clean, and an armed
flip lands on the word it names, or on the first one (R472). -/
def sramFill (s : State) (id first n : Nat) : State :=
  let s := s.modMem fun x =>
    { x with masks := sparseKeep (fun k => !(memKey id first ≤ k && k < memKey id (first + n))) x.masks }
  let unit := if s.onF F.memFlipCtrlAddrMatch then s.getF F.memFlipAddrUnit else first
  if first ≤ unit && unit < first + n then s.writeCodeword id unit else s

/-- Clears the valid bits of words `first` to `first + n - 1` of a memory (R466). -/
def sramClear (s : State) (id first n : Nat) : State :=
  s.modMem fun x =>
    let out := fun k => !(memKey id first ≤ k && k < memKey id (first + n))
    { x with valid := sparseKeep out x.valid, masks := sparseKeep out x.masks }

/-! ## Fill map (R464) -/

/-- The fill-map index of a location. -/
def fillIndex (l : DramLoc) : Nat := (l.rank * 2 + l.channel) * 2 ^ 19 + l.offset / 65536

def isFilled (s : State) (a : Nat) : Bool :=
  sparseGet (fun _ => false) s.mem.filled (fillIndex (s.dramLoc a))

/-- Fills the block of an address: its bytes are zero with valid check bits. -/
def fillBlock (s : State) (a : Nat) : State :=
  s.modMem fun x => { x with filled := sparsePut (fun _ => false) x.filled (fillIndex (s.dramLoc a)) true }

/-- The contents of one rank of one channel are lost: every block becomes unfilled. -/
def loseRank (s : State) (channel rank : Nat) : State :=
  let here := fun a => let l := s.dramLoc a; l.rank = rank && l.channel = channel
  let base := (rank * 2 + channel) * 2 ^ 19
  s.modMem fun x =>
    { x with
      dram := sparseKeep (fun a => !here a) x.dram
      masks := sparseKeep (fun k => !(k / 2 ^ 40 = channel && here (k % 2 ^ 40 * 64))) x.masks
      filled := sparseKeep (fun i => !(base ≤ i && i < base + 2 ^ 19)) x.filled }

/-- Blocks of one rank of one channel. -/
def blocksPerRank (s : State) : Nat := s.rankBytes / 65536

/-- Unfilled blocks of the populated ranks (MEM_FILL.LEFT). -/
def blocksLeft (s : State) : Nat := 2 * s.rankCount * s.blocksPerRank - s.mem.filled.length

/-! ## Burst queues (R453–R457) -/

/-- The bytes of a burst as the array holds them. -/
def arrayBurst (s : State) (burst : Nat) : List Byte :=
  (List.range 64).map fun i => sparseGet (fun _ => 0) s.mem.dram (burst * 64 + i)

def putBytes (s : State) (a : Nat) (l : List Byte) : State :=
  s.modMem fun x =>
    { x with dram := (l.zipIdx.foldl (fun m e => sparsePut (fun _ => 0) m (a + e.2) e.1) x.dram) }

/-- Index 0–3 of the subchannel of a burst (s = 2 × channel + subchannel). -/
def burstSub (s : State) (burst : Nat) : Nat :=
  let l := s.dramLoc (burst * 64); 2 * l.channel + l.sub

def bankKey (s : State) (burst : Nat) : Nat :=
  let l := s.dramLoc (burst * 64); l.rank * 64 + Config.dramBank l.offset % 64

/-- Opens the row of a burst in its bank; an activate is sampled for neighbour refresh (R458). -/
def openRow (s : State) (i burst : Nat) : State :=
  let l := s.dramLoc (burst * 64)
  let k := s.bankKey burst
  let row := Config.dramRow l.offset
  let b := sparseGet (fun _ => BankRow.reset) (s.subch i).rows k
  let put := fun (s : State) (r : Option Nat) => s.modSubch i fun x =>
    { x with rows := sparsePut (fun _ => BankRow.reset) x.rows k { row := r, used := s.tick } }
  let s := if b.row = some row then s else
    let hit := s.free % 2 ^ s.getF F.memRhK = 0
    let s := s.drew
    if hit then s.incF (F.memSubRhCount i) else s
  put s (if s.getF F.memPageIdle = 0 then none else some row)

def noteIssue (s : State) (i : Nat) (r : BurstReq) (wr : Bool) : State :=
  s.modSubch i fun x => { x with retry := ((r.burst, wr) :: x.retry).take 32 }

/-- Bytes with the ones written in place. -/
def mergeBytes (old : List Byte) (new : List (Option Byte)) : List Byte :=
  old.zipWith (fun o n => n.getD o) new

/-- A queued write reaches the array: a whole burst is written, a part of one as a
read-modify-write that drops its bytes when the read is uncorrectable (R456). -/
def issueWrite (s : State) (i : Nat) (r : BurstReq) : State :=
  let s := (s.openRow i r.burst).noteIssue i r true
  let id := (s.dramLoc (r.burst * 64)).channel
  let whole := r.bytes.all (·.isSome)
  let store := fun (s : State) =>
    (s.putBytes (r.burst * 64) (mergeBytes (s.arrayBurst r.burst) r.bytes)).writeCodeword id r.burst
  if whole then store s
  else
    let (ok, s) := s.readCodeword id r.burst
    if ok then
      let s := store s
      let part := (s.subch i).rmwPart + 1
      if part = 1024 then (s.modSubch i fun x => { x with rmwPart := 0 }).incF (F.memSubRmwDone i)
      else s.modSubch i fun x => { x with rmwPart := part }
    else s.incF (F.memSubRmwDropped i)

/-- A queued read reaches the array; its data was delivered from there when it was queued. -/
def issueRead (s : State) (i : Nat) (r : BurstReq) : State := (s.openRow i r.burst).noteIssue i r false

/-- Whether a request hits the open row of its bank. -/
def rowHit (s : State) (i : Nat) (r : BurstReq) : Bool :=
  (sparseGet (fun _ => BankRow.reset) (s.subch i).rows (s.bankKey r.burst)).row
    == some (Config.dramRow (s.dramLoc (r.burst * 64)).offset)

/-- The request to issue next: one passed over 16 times, else the oldest row hit, else the oldest
(R454). -/
def pickReq (s : State) (i : Nat) (l : List BurstReq) : Option BurstReq :=
  match l.find? fun r => 16 ≤ r.passed with
  | some r => some r
  | none => match l.find? fun r => s.rowHit i r with
    | some r => some r
    | none => l.head?

/-- Removes the request taken and counts the older ones it passed. -/
def dropReq (r : BurstReq) (l : List BurstReq) : List BurstReq :=
  (l.filter fun x => x.order ≠ r.order).map fun x =>
    if x.order < r.order then { x with passed := x.passed + 1 } else x

/-- Takes one write out of the queue of a subchannel into the array. Writes to rank 1 wait while it trains (R463). -/
def drainOne (s : State) (i : Nat) : State :=
  match s.pickReq i ((s.subch i).writes.filter fun r => !(s.mem.rank1Training && r.rank = 1)) with
  | none => s
  | some r => (s.modSubch i fun x => { x with writes := dropReq r x.writes }).issueWrite i r

/-- A request of a subchannel in its order of arrival. -/
def newReq (s : State) (i burst : Nat) (bytes : List (Option Byte)) : BurstReq :=
  { order := (s.subch i).nextOrder, rank := (s.dramLoc (burst * 64)).rank, burst := burst,
    bytes := bytes, at_ := s.tick, passed := 0 }

/-- Puts a write of part of one burst in its queue, merging with a queued write of the burst, the
later bytes winning (R454). A full queue first issues one write. -/
def queueWrite (s : State) (burst : Nat) (new : List (Option Byte)) : State :=
  let s := if s.isFilled (burst * 64) then s else s.fillBlock (burst * 64)
  let i := s.burstSub burst
  match (s.subch i).writes.find? (·.burst = burst) with
  | some _ => s.modSubch i fun x => { x with writes := x.writes.map fun r =>
      if r.burst = burst then { r with bytes := r.bytes.zipWith (fun o n => n.or o) new } else r }
  | none =>
    let s := if 64 ≤ (s.subch i).writes.length then s.drainOne i else s
    s.modSubch i fun x =>
      { x with nextOrder := x.nextOrder + 1, writes := x.writes ++ [s.newReq i burst new] }

/-- Reads the 64 bytes of a burst: zeros from an unfilled block (R464), otherwise the array with
queued writes in place (R454); none where the codeword is uncorrectable and the queued write does
not cover it. -/
def readBurst (s : State) (burst : Nat) : Option (List Byte) × State :=
  if !s.isFilled (burst * 64) then (some (zeros 64), s)
  else
    let i := s.burstSub burst
    let queued := (((s.subch i).writes.find? (·.burst = burst)).map (·.bytes)).getD
      (List.replicate 64 none)
    let data := mergeBytes (s.arrayBurst burst) queued
    if queued.all (·.isSome) then (some data, s)
    else
      let (ok, s) := s.readCodeword (s.dramLoc (burst * 64)).channel burst
      let s := if 64 ≤ (s.subch i).reads.length then s else s.modSubch i fun x =>
        { x with nextOrder := x.nextOrder + 1, reads := x.reads ++ [s.newReq i burst []] }
      (if ok then some data else none, s)

/-- Reads `n` bytes of DRAM: none where any burst of them is uncorrectable. -/
def dramRead (s : State) (a n : Nat) : Option (List Byte) × State :=
  let first := a / 64
  let (l, s) := (List.range ((a + n + 63) / 64 - first)).foldl
    (fun (acc : Option (List Byte) × State) i =>
      let (d, s) := acc.2.readBurst (first + i)
      (match acc.1, d with
        | some x, some y => some (x ++ y)
        | _, _ => none, s)) (some [], s)
  (l.map fun x => slice x (a % 64) n, s)

/-- Writes bytes to DRAM, burst by burst. -/
def dramWrite (s : State) (a : Nat) (l : List Byte) : State :=
  let first := a / 64
  forEach (List.range ((a + l.length + 63) / 64 - first)) s fun s i =>
    s.queueWrite (first + i) ((List.range 64).map fun j =>
      let p := (first + i) * 64 + j
      if a ≤ p then l[p - a]? else none)

/-! ## Bytes of the firmware's areas (R452) -/

/-- The codewords of a run of bytes, which lies within 4 KiB. -/
def codewordsOf (s : State) (a n : Nat) (k : Nat) : Bool :=
  let first := memKey (s.dramLoc a).channel (a / 64)
  first ≤ k && k < first + ceilDiv n 64

/-- Bytes of a firmware area are written: their codewords become clean, and an armed flip lands on the burst that it
names, or on the first (R472). -/
def dramFill (s : State) (a n : Nat) : State :=
  let s := s.modMem fun x => { x with masks := sparseKeep (fun k => !s.codewordsOf a n k) x.masks }
  if s.onF F.memFlipCtrlArm then
    let id := (s.dramLoc a).channel
    let unit := if s.onF F.memFlipCtrlAddrMatch then s.getF F.memFlipAddrUnit else a / 64
    if s.codewordsOf a n (memKey id unit) then s.writeCodeword id unit else s
  else s

/-- Bytes of a firmware area are read: false where a codeword of them is uncorrectable (R468, R469). -/
def dramCheck (s : State) (a n : Nat) : Bool × State :=
  (s.mem.masks.filter fun e => s.codewordsOf a n e.1).foldl (fun acc e =>
    let (ok, s) := acc.2.readCodeword (e.1 / 2 ^ 40) (e.1 % 2 ^ 40)
    (acc.1 && ok, s)) (true, s)

/-- Where the write buffer holds a unit. -/
def entryAt (nsid unit : Nat) : Nat := Config.bufferPlace 0 + 4096 * Config.bufferSlot nsid unit

/-- A buffer entry is read for a flush or a dump: false where that is uncorrectable (Table 13.4). -/
def entryRead (s : State) (e : WbEntry) : Bool × State := s.dramCheck (entryAt e.nsid e.unit) 4096

/-- Complete buffer entries that a failed subchannel holds: those of its channel, since the bursts of a 4 KiB entry
alternate between both of its subchannels (R451, R461). -/
def heldOn (s : State) (sub : Nat) : List (Nat × Nat) :=
  (s.ftl.wb.filter fun e => e.complete && (s.dramLoc (entryAt e.nsid e.unit)).channel = sub / 2).map fun e => (e.nsid, e.unit)

/-- What a failed subchannel holds is left out of the dump, where none stands yet (R461). -/
def loseHeld (s : State) (sub : Nat) : State :=
  if s.ftl.dump.isSome && !s.ftl.replaying then s
  else s.modMem fun m => { m with lostUnits := m.lostUnits ++ (s.heldOn sub).filter fun u => !m.lostUnits.contains u }

/-- The window includes an address in rank 1 (R144). -/
def inRank1 (s : State) (n : Nat) : Bool := match (s.tenant n).record with
  | some r => 0 < r.dramSize && 2 * s.rankBytes < (r.dramBase + r.dramSize) * 2 ^ 26
  | none => false

/-! ## The rank 1 power switch on the local bus (R462, R512, R513) -/

/-- The entry of the partner table. -/
def lbEntry (s : State) (p : Nat) : Option LbPartner := sparseGet (fun _ => none) s.mgt.lbTable p
def setLbEntry (s : State) (p : Nat) (e : Option LbPartner) : State :=
  s.modMgt fun m => { m with lbTable := sparsePut (fun _ => none) m.lbTable p e }

/-- A partner leaves the table (R512). -/
def lbLeave (s : State) (p : Nat) : State := (s.setLbEntry p none).alertLbChange

/-- A control write to a partner: it takes the byte or NACKs, which is not the device's to know before (a free
value, log entry 183); the third NACK in a row takes it out of the table (R512). -/
def lbControl (s : State) (p : Nat) (x : LbPartner) (v : Nat) : State :=
  let nack := bit s.free 0
  let s := s.drew
  if !nack then s.setLbEntry p (some { x with naks := 0, ctrl := some v })
  else if 2 ≤ x.naks then s.lbLeave p
  else s.setLbEntry p (some { x with naks := x.naks + 1 })

/-- The device writes 0x00 to REG of each partner of KIND 3 to switch rank 1 off, and 0x01 to switch it on (R513). With
none, rank 1 stays in self-refresh (R462). -/
def lbRankSwitch (s : State) (on : Bool) : State :=
  if !s.onF F.mgtLbCtrlEn then s
  else forEach s.mgt.lbTable s fun s e => match e.2 with
    | some x => if x.kind = 3 then s.lbControl e.1 x on.toNat else s
    | none => s

/-- Rank 1 of the channels in `mask` fails training (R586): it is powered off, windows end in rank 0, and the
contents of every window that includes rank 1 are lost. -/
def rank1Failed (s : State) (mask : Nat) : State :=
  let s := (s.setF F.memStatusRank1Off 1).setF F.vinDramFreeLastG (2 * s.rankBytes / 2 ^ 26 - 1)
  let s := (s.daily src.dev 0x0503 [mask]).modMem fun x => { x with rank1Training := false }
  let s := s.lbRankSwitch false
  forEach ((s.ten.map (·.1)).filter s.inRank1) s fun s n => s.setF (F.instStatusWindowLost n) 1

end State

/-! ## Training and calibration -/

/-- DRAM_TRAINING (R449, R586): `fails` attempts fail before one passes; each rate below the highest is
tried once, the lowest three times. Rank 1 may fail on its own. A channel that is FAILED stays so until the next
reset (R461). -/
def execDramTraining (ch fails : Nat) (rank1Ok : Bool) (s : State) : Host.Outcome State Fault Refusal :=
  let top := s.getF F.memDdrCfgMaxRate
  if 2 ≤ ch || !s.logicOn || 1 < s.getF (State.chStateF ch) then done s
  else if fails < top + 2 then
    let s := (s.setF (State.chStateF ch) 2).setF (State.chRateF ch) (max 1 (top - fails))
    done (if rank1Ok || s.rankCount = 1 then s else s.rank1Failed (2 ^ ch))
  else
    done ((((s.setF (State.chStateF ch) 4).setF (State.chRateF ch) 0).setF F.ftlStatusState 0).orderSafe 7)

/-- ZQ_CALIBRATION (R450): every 128 ms on an online channel. -/
def execZqCalibration (ch : Nat) (s : State) : Host.Outcome State Fault Refusal :=
  if s.getF (State.chStateF ch) = 2 && s.since (sparseGet (fun _ => 0) s.mem.zqAt ch) 128000000 then
    done (s.modMem fun x => { x with zqAt := sparsePut (fun _ => 0) x.zqAt ch s.tick })
  else done s

/-- DQS_TRACKING (R450): every 1 ms on an online channel. -/
def execDqsTracking (ch : Nat) (s : State) : Host.Outcome State Fault Refusal :=
  if s.getF (State.chStateF ch) = 2 && s.since (sparseGet (fun _ => 0) s.mem.dqsAt ch) 1000000 then
    done (s.modMem fun x => { x with dqsAt := sparsePut (fun _ => 0) x.dqsAt ch s.tick })
  else done s

namespace State

def rankRefresh (s : State) (ch rank : Nat) : RankRefresh :=
  sparseGet (fun _ => RankRefresh.reset) s.mem.ranks (ch * 2 + rank)
def modRank (s : State) (ch rank : Nat) (g : RankRefresh → RankRefresh) : State :=
  let r := g (s.rankRefresh ch rank)
  s.modMem fun x => { x with ranks := sparsePut (fun _ => RankRefresh.reset) x.ranks (ch * 2 + rank) r }

/-- Reads wait on either subchannel of a channel. -/
def readsWait (s : State) (ch : Nat) : Bool :=
  !(s.subch (2 * ch)).reads.isEmpty || !(s.subch (2 * ch + 1)).reads.isEmpty

end State

/-- MR4_POLL (Table 13.1, R457): the reading sets the refresh rate; every 32 ms. -/
def execMr4Poll (ch rank : Nat) (hot : Bool) (s : State) : Host.Outcome State Fault Refusal :=
  if s.getF (State.chStateF ch) = 2 && s.since (sparseGet (fun _ => 0) s.mem.mr4At (ch * 2 + rank)) 32000000 then
    done ((s.modRank ch rank fun r => { r with hot := hot }).modMem fun x =>
      { x with mr4At := sparsePut (fun _ => 0) x.mr4At (ch * 2 + rank) s.tick })
  else done s

/-- REFRESH (R457): at its interval a rank is refreshed; while reads wait, up to four refreshes are postponed, and those go
out together once none waits. -/
def execRefresh (ch rank : Nat) (s : State) : Host.Outcome State Fault Refusal :=
  let r := s.rankRefresh ch rank
  let due := s.since r.lastAt (if r.hot then 1950 else 3900)
  if s.getF (State.chStateF ch) ≠ 2 || r.selfRef then done s
  else if due then
    if s.readsWait ch then
      done (s.modRank ch rank fun r => { r with postponed := min 4 (r.postponed + 1), lastAt := s.tick })
    else done (s.modRank ch rank fun r => { r with postponed := 0, lastAt := s.tick })
  else if !s.readsWait ch && 0 < r.postponed then
    done (s.modRank ch rank fun r => { r with postponed := 0 })
  else done s

/-- Cycles of CK in 1/64 ns for a rate code (1 = 4800 … 6 = 8800 MT/s), times a count: a CK is two
transfers. -/
def ckTime (rate n : Nat) : Nat :=
  n * 128000 / (match rate with | 1 => 4800 | 2 => 5600 | 3 => 6400 | 4 => 7200 | 5 => 8000 | _ => 8800)

/-- ROW_IDLE_PRECHARGE (R453): a bank idle for MEM_PAGE.IDLE cycles closes its row. `bank` counts
rank × 64 + bank. -/
def execRowIdlePrecharge (sub bank : Nat) (s : State) : Host.Outcome State Fault Refusal :=
  let b := sparseGet (fun _ => BankRow.reset) (s.subch sub).rows bank
  if b.row.isSome &&
      b.used + ckTime (s.getF (State.chRateF (sub / 2))) (s.getF F.memPageIdle) ≤ s.tick then
    done (s.modSubch sub fun x =>
      { x with rows := sparsePut (fun _ => BankRow.reset) x.rows bank { b with row := none } })
  else done s

/-- DRAM_COMMAND_ISSUE (R454): reads whenever one can issue, except while writes drain. -/
def execDramCommandIssue (sub : Nat) (s : State) : Host.Outcome State Fault Refusal :=
  let x := s.subch sub
  if x.alertLow || bit (s.getF F.memStatusSubFailed) sub || s.getF (State.chStateF (sub / 2)) ≠ 2 then done s
  else
    let draining := (x.draining && s.getF F.memWqLow < x.writes.length)
      || s.getF F.memWqHigh ≤ x.writes.length
    let waited := x.writes.any fun r => s.since r.at_ 10000
    let s := s.modSubch sub fun x => { x with draining := draining }
    if draining || waited || x.reads.isEmpty then done (s.drainOne sub)
    else match s.pickReq sub x.reads with
      | none => done s
      | some r => done ((s.modSubch sub fun x => { x with reads := State.dropReq r x.reads }).issueRead sub r)

/-- RH_RESEED (R459): every 1 ms the generator of a subchannel is reseeded from the DRBG, except
while ENTROPY_FAIL is set. -/
def execRhReseed (sub : Nat) (s : State) : Host.Outcome State Fault Refusal :=
  if s.since (s.subch sub).seededAt 1000000 && !s.onF F.secStatusEntropyFail then
    done ((s.modSubch sub fun x => { x with seededAt := s.tick }).modSec fun x =>
      { x with requests := x.requests + 1 })
  else done s

/-! ## Command parity (R460, R461) -/

/-- CA_PARITY_ALERT (R460, R461): ALERT_n goes low. An alert within 1 µs of the end of a replay
belongs to the same episode; a fourth alert of an episode fails the subchannel, fences the host
data path and orders Safe. `retrainOk` is the outcome of retraining the CA bus. Where that fails, where a flush of a
power failure runs, or where a further alert follows, what the subchannel holds is left out of the dump. -/
def execCaParityAlert (sub : Nat) (retrainOk : Bool) (s : State) : Host.Outcome State Fault Refusal :=
  if 4 ≤ sub || (s.subch sub).alertLow then done s
  else
    let x := s.subch sub
    let same := match x.replayEnd with
      | some t => s.tick ≤ t + 64000
      | none => false
    let s := (s.incF (F.memSubCaAlerts sub)).modSubch sub fun x => { x with alertLow := true }
    if bit (s.getF F.memStatusSubFailed) sub then done (s.loseHeld sub)
    else
      let s := if same then s else
        (s.incF (F.memSubCaEpisodes sub)).modSubch sub fun x => { x with replays := 0 }
      if same && 3 ≤ x.replays then
        let s := s.setF F.memStatusSubFailed (s.getF F.memStatusSubFailed ||| 2 ^ sub)
        let s := s.setF (State.chStateF (sub / 2)) 4
        let s := if retrainOk && !s.pwr.failing then s else s.loseHeld sub
        let s := s.daily src.mem 0x0303 [sub / 2, sub % 2, s.mem.lostUnits.length]
        done ((s.closePath).orderSafe 3)
      else done s

/-- ALERT_N_RISE (R460): banks are precharged, the retry buffer is replayed and rows reopen. -/
def execAlertNRise (sub : Nat) (s : State) : Host.Outcome State Fault Refusal :=
  if !(s.subch sub).alertLow then done s
  else if bit (s.getF F.memStatusSubFailed) sub then
    done (s.modSubch sub fun x => { x with alertLow := false })
  else
    let n := (s.subch sub).replays + 1
    done ((s.modSubch sub fun x =>
      { x with alertLow := false, replays := n, replayEnd := some s.tick }).daily src.mem 0x0302
        [sub / 2, sub % 2, n])

/-! ## Ranks and the fill map (R462–R464) -/

/-- RANK1_TRAINED (R463, R586): background training of rank 1 ends or fails. -/
def execRank1Trained (ok : Bool) (s : State) : Host.Outcome State Fault Refusal :=
  if !s.mem.rank1Training then done s
  else if !ok then done (s.rank1Failed 3)
  else
    done (((s.modMem fun x => { x with rank1Training := false }).modRank 0 1 fun r =>
      { r with selfRef := false }).modRank 1 1 fun r => { r with selfRef := false })

/-- The lowest number from `i` on, below `i + n`, that is not listed. -/
def firstGap (m : Sparse Bool) (i n : Nat) : Option Nat :=
  let r := m.foldl (fun (j : Nat) e => if e.1 = j then j + 1 else j) i
  if r < i + n then some r else none

/-- FILL_BLOCK (R464): with its queues idle, a channel fills its lowest unfilled block. -/
def execFillBlock (ch : Nat) (s : State) : Host.Outcome State Fault Refusal :=
  let idle := fun i => (s.subch i).reads.isEmpty && (s.subch i).writes.isEmpty
  if s.getF (State.chStateF ch) ≠ 2 || !idle (2 * ch) || !idle (2 * ch + 1) then done s
  else
    let ranks := if s.mem.rank1Training || s.onF F.memStatusRank1Off then 1 else s.rankCount
    let gaps := (List.range ranks).filterMap fun r =>
      firstGap s.mem.filled ((r * 2 + ch) * 2 ^ 19) s.blocksPerRank
    match gaps with
    | i :: _ => done (s.modMem fun x => { x with filled := sparsePut (fun _ => false) x.filled i true })
    | [] => done s

/-! ## Scrub, heal and fault injection (R470–R472) -/

/-- SRAM_SCRUB (R470): once per second every valid word is read; corrected errors of the second
before are recorded (R473). -/
def execSramScrub (s : State) : Host.Outcome State Fault Refusal :=
  if !s.logicOn || !s.since s.mem.sramAt 1000000000 then done s
  else
    let s := forEach (s.mem.ces.map (·.1)) s fun s id => s.closeCeSecond id
    let s := forEach ((s.mem.masks.map (·.1)).filter fun k =>
        2 * 2 ^ 40 ≤ k && sparseGet (fun _ => false) s.mem.valid k) s fun s k =>
      (s.readCodeword (k / 2 ^ 40) (k % 2 ^ 40)).2
    done (s.modMem fun x => { x with sramAt := s.tick })

/-- A memory identifier of Table 13.6 that is not reserved. -/
def memIdLegal (id : Nat) : Bool :=
  id < 2 || (0x10 ≤ id && id ≤ 0x16) || (0x18 ≤ id && id < 0x1C) || (0x20 ≤ id && id < 0x40)

/-- Words of an on-chip memory: contexts and tasks by R373 and R367, automata 8 MiB, cluster SRAM
4 MiB, local data SRAM 64 KiB; the others as the implementation has them. -/
def sramSize (id : Nat) : Nat :=
  if id = 0x11 then 262144 * 16
  else if id = 0x12 then 65536 * 8
  else if id = 0x13 then 2097152
  else if 0x18 ≤ id && id < 0x1C then 1048576
  else if 0x20 ≤ id && id < 0x40 then 16384
  else Config.sramWords id

/-- The outcome of a heal (Table 13.5) and the state after it. -/
def State.healUnit (s : State) (id unit : Nat) : Nat × State :=
  let bad := if id < 2 then s.dramBytes ≤ unit * 64 || (s.dramLoc (unit * 64)).channel ≠ id
             else sramSize id ≤ unit
  let unfilled := if id < 2 then !s.isFilled (unit * 64) else !s.sramValid id unit
  if bad then (3, s)
  else if unfilled then (4, s)
  else match s.finding id unit with
    | .clean => (0, s)
    | .corrected => (1, (s.noteCorrected id unit).writeCodeword id unit)
    | .uncorrectable => (2, s.noteUncorrectable id unit)

/-- HEAL (R471): a write of 1 to MEM_HEAL_CTRL.GO reads the location and writes back a corrected
codeword; RESULT as Table 13.5. -/
def execHeal (path : Path) (value : Word) (s : State) : Host.Outcome State Fault Refusal :=
  done (s.regAction path A.memHealCtrl value fun s =>
    if F.memHealCtrlGo.get value = 0 then s
    else
      let (r, s) := s.healUnit (s.getF F.memHealCtrlMemId) (s.getF F.memHealAddrUnit)
      s.setF F.memHealCtrlResult r)

/-- FLIP_ARM (R472): ARM takes effect only in Service mode. -/
def execFlipArm (path : Path) (value : Word) (s : State) : Host.Outcome State Fault Refusal :=
  done (s.regAction path A.memFlipCtrl value fun s =>
    if F.memFlipCtrlArm.get value = 1 && s.inMode .service then s.setF F.memFlipCtrlArm 1 else s)

/-- A channel starts to retrain: its contents are lost and its blocks become unfilled (R464). -/
def State.retrainChannel (s : State) (c : Nat) : State :=
  let s := forEach (List.range s.rankCount) s fun s r => s.loseRank c r
  let s := (s.setF (State.chStateF c) 1).setF (State.chRateF c) 0
  forEach (List.range s.rankCount) s fun s r => s.daily src.mem 0x0304 [2 ^ c, r]

/-- MEM_RETRAIN (Table 13.8): bit c of MEM_CTRL.RETRAIN retrains channel c in Service mode; no
effect otherwise. DRAM_TRAINING ends it. -/
def execMemRetrain (path : Path) (value : Word) (s : State) : Host.Outcome State Fault Refusal :=
  done (s.regAction path A.memCtrl value fun s =>
    if !s.inMode .service then s
    else forEach [0, 1] s fun s c =>
      if bit (F.memCtrlRetrain.get value) c then s.retrainChannel c else s)

end Sys2Proof.Machine
end

