-- ==== Sys2Proof/Machine/Registers.lean ====
section
/-! DEFINITION. The commands of plain register access (R10, R11, R31, R34) and of the timecode latch. -/

namespace Sys2Proof.Machine

/-- The virtual function with a 0-based number exists (R34). -/
def State.vfExists (s : State) (vf : Nat) : Bool := s.host.vfEnable && vf < s.host.numVfs

/-- VF_BAR0_UNCLAIMED (R34): an access to a virtual function that does not exist reaches no
function; nothing is read or changed, and the host sees Unsupported Request. -/
def execVfBar0Unclaimed (vf off : Nat) (wr : Bool) (s : State) : Host.Outcome State Fault Refusal :=
  if !s.vfExists vf then done (s.modHost fun h => { h with bus := .unsupported })
  else if wr || off < 0x1800 then done s else done (s.busData 0)

/-- TIMECODE_LO_READ (R31): returns bits 31–0 and latches bits 63–32 for the same access path. No virtual function
reaches the register (R34). -/
def execTimecodeLoRead (path : Path) (s : State) : Host.Outcome State Fault Refusal :=
  if !s.logicOn || path = .vf then done s
  else
    let hi := s.now / 2 ^ 32 % 2 ^ 32
    let s := s.busData (s.now % 2 ^ 32)
    done (s.modFab fun f => match path with
      | .i3c => { f with hiI3c := hi }
      | .core => { f with hiCore := hi }
      | _ => { f with hiBar0 := hi })

end Sys2Proof.Machine
end

