-- ==== Sys2Proof/Machine/Cells.lean ====
section
/-! DEFINITION. Cells as the units of a column use them (R45, R48, R54): a transfer needs one cell for each
quantum, rounded up, of the owner that Table 02.3 names. A unit whose transfer has no cells posts a request;
CELL_DECISION grants posted requests cell by cell; the transfer takes the cells that were granted for it
(log entry 161). -/

namespace Sys2Proof.Machine

/-- Column numbers (Table 02.1). -/
def colHdr : Nat := 0
def colHdw : Nat := 1
def colFlash (c : Nat) : Nat := 2 + c
def colDram (ch : Nat) : Nat := 18 + ch
def colEngine (c : Nat) : Nat := 20 + c
def colPmx : Nat := 24
def colCmp : Nat := 25
def colSec : Nat := 26
def colCnt : Nat := 27

/-- Owner codes of the system owners (Table 00.4). -/
def ownFirmware : Nat := 0x3F0
def ownMedia : Nat := 0x3F1
def ownMirror : Nat := 0x3F2
def ownDisk : Nat := 0x3F3
def ownSpare : Nat := 0x3FF

/-- Cells that a transfer needs in one column. A request of a D column is a read or a write of DRAM (R455);
`wr` is false in every other column. -/
structure CellNeed where
  col   : Nat
  owner : Nat
  count : Nat
  wr    : Bool := false
deriving DecidableEq, Repr

/-- Key of a column, owner and direction in the tables of requests and grants. -/
def cellKey (col owner : Nat) (wr : Bool) : Nat := (col * 1024 + owner) * 2 + wr.toNat
def CellNeed.key (n : CellNeed) : Nat := cellKey n.col n.owner n.wr
def keyCol (k : Nat) : Nat := k / 2048
def keyOwner (k : Nat) : Nat := k / 2 % 1024
def keyWr (k : Nat) : Bool := k % 2 = 1

/-- The owner of a function's traffic (R54). -/
def fnTraffic (fn : Nat) : Nat := if fn = 0 then ownFirmware else fn - 1

/-- Columns whose decisions for a slot's cells are made in its last four cycles (R48). -/
def inWindow (frameCycle : Nat) : Bool := 12 ≤ frameCycle % 16

namespace State

/-- Cells granted for a need and not used yet. -/
def cellsGranted (s : State) (n : CellNeed) : Nat := sparseGet (fun _ => 0) s.slt.granted n.key

/-- Every need has its cells. -/
def canDraw (s : State) (l : List CellNeed) : Bool := l.all fun n => n.count ≤ s.cellsGranted n

/-- The transfer uses its cells. -/
def spend (s : State) (l : List CellNeed) : State :=
  forEach l s fun s n => s.modSlt fun x =>
    { x with granted := sparsePut (fun _ => 0) x.granted n.key (sparseGet (fun _ => 0) x.granted n.key - n.count) }

/-- Posts the cells that are still missing (R48): a request posted in the decision window waits for the
next one. -/
def postCells (s : State) (l : List CellNeed) : State :=
  forEach l s fun s n =>
    let want := n.count - s.cellsGranted n
    if want = 0 then s
    else if inWindow s.slt.frameCycle then s.modSlt fun x =>
      { x with fresh := sparsePut (fun _ => 0) x.fresh n.key (max want (sparseGet (fun _ => 0) x.fresh n.key)) }
    else s.modSlt fun x =>
      { x with posted := sparsePut (fun _ => 0) x.posted n.key (max want (sparseGet (fun _ => 0) x.posted n.key)) }

/-- A transfer runs with the cells it needs, or posts its request and waits (R45, R48, R54). -/
def moving (s : State) (l : List CellNeed) (k : State → Host.Outcome State Fault Refusal) :
    Host.Outcome State Fault Refusal :=
  if s.canDraw l then k (s.spend l) else done (s.postCells l)

/-- Requests posted in a decision window count from the next slot on (R48). -/
def joinFresh (s : State) : State := s.modSlt fun x =>
  { x with posted := x.fresh.foldl (fun m e =>
             sparsePut (fun _ => 0) m e.1 (max e.2 (sparseGet (fun _ => 0) m e.1))) x.posted,
           fresh := [], decided := [] }

/-- Requests and unused grants of an owner are gone: the traffic they were for is (R137). -/
def dropCells (s : State) (owner : Nat) : State := s.modSlt fun x =>
  { x with posted := sparseKeep (fun k => keyOwner k ≠ owner) x.posted,
           fresh := sparseKeep (fun k => keyOwner k ≠ owner) x.fresh,
           granted := sparseKeep (fun k => keyOwner k ≠ owner) x.granted }

/-! ## Needs of the columns -/

/-- Needs of a column of one quantum for `bytes`. -/
def need (col owner bytes quantum : Nat) : List CellNeed :=
  if bytes = 0 then [] else [{ col := col, owner := owner, count := ceilDiv bytes quantum }]

/-- Needs of one transfer, joined where they are of one column, owner and direction. -/
def joinNeed (n : CellNeed) : List CellNeed → List CellNeed
  | [] => [n]
  | m :: t => if m.key = n.key then { m with count := m.count + n.count } :: t else m :: joinNeed n t
def joinNeeds (l : List CellNeed) : List CellNeed := l.foldr joinNeed []

/-- Needs of a DRAM access (R47): its pieces of 512 B belong to the channel that holds their address. -/
def dramNeeds (s : State) (owner addr bytes : Nat) (wr : Bool) : List CellNeed :=
  let n := ceilDiv bytes 512
  let n1 := (List.range n).countP fun i => (s.dramLoc (addr + 512 * i)).channel = 1
  (if n1 < n then [({ col := colDram 0, owner := owner, count := n - n1, wr := wr } : CellNeed)] else [])
    ++ (if n1 = 0 then [] else [({ col := colDram 1, owner := owner, count := n1, wr := wr } : CellNeed)])

/-- Room for one quantum's bursts in the queues of a channel (R455): four on each subchannel. -/
def dramRoom (s : State) (ch : Nat) (wr : Bool) : Bool :=
  [2 * ch, 2 * ch + 1].all fun i =>
    (if wr then (s.subch i).writes.length else (s.subch i).reads.length) + 4 ≤ 64

end State

/-- PATROL_SCRUB (R54, R470): the next 512 B of DRAM are read in a MEDIA cell of their channel; unfilled blocks are
passed over; errors are reported and nothing is rewritten. -/
def execPatrolScrub (s : State) : Host.Outcome State Fault Refusal :=
  if !s.onF F.memCtrlScrubEn || !s.logicOn || s.dramBytes = 0 then done s
  else
    let q := s.mem.scrubPos
    let filled := s.isFilled (q * 512)
    s.moving (if filled then s.dramNeeds ownMedia (q * 512) 512 false else []) fun s =>
      let s := if filled then
        forEach (List.range 8) s fun s i => (s.readCodeword (s.dramLoc (q * 512)).channel (q * 8 + i)).2
        else s
      let q := (q + 1) % (s.dramBytes / 512)
      done ((s.modMem fun x => { x with scrubPos := q }).setF F.memScrubProgress (q * 512 * 10000 / s.dramBytes))

end Sys2Proof.Machine
end

