-- ==== Sys2Proof/Machine/Link.lean ====
section
/-! DEFINITION. What other units need of the continuity pair (chapter 14): sending a mirror message,
the dirty map and the separation log, and whether writes are mirrored. -/

namespace Sys2Proof.Machine

/-- Roles (Table 14.6) and pair states (Table 14.8) by code. -/
def roleNone : Nat := 0
def rolePrincipal : Nat := 1
def roleDouble : Nat := 2
def roleFenced : Nat := 3
def pairDown : Nat := 0
def pairTraining : Nat := 1
def pairNegotiating : Nat := 2
def pairResync : Nat := 3
def pairInSync : Nat := 4
def pairSeparated : Nat := 5

/-- Message types (Table 14.3). -/
def msgWrite : Nat := 0x03
def msgMapDelta : Nat := 0x04
def msgTakeCommit : Nat := 0x05
def msgSlate : Nat := 0x06
def msgConfig : Nat := 0x07
def msgKey : Nat := 0x08
def msgAck : Nat := 0x09
def msgRefuse : Nat := 0x0A
def msgEpoch : Nat := 0x0B
def msgDirty : Nat := 0x0C
def msgResyncData : Nat := 0x0D
def msgResyncDone : Nat := 0x0E
def msgReadReq : Nat := 0x0F
def msgReadData : Nat := 0x10

/-- Frames that a message of a body length occupies (R480). -/
def msgFrames (bodyLen : Nat) : Nat := (48 + bodyLen + 255) / 256

/-! ## Message bytes (R480, Table 14.2) -/

/-- The header of a message. -/
def msgHead (m : LinkMsg) : List Byte :=
  leBytes 2 m.magic ++ leBytes 2 m.version ++ leBytes 1 m.type ++ leBytes 1 m.ackNow.toNat ++ leBytes 2 m.body.length
    ++ leBytes 4 m.epoch ++ leBytes 2 m.tenant ++ leBytes 2 m.gen ++ leBytes 8 m.seq ++ leBytes 4 m.nsid ++ zeros 4

/-- The header fields of message bytes, with a body. -/
def msgOfHead (w body : List Byte) : LinkMsg :=
  { magic := field w 0 2, version := field w 2 2, type := field w 4 1, ackNow := bit (field w 5 1) 0,
    epoch := field w 8 4, tenant := field w 0x0C 2, gen := field w 0x0E 2, seq := field w 0x10 8, nsid := field w 0x18 4,
    body := body }

/-- BODY_LEN of message bytes. -/
def msgLen (w : List Byte) : Nat := field w 6 2

/-- A message in the clear: HELLO or CONFIRM. -/
def clearMsg (w : List Byte) : LinkMsg := msgOfHead w (slice w 32 (msgLen w))

/-- IV of a message: the direction byte, three zero bytes and MSG_SEQ. -/
def linkIv (dir : Byte) (seq : Nat) : List Byte := [dir, 0, 0, 0] ++ leBytes 8 seq

/-- A message under AES-256-GCM: the header in the clear as additional data, the encrypted body, the tag. -/
def sealMsg (k : List Byte) (dir : Byte) (m : LinkMsg) : List Byte :=
  let c := gcmCrypt k (linkIv dir m.seq) m.body
  msgHead m ++ c ++ gcmTag k (linkIv dir m.seq) (msgHead m) c

/-- The message that sealed bytes hold; none where the tag fails (R481). -/
def openSealed (k : List Byte) (dir : Byte) (w : List Byte) : Option LinkMsg :=
  let c := slice w 32 (msgLen w)
  let iv := linkIv dir (field w 0x10 8)
  if slice w (32 + msgLen w) 16 = gcmTag k iv (w.take 32) c then some (msgOfHead w (gcmCrypt k iv c)) else none

namespace State

def role (s : State) : Nat := s.getF F.cntStatusRole
def pairState (s : State) : Nat := s.getF F.cntStatusPairState

/-- The mirror path is up: the pair is in RESYNC or IN_SYNC (R492). -/
def mirrorUp (s : State) : Bool := s.pairState = pairResync || s.pairState = pairInSync

/-- The device is paired and the continuity link is up (Table 02.4): negotiating, in RESYNC or IN_SYNC. -/
def pairLinkUp (s : State) : Bool := pairNegotiating ≤ s.pairState && s.pairState ≤ pairInSync

/-- This device is a principal whose changes are mirrored now. -/
def mirroring (s : State) : Bool := s.role = rolePrincipal && s.mirrorUp

/-- A principal whose partner must be reached before media change (R492, REQUIRE). -/
def mirrorRequired (s : State) : Bool :=
  s.role = rolePrincipal && s.onF F.cntCtrlLinkEn && s.onF F.cntCfgPolicy && !s.mirrorUp

/-- Cells that a message needs before its first frame can go (R54): SEC for its GCM, and D0 and D1 for its body. -/
def linkNeeds (s : State) (owner len : Nat) : List CellNeed :=
  need colSec ownMirror len 512 ++ s.dramNeeds owner (Config.bufferPlace 1) len false

/-- The frames of a message wait for CNT grants, one for each (R477, R480), the last one padded with zeros; one that is
sealed also needs the cells of its sealing. -/
def sendFrames (s : State) (m : LinkMsg) (w : List Byte) (sealed : Bool) (owner : Nat) : State :=
  let len := 48 + m.body.length
  let s := s.modCnt fun c =>
    { c with unsent := c.unsent ++ (List.range (msgFrames m.body.length)).map fun i =>
        { seq := 0, msg := m.seq, sends := 0, owner := owner, head := if i = 0 && sealed then some len else none
          data := fit 256 (slice w (256 * i) 256) } }
  if sealed then (s.useMasks (ceilDiv len 16)).postCells (s.linkNeeds owner len) else s

/-- Time of a frame of 264 bytes on the lanes at x2 (7.88 GB/s) and at x1 (3.94 GB/s), in 1/64 ns; x4 carries every
grant (R477, R479). -/
def frameTime (s : State) : Nat := match s.getF F.cntStatusWidth with
  | 2 => 2144
  | 1 => 4288
  | _ => 0

/-- The frame that a NAK makes the sender send again next (R478). -/
def resendFrame (s : State) : Option LinkFrame :=
  if s.cnt.resend = 0 then none else s.cnt.frames[s.cnt.frames.length - s.cnt.resend]?

/-- The next frame can be sent (R479), with its owner: at x2 and x1 the lane transmit buffer has room, and a frame that
has not been sent before finds room in the replay buffer of 512 frames and, where it begins a message, the cells of its
sealing. -/
def linkReady (s : State) : Option Nat :=
  if s.tick + Config.laneBuffer * s.frameTime < s.cnt.laneBusy then none
  else match s.resendFrame, s.cnt.unsent with
  | some f, _ => some f.owner
  | none, [] => none
  | none, f :: _ =>
    let sealed := match f.head with
      | some len => s.canDraw (s.linkNeeds f.owner len)
      | none => true
    if s.cnt.frames.length < 512 && sealed then some f.owner else none

/-- The 264 bytes of a data frame on the line (Table 14.1). -/
def frameBytes (s : State) (f : LinkFrame) : List Byte :=
  let b := leBytes 4 (2 ^ 28 + f.seq * 2 ^ 16 + s.cnt.rxSeq * 16 + s.cnt.hold.toNat) ++ f.data
  b ++ leBytes 4 (crc32c b)

/-- A frame goes onto the lanes. -/
def putLine (s : State) (f : LinkFrame) : State := s.modCnt fun c =>
  { c with line := s.frameBytes f, laneBusy := max c.laneBusy s.tick + s.frameTime }

/-- A CNT grant sends one data frame (R477, R478): one to be sent again, or a new one, which takes the next SEQ and
stays in the replay buffer until it is acknowledged. -/
def serveLink (s : State) : State := match s.resendFrame, s.cnt.unsent with
  | some f, _ =>
    let s := (s.putLine f).addF F.cntCntLinkReplays 1
    s.modCnt fun c => { c with resend := c.resend - 1, frames := c.frames.map fun (g : LinkFrame) =>
      if g.seq = f.seq then { g with sends := g.sends + 1 } else g }
  | none, [] => s
  | none, f :: rest =>
    let s := match f.head with
      | some len => s.spend (s.linkNeeds f.owner len)
      | none => s
    let f := { f with seq := s.cnt.txSeq, sends := 1 }
    let s := (s.putLine f).modCnt fun c =>
      { c with unsent := rest, txSeq := (c.txSeq + 1) % 4096, frames := c.frames ++ [f] }
    match rest with
    | g :: _ => match g.head with
      | some len => s.postCells (s.linkNeeds g.owner len)
      | none => s
    | [] => s

/-- The owner of a message (R54, Table 14.7): a WRITE is the traffic of the issuing instance, and of FIRMWARE where no
instance issues it. -/
def msgOwner (type n : Nat) : Nat := if type = msgWrite then (if n < 512 then n else ownFirmware) else ownMirror

/-- The direction byte of this device (R480): 0 for the lower device number. -/
def ownDir (s : State) : Byte := if s.getF F.cntDevnumDevnum < s.getF F.cntDevnumPartner then 0 else 1

/-- The message that this device would send now. -/
def makeMsg (s : State) (type ns n g seq : Nat) (body : List Byte) : LinkMsg :=
  { magic := 0x434D, version := s.getF F.cntNegotiatedVersion, type := type, ackNow := false,
    epoch := s.getF F.cntEpochEpoch, tenant := n, gen := g, seq := seq, nsid := ns, body := body }

/-- The bytes of a message under the session key of the sending direction (R482). -/
def sealOut (s : State) (m : LinkMsg) : List Byte := match s.cnt.keys with
  | some (k, _) => sealMsg k s.ownDir m
  | none => msgHead m ++ m.body

/-- Sends HELLO or CONFIRM: in the clear, with no tag (Table 14.3). -/
def sendClear (s : State) (type : Nat) (body : List Byte) : State :=
  let m := s.makeMsg type 0 noTenant 0 0 body
  (s.sendFrames m (msgHead m ++ body) false ownMirror).incF F.cntCntMsgSent

/-- Sends one message (R480): it takes the next MSG_SEQ, and a mirror message is kept until it is
acknowledged (R489). `ns`, `n` and `g` are NSID, INSTANCE and GEN of the header. -/
def sendMsg (s : State) (type ns n g : Nat) (body : List Byte) (key : Option CmdKey) (unit : Nat) : State :=
  let m : OutMsg :=
    { seq := s.cnt.msgTx, type := type, epoch := s.getF F.cntEpochEpoch, nsid := ns, tenant := n,
      gen := g, body := body, key := key, unit := unit, sentAt := s.tick }
  let acked := (msgWrite ≤ type && type ≤ msgKey) || type = msgResyncData || type = msgResyncDone
  let s := s.modCnt fun c =>
    { c with msgTx := c.msgTx + 1
             out := if acked then c.out ++ [m] else c.out }
  let w := s.makeMsg type ns n g m.seq body
  (s.sendFrames w (s.sealOut w) true (msgOwner type n)).incF F.cntCntMsgSent

/-- Sends a mirror message if changes are mirrored now. -/
def mirror (s : State) (type ns n g : Nat) (body : List Byte) : State :=
  if s.mirroring then s.sendMsg type ns n g body none 0 else s

/-- Unacknowledged mirror bytes (R489). -/
def lagBytes (s : State) : Nat := s.cnt.out.foldl (fun a m => a + 48 + m.body.length) 0

/-- The key of an extent in the dirty map. -/
def extKey (nsid ext : Nat) : Nat := nsid * 2 ^ 32 + ext

def isDirty (s : State) (nsid ext : Nat) : Bool :=
  s.onF F.cntStatusLogOverflow || sparseGet (fun _ => false) s.cnt.dirty (extKey nsid ext)

/-- An event of Table 14.9: a dailies record and the pair alert (R496). -/
def pairEvent (s : State) (reason : Nat) (detail : List Nat) : State := (s.daily src.cnt reason detail).alertPair

/-- Marks an extent dirty (R494): the first time while the pair is not IN_SYNC it is recorded in the
separation log, which holds 65,536 records. -/
def markDirty (s : State) (nsid ext : Nat) : State :=
  if sparseGet (fun _ => false) s.cnt.dirty (extKey nsid ext) then s
  else
    let s := (s.modCnt fun c => { c with dirty := sparsePut (fun _ => false) c.dirty (extKey nsid ext) true }).incF
      F.cntDirtyExtents
    let s := if s.pairState = pairInSync then s.setF F.cntStatusPairState pairResync else s
    if 65536 ≤ s.cnt.log.length then
      if s.onF F.cntStatusLogOverflow then s
      else (s.setF F.cntStatusLogOverflow 1).pairEvent 0x0406 []
    else s.modCnt fun c => { c with log := c.log ++ [(nsid, ext)] }

/-- The double has journaled a message (R489): messages that still wait as orders, or for their slate
activation, hold the cumulative number back. -/
def journal (s : State) (m : LinkMsg) : State :=
  let slate := ((s.slt.job.bind fun j => j.partner).map (·.seq)).toList
  s.modCnt fun c =>
    let next := max ((c.journaled.map (· + 1)).getD 0) (m.seq + 1)
    let next := (c.waiting.map (fun (w : PairWait) => w.msg.seq) ++ slate).foldl min next
    { c with journaled := if next = 0 then none else some (next - 1) }

/-- The flush of a buffered unit waits for its WRITE message's acknowledgement, or for its extent to be marked
dirty (R490). -/
def flushBarred (s : State) (nsid unit : Nat) : Bool :=
  (s.cnt.out.any fun (m : OutMsg) => m.type = msgWrite && m.nsid = nsid && m.unit = unit)
    && !s.isDirty nsid (unit / 256)

/-- Answers a message with REFUSE (R480, R488, R528). -/
def refuse (s : State) (m : LinkMsg) (status : Nat) : State :=
  s.sendMsg msgRefuse m.nsid m.tenant m.gen (leBytes 8 m.seq ++ leBytes 4 status) none 0

/-- The NVMe status of a completion as a REFUSE carries it. -/
def statusWord (sct sc : Nat) : Nat := sct * 256 + sc

end State

end Sys2Proof.Machine
end

