-- ==== Sys2Proof/Machine/Nvs.lean ====
section
/-! DEFINITION. The embedded non-volatile store (chapter 16, R537–R555): the rotating window, the
root, unlock and ownership, the operations of Table 16.2, suspension, replacement of failed slots,
zeroize, and the commands of the NVS block. -/

namespace Sys2Proof.Machine

/-! ## Geometry and rotation (R538, R539) -/

/-- The ring slot of a logical sector (R539). -/
def ringSlot (start gap l : Nat) : Nat :=
  let r := (l + start) % 1920
  if gap ≤ r then r + 1 else r

/-- The physical sector of a ring slot without a REMAP record (R538). -/
def slotSector (r : Nat) : Nat := if r ≤ 1022 then r + 1 else r + 2

/-- Results of Table 16.3. -/
def nvsOk : Nat := 0
def nvsBusy : Nat := 1
def nvsLocked : Nat := 2
def nvsProtected : Nat := 3
def nvsNotErased : Nat := 4
def nvsFailProgram : Nat := 5
def nvsFailErase : Nat := 6
def nvsBadAddress : Nat := 7
def nvsUncorrectable : Nat := 8
def nvsNotPermitted : Nat := 9

namespace State

def nvsGap (s : State) : Nat := s.getF F.nvsRingGap
def nvsStart (s : State) : Nat := s.getF F.nvsRingStart

/-- The physical sector of a ring slot, with the REMAP records in force. -/
def slotPhys (s : State) (r : Nat) : Nat := sparseGet slotSector s.nvs.remaps r

/-- The ring slot and the physical sector of a logical sector. -/
def sectorSlot (s : State) (l : Nat) : Nat := ringSlot s.nvsStart s.nvsGap l
def sectorPhys (s : State) (l : Nat) : Nat := s.slotPhys (s.sectorSlot l)

/-- An erased unit. -/
def erasedUnit : BitVec 64 := BitVec.allOnes 64

def rawUnit (s : State) (k : Nat) : BitVec 64 := sparseGet (fun _ => erasedUnit) s.nvs.units k
def setRawUnit (s : State) (k : Nat) (v : BitVec 64) : State :=
  s.modNvs fun x =>
    { x with units := sparsePut (fun _ => erasedUnit) x.units k v
             errs := sparsePut (fun _ => 0) x.errs k 0 }

/-- The key of a logical unit (logical byte address / 8) in the array. -/
def unitKey (s : State) (u : Nat) : Nat := s.sectorPhys (u / 512) * 512 + u % 512

/-- Erases a physical sector with its flag unit. -/
def eraseSector (s : State) (p : Nat) : State :=
  s.modNvs fun x =>
    let out := fun k => !(p * 512 ≤ k && k < (p + 1) * 512)
    { x with units := sparseKeep out x.units, errs := sparseKeep out x.errs,
             flags := sparsePut (fun _ => false) x.flags p false }

/-- Bytes from a logical byte address that is a multiple of 8. -/
def nvsBytes (s : State) (a n : Nat) : List Byte :=
  (((List.range ((n + 7) / 8)).map fun i => leBytes 8 (s.rawUnit (s.unitKey (a / 8 + i))).toNat).flatten).take n

def setNvsResult (s : State) (r : Nat) : State := s.setF F.nvsStatusResult r

end State

/-! ## The root (R542, R543) -/

/-- The physical sector of root 0 or 1 (R538). -/
def rootSector (i : Nat) : Nat := 1024 * i

/-- The 16-byte header of a root. -/
def rootHeader (seq : Nat) : List Byte :=
  let h := leBytes 2 0x4E52 ++ leBytes 2 0x0100 ++ leBytes 4 seq ++ zeros 4
  h ++ leBytes 4 (crc32c h)

/-- A root record: its type, six bytes of payload and their CRC-8 (Table 16.1). -/
def rootRecord (type : Nat) (payload : List Byte) : List Byte :=
  let r := leBytes 1 type ++ payload
  r ++ [crc8 r]

namespace State

/-- Unit `k` of a root. -/
def rootUnit (s : State) (i k : Nat) : BitVec 64 := s.rawUnit (rootSector i * 512 + k)

/-- SEQ of a root whose header passes. -/
def rootSeq (s : State) (i : Nat) : Option Nat :=
  let h := leBytes 8 (s.rootUnit i 0).toNat ++ leBytes 8 (s.rootUnit i 1).toNat
  if h = rootHeader (field h 4 4) then some (field h 4 4) else none

/-- The valid root: the one whose header passes and whose SEQ is higher (R543). -/
def validRoot (s : State) : Option (Nat × Nat) := match s.rootSeq 0, s.rootSeq 1 with
  | some a, some b => some (if a < b then (1, b) else (0, a))
  | some a, none => some (0, a)
  | none, some b => some (1, b)
  | none, none => none

/-- Records of a root from unit `k` on, up to the first blank unit or the first record whose CRC fails. -/
def rootRecsFrom (s : State) (i : Nat) : Nat → Nat → List (List Byte)
  | 0, _ => []
  | n + 1, k =>
    let u := s.rootUnit i k
    let r := leBytes 8 u.toNat
    if u = erasedUnit || crc8 (r.take 7) ≠ r.getD 7 0 then [] else r :: rootRecsFrom s i n (k + 1)

def rootRecs (s : State) (i : Nat) : List (List Byte) := s.rootRecsFrom i 510 2

/-- The records in force (Table 16.1). -/
def ringRec (s : State) : List Byte :=
  rootRecord 1 (leBytes 3 (s.nvsGap + 2 ^ 11 * s.nvsStart) ++ leBytes 3 (s.getF F.nvsMovesMoves))
def remapRec (r p : Nat) : List Byte := rootRecord 2 (leBytes 2 r ++ leBytes 2 p ++ zeros 2)
def bootRec (s : State) : List Byte :=
  rootRecord 3 (leBytes 1 s.nvs.bootNext ++ leBytes 1 (s.nvs.trial.toNat + 2 * s.nvs.trialFailed.toNat) ++ zeros 4)

/-- Writes a root with one record of each type in force and every REMAP record (R543). -/
def writeNvsRoot (s : State) (i seq : Nat) : State :=
  let l := rootHeader seq ++ s.ringRec ++ s.bootRec ++ (s.nvs.remaps.map fun e => remapRec e.1 e.2).flatten
  forEach (List.range (l.length / 8)) (s.eraseSector (rootSector i)) fun s k =>
    s.setRawUnit (rootSector i * 512 + k) (BitVec.ofNat 64 (field l (8 * k) 8))

/-- Appends a record, which the state already holds in force, to the valid root. With fewer than 8 blank units left the
other root is written with SEQ + 1, and the full one erased; a blank NVS takes its first root (R542, R543; log entry
189). -/
def appendRoot (s : State) (r : List Byte) : State := match s.validRoot with
  | none => s.writeNvsRoot 0 1
  | some (i, seq) =>
    let n := (s.rootRecs i).length
    if 510 - n < 8 then (s.writeNvsRoot (1 - i) (seq + 1)).eraseSector (rootSector i)
    else s.setRawUnit (rootSector i * 512 + 2 + n) (BitVec.ofNat 64 (leNat r))

/-- Puts one record of a root in force. -/
def applyRootRec (s : State) (r : List Byte) : State :=
  let a := field r 1 3
  match field r 0 1 with
  | 1 => ((s.setF F.nvsRingGap (a % 2 ^ 11)).setF F.nvsRingStart (a / 2 ^ 11 % 2 ^ 11)).setF F.nvsMovesMoves (field r 4 3)
  | 2 =>
    let s := s.modNvs fun x => { x with remaps := sparsePut slotSector x.remaps (field r 1 2) (field r 3 2) }
    s.setF F.nvsSparesLeft (125 - s.nvs.remaps.length)
  | 3 =>
    let v := field r 2 1
    let s := s.modNvs fun x => { x with bootNext := field r 1 1, trial := bit v 0, trialFailed := bit v 1 }
    ((s.setF F.updSlotsNext (field r 1 1)).setF F.updSlotsTrial (v % 2)).setF F.updSlotsTrialFailed (v / 2 % 2)
  | _ => s

/-- The controller applies the records of the valid root in order (R543). -/
def readRoots (s : State) : State := match s.validRoot with
  | none => s
  | some (i, _) => forEach (s.rootRecs i) (s.modNvs fun x => { x with remaps := [] }) applyRootRec

/-! ## Rotation and the firmware's writes (R540) -/

/-- The gap moves by one slot. -/
def moveGap (s : State) : State :=
  let gap := s.nvsGap
  let start := s.nvsStart
  let src := if gap = 0 then 1920 else gap - 1
  let newStart := if gap = 0 then (start + 1) % 1920 else start
  let from_ := s.slotPhys src
  let dest := s.slotPhys gap
  let s := forEach (List.range 512) s fun s i => s.setRawUnit (dest * 512 + i) (s.rawUnit (from_ * 512 + i))
  let s := ((s.setF F.nvsRingGap src).setF F.nvsRingStart newStart).incF F.nvsMovesMoves
  ((s.appendRoot s.ringRec).eraseSector from_).modNvs fun x => { x with gapDue := false }

/-- An ERASE of a logical sector is counted; the 64th makes a gap move due. -/
def countErase (s : State) : State := s.modNvs fun x =>
  { x with counted := (x.counted + 1) % 64, gapDue := x.gapDue || x.counted + 1 = 64 }

/-- The firmware erases a logical sector, after the gap move that is due. -/
def eraseLogical (s : State) (l : Nat) : State :=
  let s := if s.nvs.gapDue then s.moveGap else s
  (s.eraseSector (s.sectorPhys l)).countErase

/-- The firmware erases and programs one logical sector with 4096 bytes. -/
def writeSector (s : State) (l : Nat) (data : List Byte) : State :=
  forEach (List.range 512) (s.eraseLogical l) fun s i =>
    s.setRawUnit (s.unitKey (l * 512 + i)) (BitVec.ofNat 64 (field (fit 4096 data) (8 * i) 8))

/-- Writes an area of whole sectors from a logical sector on. -/
def writeArea (s : State) (l : Nat) (data : List Byte) : State :=
  forEach (List.range ((data.length + 4095) / 4096)) s fun s i =>
    s.writeSector (l + i) (slice data (4096 * i) 4096)

/-- Appends a BOOT record and brings UPD_SLOTS in step (Table 16.1). -/
def bootRecord (s : State) (next : Nat) (trial failed : Bool) : State :=
  let s := s.modNvs fun x => { x with bootNext := next, trial := trial, trialFailed := failed }
  let s := s.appendRoot s.bootRec
  ((s.setF F.updSlotsNext next).setF F.updSlotsTrial trial.toNat).setF F.updSlotsTrialFailed failed.toNat

/-! ## The controller -/

/-- The bank (R538) of the operation, running or suspended. -/
def opBank (s : State) (o : NvsOp) : Nat := s.slotPhys o.slot / 1024

/-- An operation runs (not suspended) in the bank of a unit. -/
def bankBusy (s : State) (u : Nat) : Bool :=
  match s.nvs.op with
  | some o => o.suspendedAt.isNone && s.opBank o = s.sectorPhys (u / 512) / 1024
  | none => false

/-- Reads one unit into the data registers (R537). -/
def readUnit (s : State) (u : Nat) : State :=
  let k := s.unitKey u
  let put := fun (s : State) (v r : Nat) =>
    ((s.setF F.nvsDataLoData (v % 2 ^ 32)).setF F.nvsDataHiData (v / 2 ^ 32)).setNvsResult r
  match sparseGet (fun _ => 0) s.nvs.errs k with
  | 0 => put s (s.rawUnit k).toNat nvsOk
  | 1 => (put s (s.rawUnit k).toNat nvsOk).incF F.nvsCntCorrected
  | _ => (put s 0 nvsUncorrectable).incF F.nvsCntUncorr

/-- A read that waited for the bank proceeds (R544). -/
def serveRead (s : State) : State :=
  match s.nvs.readWaits with
  | some u => (s.modNvs fun x => { x with readWaits := none }).readUnit u
  | none => s

/-- Suspends the running operation now (R549); a read that waited for its bank proceeds. -/
def suspendNow (s : State) : State :=
  match s.nvs.op with
  | none => s
  | some o =>
    let s := s.modNvs fun x =>
      { x with op := some { o with suspendedAt := some s.tick, suspendHeld := false } }
    ((s.setF F.nvsStatusSuspended 1).setF F.nvsStatusBusy 0).serveRead

/-- Raises a suspend: it is held until the operation has run for 200 µs (R549). -/
def raiseSuspend (s : State) : State :=
  match s.nvs.op with
  | none => s
  | some o =>
    if o.suspendedAt.isSome then s
    else if s.since o.ranFrom 200000 then s.suspendNow
    else s.modNvs fun x => { x with op := some { o with suspendHeld := true } }

/-- A held suspend whose 200 µs have passed takes effect. -/
def suspendDue (s : State) : State :=
  match s.nvs.op with
  | some o => if o.suspendHeld && s.since o.ranFrom 200000 then s.suspendNow else s
  | none => s

/-- Resumes the suspended operation (R549), unless the power-fail rule of R552 holds. -/
def resumeNow (s : State) : State :=
  match s.nvs.op with
  | none => s
  | some o =>
    if o.suspendedAt.isNone || s.nvs.stopped then s
    else
      let s := s.modNvs fun x =>
        { x with op := some { o with suspendedAt := none, ranFrom := s.tick } }
      (s.setF F.nvsStatusSuspended 0).setF F.nvsStatusBusy 1

/-- A write of NVS_CMD reaches the controller: ARMED and the ownership of R546 end with it. -/
def nvsCommand (s : State) (path : Path) (act : Bool → State → State) : State :=
  match s.admitWrite path A.nvsCmd with
  | (false, s) => s
  | (true, s) =>
    let armed := s.onF F.nvsStatusArmed
    act armed ((s.setF F.nvsStatusArmed 0).modNvs fun x =>
      { x with owner := none, armedAt := none, unlockAt := none })

/-- The sector lies in the slot of the running image, or in the NEXT slot while TRIAL is set
(R547). -/
def slotProtected (s : State) (l : Nat) : Bool :=
  l < 1024 && (l / 512 = s.getF F.updSlotsActive || (s.nvs.trial && l / 512 = s.nvs.bootNext))

/-- Why a PROGRAM or an ERASE is refused, in the order of R547; R546 comes first. -/
def nvsRefusal (s : State) (path : Path) (armed erase : Bool) (u : Nat) : Option Nat :=
  if (path = .bar0 || path = .i3c || path = .vf) && !s.inMode .service then some nvsNotPermitted
  else if !armed then some nvsLocked
  else if 0x77FFF8 < u * 8 then some nvsBadAddress
  else if !erase && s.rawUnit (s.unitKey u) ≠ erasedUnit then some nvsNotErased
  else if erase && s.slotProtected (u / 512) then some nvsProtected
  else if s.nvs.op.isSome || s.nvs.gapDue || s.nvs.stopped then some nvsBusy
  else none

/-- Starts a PROGRAM or an ERASE; an ERASE first programs the flag unit of its sector (R550) and is
counted for the gap (R540). -/
def startOp (s : State) (erase : Bool) (u : Nat) : State :=
  let slot := s.sectorSlot (u / 512)
  let data := BitVec.ofNat 64 (s.getF F.nvsDataLoData + 2 ^ 32 * s.getF F.nvsDataHiData)
  let o : NvsOp :=
    { erase := erase, unit := u, slot := slot, data := data, ranFrom := s.tick, suspendedAt := none,
      suspendHeld := false }
  let s := s.modNvs fun x =>
    { x with op := some o
             flags := if erase then sparsePut (fun _ => false) x.flags (s.slotPhys slot) true else x.flags }
  let s := if erase then s.countErase else s
  ((s.setF F.nvsStatusBusy 1).setF F.nvsStatusBank (s.slotPhys slot / 1024)).setF F.nvsPulsesPulses 0

/-- Replaces the ring slot of a failed operation by the lowest unused spare and restarts the
operation there; with no spare left the failure stands and event 0x0003 is raised (R554). -/
def replaceSlot (s : State) (o : NvsOp) : State :=
  let left := s.getF F.nvsSparesLeft
  if left = 0 then
    let s := (s.modNvs fun x => { x with op := none }).setF F.nvsStatusBusy 0
    (s.health 0x0003 0 0 [] o.slot).serveRead
  else
    let old := s.slotPhys o.slot
    let new := 1923 + (125 - left)
    let s := (s.setF F.nvsSparesLeft (left - 1)).eraseSector new
    let s := forEach (List.range 512) s fun s i =>
      if sparseGet (fun _ => 0) s.nvs.errs (old * 512 + i) = 2 then s
      else s.setRawUnit (new * 512 + i) (s.rawUnit (old * 512 + i))
    let s := (s.modNvs fun x =>
      { x with remaps := sparsePut slotSector x.remaps o.slot new
               op := some { o with ranFrom := s.tick } }).appendRoot (remapRec o.slot new)
    s.setF F.nvsStatusBank (new / 1024)

end State

/-! ## Commands -/

/-- NVS_UNLOCK (R545, R546). -/
def execNvsUnlock (path : Path) (value : Word) (s : State) : Host.Outcome State Fault Refusal :=
  done (s.regAction path A.nvsUnlock value fun s =>
    let key := F.nvsUnlockKey.get value
    match s.nvs.unlockAt with
    | none =>
      if key = 0x00A5 then s.modNvs fun x => { x with unlockAt := some (s.tick, path), owner := some path }
      else s.setF F.nvsStatusUnlockErr 1
    | some (t, _) =>
      if key = 0x005A && s.tick ≤ t + 64 * 160 then
        (s.setF F.nvsStatusArmed 1).modNvs fun x =>
          { x with unlockAt := none, armedAt := some s.tick }
      else (s.setF F.nvsStatusUnlockErr 1).modNvs fun x =>
        { x with unlockAt := none, owner := none })

/-- NVS_ARMED_EXPIRE (R545): ARMED clears 1 ms after it was set. -/
def execNvsArmedExpire (s : State) : Host.Outcome State Fault Refusal :=
  match s.nvs.armedAt with
  | some t =>
    if s.since t 1000000 then
      done ((s.setF F.nvsStatusArmed 0).modNvs fun x => { x with armedAt := none })
    else done s
  | none => done s

/-- NVS_READ (R544): at once, or when the operation in its bank ends or is suspended; the
management core pair's read suspends it. -/
def execNvsRead (path : Path) (s : State) : Host.Outcome State Fault Refusal :=
  done (s.nvsCommand path fun _ s =>
    let u := s.getF F.nvsAddrUnit
    if 0x77FFF8 < u * 8 then s.setNvsResult nvsBadAddress
    else if s.bankBusy u then
      let s := s.modNvs fun x => { x with readWaits := some u }
      if path = .core then s.raiseSuspend else s
    else s.readUnit u)

/-- NVS_PROGRAM (R547, R548). -/
def execNvsProgram (path : Path) (s : State) : Host.Outcome State Fault Refusal :=
  done (s.nvsCommand path fun armed s =>
    let u := s.getF F.nvsAddrUnit
    match s.nvsRefusal path armed false u with
    | some r => s.setNvsResult r
    | none => s.startOp false u)

/-- NVS_ERASE (R547, R550). -/
def execNvsErase (path : Path) (s : State) : Host.Outcome State Fault Refusal :=
  done (s.nvsCommand path fun armed s =>
    let u := s.getF F.nvsAddrUnit
    match s.nvsRefusal path armed true u with
    | some r => s.setNvsResult r
    | none => s.startOp true u)

/-- NVS_SUSPEND (R549). -/
def execNvsSuspend (path : Path) (s : State) : Host.Outcome State Fault Refusal :=
  done (s.nvsCommand path fun _ s => s.raiseSuspend)

/-- NVS_RESUME (R549). -/
def execNvsResume (path : Path) (s : State) : Host.Outcome State Fault Refusal :=
  done (s.nvsCommand path fun _ s => s.resumeNow)

/-- NVS_BLANK_CHECK (Table 16.2): OK when the sector and its flag unit are erased. -/
def execNvsBlankCheck (path : Path) (s : State) : Host.Outcome State Fault Refusal :=
  done (s.nvsCommand path fun _ s =>
    let l := s.getF F.nvsAddrUnit / 512
    if 1920 ≤ l then s.setNvsResult nvsBadAddress
    else
      let p := s.sectorPhys l
      let blank := !sparseGet (fun _ => false) s.nvs.flags p &&
        !(s.nvs.units.any fun e => p * 512 ≤ e.1 && e.1 < (p + 1) * 512)
      s.setNvsResult (if blank then nvsOk else nvsNotErased))

/-- NVS_OPERATION_DONE (R548, R554): the running operation passes after `pulses`, at most 16 of a PROGRAM and 64 of an
ERASE, or fails after that many. -/
def execNvsOperationDone (pass : Bool) (pulses : Nat) (s : State) : Host.Outcome State Fault Refusal :=
  match s.nvs.op with
  | none => done s
  | some o =>
    let most := if o.erase then 64 else 16
    if o.suspendedAt.isSome || (pass && (pulses = 0 || most < pulses)) then done s
    else
      let p := s.slotPhys o.slot
      let s := s.setF F.nvsPulsesPulses (if pass then pulses else most)
      if pass then
        let s := if o.erase then s.eraseSector p else s.setRawUnit (p * 512 + o.unit % 512) o.data
        let s := (s.modNvs fun x => { x with op := none }).setF F.nvsStatusBusy 0
        done ((s.setNvsResult nvsOk).serveRead)
      else
        done (((s.setNvsResult (if o.erase then nvsFailErase else nvsFailProgram)).setF
          F.nvsStatusFail 1).replaceSlot o)

/-- NVS_AUTO_RESUME (R549): 10 ms after the suspension if no read of the bank waits. -/
def execNvsAutoResume (s : State) : Host.Outcome State Fault Refusal :=
  match s.nvs.op with
  | some o => match o.suspendedAt with
    | some t => if s.since t 10000000 && s.nvs.readWaits.isNone then done s.resumeNow else done s
    | none => done s
  | none => done s

/-- GAP_MOVE (R540): the gap move that is due. -/
def execGapMove (s : State) : Host.Outcome State Fault Refusal :=
  if !s.nvs.gapDue || s.nvs.op.isSome || s.nvs.stopped then done s else done s.moveGap

namespace State

/-! ## Power failure, zeroize and start (R541, R550–R553) -/

/-- A power-fail event (R552): a running PROGRAM finishes, a running ERASE is suspended, and
nothing starts or resumes afterwards. -/
def nvsPowerFail (s : State) : State :=
  let s := match s.nvs.op with
    | none => s
    | some o =>
      if o.suspendedAt.isSome then s
      else if o.erase then s.suspendNow
      else
        let s := s.setRawUnit (s.slotPhys o.slot * 512 + o.unit % 512) o.data
        ((s.modNvs fun x => { x with op := none }).setF F.nvsStatusBusy 0).setNvsResult nvsOk
  s.modNvs fun x => { x with stopped := true }

/-- The zeroize operation of R553: every stored copy of the SWK record is destroyed; a running
ERASE stays suspended. -/
def nvsZeroize (s : State) : State :=
  let s := match s.nvs.op with
    | some o => if o.erase && o.suspendedAt.isNone then s.suspendNow else s
    | none => s
  (s.modSec fun x => { x with swkStored := none }).modNvs fun x => { x with zeroized := true }

/-- The start of the controller (R541, R543, R550): the root is applied; erase-incomplete sectors and a gap that is not
blank are erased again, but no sector of the running or TRIAL image, whose slot then fails verification (R551). -/
def nvsStartPass (s : State) : State :=
  let s := s.readRoots
  let s := s.modNvs fun x =>
    { x with op := none, stopped := false, unlockAt := none, armedAt := none, owner := none, readWaits := none, flagged := [] }
  let s := ((s.setF F.nvsStatusBusy 0).setF F.nvsStatusSuspended 0).setF F.nvsStatusArmed 0
  let guarded := (List.range 1024).filter fun l =>
    l / 512 = s.getF F.updSlotsActive || (s.nvs.trial && l / 512 = s.nvs.bootNext)
  let phys := guarded.map s.sectorPhys
  let s := forEach (s.nvs.flags.map (·.1)) s fun s p =>
    if phys.contains p then
      let slot := if (guarded.find? fun l => s.sectorPhys l = p).getD 0 < 512 then 0 else 1
      ((s.setF F.nvsStatusImageFlagged 1).daily src.nvs 0 [p]).modNvs fun x => { x with flagged := x.flagged ++ [slot] }
    else (s.eraseSector p).incF F.nvsCntReerased
  s.eraseSector (s.slotPhys s.nvsGap)

end State

end Sys2Proof.Machine
end

