-- ==== Sys2Proof/Machine/Security.lean ====
section
/-! DEFINITION. Key custody (chapter 12): randomness, key slots and classes, key store commands,
stored keys, namespace bindings, tamper and lifecycle. -/

namespace Sys2Proof.Machine

/-- Key classes (Table 12.2). -/
def clsXts : Nat := 1
def clsGcm : Nat := 2
def clsSeal : Nat := 3
def clsHmac : Nat := 4
def clsImport : Nat := 5
def clsLink : Nat := 6

/-- Results of Table 12.5. -/
def keyOk : Nat := 0
def keyBusy : Nat := 1
def keyBadBlob : Nat := 2
def keyUnwrapFailed : Nat := 3
def keyBadClass : Nat := 4
def keyNoWrapKey : Nat := 5
def keySlotBound : Nat := 6
def keyNotPermitted : Nat := 7
def keyNoEntropy : Nat := 8
def keyPreempted : Nat := 9

/-- The key lengths a class allows (Table 12.2). -/
def keyLenLegal (cls len : Nat) : Bool :=
  if cls = clsXts then len = 64
  else if cls = clsHmac then 32 ≤ len && len ≤ 128 && len % 8 = 0
  else len = 32

/-- The slot kinds a class allows (Table 12.2). -/
def classFits (cls : Nat) (tenantSlot : Bool) : Bool :=
  if cls = clsSeal then tenantSlot
  else if cls = clsImport || cls = clsLink then !tenantSlot
  else cls = clsXts || cls = clsGcm || cls = clsHmac

namespace State

/-! ## Slots (R422) -/

/-- The tenant whose key range holds a slot, if that tenant is not DISABLED. -/
def slotTenant (s : State) (k : Nat) : Option Nat :=
  (s.ten.find? fun e => match e.2.record with
    | some r => s.getF (F.instStatusState e.1) ≠ 0 && r.keyFirst ≤ k && k < r.keyFirst + r.keyCount
    | none => false).map (·.1)

/-- Sets a slot: the words of its key are written, or cleared (R466). -/
def putSlot (s : State) (k : Nat) (x : Option KeySlot) : State :=
  match x with
  | some _ => (s.setKeySlot k x).sramFill 0x15 (32 * k) 32
  | none => (s.setKeySlot k none).sramClear 0x15 (32 * k) 32

/-- A use of a slot reads its words (R469, Table 13.4): where one is uncorrectable the slot reads empty, and its reload
is due. -/
def touchSlot (s : State) (k : Nat) : State :=
  if (s.keySlot k).isNone then s
  else
    let (ok, s) := (List.range 32).foldl (fun (acc : Bool × State) i =>
      let (good, s) := acc.2.sramRead 0x15 (32 * k + i)
      (acc.1 && good, s)) (true, s)
    if ok then s
    else (s.putSlot k none).modSec fun x => { x with reloads := x.reloads ++ [k] }

def isTenantSlot (s : State) (k : Nat) : Bool := (s.slotTenant k).isSome

/-- The slot bound to a namespace (R446). -/
def nsKeySlot (s : State) (nsid : Nat) : Option Nat := sparseGet (fun _ => none) s.sec.nsKeys nsid

/-- The data path reads the key of a namespace (R427). -/
def touchNs (s : State) (nsid : Nat) : State := match s.nsKeySlot nsid with
  | some k => s.touchSlot k
  | none => s

/-- The namespaces a slot is bound to. -/
def boundNs (s : State) (k : Nat) : List Nat :=
  (s.sec.nsKeys.filter fun e => e.2 = some k).map (·.1)

/-- A namespace is attached to some controller. -/
def nsAttached (s : State) (nsid : Nat) : Bool := !(s.attachedTo nsid).isEmpty

/-- The XTS key of a namespace, if its bound slot holds one (R431, R432). -/
def nsKey (s : State) (nsid : Nat) : Option (List Byte) :=
  match s.nsKeySlot nsid with
  | some k => (s.keySlot k).bind fun x => if x.cls = clsXts then some x.key else none
  | none => none

/-! ## Blobs (R424, R425) -/

/-- The 16-byte blob header (Table 12.4). -/
def blobHeader (wrap cls wrapSlot len label : Nat) : List Byte :=
  leBytes 2 0x4B42 ++ leBytes 2 0x0100 ++ leBytes 1 wrap ++ leBytes 1 cls ++ leBytes 2 wrapSlot
    ++ leBytes 1 len ++ zeros 3 ++ leBytes 4 label

/-- A blob of a key under a wrapping key. -/
def makeBlob (kek : List Byte) (wrap wrapSlot : Nat) (k : KeySlot) : List Byte :=
  let h := blobHeader wrap k.cls wrapSlot k.key.length k.label
  h ++ keyWrap kek (h ++ k.key)

/-- The key in a blob whose wrapping key is known: the unwrap check and the inner header must hold
(R424). -/
def openBlob (kek blob : List Byte) : Option KeySlot :=
  let len := field blob 8 1
  match keyUnwrap kek (slice blob 16 (24 + len)) with
  | some p =>
    if p.take 16 = blob.take 16 then
      some { cls := field blob 5 1, label := field blob 12 4, key := slice p 16 len }
    else none
  | none => none

/-- The blob window as bytes. -/
def blobWindow (s : State) : List Byte :=
  (List.range 256).map fun i => sparseGet (fun _ => 0) s.sec.blob i

def setBlobWindow (s : State) (l : List Byte) : State :=
  s.modSec fun x => { x with blob := (fit 256 l).zipIdx.foldl (fun m e =>
    sparsePut (fun _ => 0) m e.2 e.1) [] }

/-- MAGIC, VERSION, KEY_LEN, WRAP or a reserved byte is illegal (Table 12.5, BAD_BLOB). -/
def blobIllegal (b : List Byte) : Bool :=
  field b 0 2 ≠ 0x4B42 || field b 2 2 ≠ 0x0100 || 2 < field b 4 1 || !allZero b 9 3
    || !keyLenLegal (field b 5 1) (field b 8 1)
    || (field b 4 1 ≠ 1 && field b 6 2 ≠ 0) || (field b 4 1 = 2 && !allZero b (32 + field b 8 1) 8)

/-- The two halves of an XTS key are equal (Table 12.2). -/
def xtsHalvesEqual (k : KeySlot) : Bool := k.cls = clsXts && k.key.take 32 = k.key.drop 32

/-- LOAD: the key that the blob window gives for a slot, or the RESULT it fails with. -/
def loadKey (s : State) (side : Side) (slot : Nat) : Except Nat KeySlot :=
  let b := s.blobWindow
  let cls := field b 5 1
  if blobIllegal b then .error keyBadBlob
  else
    let opened : Except Nat KeySlot :=
      if field b 4 1 = 2 then
        if side = .i3c && s.inMode .service && cls = clsImport &&
            !(s.sec.slots.any fun e => match e.2 with | some k => k.cls = clsImport | none => false) then
          if slice b 16 16 = b.take 16 then
            .ok { cls := cls, label := field b 12 4, key := slice b 32 (field b 8 1) }
          else .error keyUnwrapFailed
        else .error keyNotPermitted
      else
        let kek := if field b 4 1 = 0 then s.sec.swk else
          (s.keySlot (field b 6 2)).bind fun k =>
            if k.cls = clsImport && !s.isTenantSlot (field b 6 2) then some k.key else none
        match kek with
        | none => .error keyNoWrapKey
        | some kek => match openBlob kek b with
          | some k => .ok k
          | none => .error keyUnwrapFailed
    match opened with
    | .error r => .error r
    | .ok k =>
      if !classFits k.cls (s.isTenantSlot slot) || xtsHalvesEqual k then .error keyBadClass
      else .ok k

/-! ## Key store commands (R423–R427) -/

/-- A key command ends with a RESULT. -/
def keyResult (s : State) (r : Nat) : State :=
  (s.setF F.secKeyStatusBusy 0).setF F.secKeyStatusResult r

/-- A key command has passed its checks; KEY_COMMAND_DONE makes it durable. -/
def keyPending (s : State) (slot : Nat) (k : Option KeySlot) (blob : Option (List Byte)) : State :=
  s.modSec fun x => { x with cmd := some { slot := slot, newKey := k, blob := blob } }

/-- A bound slot whose namespace is attached to a controller (R426). -/
def slotBusy (s : State) (slot : Nat) : Bool := (s.boundNs slot).any s.nsAttached

/-- A key command that has won its window runs (Table 12.3). -/
def runKeyCmd (s : State) (side : Side) (op cls wrap slot : Nat) : State :=
  let s := (s.touchSlot slot).touchSlot (if op = 1 then field s.blobWindow 6 2 else wrap)
  if s.onF F.secStatusKeysDisabled || s.inMode .safe then s.keyResult keyNotPermitted
  else if op = 1 then
    match s.loadKey side slot with
    | .error r => s.keyResult r
    | .ok k => if s.slotBusy slot then s.keyResult keySlotBound else s.keyPending slot (some k) none
  else if op = 2 then
    if s.onF F.secStatusEntropyFail then s.keyResult keyNoEntropy
    else if !classFits cls (s.isTenantSlot slot) then s.keyResult keyBadClass
    else if s.slotBusy slot then s.keyResult keySlotBound
    else
      let (k, s) := s.drbg (if cls = clsXts then 64 else 32)
      let key : KeySlot := { cls := cls, label := 0, key := k }
      if xtsHalvesEqual key then s.keyResult keyBadClass else s.keyPending slot (some key) none
  else if op = 3 then
    match s.keySlot slot with
    | none => s.keyResult keyBadClass
    | some k =>
      if cls = 0 then
        match s.keySlot wrap with
        | some w =>
          if w.cls = clsImport then
            s.keyPending slot (some k) (some (makeBlob w.key 1 wrap k))
          else s.keyResult keyNoWrapKey
        | none => s.keyResult keyNoWrapKey
      else if cls = 1 then
        match s.sec.swk with
        | some w =>
          if wrap = 0 then s.keyPending slot (some k) (some (makeBlob w 0 0 k))
          else s.keyResult keyNoWrapKey
        | none => s.keyResult keyNoWrapKey
      else s.keyResult keyBadClass
  else if s.slotBusy slot then s.keyResult keySlotBound
  else s.keyPending slot none none

/-- Records of one half of the key area: 192 sectors of 512 units, 22 units a record (R423). -/
def keyAreaRecords : Nat := 192 * 512 / 22

/-- Stores a slot in the key area as a blob under the SWK (R428); a SEAL key with the power count
(R429). -/
def storeSlot (s : State) (slot : Nat) (k : Option KeySlot) : State :=
  (s.useMasks (match k with | some k => 6 * ((16 + k.key.length) / 8) | none => 0)).modSec fun x =>
    let r := match k, x.swk with
      | some k, some w =>
        some { blob := makeBlob w 0 0 k, count := if k.cls = clsSeal then some x.powerCount else none : StoredKey }
      | _, _ => none
    { x with stored := sparsePut (fun _ => none) x.stored slot r, areaUsed := x.areaUsed + 1 }

/-- Sends a slot change to the double as a blob under the LINK key (R430). The body holds the slot
number, the blob length and the blob (log entry 9). -/
def mirrorKey (s : State) (slot : Nat) (k : Option KeySlot) : State :=
  let linkSlot := s.getF F.cntCfgLinkSlot
  let blob := match k, s.keySlot linkSlot with
    | some k, some l => makeBlob l.key 1 linkSlot k
    | _, _ => []
  s.mirror msgKey 0 noTenant 0 (leBytes 4 slot ++ leBytes 4 blob.length ++ blob)

/-- Sets a slot, its NVS copy and the double's copy. -/
def changeSlot (s : State) (slot : Nat) (k : Option KeySlot) : State :=
  ((s.putSlot slot k).storeSlot slot k).mirrorKey slot k

/-- Erases the keys of a range of slots (R430, removal of an instance). -/
def eraseKeys (s : State) (first n : Nat) : State :=
  forEach ((s.sec.slots.map (·.1)).filter fun k => first ≤ k && k < first + n) s fun s k =>
    s.changeSlot k none

/-- A write of SEC_KEY_CMD (R423): dropped while BUSY, otherwise an order of the sequencer for the
slot and its bound namespaces. -/
def keyCommand (s : State) (path : Path) (value : Word) (op : Nat) : State :=
  match s.admitWrite path A.secKeyCmd with
  | (false, s) => s
  | (true, s) =>
    if path = .vf then s
    else if s.onF F.secKeyStatusBusy then s.setF F.secKeyStatusResult keyBusy
    else if s.inMode .safe || s.orderBarred (· ≠ .safe) then s.setF F.secKeyStatusResult keyNotPermitted
    else
      let slot := F.secKeyCmdSlot.get value
      let s := s.setF F.secKeyStatusBusy 1
      s.placeOrder (.key op (F.secKeyCmdClass.get value) (F.secKeyCmdWrapSlot.get value) slot) true
        (.slot slot :: (s.boundNs slot).map .ns) 3 (pathSide path)

end State

/-! ## Commands -/

/-- KEY_LOAD (R424–R426). -/
def execKeyLoad (path : Path) (value : Word) (s : State) : Host.Outcome State Fault Refusal :=
  done (s.keyCommand path value 1)

/-- KEY_GENERATE (Table 12.3). -/
def execKeyGenerate (path : Path) (value : Word) (s : State) : Host.Outcome State Fault Refusal :=
  done (s.keyCommand path value 2)

/-- KEY_EXPORT (Table 12.3). -/
def execKeyExport (path : Path) (value : Word) (s : State) : Host.Outcome State Fault Refusal :=
  done (s.keyCommand path value 3)

/-- KEY_ERASE (Table 12.3). -/
def execKeyErase (path : Path) (value : Word) (s : State) : Host.Outcome State Fault Refusal :=
  done (s.keyCommand path value 4)

/-- KEY_COMMAND_DONE (R423): with no NVS operation running and room in the active half, the slot
and its NVS copy are updated and BUSY clears. -/
def execKeyCommandDone (s : State) : Host.Outcome State Fault Refusal :=
  match s.sec.cmd with
  | none => done s
  | some c =>
    if s.onF F.nvsStatusBusy || State.keyAreaRecords ≤ s.sec.areaUsed then done s
    else
      let s := s.modSec fun x => { x with cmd := none }
      match c.blob with
      | some b => done ((s.setBlobWindow b).keyResult keyOk)
      | none => done ((s.changeSlot c.slot c.newKey).keyResult keyOk)

/-- KEY_AREA_COMPACT (R423): once three-quarters full, the live records move to the other half. -/
def execKeyAreaCompact (s : State) : Host.Outcome State Fault Refusal :=
  if 3 * State.keyAreaRecords ≤ 4 * s.sec.areaUsed then
    done (s.modSec fun x => { x with areaUsed := x.stored.length + 1 })
  else done s

/-- BLOB_DATA_ACCESS (Table 12.13): four window bytes; WORD advances and wraps at 0x3F. -/
def execBlobDataAccess (path : Path) (wr : Option Word) (s : State) : Host.Outcome State Fault Refusal :=
  match s.admitWrite path A.secBlobData with
  | (false, s) => done s
  | (true, s) =>
    let w := s.getF F.secBlobAddrWord
    let s' := match wr with
      | some v => s.setBlobWindow (patch s.blobWindow (4 * w) (leBytes 4 v.toNat))
      | none => s.busData (field s.blobWindow (4 * w) 4)
    done (s'.setF F.secBlobAddrWord ((w + 1) % 64))

/-- NS_KEY_BIND (Table 12.13, SEC_NS_KEY). -/
def execNsKeyBind (path : Path) (value : Word) (s : State) : Host.Outcome State Fault Refusal :=
  done (s.regAction path A.secNsKey value fun s =>
    let nsid := s.getF F.secNsSelNsid
    let slot := F.secNsKeySlot.get value
    if nsid = 0 || 1024 < nsid then s
    else if s.nsAttached nsid then s.setF F.secKeyStatusResult keySlotBound
    else match s.keySlot slot with
      | some k =>
        if k.cls = clsXts && !s.isTenantSlot slot then
          s.modSec fun x => { x with nsKeys := sparsePut (fun _ => none) x.nsKeys nsid (some slot) }
        else s.setF F.secKeyStatusResult keyBadClass
      | none => s.setF F.secKeyStatusResult keyBadClass)

/-- DRBG_RESEED (R420): due after 65,536 requests or one second; discarded samples are counted. -/
def execDrbgReseed (healthFails : Nat) (ok : Bool) (s : State) : Host.Outcome State Fault Refusal :=
  if s.logicOn && (65536 ≤ s.sec.requests || s.since s.sec.reseedAt 1000000000) then
    let s := s.addF F.secCntEntropyHealthFail healthFails
    if ok then
      done (((s.incF F.secCntEntropyReseed).setF F.secStatusEntropyFail 0).modSec fun x =>
        { x with requests := 0, reseedAt := s.tick, drbgLive := true })
    else done s
  else done s

/-- ENTROPY_FAIL (R420): no reseed has succeeded for 10 s. -/
def execEntropyFail (s : State) : Host.Outcome State Fault Refusal :=
  if s.logicOn && s.since s.sec.reseedAt 10000000000 && !s.onF F.secStatusEntropyFail then
    done ((s.setF F.secStatusEntropyFail 1).dailyOpen src.sec 0 [])
  else done s

namespace State

/-- Voltage and clock sources are masked after a power-fail event and while the logic die powers
down for Standby or Dormant (R443). -/
def tamperMasked (s : State) (cause : Nat) : Bool :=
  (cause = 0 || cause = 1) &&
    (s.pwr.failing || (match s.pwr.trans with
      | some t => t.target = .standby || t.target = .dormant
      | none => false))

/-- A job ends with a completion code, its key copy gone (R442). -/
def endedJob (code : Nat) (j : AccJob) : AccJob :=
  { j with code := some (code, 0, 0), key := [], saved := none }

/-- The erasure of R442: every slot, the SWK and context wrap key, key copies, the DRBG state and
saved contexts; running and preempted jobs end with KEY_ERASED; the buffers are zeroed. -/
def tamperErase (s : State) : State :=
  let lost := s.ftl.wb.length
  let s := s.modSec fun x =>
    { x with slots := [], swk := none, cwk := none, drbgLive := false, cmd := none, reloads := []
             aes := x.aes.map (endedJob 0x00CE), digests := x.digests.map (endedJob 0x00CE) }
  let s := s.modFtl fun f => { f with wb := [] }
  let s := (s.setF F.ftlWbUsed 0).daily src.sec 0x00CE [lost]
  s

end State

/-- TAMPER_ALARM (R442, R443): `cause` is a row of Table 12.11. -/
def execTamperAlarm (cause : Nat) (s : State) : Host.Outcome State Fault Refusal :=
  if 5 ≤ cause || s.tamperMasked cause then done s
  else
    let s := s.setF F.secTamperCause (s.getF F.secTamperCause ||| 2 ^ cause)
    let s := s.setF F.secStatusTampered 1
    let s := if s.logicOn then s.tamperErase else s
    done ((s.nvsZeroize.alertTamper).orderSafe 2)

/-- LIFECYCLE_LOCK (R445): the second write of 0x4C4B within 1 ms in Service mode burns the lock. -/
def execLifecycleLock (path : Path) (value : Word) (s : State) : Host.Outcome State Fault Refusal :=
  done (s.regAction path A.secLifecycle value fun s =>
    if F.secLifecycleLockCode.get value ≠ 0x4C4B || !s.inMode .service then s
    else match s.sec.lockAt with
      | some t =>
        if s.tick ≤ t + 64000000 then
          (s.setF F.secLifecycleState 1).modSec fun x => { x with lockAt := none }
        else s.modSec fun x => { x with lockAt := some s.tick }
      | none => s.modSec fun x => { x with lockAt := some s.tick })

namespace State

/-- Keys at a start of the logic die (R428, R429, R440): every stored blob is loaded back, a SEAL
blob of an earlier power period is discarded; without a valid SWK record a new SWK is made and
every stored blob is discarded. -/
def secStart (s : State) : State :=
  let (cwk, s) := s.drbg 32
  match s.sec.swkStored with
  | none =>
    let (swk, s) := s.drbg 32
    (s.setF F.secStatusSwkNew 1).modSec fun x =>
      { x with swk := some swk, cwk := some cwk, swkStored := some swk, slots := [], stored := []
               areaUsed := 1, drbgLive := true, reseedAt := s.tick, cmd := none }
  | some swk =>
    let keep := fun (r : StoredKey) => match r.count with
      | some c => c = s.sec.powerCount
      | none => true
    let load := fun (m : Sparse (Option KeySlot)) (e : Nat × Option StoredKey) => match e.2 with
      | some r => if keep r then sparsePut (fun _ => none) m e.1 (openBlob swk r.blob) else m
      | none => m
    s.modSec fun x =>
      { x with swk := some swk, cwk := some cwk, slots := x.stored.foldl load [], reloads := []
               stored := x.stored.filter fun e => match e.2 with | some r => keep r | none => false
               drbgLive := true, reseedAt := s.tick, cmd := none }

/-- The management core pair reloads the slots that could not be read from their NVS blobs (R428, Table 13.4). -/
def reloadSlots (s : State) : State :=
  let l := s.sec.reloads
  forEach l (s.modSec fun x => { x with reloads := [] }) fun s k =>
    match s.sec.swk, sparseGet (fun _ => none) s.sec.stored k with
    | some w, some r => s.putSlot k (openBlob w r.blob)
    | _, _ => s

end State

end Sys2Proof.Machine
end

