-- ==== Sys2Proof/Machine/Media.lean ====
section
/-! DEFINITION. Shared operations of the flash tier and the buffer (chapters 05 and 06): geometry and
superblocks, the journal, extents and the map, the write buffer and its flush, what a unit reads
as, LUN queues, and deferred write errors. -/

namespace Sys2Proof.Machine

/-! ## Map values (Table 06.2) and keys -/

def mapUnmapped : Nat := 0xFFFFFFFF
def mapZero : Nat := 0xFFFFFFFE

/-- Key of a unit, an extent, a slot and a superblock in their tables. -/
def unitKeyOf (nsid unit : Nat) : Nat := nsid * 2 ^ 40 + unit
def slotKey (lane slot : Nat) : Nat := lane * 2 ^ 32 + slot
def sbKey (lane seg : Nat) : Nat := lane * 2 ^ 18 + seg

/-- Number of a stream, for the table of rows being filled. -/
def Stream.num : Stream → Nat
  | .hostHot => 0 | .hostWarm => 1 | .gcCold => 2 | .migrateOut => 3

def Stream.ofNum : Nat → Stream
  | 0 => .hostHot | 1 => .hostWarm | 2 => .gcCold | _ => .migrateOut

/-- Replaces an element of a list that passes a test. -/
def mapWhere {α : Type} (l : List α) (p : α → Bool) (g : α → α) : List α :=
  l.map fun x => if p x then g x else x

/-! ## Extent entries (Table 06.1) -/

def ExtSt.code : ExtSt → Nat
  | .unalloc => 0 | .flash => 1 | .disk => 2 | .moving => 3

/-- The 64-bit extent entry; a band index takes 24 bits of LOCATION. -/
def Extent.encode (e : Extent) : Nat :=
  e.st.code * 2 ^ 62 + e.classified.toNat * 2 ^ 61 + e.heat % 256 * 2 ^ 48
    + (if e.st = .disk then e.band * 256 + e.slot else e.chunk) % 2 ^ 32

/-- The entry that 64 bits spell. -/
def Extent.decode (v : Nat) : Extent :=
  let loc := bits v 0 32
  let st : ExtSt := match bits v 62 2 with
    | 0 => .unalloc | 1 => .flash | 2 => .disk | _ => .moving
  let disk := st = .disk
  { st := st, classified := bit v 61, heat := bits v 48 8, chunk := if disk then 0 else loc, act := 0,
    band := if disk then loc / 256 else 0, slot := if disk then loc % 256 else 0 }

/-! ## Positions of a band (R247, R250) -/

/-- Inserts a number into a rising list. -/
def insertRising (l : List Nat) (n : Nat) : List Nat :=
  if l.contains n then l else l.filter (· < n) ++ [n] ++ l.filter (n < ·)

/-- Positions of a band, and its user positions. -/
def ZoneRec.positions (z : ZoneRec) : Nat := z.tracks * z.slots
def ZoneRec.users (z : ZoneRec) : Nat := z.slots - z.spares

/-- Number of a user position among the band's user positions; none for a spare position. -/
def ZoneRec.userIndex (z : ZoneRec) (pos : Nat) : Option Nat :=
  if pos % z.slots < z.users then some (pos / z.slots * z.users + pos % z.slots) else none

/-- The position of a unit of a band: user positions in order, less those on the skip list. -/
def ZoneRec.unitPos (z : ZoneRec) (skip : List Nat) (unit : Nat) : Nat :=
  let u := (skip.filterMap z.userIndex).foldl (fun u k => if k ≤ u then u + 1 else u) unit
  u / max 1 z.users * z.slots + u % max 1 z.users

/-- The track of a position (R247). -/
def ZoneRec.trackOf (z : ZoneRec) (band pos : Nat) : Nat :=
  z.firstTrack + (band - z.firstBand) * (z.tracks + 1) + pos / max 1 z.slots

namespace State

/-- The recording-zone record of a band. -/
def bandRec (s : State) (b : Nat) : Option ZoneRec :=
  s.dch.zones.find? fun z => z.firstBand ≤ b && b < z.firstBand + z.bandCount

/-- The position of a unit of a band. -/
def unitPos (s : State) (b unit : Nat) : Nat := match s.bandRec b with
  | some z => z.unitPos (s.band b).skip unit
  | none => unit

/-- The unit has been written and verified: its position lies below the band's verified write pointer
(R259, R263). -/
def unitVerified (s : State) (b unit : Nat) : Bool := s.unitPos b unit < (s.band b).vwp

/-! ## Geometry (R162, R190, R199–R201) -/

/-- The channel is ONLINE or DEGRADED. -/
def chanOnline (s : State) (c : Nat) : Bool :=
  let st := s.getF (F.fchStatusState c)
  st = 2 || st = 3

/-- The channel serves what is queued, now or once its retrain has ended (R170). -/
def chanServes (s : State) (c : Nat) : Bool := s.chanOnline c || (s.chan c).retraining

/-- Member channels of a RAIN group that are online, in channel order. -/
def groupMembers (s : State) (g : Nat) : List Nat :=
  (List.range 16).filter fun c => s.chanOnline c && s.getF (F.fchCfgRainGroup c) = g

/-- The LUN answered at bring-up and is not fenced. -/
def lunUsable (s : State) (c l : Nat) : Bool :=
  bit (s.getF (F.fchPresentPresent c)) l && !bit (s.getF (F.fchLunFenceFenced c)) l

/-- The number of a block among all (R161, R178). -/
def blockId (c l b : Nat) : Nat := (32 * c + l) * 2 ^ 14 + b

/-- A block that may be programmed and read: its channel and LUN serve and it is not retired (R184, R194). -/
def blockUsable (s : State) (c l b : Nat) : Bool :=
  s.chanServes c && s.lunUsable c l && !s.ftl.retiredBlocks.contains (blockId c l b)

/-- Codeword length of a channel (R173). -/
def chanCw (s : State) (c : Nat) : Nat := cwLength (s.getF (F.fchCfgCodeRate c))

/-- Member channels of a group when the segments were assigned (R200). -/
def formatMembers (s : State) (g : Nat) : List Nat := s.ftl.groups.getD g []

/-- Data codewords in a page of a group (R173): floor(P / C), the least of its channels. -/
def pageCws (s : State) (g : Nat) : Nat := match s.fch.geom, s.formatMembers g with
  | some x, c :: rest => rest.foldl (fun n c => min n (x.pageSize / s.chanCw c)) (x.pageSize / s.chanCw c)
  | _, _ => 0

/-- Data slots of a superblock of a group with `m` members. -/
def sbSlots (s : State) (g m : Nat) : Nat := (m - 1) * s.pageCws g * (s.fch.geom.map (·.pages)).getD 0

/-- Segments that each superblock of a group takes (R200). -/
def sbSegs (s : State) (g : Nat) : Nat := ceilDiv (s.sbSlots g (s.formatMembers g).length) 16384

/-- LUN numbers present on every format-time member of a group, as the assignment recorded them (R200). -/
def groupLuns (s : State) (g : Nat) : List Nat := s.ftl.groupLuns.getD g []

/-- Blocks of a LUN that lie in a lane. -/
def laneBlocks (s : State) (lane : Nat) : Nat :=
  (((s.fch.geom.map (·.blocks)).getD 0) + 3 - lane) / 4

/-- Superblocks that a group gives a lane. -/
def groupSbs (s : State) (g lane : Nat) : Nat :=
  if (s.formatMembers g).length < 4 then 0 else (s.groupLuns g).length * s.laneBlocks lane

/-- First segment of a group's superblocks in a lane. -/
def groupBase (s : State) (g lane : Nat) : Nat :=
  ((List.range g).map fun i => s.groupSbs i lane * s.sbSegs i).sum

/-- The superblock that starts at a segment: its group, LUN and block (R200). -/
def sbPlace (s : State) (lane seg : Nat) : Option (Nat × Nat × Nat) :=
  match (List.range 4).find? fun g =>
      s.groupBase g lane ≤ seg && seg < s.groupBase g lane + s.groupSbs g lane * s.sbSegs g with
  | none => none
  | some g =>
    let i := (seg - s.groupBase g lane) / s.sbSegs g
    let per := s.laneBlocks lane
    some (g, (s.groupLuns g).getD (i / per) 0, i % per * 4 + lane)

/-- The superblock of a block of a channel's LUN: lane and first segment. -/
def sbOfBlock (s : State) (c l b : Nat) : Option (Nat × Nat) :=
  match (List.range 4).find? fun g => (s.formatMembers g).contains c with
  | none => none
  | some g => match (s.groupLuns g).findIdx? (· = l) with
    | none => none
    | some i => some (b % 4, s.groupBase g (b % 4) + (i * s.laneBlocks (b % 4) + b / 4) * s.sbSegs g)

/-- First segments of a lane's superblocks in order; segment 262,143 is never assigned (R200). -/
def laneSbs (s : State) (lane : Nat) : List Nat :=
  ((List.range 4).map fun g =>
    ((List.range (s.groupSbs g lane)).map fun i => s.groupBase g lane + i * s.sbSegs g).filter
      fun seg => seg + s.sbSegs g ≤ 262143).flatten

def sb (s : State) (lane seg : Nat) : Superblock := sparseGet (fun _ => Superblock.reset) s.ftl.sbs (sbKey lane seg)
def setSb (s : State) (lane seg : Nat) (x : Superblock) : State :=
  s.modFtl fun f => { f with sbs := sparsePut (fun _ => Superblock.reset) f.sbs (sbKey lane seg) x }
def modSb (s : State) (lane seg : Nat) (g : Superblock → Superblock) : State :=
  s.setSb lane seg (g (s.sb lane seg))

/-- Superblocks of a lane that have left the reset value, as (first segment, superblock). -/
def listedSbs (s : State) (lane : Nat) : List (Nat × Superblock) :=
  (s.ftl.sbs.filter fun e => e.1 / 2 ^ 18 = lane).map fun e => (e.1 % 2 ^ 18, e.2)

/-- The superblock of a lane that holds a slot (R201): the one that owns the slot's segment. -/
def sbOfSlot (s : State) (lane slot : Nat) : Nat :=
  let seg := slot / 16384
  match s.sbPlace lane seg with
  | some (g, _, _) => seg - (seg - s.groupBase g lane) % s.sbSegs g
  | none => seg

/-- Data slots of a row of a superblock. -/
def rowSlots (s : State) (lane seg : Nat) : Nat := match s.sbPlace lane seg with
  | some (g, _, _) => ((s.sb lane seg).members - 1) * s.pageCws g
  | none => 0

/-- Row of a slot within its superblock (R201). -/
def slotRow (s : State) (lane seg slot : Nat) : Nat := (slot - seg * 16384) / s.rowSlots lane seg

/-- The member channels that a data slot's row takes: of its data page and of its parity page (R190, R201). -/
def slotChans (s : State) (lane seg slot : Nat) : Option (Nat × Nat) := match s.sbPlace lane seg with
  | none => none
  | some (g, _, _) =>
    let x := s.sb lane seg
    let k := s.pageCws g
    if x.members < 2 || k = 0 then none
    else
      let o := slot - seg * 16384
      let p := o / s.rowSlots lane seg % x.members
      let d := o % s.rowSlots lane seg / k
      match x.chans[if d < p then d else d + 1]?, x.chans[p]? with
      | some c, some q => some (c, q)
      | _, _ => none

/-- Where a data slot lies: channel, LUN, block, page and codeword (R201). -/
def slotPlace (s : State) (lane slot : Nat) : Option (Nat × Nat × Nat × Nat × Nat) :=
  let seg := s.sbOfSlot lane slot
  match s.sbPlace lane seg, s.slotChans lane seg slot with
  | some (g, l, b), some (c, _) =>
    some (c, l, b, s.slotRow lane seg slot, (slot - seg * 16384) % s.pageCws g)
  | _, _ => none

/-- A slot may be filled: its data page and its parity page lie on blocks that may be programmed. -/
def slotUsable (s : State) (lane seg slot : Nat) : Bool := match s.sbPlace lane seg, s.slotChans lane seg slot with
  | some (_, l, b), some (c, q) => s.blockUsable c l b && s.blockUsable q l b
  | _, _ => false

/-- The member channels of a superblock whose blocks may be programmed now. -/
def sbUsable (s : State) (lane seg : Nat) : List Nat := match s.sbPlace lane seg with
  | some (_, l, b) => (s.sb lane seg).chans.filter fun c => s.blockUsable c l b
  | none => []

/-! ## The journal (R212, R214) -/

def jrnCode : JrnKind → Nat
  | .mapSet => 1 | .mapClear => 2 | .mapZero => 3 | .extentSet => 4 | .sbOpen => 5 | .sbClose => 6
  | .eraseBegin => 7 | .eraseEnd => 8 | .blockRetire => 9 | .bandReset => 10 | .dwe => 11
  | .dumpReplayed => 12

/-- The record type of a code; none for a reserved one. -/
def jrnKind : Nat → Option JrnKind
  | 1 => some .mapSet | 2 => some .mapClear | 3 => some .mapZero | 4 => some .extentSet | 5 => some .sbOpen
  | 6 => some .sbClose | 7 => some .eraseBegin | 8 => some .eraseEnd | 9 => some .blockRetire
  | 10 => some .bandReset | 11 => some .dwe | 12 => some .dumpReplayed | _ => none

/-- The 32 bytes of a record (R214). -/
def jrnBytesOf (r : JrnRec) : List Byte :=
  leBytes 1 (jrnCode r.kind) ++ zeros 1 ++ leBytes 2 r.ns ++ leBytes 4 r.count ++ leBytes 8 r.a ++ leBytes 8 r.b
    ++ leBytes 8 r.c

/-- The record of 32 bytes with its sequence number; none for a reserved TYPE (R215). -/
def jrnParse (seq : Nat) (l : List Byte) : Option JrnRec :=
  (jrnKind (field l 0 1)).map fun k =>
    { seq := seq, kind := k, ns := field l 2 2, count := field l 4 4, a := field l 8 8, b := field l 0x10 8,
      c := field l 0x18 8, time := 0 }

/-- A journal codeword: the header of Table 06.4 and its records. -/
def jrnCwBytes (pageSeq ckpt time : Nat) (recs : List JrnRec) : List Byte :=
  let h := leBytes 2 0x4A4E ++ leBytes 2 0x0100 ++ leBytes 2 recs.length ++ zeros 2 ++ leBytes 8 pageSeq
    ++ leBytes 8 ((recs.head?.map (·.seq)).getD 0) ++ leBytes 8 ckpt ++ leBytes 8 time ++ zeros 20
  let b := (recs.map jrnBytesOf).flatten
  h ++ leBytes 4 (crc32c (h ++ b)) ++ b

/-- The records of a journal codeword; none where its header or CRC fails or a TYPE is reserved (R215). -/
def jrnCwRecs (pageSeq : Nat) (l : List Byte) : Option (List JrnRec) :=
  let n := field l 4 2
  let b := slice l 64 (32 * n)
  if field l 0 2 = 0x4A4E && field l 2 2 = 0x0100 && 1 ≤ n && n ≤ 126 && field l 8 8 = pageSeq
      && field l 0x3C 4 = crc32c (l.take 0x3C ++ b) then
    (List.range n).mapM fun i => jrnParse (field l 0x10 8 + i) (slice b (32 * i) 32)
  else none

/-- The records of a chain of codewords, up to the first that ends it (R215), with the last PAGE_SEQ read. -/
def jrnChain : List (Nat × List Byte) → Option Nat → List JrnRec × Option Nat
  | [], last => ([], last)
  | (q, l) :: rest, last =>
    if last.isSome && last ≠ some (q - 1) then ([], last)
    else match jrnCwRecs q l with
      | some recs => (recs ++ (jrnChain rest (some q)).1, (jrnChain rest (some q)).2)
      | none => ([], last)

/-- Appends a record: its sequence number is one greater than that of the record before it. -/
def appendJrn (s : State) (kind : JrnKind) (ns count a b c : Nat) : State :=
  s.modFtl fun f =>
    let r : JrnRec :=
      { seq := f.nextSeq, kind := kind, ns := ns, count := count, a := a, b := b, c := c, time := s.tick }
    { f with tail := f.tail ++ [r], nextSeq := f.nextSeq + 1 }

/-- The sequence number of the record appended last. -/
def lastSeq (s : State) : Nat := s.ftl.nextSeq - 1

/-! ## Extents and the map (R202–R204) -/

def extent (s : State) (nsid ext : Nat) : Extent := sparseGet (fun _ => Extent.reset) s.ftl.extents (extKey nsid ext)

/-- Where the map chunk of an extent lies: 4 bytes for each of its units (R203). -/
def chunkAt (s : State) (nsid ext : Nat) : Nat := Config.bufferPlace 3 + 1024 * (s.extent nsid ext).chunk

/-- A use of an extent reads its entry and its map chunk: one that is uncorrectable is rebuilt from the checkpoint and
the journal and written whole before the use goes on (Table 13.4). -/
def touchMap (s : State) (nsid ext : Nat) : State :=
  let sound := fun (s : State) (a n : Nat) =>
    let (ok, s) := s.dramCheck a n
    if ok then s else s.dramFill a n
  sound (sound s (Config.extentPlace nsid ext) 8) (s.chunkAt nsid ext) 1024

/-- Writes an extent entry without a journal record (heat changes are not journaled, R224). -/
def putExtent (s : State) (nsid ext : Nat) (e : Extent) : State :=
  s.modFtl fun f => { f with extents := sparsePut (fun _ => Extent.reset) f.extents (extKey nsid ext) e }

/-- Writes an extent entry with its EXTENT_SET record. -/
def setExtent (s : State) (nsid ext : Nat) (e : Extent) : State :=
  (s.putExtent nsid ext e).appendJrn .extentSet nsid 1 ext e.encode 0

/-- The actuator's data channel is not OFFLINE. -/
def actOnline (s : State) (a : Nat) : Bool := s.getF (F.dchStatusState a) ≠ 5

/-- Condition of the head that serves a band; a head that the preamp does not have serves none (R245). -/
def bandHead (s : State) (b : Nat) : HeadCond := match s.bandRec b with
  | some z =>
    if (s.diskAct z.act).preamp.any fun p => p.heads ≤ z.head then .offline
    else sparseGet (fun _ => HeadCond.good) (s.diskAct z.act).heads z.head
  | none => .offline

/-- The actuator of a DISK extent is online. -/
def extOnline (s : State) (e : Extent) : Bool := match s.bandRec e.band with
  | some z => s.actOnline z.act
  | none => false

/-- A band's surface or actuator is offline (R582). -/
def bandGone (s : State) (b : Nat) : Bool := s.bandHead b = .offline || match s.bandRec b with
  | some z => !s.actOnline z.act
  | none => true

/-- The mark of a degraded namespace clears once every unit concerned has been written again or deallocated, and no
extent of it lies on a surface or an actuator that is offline (R583). -/
def checkWhole (s : State) (nsid : Nat) : State := match s.ns nsid with
  | some n =>
    let gone := s.ftl.extents.any fun e => e.1 / 2 ^ 32 = nsid && e.2.st = .disk && s.bandGone e.2.band
    if n.degraded && n.lost.isEmpty && !gone then s.modNs nsid fun n => { n with degraded := false } else s
  | none => s

/-- A unit has been written again or deallocated. -/
def unitMended (s : State) (nsid unit : Nat) : State :=
  match s.ns nsid with
  | some n => if n.lost.contains unit then (s.modNs nsid fun n => { n with lost := n.lost.erase unit }).checkWhole nsid else s
  | none => s

def mapOf (s : State) (nsid unit : Nat) : Nat :=
  sparseGet (fun _ => mapUnmapped) s.ftl.map (unitKeyOf nsid unit)

/-- Writes a map entry, keeping the valid counts of the superblocks it leaves and enters; `seq` is
the record that says so. -/
def putMap (s : State) (nsid unit v seq : Nat) : State :=
  let lane := unit % 4
  let old := s.mapOf nsid unit
  let s := if old < mapZero - 15 then
      s.modSb lane (s.sbOfSlot lane old) fun x => { x with valid := x.valid - 1, lastSeq := seq }
    else s
  let s := if v < mapZero - 15 then
      s.modSb lane (s.sbOfSlot lane v) fun x => { x with valid := x.valid + 1 }
    else s
  (s.modFtl fun f => { f with map := sparsePut (fun _ => mapUnmapped) f.map (unitKeyOf nsid unit) v }).dramFill
    (s.chunkAt nsid (unit / 256) + 4 * (unit % 256)) 4

/-- Maps one unit to a slot (MAP_SET). -/
def mapSet (s : State) (nsid unit slot : Nat) : State :=
  ((s.putMap nsid unit slot s.ftl.nextSeq).appendJrn .mapSet nsid 1 unit slot (unit % 4)).unitMended nsid unit

/-- Maps a run of units to UNMAPPED or ZERO (MAP_CLEAR, MAP_ZERO), one record for each extent. -/
def mapRun (s : State) (kind : JrnKind) (v nsid first count : Nat) : State :=
  let exts := (List.range (ceilDiv (first % 256 + count) 256)).map (first / 256 + ·)
  forEach exts s fun s e =>
    let lo := max first (e * 256)
    let hi := min (first + count) ((e + 1) * 256)
    let s := forEach (List.range (hi - lo)) s fun s i =>
      (s.putMap nsid (lo + i) v s.ftl.nextSeq).unitMended nsid (lo + i)
    s.appendJrn kind nsid (hi - lo) lo 0 0

/-- The namespace is tiered. -/
def isTiered (s : State) (nsid : Nat) : Bool := match s.ns nsid with
  | some n => n.type = .tiered
  | none => false

/-- Chunks that tiered namespaces hold. -/
def tieredChunks (s : State) : Nat :=
  s.ftl.extents.countP fun e => s.isTiered (e.1 / 2 ^ 32) && (e.2.st = .flash || e.2.st = .moving)

/-- Chunks that tiered namespaces may still take, under TIER_CAP (R204, R225). -/
def freeTiered (s : State) : Nat := s.getF F.ftlTierCapChunks - s.tieredChunks

/-- Chunks that flash namespaces have reserved and not taken yet (R204). -/
def reservedChunks (s : State) : Nat :=
  (s.host.nss.map fun e => match e.2 with
    | some n => if n.type = .flash then
        ceilDiv (n.size * n.block) (2 ^ 20)
          - s.ftl.extents.countP fun x => x.1 / 2 ^ 32 = e.1 && x.2.st ≠ .unalloc
      else 0
    | none => 0).sum

/-- `n` more chunks may be taken for a namespace (R204): a tiered one leaves what flash namespaces reserved and
stays within TIER_CAP. -/
def chunkRoom (s : State) (nsid n : Nat) : Bool :=
  let pool := s.ftl.freeChunks.length + (s.ftl.chunks - s.ftl.nextChunk)
  if s.isTiered nsid then n ≤ s.freeTiered && n + s.reservedChunks ≤ pool else n ≤ pool

/-- Takes a map chunk from the pool. -/
def takeChunk (s : State) : Option Nat × State :=
  match s.ftl.freeChunks with
  | c :: rest => (some c, s.modFtl fun f => { f with freeChunks := rest })
  | [] =>
    if s.ftl.nextChunk < s.ftl.chunks then
      (some s.ftl.nextChunk, s.modFtl fun f => { f with nextChunk := f.nextChunk + 1 })
    else (none, s)

/-- The first write of an UNALLOC extent allocates a chunk; it starts warm (R204, R224). -/
def allocExtent (s : State) (nsid ext : Nat) : State :=
  if (s.extent nsid ext).st ≠ .unalloc || !s.chunkRoom nsid 1 then s
  else match s.takeChunk with
    | (some c, s) =>
      s.setExtent nsid ext { Extent.reset with st := .flash, chunk := c }
    | (none, s) => s

/-- An extent whose units are all UNMAPPED becomes UNALLOC; its chunk is freed once that record is
durable (R204, R222). -/
def dropIfEmpty (s : State) (nsid ext : Nat) : State :=
  let e := s.extent nsid ext
  if e.st = .flash && (List.range 256).all fun i => s.mapOf nsid (ext * 256 + i) = mapUnmapped then
    let s := s.setExtent nsid ext Extent.reset
    s.modFtl fun f => { f with chunkFree := f.chunkFree ++ [(f.nextSeq - 1, e.chunk)] }
  else s

/-- Adds to the heat of the extents of a range of units (R223). -/
def addHeat (s : State) (nsid first count n : Nat) : State :=
  forEach ((List.range (ceilDiv (first % 256 + count) 256)).map (first / 256 + ·)) s fun s e =>
    let x := s.extent nsid e
    if x.st = .unalloc then s else s.putExtent nsid e { x with heat := min 255 (x.heat + n) }

/-! ## What a unit holds -/

/-- Tweak of a unit: the LBA of its first logical block (R431). -/
def unitTweak (s : State) (nsid unit : Nat) : Nat := match s.ns nsid with
  | some n => unit * (4096 / n.block)
  | none => unit

/-- Ciphertext of a unit under its namespace's key. -/
def encUnit (s : State) (nsid unit : Nat) (l : List Byte) : List Byte := match s.nsKey nsid with
  | some k => xtsUnit true k (s.unitTweak nsid unit) l
  | none => l

def decUnit (s : State) (nsid unit : Nat) (l : List Byte) : List Byte := match s.nsKey nsid with
  | some k => xtsUnit false k (s.unitTweak nsid unit) l
  | none => l

/-- The information bytes of a codeword (R172): the data, then the header with NSID, unit and CRC-32C. -/
def infoBytes (nsid unit : Nat) (l : List Byte) : List Byte :=
  let h := fit 4096 l ++ leBytes 4 nsid ++ leBytes 8 unit
  h ++ leBytes 4 (crc32c h)

/-- The header CRC of information bytes matches (R172, R175). -/
def headerOk (l : List Byte) : Bool := field l 4108 4 = crc32c (l.take 4108)

/-- What a slot holds: one never written holds zeros. -/
def slotInfo (s : State) (lane slot : Nat) : List Byte := fit 4112 (sparseGet (fun _ => []) s.ftl.media (slotKey lane slot))

/-- What a written slot or band unit holds, without its header; one never written holds zeros. -/
def slotData (s : State) (lane slot : Nat) : List Byte := (s.slotInfo lane slot).take 4096
def bandData (s : State) (band unit : Nat) : List Byte :=
  sparseGet (fun _ => zeros 4096) s.dch.data (band * 65536 + unit)

/-- The zone of a zoned-disk unit: its band. -/
def zoneBand (s : State) (nsid zone : Nat) : Option Nat := match s.ns nsid with
  | some n => (n.zones[zone]?).map (·.2)
  | none => none

/-- The media copy of a unit, in the clear (Tables 06.1 and 06.2, R259). -/
def mediaUnit (s : State) (nsid unit : Nat) : List Byte :=
  match s.ns nsid with
  | none => zeros 4096
  | some n =>
    if n.type = .zoned then
      match s.zoneBand nsid (unit / 65536) with
      | some b => if s.unitVerified b (unit % 65536) then s.decUnit nsid unit (s.bandData b (unit % 65536))
        else zeros 4096
      | none => zeros 4096
    else
      let e := s.extent nsid (unit / 256)
      match e.st with
      | .unalloc => zeros 4096
      | .disk =>
        if sparseGet (fun _ => false) s.ftl.diskClear (unitKeyOf nsid unit) then zeros 4096
        else s.decUnit nsid unit (s.bandData e.band (e.slot * 256 + unit % 256))
      | _ =>
        let v := s.mapOf nsid unit
        if mapZero - 15 < v then zeros 4096 else s.decUnit nsid unit (s.slotData (unit % 4) v)

/-- The unit is held by no medium and needs no key: UNMAPPED, ZERO or UNALLOC (R432). -/
def unitEmpty (s : State) (nsid unit : Nat) : Bool :=
  match s.ns nsid with
  | none => true
  | some n =>
    if n.type = .zoned then match s.zoneBand nsid (unit / 65536) with
      | some b => !s.unitVerified b (unit % 65536)
      | none => true
    else match (s.extent nsid (unit / 256)).st with
      | .unalloc => true
      | .disk => sparseGet (fun _ => false) s.ftl.diskClear (unitKeyOf nsid unit)
      | _ => mapZero - 15 < s.mapOf nsid unit

/-! ## The write buffer (R205–R208) -/

/-- FTL_WB.USED follows the entries. -/
def syncWb (s : State) : State := s.setF F.ftlWbUsed (ceilDiv s.ftl.wb.length 64)

/-- `n` more units fit into the usable buffer. -/
def wbRoom (s : State) (n : Nat) : Bool := s.ftl.wb.length + n ≤ s.getF F.ftlWbEff * 64

/-- The latest complete entry of a unit. -/
def wbFind (s : State) (nsid unit : Nat) : Option WbEntry :=
  (s.ftl.wb.filter fun e => e.nsid = nsid && e.unit = unit && e.complete).foldl
    (fun a e => match a with
      | some x => if x.order < e.order then some e else some x
      | none => some e) none

/-- The data of a unit as a host reads it: from the buffer if it is there, else from the media. -/
def unitData (s : State) (nsid unit : Nat) : List Byte :=
  match s.wbFind nsid unit with
  | some e => e.data
  | none => s.mediaUnit nsid unit

/-- Bytes of a run of logical blocks. -/
def readBlocks (s : State) (nsid lba count : Nat) : List Byte :=
  match s.ns nsid with
  | none => []
  | some n =>
    let per := 4096 / n.block
    let first := lba / per
    let all := ((List.range (ceilDiv (lba % per + count) per)).map fun i => s.unitData nsid (first + i)).flatten
    slice all (lba % per * n.block) (count * n.block)

/-- Pending deallocations no longer cover a unit that is written again. -/
def cutDeallocs (s : State) (nsid first count : Nat) : State :=
  s.modFtl fun f => { f with deallocs := (f.deallocs.map fun d =>
      if d.nsid ≠ nsid || first + count ≤ d.first || d.first + d.count ≤ first then [d]
      else ([{ d with count := first - d.first },
            { d with first := first + count, count := d.first + d.count - (first + count) }] : List Dealloc).filter
              (0 < ·.count)).flatten }

/-- Extents of a run of units. -/
def extRun (first count : Nat) : List Nat :=
  (List.range (ceilDiv (first % 256 + count) 256)).map (first / 256 + ·)

/-- Places the units of a write in the buffer (R205): they are not complete yet. The first write of an UNALLOC extent
allocates its chunk (R204). -/
def bufferWrite (s : State) (nsid lba count : Nat) (data : List Byte) (key : CmdKey) (gen : Nat) : State :=
  match s.ns nsid with
  | none => s
  | some n =>
    let per := 4096 / n.block
    let first := lba / per
    let units := ceilDiv (lba % per + count) per
    let from_ := lba % per * n.block
    let upTo := from_ + count * n.block
    let new := patch (zeros (4096 * units)) from_ (fit (count * n.block) data)
    let s := if n.type = .zoned then s else forEach (extRun first units) s fun s e => s.allocExtent nsid e
    let s := forEach (List.range units) s fun s i => s.modFtl fun f =>
      let e : WbEntry :=
        { nsid := nsid, unit := first + i, data := slice new (4096 * i) 4096, lo := from_ - 4096 * i,
          hi := min 4096 (upTo - 4096 * i), key := key, gen := gen,
          complete := false, age := s.tick, order := f.nextOrder, flushing := false, slot := none,
          mapped := none }
      { f with wb := f.wb ++ [e], nextOrder := f.nextOrder + 1 }
    s.syncWb

/-- One unit of a write becomes complete (R205, R206): the bytes that the write does not cover are merged from the
unit's current data, older complete entries of the unit are superseded and freed, and the entry is now the latest
of its unit. -/
def completeEntry (s : State) (e : WbEntry) : State :=
  let data := if e.lo = 0 && e.hi = 4096 then e.data
    else patch (s.unitData e.nsid e.unit) e.lo (slice e.data e.lo (e.hi - e.lo))
  (s.modFtl fun f =>
    let wb := f.wb.filter fun x => !(x.complete && x.nsid = e.nsid && x.unit = e.unit)
    { f with wb := mapWhere wb (fun x => x.order = e.order) fun x =>
               { x with complete := true, data := data, lo := 0, hi := 4096, order := f.nextOrder }
             nextOrder := f.nextOrder + 1 }).dramFill (entryAt e.nsid e.unit) 4096

/-- The write of a command is complete (R205): its entries supersede older complete ones (R206), and its extents
leave their move (R226). -/
def completeWrite (s : State) (key : CmdKey) : State :=
  let mine := s.ftl.wb.filter fun e => e.key = key && !e.complete
  let s := forEach mine s fun s e =>
    let s := (s.completeEntry e).cutDeallocs e.nsid e.unit 1
    match s.ns e.nsid with
    | none => s
    | some n =>
      let x := s.extent e.nsid (e.unit / 256)
      if n.type ≠ .zoned && x.st = .moving then s.setExtent e.nsid (e.unit / 256) { x with st := .flash } else s
  s.syncWb

/-- Releases the buffer space of a write whose data is not complete (R89, R95); an extent that it alone had
allocated is UNALLOC again. -/
def releaseBuffer (s : State) (key : CmdKey) : State :=
  let mine := s.ftl.wb.filter fun e => !e.complete && e.key = key
  let s := s.modFtl fun f => { f with wb := f.wb.filter fun e => e.complete || e.key ≠ key }
  (forEach mine s fun s e =>
    if s.ftl.wb.any fun w => w.nsid = e.nsid && w.unit / 256 = e.unit / 256 then s
    else s.dropIfEmpty e.nsid (e.unit / 256)).syncWb

/-! ## LUN queues (R181, R182) -/

/-- Entries of a LUN queue that an operation may take: 8, of which 2 are kept for the FTL's own. -/
def lunRoom (q : List FlashOp) (own : Bool) : Bool :=
  if own then q.length < 8 else q.length < 8 && q.countP (fun o => !o.own) < 6

/-- Moves held operations of a LUN into entries that are free, oldest first. -/
def fillLun (l : Lun) : Lun :=
  l.held.foldl (fun l o =>
    if lunRoom l.queue o.own then
      { l with queue := l.queue ++ [o], held := l.held.filter (· ≠ o) }
    else l) l

/-- Queues an operation on a LUN, or holds it on the LUN's wait list (R182). -/
def queueOp (s : State) (c l : Nat) (o : FlashOp) : State :=
  let o := { o with order := s.fch.nextOp, at_ := s.tick }
  (s.modFch fun f => { f with nextOp := f.nextOp + 1 }).modLun c l fun x => fillLun { x with held := x.held ++ [o] }

/-- A new operation. -/
def newOp (s : State) (kind : FlashKind) (user : FlashUser) (owner : Nat) (own : Bool)
    (block page cw planes : Nat) : FlashOp :=
  { kind := kind, user := user, owner := owner, own := own, block := block, page := page, cw := cw,
    planes := planes, began := none, issued := none, suspendedAt := none, suspends := 0, step := 0,
    ready := false, pollAt := s.tick, order := 0, at_ := s.tick, gen := 0, moved := 0, soft := 0, skip := 0 }

/-! ## Slots, rows and superblocks (R199–R201, R208, R210) -/

/-- Stream of a host write to an extent (Table 06.3). -/
def hostStream (s : State) (nsid ext : Nat) : Stream :=
  let e := s.extent nsid ext
  if e.classified && s.getF F.ftlHeatCfgHotMin ≤ e.heat then .hostHot else .hostWarm

/-- The next slot of a superblock from `next` on that may be filled. -/
def nextSlot (s : State) (lane seg : Nat) : Option Nat :=
  let x := s.sb lane seg
  ((List.range (x.slots - x.next)).map (x.next + ·)).find? fun o => s.slotUsable lane seg (seg * 16384 + o)

/-- The open superblock of a stream in a lane that takes data: at least 4 of its members can be programmed
(R195). -/
def openSb (s : State) (stream : Stream) (lane : Nat) : Option Nat :=
  ((s.listedSbs lane).find? fun e => e.2.st = .opened && e.2.stream = some stream
    && 4 ≤ (s.sbUsable lane e.1).length && (s.nextSlot lane e.1).isSome).map (·.1)

/-- The members that a superblock would have if it were opened now (R190, R195, R196, R221): online channels of its
group whose block is neither on a fenced LUN nor retired, and erased where that is due first. -/
def sbMembers (s : State) (lane seg : Nat) : List Nat := match s.sbPlace lane seg with
  | some (g, l, b) => (s.groupMembers g).filter fun c =>
      s.blockUsable c l b && (!(s.chan c).eraseFirst || (s.chan c).erasedSbs.contains (sbKey lane seg))
  | none => []

/-- Closes a superblock whose last row is programmed (R210). -/
def closeSb (s : State) (lane seg : Nat) : State :=
  (s.modSb lane seg fun x => { x with st := .closed }).appendJrn .sbClose lane 0 seg 0 0

/-- FTL_FREE_SB of a lane, with what it makes urgent (R219): from 4 free superblocks down until there are 6. -/
def setFreeSbs (s : State) (lane n : Nat) : State :=
  let s := (s.setF (F.ftlFreeSbCount lane) n).modFtl fun f =>
    { f with urgent := if n ≤ 4 then insertRising f.urgent lane else if 6 ≤ n then f.urgent.filter (· ≠ lane) else f.urgent }
  s.setF F.ftlStatusGcUrgent (!s.ftl.urgent.isEmpty).toNat

/-- Counts a lane's free superblocks again. -/
def countFreeSbs (s : State) (lane : Nat) : State :=
  s.setFreeSbs lane ((s.laneSbs lane).countP fun seg => (s.sb lane seg).st = .free)

/-- Opens the first free superblock of a lane that still has 4 members (R190, R195). -/
def openNewSb (s : State) (stream : Stream) (lane : Nat) : Option Nat × State :=
  let usable := fun seg => (s.sb lane seg).st = .free && 4 ≤ (s.sbMembers lane seg).length
  match (s.laneSbs lane).find? usable with
  | none => (none, s)
  | some seg => match s.sbPlace lane seg with
    | none => (none, s)
    | some (g, l, b) =>
      let cs := s.sbMembers lane seg
      let x : Superblock :=
        { Superblock.reset with st := .opened, stream := some stream, chans := cs, slots := s.sbSlots g cs.length }
      let s := (s.setSb lane seg x).appendJrn .sbOpen lane 0 seg
        (g + 2 ^ 8 * l + 2 ^ 16 * b + 2 ^ 32 * cs.length + 2 ^ 40 * stream.num) 0
      (some seg, s.setFreeSbs lane (s.getF (F.ftlFreeSbCount lane) - 1))

/-- Programs a stripe row: one page on every member channel that can be programmed (R190). Its cells are those of
the owner of the row (R54). -/
def programRow (s : State) (lane seg row : Nat) : State :=
  match s.sbPlace lane seg with
  | none => s
  | some (_, l, b) =>
    let cs := s.sbUsable lane seg
    let owner := ((sparseGet (fun _ => none) s.ftl.rows (sbKey lane seg)).map fun (r : RowFill) => r.owner).getD ownMedia
    let s := s.modFtl fun f =>
      { f with progs := f.progs ++ [{ lane := lane, seg := seg, row := some row, left := cs }]
               rows := sparsePut (fun _ => none) f.rows (sbKey lane seg) none }
    forEach cs s fun s c =>
      s.queueOp c l (s.newOp .program (.row lane seg row) owner true b row 0 1)

/-- The next data slot of a stream in a lane; a row that fills is programmed. With no superblock to open, the wait
of R211 begins. -/
def takeSlot (s : State) (stream : Stream) (lane owner : Nat) : Option Nat × State :=
  let (seg?, s) := match s.openSb stream lane with
    | some seg => (some seg, s)
    | none => s.openNewSb stream lane
  match seg?.bind fun seg => (s.nextSlot lane seg).map fun o => (seg, o) with
  | none => (none, s.modFtl fun f =>
      if (sparseGet (fun _ => none) f.openWait lane).isSome then f
      else { f with openWait := sparsePut (fun _ => none) f.openWait lane (some s.tick) })
  | some (seg, o) =>
    let per := s.rowSlots lane seg
    -- a row left behind because the rest of it cannot be filled is programmed as it is
    let s := if o / per ≠ (s.sb lane seg).next / per && (sparseGet (fun _ => none) s.ftl.rows (sbKey lane seg)).isSome
      then s.programRow lane seg (((s.sb lane seg).next - 1) / per) else s
    let s := s.modSb lane seg fun x => { x with next := o + 1 }
    let s := s.modFtl fun f =>
      let fill := match sparseGet (fun _ => none) f.rows (sbKey lane seg) with
        | some r => { r with filled := r.filled + 1 }
        | none => { filled := 1, firstAt := s.tick, owner := owner }
      { f with rows := sparsePut (fun _ => none) f.rows (sbKey lane seg) (some fill)
               openWait := sparsePut (fun _ => none) f.openWait lane none }
    (some (seg * 16384 + o), if (o + 1) % per = 0 then s.programRow lane seg (o / per) else s)

/-- The owner that pays for the flush of a buffer entry (R54). -/
def flushOwner (e : WbEntry) : Nat := fnTraffic e.key.fn

/-- Starts or resumes the flush of a buffer entry: it takes a slot of its stream and lane. -/
def flushEntry (s : State) (e : WbEntry) : State :=
  let (slot, s) := s.takeSlot (s.hostStream e.nsid (e.unit / 256)) (e.unit % 4) (flushOwner e)
  s.modFtl fun f => { f with wb := mapWhere f.wb (fun x => x.order = e.order) fun x =>
    { x with flushing := true, slot := slot } }

/-- Entries of a lane that flush and still wait for a slot (R211). -/
def slotWaiters (s : State) (lane : Nat) : List WbEntry :=
  s.ftl.wb.filter fun e => e.flushing && e.slot.isNone && e.unit % 4 = lane

/-- Writes a slot's codeword (R172). -/
def programSlot (s : State) (lane slot nsid unit : Nat) (l : List Byte) : State :=
  s.modFtl fun f => { f with media := sparsePut (fun _ => []) f.media (slotKey lane slot) (infoBytes nsid unit l) }

/-- Key of a parity codeword: its superblock, row and number in the page. -/
def parityKey (lane seg row k : Nat) : Nat := (sbKey lane seg * 4096 + row) * 64 + k

/-- Data slots of a row that share codeword `k` (R190). -/
def stripeSlots (s : State) (lane seg row k : Nat) : List Nat := match s.sbPlace lane seg with
  | some (g, _, _) =>
    (List.range ((s.sb lane seg).members - 1)).map fun d =>
      seg * 16384 + row * s.rowSlots lane seg + d * s.pageCws g + k
  | none => []

/-- The parity page of a row: codeword `k` is the exclusive or of the information bytes of codeword `k` of every
data page (R190). -/
def programParity (s : State) (lane seg row : Nat) : State := match s.sbPlace lane seg with
  | some (g, _, _) => forEach (List.range (s.pageCws g)) s fun s k =>
    let p := (s.stripeSlots lane seg row k).foldl (fun l v => xorBytes l (s.slotInfo lane v)) (zeros 4112)
    s.modFtl fun f => { f with parity := sparsePut (fun _ => []) f.parity (parityKey lane seg row k) p }
  | none => s

/-- Every copy of a promotion's extent has been programmed: its units are mapped, but for those deallocated in the
meantime, and EXTENT_SET to FLASH is appended. The extent is served from its band until that record is durable
(R227). -/
def finishPromotion (s : State) (nsid ext : Nat) : State :=
  let mine := s.ftl.copies.filter fun c => c.nsid = nsid && c.unit / 256 = ext && c.src.isNone
  if mine.isEmpty || mine.any (fun c => !c.ready) then s
  else
    let s := forEach mine s fun s c => match c.dst with
      | some v => if sparseGet (fun _ => false) s.ftl.diskClear (unitKeyOf nsid c.unit) then s else s.mapSet nsid c.unit v
      | none => s
    let s := s.appendJrn .extentSet nsid 1 ext { s.extent nsid ext with st := .flash }.encode 0
    s.modFtl fun f => { f with copies := f.copies.filter fun c => !mine.contains c
                               promos := f.promos ++ [(nsid, ext, f.nextSeq - 1)] }

/-- A superblock whose data has ended closes once none of its rows is short or being programmed (R210). -/
def closeFull (s : State) (lane seg : Nat) : State :=
  if (s.sb lane seg).st = .opened && (s.nextSlot lane seg).isNone
      && (sparseGet (fun _ => none) s.ftl.rows (sbKey lane seg)).isNone
      && !(s.ftl.progs.any fun p => p.lane = lane && p.seg = seg) then s.closeSb lane seg
  else s

/-- A stripe row has programmed with PASS on every member, parity included (R185): its buffer
entries are mapped, and its copies are ready to commit. -/
def commitRow (s : State) (lane seg row : Nat) : State :=
  let inRow := fun (slot : Nat) => s.sbOfSlot lane slot = seg && s.slotRow lane seg slot = row
  let mine := s.ftl.wb.filter fun e =>
    e.unit % 4 = lane && e.mapped.isNone && match e.slot with
      | some v => inRow v
      | none => false
  let s := forEach mine s fun s e => match e.slot with
    | none => s
    | some v =>
      let s := ((s.useMasks 256).programSlot lane v e.nsid e.unit (s.encUnit e.nsid e.unit e.data)).mapSet e.nsid e.unit v
      s.modFtl fun f => { f with wb := mapWhere f.wb (fun x => x.order = e.order) fun x =>
        { x with mapped := some (f.nextSeq - 1) } }
  let copies := s.ftl.copies.filter fun c => c.unit % 4 = lane && !c.ready && match c.dst with
    | some v => inRow v
    | none => false
  let s := forEach copies s fun s c => match c.dst with
    | none => s
    | some v =>
      let s := s.programSlot lane v c.nsid c.unit c.data
      s.modFtl fun f => { f with copies := mapWhere f.copies (· = c) fun x => { x with ready := true } }
  let s := s.programParity lane seg row
  let s := forEach (copies.filter (·.src.isNone)) s fun s c => s.finishPromotion c.nsid (c.unit / 256)
  s.closeFull lane seg

/-! ## Host reads that the media cannot serve -/

/-- A namespace's extents that a run of logical blocks touches (1 MiB each, R494). -/
def extentsOf (s : State) (nsid lba count : Nat) : List (Nat × Nat) :=
  let blk := match s.ns nsid with
    | some n => n.block
    | none => 4096
  let lo := lba * blk / 2 ^ 20
  let hi := (lba * blk + max 1 (count * blk) - 1) / 2 ^ 20
  (List.range (hi - lo + 1)).map fun i => (nsid, lo + i)

/-- A read may be served through the double (R500): the mirror path is up and no extent is dirty. -/
def throughDouble (s : State) (nsid lba count : Nat) : Bool :=
  s.mirroring && (s.extentsOf nsid lba count).all fun e => !s.isDirty e.1 e.2

/-- Sends READ_REQ for a command's range (R500), one message for each unit, since READ_DATA carries at most
4096 bytes (Table 14.2). -/
def sendReadReq (s : State) (c : Cmd) (nsid lba count : Nat) : State :=
  let per := match s.ns nsid with
    | some n => 4096 / n.block
    | none => 1
  let group := s.cnt.nextTag
  forEach (List.range (ceilDiv (lba % per + count) per)) s fun s i =>
    let u := lba / per + i
    let lo := max lba (u * per)
    let n := min (lba + count) ((u + 1) * per) - lo
    let tag := s.cnt.nextTag
    let r : PairRead := { tag := tag, key := c.key, gen := c.gen, nsid := nsid, lba := lo, count := n, group := group, data := none }
    (s.sendMsg msgReadReq nsid (if c.key.fn = 0 then noTenant else c.key.fn - 1) c.gen
      (leBytes 8 lo ++ leBytes 4 n ++ leBytes 4 tag) (some c.key) 0).modCnt
      fun x => { x with nextTag := (tag + 1) % 2 ^ 32, reads := x.reads ++ [r] }

/-- A host read is unrecoverable on this device (R179, R261, R500): the double serves it, or it ends with
Unrecovered Read Error. A Verify returns no data and ends here. -/
def hostReadLost (s : State) (key : CmdKey) : State :=
  match s.host.cmds.find? (fun (c : Cmd) => c.key = key && c.st = .executing) with
  | none => s
  | some c =>
    let lba := c.sqe.dw10 + 2 ^ 32 * c.sqe.dw11
    let count := c.sqe.dw12 % 65536 + 1
    if s.cnt.reads.any (·.key = key) then s
    else if c.sqe.opc = 0x02 && s.throughDouble c.sqe.nsid lba count then s.sendReadReq c c.sqe.nsid lba count
    else s.endCmd key 2 0x81 0 0 []

/-! ## Units that readers wait for -/

/-- An instance number and a generation that work carries are out of date (R138). -/
def isStale (s : State) (inst gen : Nat) : Bool := inst < 512 && gen ≠ s.getF (F.instStatusGen inst)

/-- A result of an older generation has come back (R138): what it held is released, and it waits to be counted. -/
def staleResult (s : State) (inst gen : Nat) : State :=
  s.modTenant inst fun t => { t with staleOps := t.staleOps ++ [gen] }

/-- Entries of the read table that pass are gone. -/
def forgetReads (s : State) (p : UnitRead → Bool) : State := s.modFtl fun f => { f with reads := f.reads.filter fun r => !p r }

/-- A reader still waits for units of its generation. -/
def mediaWaits (s : State) (reader : ReadFor) (gen : Nat) : Bool :=
  s.ftl.reads.any fun r => r.reader = reader && r.gen = gen && !r.lost

/-- Units that the media has lost to a reader. -/
def lostUnits (s : State) (reader : ReadFor) (gen : Nat) : List Nat :=
  (s.ftl.reads.filter fun r => r.reader = reader && r.gen = gen && r.lost).map (·.unit)

/-- Answers a read of the partner once no unit of it is on its way (R500). -/
def servePair (s : State) (tag : Nat) : State := match s.cnt.serving.find? (·.tag = tag) with
  | none => s
  | some r =>
    if s.mediaWaits (.pair tag) 0 then s
    else
      let lost := !(s.lostUnits (.pair tag) 0).isEmpty
      let s := (s.forgetReads fun x => x.reader = .pair tag).modCnt fun c => { c with serving := c.serving.filter (·.tag ≠ tag) }
      s.sendMsg msgReadData r.nsid r.tenant r.gen (leBytes 4 tag ++ leBytes 4 (if lost then statusWord 2 0x81 else 0)
        ++ (if lost then [] else s.readBlocks r.nsid r.lba r.count)) none 0

/-- A unit from the media passes a read staging buffer: it is lost where that reads back uncorrectable (Table 13.4). -/
def staged (s : State) : Bool × State :=
  let (ok, s) := (s.dramFill (Config.bufferPlace 2) 4096).dramCheck (Config.bufferPlace 2) 4096
  (!ok, s)

/-- A media read of a unit has ended for its reader: an older generation is discarded (R138); a command that lost a
unit ends, or reads through the double; any other reader finds the unit delivered or lost. -/
def readEnds (s : State) (reader : ReadFor) (inst gen : Nat) (p : UnitRead → Bool) (lost : Bool) : State :=
  let hit := fun (r : UnitRead) => r.reader = reader && r.gen = gen && !r.lost && p r
  if s.isStale inst gen then (s.forgetReads hit).staleResult inst gen
  else if !(s.ftl.reads.any hit) then s
  else
    let (lost, s) := if lost then (true, s) else s.staged
    let s := match reader, lost with
      | .cmd key, true => (s.forgetReads hit).hostReadLost key
      | _, true => s.modFtl fun f => { f with reads := mapWhere f.reads hit fun r => { r with lost := true } }
      | _, false => s.forgetReads hit
    match reader with
    | .pair tag => s.servePair tag
    | _ => s

/-- The namespace is a zoned-disk namespace. -/
def isZoned (s : State) (nsid : Nat) : Bool := match s.ns nsid with
  | some n => n.type = .zoned
  | none => false

/-- Where a band holds a unit: band and band unit. -/
def unitBand (s : State) (nsid unit : Nat) : Option (Nat × Nat) :=
  if s.isZoned nsid then (s.zoneBand nsid (unit / 65536)).map fun b => (b, unit % 65536)
  else
    let e := s.extent nsid (unit / 256)
    if e.st = .disk then some (e.band, e.slot * 256 + unit % 256) else none

/-- Marks a namespace degraded, with one health event at the mark (R583). -/
def degradeNs (s : State) (i : Nat) : State := match s.ns i with
  | some n => if n.degraded then s else (s.modNs i fun n => { n with degraded := true }).health 0x0004 5 i [i] 0
  | none => s

/-- Marks the namespaces whose DISK extents on some bands can no longer be read as degraded, with one
health event each (R583). -/
def degradeBands (s : State) (p : Nat → Bool) : State :=
  let lost := s.nsids.filter fun i =>
    s.ftl.extents.any fun e => e.1 / 2 ^ 32 = i && e.2.st = .disk && p e.2.band
      && !(s.mirroring && !s.isDirty i (e.1 % 2 ^ 32))
  forEach lost s degradeNs

/-- A unit is unrecoverable because its stripe lost a second member (R196). -/
def unitLost (s : State) (nsid unit : Nat) : State :=
  (s.modNs nsid fun n => { n with lost := if n.lost.contains unit then n.lost else unit :: n.lost }).degradeNs nsid

/-! ## Deferred write errors (R118–R122, R618) -/

/-- Enters one error on a controller's page: 64 entries, then LOST_COUNT (R122). -/
def enterDwe (s : State) (fn : Nat) (d : Dwe) (cond : Bool) : State :=
  s.modCtrl fn fun c =>
    let c := if c.dwes.length < 64 then { c with dwes := c.dwes ++ [d] }
      else { c with dweLost := min (c.dweLost + 1) 0xFFFF }
    if cond && !c.dweConds.contains d.nsid then { c with dweConds := c.dweConds ++ [d.nsid] } else c

/-- Records a deferred write error against the namespace and the issuing controller (R118, R120). -/
def deferredWrite (s : State) (nsid : Nat) (key : Option CmdKey) (lba count cause : Nat) : State :=
  let fn := (key.map (·.fn)).getD 0
  let d : Dwe :=
    { nsid := nsid, sq := (key.map (·.sq)).getD 0, cid := (key.map (·.cid)).getD 0, first := lba,
      count := count, cause := cause, time := s.now }
  let s := s.enterDwe fn d true
  let s := if fn = 0 then s
    else ((s.enterDwe 0 d false).setF (F.instStatusDwePending (fn - 1)) 1).raiseEvent fn 7 0xC0 0xC0
  let s := (s.raiseEvent 0 7 0xC0 0xC0).alertDeferredWrite
  let s := s.appendJrn .dwe nsid count lba (d.sq + 2 ^ 16 * d.cid + 2 ^ 32 * cause) d.time
  let s := s.modFtl fun f => { f with dweCount := f.dweCount + 1 }
  s.health 0x0009 5 nsid [nsid] lba

/-- Logical blocks in a unit of a namespace. -/
def blocksPerUnit (s : State) (nsid : Nat) : Nat := match s.ns nsid with
  | some n => 4096 / n.block
  | none => 1

/-- Records the loss of a buffered unit and drops its entry. -/
def loseEntry (s : State) (e : WbEntry) (cause : Nat) : State :=
  let per := s.blocksPerUnit e.nsid
  let s := s.deferredWrite e.nsid (some e.key) (e.unit * per) per cause
  (s.modFtl fun f => { f with wb := f.wb.filter fun x => x.order ≠ e.order }).syncWb

end State

end Sys2Proof.Machine
end

