-- ==== Sys2Proof/Machine/Slate.lean ====
section
/-! DEFINITION. The slate (chapter 02): columns and owners, the decision of a cell and the spare ring,
validation, loading and activation, the default slate, and the commands of the SLT block. -/

namespace Sys2Proof.Machine

/-! ## Columns and owners (Tables 02.1, 02.2, 02.8; Table 00.4) -/

/-- Stride of a column in slots. -/
def colStride (c : Nat) : Nat :=
  if c < 2 then 1 else if c < 18 then 8 else if c < 20 then 1 else if c < 24 then 16
  else if c = 25 || c = 27 then 2 else 1

/-- Cells of a column per frame. -/
def colCells (c : Nat) : Nat := 1024 / colStride c

/-- Quantum that the directory states (Table 02.7). -/
def colQuantum (c : Nat) : Nat :=
  if c < 18 || c = 27 then 256 else if 20 ≤ c && c < 24 then 0 else 512

/-- Index of a column's cell 0 in the cell array. -/
def colFirst (c : Nat) : Nat := ((List.range c).map colCells).sum

/-- The column that holds a cell-array index. -/
def colOfIndex (i : Nat) : Nat :=
  ((List.range 28).find? fun c => i < colFirst c + colCells c).getD 27

/-- The owner code is one that R12 defines. -/
def ownerDefined (o : Nat) : Bool :=
  o < 512 || o = ownFirmware || o = ownMedia || o = ownMirror || o = ownDisk || o = ownSpare

/-- Table 02.2. -/
def ownerAdmitted (o c : Nat) : Bool :=
  let dram := c = 18 || c = 19
  if o = ownMedia then (2 ≤ c && c < 18) || dram
  else if o = ownDisk then dram
  else if o = ownMirror then dram || c = 26 || c = 27
  else true

/-- Minimum cells of a system owner in a column (Table 02.10). -/
def ownerMinimum (o c : Nat) : Nat :=
  let dram := c = 18 || c = 19
  if o = ownFirmware then
    if c < 2 || dram then 16 else if c = 26 then 8 else 0
  else if o = ownMedia then
    if 2 ≤ c && c < 18 then 16 else if dram then 64 else 0
  else if o = ownDisk then if dram then 32 else 0
  else if o = ownMirror then
    if dram || c = 26 then 16 else if c = 27 then 32 else 0
  else 0

/-- System owners in the order of the default slate's offsets (R77). -/
def systemOwners : List Nat := [ownFirmware, ownMedia, ownDisk, ownMirror]

/-! ## Images (Tables 02.5 to 02.7) -/

/-- Length of a slate image (R62). -/
def slateLen : Nat := 19744

/-- HDR_CRC of an image (R63). -/
def slateCrc (img : List Byte) : Nat := crc32c (img.take 0x3C ++ slice img 0x40 (slateLen - 0x40))

/-- Cells of an image in cell-array order. -/
def cellWords : Nat → List Byte → List Nat
  | 0, _ => []
  | n + 1, l => leNat (l.take 2) :: cellWords n (l.drop 2)

def slateCells (img : List Byte) : List Nat := cellWords 9472 (img.drop 0x320)

/-- A cell's owner and its DONATE flag (R52). -/
def cellOwner (w : Nat) : Nat := w % 1024
def cellDonate (w : Nat) : Bool := bit w 10

/-- The header fields of check 3. -/
def slateHeaderOk (img : List Byte) : Bool :=
  field img 0x04 4 = slateLen && field img 0x08 4 ≠ 0 && field img 0x0C 2 = 1024
    && field img 0x0E 1 = 28 && field img 0x0F 1 = 0 && field img 0x10 4 = 0x40
    && field img 0x14 4 = 0x120 && field img 0x18 4 = 0x320 && field img 0x1C 4 = 9472
    && allZero img 0x28 20

/-- Directory entry `c` as Table 02.7 requires. -/
def slateDirOk (img : List Byte) (c : Nat) : Bool :=
  let e := slice img (0x40 + 8 * c) 8
  field e 0 1 = c && field e 1 1 = colStride c && field e 2 2 = colQuantum c
    && field e 4 2 = colFirst c && field e 6 2 = colCells c

/-- The first cell that fails a test, by cell-array index. -/
def firstCell (cells : List Nat) (bad : Nat → Nat → Bool) : Option Nat :=
  (cells.zipIdx.find? fun e => bad e.1 e.2).map (·.2)

/-- A system owner is below its minimum in a column. -/
def belowMinimum (cells : List Nat) (c : Nat) : Bool :=
  systemOwners.any fun o =>
    ((cells.drop (colFirst c)).take (colCells c)).countP (fun w => cellOwner w = o) < ownerMinimum o c

/-- The checks of Table 02.9 in their order: the reason, the column and the cell of the first
failure (R66), with the accepted versions. -/
def slateReject (img : List Byte) (minV maxV : Nat) : Option (Nat × Nat × Nat) :=
  let cells := slateCells img
  let v := field img 0x02 2
  if field img 0 2 ≠ 0x534C then some (1, 0xFF, 0x3FFF)
  else if v < minV || maxV < v then some (2, 0xFF, 0x3FFF)
  else if !slateHeaderOk img then some (3, 0xFF, 0x3FFF)
  else if field img 0x3C 4 ≠ slateCrc img then some (4, 0xFF, 0x3FFF)
  else match (List.range 28).find? fun c => !slateDirOk img c with
  | some c => some (5, c, 0x3FFF)
  | none =>
    match firstCell cells fun w _ => w / 2 ^ 11 ≠ 0 || (cellDonate w && cellOwner w = ownSpare) with
    | some i => some (6, colOfIndex i, i)
    | none => match firstCell cells fun w _ => !ownerDefined (cellOwner w) with
      | some i => some (7, colOfIndex i, i)
      | none => match firstCell cells fun w i => !ownerAdmitted (cellOwner w) (colOfIndex i) with
        | some i => some (8, colOfIndex i, i)
        | none => match (List.range 28).find? fun c => belowMinimum cells c with
          | some c => some (9, c, 0x3FFF)
          | none => none

/-- A cell of the built-in default slate (R77). -/
def defaultCell (c k : Nat) : Nat :=
  match systemOwners.zipIdx.find? fun e =>
      ownerMinimum e.1 c ≠ 0 && e.2 ≤ k && (k - e.2) % (colCells c / ownerMinimum e.1 c) = 0 with
  | some e => e.1 + 1024
  | none => ownSpare

/-- The built-in default slate (R77). Its BUILD_TAG is zero: DESIGN CHOICE, the spec gives its SLATE_ID, weights
and cells only (log entry 162). -/
def defaultSlate : List Byte :=
  let head := leBytes 2 0x534C ++ leBytes 2 0x0100 ++ leBytes 4 slateLen ++ leBytes 4 0
    ++ leBytes 2 1024 ++ leBytes 1 28 ++ leBytes 1 0 ++ leBytes 4 0x40 ++ leBytes 4 0x120
    ++ leBytes 4 0x320 ++ leBytes 4 9472 ++ zeros 28
  let dir := ((List.range 28).map fun c => leBytes 1 c ++ leBytes 1 (colStride c)
    ++ leBytes 2 (colQuantum c) ++ leBytes 2 (colFirst c) ++ leBytes 2 (colCells c)).flatten
  let cells := ((List.range 28).map fun c =>
    ((List.range (colCells c)).map fun k => leBytes 2 (defaultCell c k)).flatten).flatten
  let rest := dir ++ List.replicate 512 1 ++ cells
  head ++ leBytes 4 (crc32c (head ++ rest)) ++ rest

namespace State

/-! ## Presence (R55) -/

/-- A mode in which instances are present. -/
def instancesRun (s : State) : Bool :=
  s.inMode .doze || s.inMode .ready || s.inMode .active || s.inMode .readOnly

/-- Table 02.4; an instance counts as enabled in ENABLED, QUIESCING and QUIESCED (R133). -/
def ownerPresent (s : State) (o : Nat) : Bool :=
  if o < 512 then
    let st := s.getF (F.instStatusState o)
    3 ≤ st && st ≤ 5 && s.instancesRun
  else if o = ownFirmware then s.logicOn
  else if o = ownMedia then s.instancesRun || s.inMode .service
  else if o = ownDisk then
    s.getF F.srvStatusSpinState = 5 && (s.getF F.srvStatusAct0State ≠ 8 || s.getF F.srvStatusAct1State ≠ 8)
  else if o = ownMirror then s.pairLinkUp
  else false

/-! ## The spare ring (R57–R60) -/

/-- The decision window of slot 0 of the frame that brings a new slate in force (R71). -/
def swapWindow (s : State) : Bool :=
  s.onF F.sltStatusSwapPending && 16383 - 3 ≤ s.slt.frameCycle
    && s.slt.swapDue = some ((s.getF F.sltFrameFrame + 1) % 2 ^ 32)

/-- The image that the running decision follows: from slot 0 of the new frame, the new one (R73). -/
def decidingImage (s : State) : Sparse Byte := if s.swapWindow then s.slt.shadow else s.slt.active

/-- Weight of an instance in that slate. -/
def slateWeight (s : State) (i : Nat) : Nat :=
  (sparseGet (fun _ => 0) s.decidingImage (0x120 + i)).toNat

/-- Every column's ring restarts: the pointer at 0, the turns at the weight of instance 0 (R60). -/
def restartRings (s : State) : State :=
  forEach (List.range 28) s fun s c =>
    (s.setF (F.sltColPtrPtr c) 0).setF (F.sltColRingLeft c) (s.slateWeight 0)

/-- spare_pick (R57): the owner that takes a spare cell of column `c`, among those with work. -/
def sparePick (s : State) (c : Nat) (work : List Nat) : Option Nat × State :=
  let ptr := s.getF (F.sltColPtrPtr c)
  let usable := fun i => s.slateWeight i ≠ 0 && s.ownerPresent i && ownerAdmitted i c && work.contains i
  match ((List.range 512).map fun n => (ptr + n) % 512).find? usable with
  | some i =>
    let left := (if i = ptr then s.getF (F.sltColRingLeft c) else s.slateWeight i) - 1
    let next := (i + 1) % 512
    let (p, l) := if left = 0 then (next, s.slateWeight next) else (i, left)
    (some i, (s.setF (F.sltColPtrPtr c) p).setF (F.sltColRingLeft c) l)
  | none =>
    ([ownMedia, ownDisk, ownMirror, ownFirmware].find? fun o =>
      ownerAdmitted o c && s.ownerPresent o && work.contains o, s)

/-- The columns grant: a slate is active and the fabric clock runs (R51, R78). -/
def columnsRun (s : State) : Bool := s.slt.running && !s.slt.gated

/-- The 32-bit word of the slate SRAM that holds a cell-array index of the deciding image (R466): the SRAM has two
copies of 8192 words. -/
def cellSramWord (s : State) (idx : Nat) : Nat :=
  (if s.swapWindow then 1 - s.slt.bank else s.slt.bank) * 8192 + (0x320 + 2 * idx) / 4

/-- The decision for cell `k` of column `c` (R56): the owner granted, if any. An uncorrectable cell is a
SPARE cell (R79). -/
def decideCell (s : State) (c k : Nat) (work : List Nat) (uncorr : Bool) : Option Nat × State :=
  let idx := colFirst c + k
  let w := leNat [sparseGet (fun _ => 0) s.decidingImage (0x320 + 2 * idx),
    sparseGet (fun _ => 0) s.decidingImage (0x321 + 2 * idx)]
  let o := cellOwner w
  let s := if s.swapWindow && !s.slt.ringsNew then s.restartRings.modSlt fun x => { x with ringsNew := true } else s
  let word := s.cellSramWord idx
  let (ok, s) := s.readCodeword 0x10 word
  let s := if ok && uncorr then s.noteUncorrectable 0x10 word else s
  let spare := fun (s : State) =>
    match s.sparePick c work with
    | (some i, s) => (some i, s.incF (F.sltColSpareSpare c))
    | (none, s) => (none, s.incF (F.sltColIdleIdle c))
  if uncorr || !ok then
    spare ((s.incF F.sltErrCellUncorr).modSlt fun x =>
      { x with badCells := if x.badCells.contains idx then x.badCells else x.badCells ++ [idx] })
  else if o = ownSpare || !s.ownerPresent o then spare s
  else if work.contains o then (some o, s.incF (F.sltColOwnedOwned c))
  else if cellDonate w then spare s
  else (none, s.incF (F.sltColIdleIdle c))

/-! ## Loading and activation (R70–R75, R617) -/

/-- The image in the shadow. -/
def shadowImage (s : State) : List Byte := denseBytes slateLen s.slt.shadow

/-- The checks of Table 02.9 with the versions of SLT_VERSION. -/
def rejectOf (s : State) (img : List Byte) : Option (Nat × Nat × Nat) :=
  slateReject img (s.getF F.sltVersionMinVersion) (s.getF F.sltVersionMaxVersion)

/-- A validation is running or a swap is pending. -/
def slateBusy (s : State) : Bool := s.onF F.sltStatusBusy || s.onF F.sltStatusSwapPending

/-- Completion dword 0 of a Slate Load that was rejected (R124). -/
def rejectDword (r : Nat × Nat × Nat) : Nat := r.1 + 2 ^ 8 * r.2.1 + 2 ^ 16 * r.2.2

/-- Records a rejection in the registers and, if asked, in the dailies (R66, R69). -/
def noteReject (s : State) (r : Nat × Nat × Nat) (log : Bool) : State :=
  let s := (s.setF F.sltStatusRejectReason r.1).setF F.sltStatusRejected 1
  let s := (s.setF F.sltRejectInfoColumn r.2.1).setF F.sltRejectInfoCellIndex r.2.2
  if log then s.daily src.slt 0x00CA [r.1, r.2.1, r.2.2] else s

/-- A rejection for LOCK (R617). -/
def lockReject : Nat × Nat × Nat := (0x0A, 0xFF, 0x3FFF)

/-- A shadow write refused for LOCK: its dailies record at most once per second (R617). -/
def refuseShadowWrite (s : State) : State :=
  let due := match s.slt.lockDaily with
    | some t => s.since t 1000000000
    | none => true
  let s := (s.noteReject lockReject due).setF F.sltStatusWriteDropped 1
  if due then s.modSlt fun x => { x with lockDaily := some s.tick } else s

/-- Validation of the shadow starts (R66, R71). -/
def startSlateJob (s : State) (swap : Bool) (cmd : Option CmdKey) (partner : Option LinkMsg) : State :=
  let job : SlateJob := { swap := swap, cmd := cmd, partner := partner }
  let s := s.modSlt fun x => { x with job := some job }
  (s.setF (if swap then F.sltCtrlSwap else F.sltCtrlValidate) 1).setF F.sltStatusBusy 1

/-- SWAP requested over a register path (R71, R72, R74); `locked` is LOCK before the write (R11). -/
def requestSwap (s : State) (path : Path) (locked : Bool) : State :=
  if locked then s.noteReject lockReject true
  else if s.slateBusy then s.setF F.sltStatusWriteDropped 1
  else if s.inMode .safe || !s.logicOn || s.orderBarred (· ≠ .safe) then s.setF F.sltStatusOrderResult 2
  else (s.setF F.sltCtrlSwap 1).placeOrder (.slate true) false [.slate] 3 (pathSide path)

/-- VALIDATE requested over a register path. -/
def requestValidate (s : State) (locked : Bool) : State :=
  if locked then s.noteReject lockReject true
  else if s.slateBusy then s.setF F.sltStatusWriteDropped 1
  else s.startSlateJob false none none

/-- A write of SLT_CTRL: PERSIST unless locked, then the action, then LOCK (R11). A write that sets
both SWAP and VALIDATE asks for the swap. -/
def sltCtrlWrite (s : State) (path : Path) (value : Word) : State :=
  let locked := s.onF F.sltCtrlLock
  s.regAction path A.sltCtrl value fun s =>
    let s := if F.sltCtrlSwap.get value = 1 then s.requestSwap path locked
      else if F.sltCtrlValidate.get value = 1 then s.requestValidate locked else s
    if F.sltCtrlLock.get value = 1 then s.setF F.sltCtrlLock 1 else s

/-- A slate order that won its window (R74). Where a VALIDATE written after it is running, or a swap is pending,
the order is dropped with WRITE_DROPPED and SWAP clears: DESIGN CHOICE, the spec does not say (log entry 163). -/
def runSlateOrder (s : State) (cmd : Option CmdKey) : State :=
  if s.slateBusy then (s.setF F.sltStatusWriteDropped 1).setF F.sltCtrlSwap 0
  else (s.setF F.sltStatusOrderResult 0).startSlateJob true cmd none

/-- A slate order that lost its window (R74). -/
def loseSlateOrder (s : State) : State := (s.setF F.sltStatusOrderResult 1).setF F.sltCtrlSwap 0

/-- The activation of a command or of a partner's message was preempted or denied (R74). -/
def noteOrderResult (s : State) (r : Nat) : State := (s.setF F.sltStatusOrderResult r).setF F.sltCtrlSwap 0

/-- Writes an image into the shadow from offset 0. -/
def setShadow (s : State) (img : List Byte) : State :=
  (s.modSlt fun x =>
    { x with shadow := sparseBytes (img ++ (denseBytes 32768 x.shadow).drop img.length) }).sramFill 0x10
      ((1 - s.slt.bank) * 8192) (ceilDiv img.length 4)

/-- Activation of a mirrored image on a double (R487, R75): refused while LOCK is set or a validation
runs, otherwise validated and swapped under R71. The status of the refusal while a validation runs or a swap is
pending is Command Sequence Error: DESIGN CHOICE, the spec names none (log entry 164). -/
def slateFromPartner (s : State) (img : List Byte) (m : LinkMsg) : State :=
  if s.onF F.sltCtrlLock then (s.noteReject lockReject true).refuse m (statusWord 7 0xCA)
  else if s.slateBusy then s.refuse m (statusWord 0 0x0C)
  else ((s.setShadow img).setF F.sltStatusOrderResult 0).startSlateJob true none (some m)

/-- The stored start-up slate, copy `i`: the image and, after it, the count that says which copy is
newer (log entry 11). -/
def storedSlate (s : State) (i : Nat) : List Byte := s.nvsBytes ((1216 + 5 * i) * 4096) (slateLen + 8)

/-- Writes the start-up slate over the older copy (R75). -/
def storeSlate (s : State) (img : List Byte) : State :=
  let c := fun i => field (s.storedSlate i) slateLen 4
  let n := fun i => if c i = 2 ^ 32 - 1 then 0 else c i
  let i := if n 0 ≤ n 1 then 0 else 1
  s.writeArea (1216 + 5 * i) (fit slateLen img ++ leBytes 4 (max (n 0) (n 1) + 1))

/-- Sends an activated image to the double as five parts (R75, Table 14.2). -/
def mirrorSlate (s : State) (img : List Byte) : State :=
  forEach (List.range 5) s fun s i =>
    let part := slice img (4096 * i) 4096
    s.mirror msgSlate 0 noTenant 0 (leBytes 4 (4096 * i) ++ leBytes 4 part.length ++ part)

/-- What a new active image changes in the registers, with the rings restarted (R60). -/
def slateInForce (s : State) (isDefault : Bool) : State :=
  let img := denseBytes 64 s.slt.active
  let s := (s.setF F.sltActiveIdSlateId (field img 8 4)).setF F.sltStatusDefaultActive isDefault.toNat
  if s.slt.ringsNew then s.modSlt fun x => { x with ringsNew := false } else s.restartRings

/-- The swap at its boundary (R71, R73, R75), the first cycle of the frame that is due: the copies change places
and the rings restart; the new image is copied to DRAM rank 0, stored if PERSIST was set, and sent to the
double. -/
def swapSlate (s : State) : State :=
  match s.slt.job with
  | none => s
  | some j =>
    if s.onF F.sltStatusSwapPending && s.columnsRun && s.slt.frameCycle = 0
        && s.slt.swapDue = some (s.getF F.sltFrameFrame) then
      let s := s.modSlt fun x =>
        { x with active := x.shadow, shadow := x.active, dramCopy := some x.shadow, job := none,
                 swapDue := none, badCells := [], bank := 1 - x.bank }
      let img := denseBytes slateLen s.slt.active
      let s := ((s.slateInForce false).setF F.sltStatusSwapPending 0).setF F.sltCtrlSwap 0
      let s := s.setF F.sltSwapFrameSwapFrame (s.getF F.sltFrameFrame)
      let s := if s.onF F.sltCtrlPersist then s.storeSlate img else s
      let s := s.mirrorSlate img
      let s := match j.cmd with
        | some k => s.endCmd k 0 0 (s.getF F.sltActiveIdSlateId) 0 []
        | none => s
      match j.partner with
      | some m => s.journal m
      | none => s
    else s

/-- The active slate at a start (R76, R78): the copy in DRAM rank 0 at an exit from Standby, the
stored start-up slate, or the default slate; stored slates that fail are reported. -/
def startSlate (s : State) (fromStandby : Bool) : State :=
  let begin_ := fun (s : State) (img : Sparse Byte) (dflt : Bool) =>
    let s := s.modSlt fun x =>
      { x with active := img, running := true, gated := false, frameCycle := 0, badCells := [],
               dramCopy := some img, posted := [], fresh := [], granted := [], decided := [], ringsNew := false }
    ((s.setF F.sltStatusActiveValid 1).sramFill 0x10 (s.slt.bank * 8192) 4936).slateInForce dflt
  let report := fun (s : State) (img : List Byte) => match s.rejectOf img with
    | some r => s.daily src.slt 0x00CA [r.1, r.2.1, r.2.2]
    | none => s
  let copy := if fromStandby then s.slt.dramCopy else none
  let good := fun (s : State) (img : List Byte) => (s.rejectOf img).isNone
  match copy.filter fun c => good s (denseBytes slateLen c) with
  | some c => begin_ s c false
  | none =>
    let s := match copy with
      | some c => report s (denseBytes slateLen c)
      | none => s
    let a := s.storedSlate 0
    let b := s.storedSlate 1
    let order := if field a slateLen 4 < field b slateLen 4 then [b, a] else [a, b]
    let stored := (order.filter fun l => field l slateLen 4 ≠ 2 ^ 32 - 1).map (·.take slateLen)
    let s := forEach (stored.takeWhile fun l => !good s l) s report
    match stored.find? (good s) with
    | some l => begin_ s (sparseBytes l) false
    | none => begin_ s (sparseBytes defaultSlate) true

/-- The slate stops with the fabric clock, at a reset or a power-down of the logic die. -/
def stopSlate (s : State) : State :=
  (s.modSlt fun x => { x with running := false, gated := false, job := none, swapDue := none, posted := [], fresh := [],
                              granted := [], decided := [], ringsNew := false }).setF
    F.sltStatusActiveValid 0

/-- A request is posted or data-path work is queued (R51). A parked Asynchronous Event Request is no work. -/
def dataWork (s : State) : Bool :=
  !s.slt.posted.isEmpty || !s.slt.fresh.isEmpty
    || s.host.cmds.any (fun c => c.st ≠ .posted && c.st ≠ .discarded
        && !(c.st = .executing && c.key.sq = 0 && c.sqe.opc = 0x0C))
    || !s.ftl.wb.isEmpty || !s.ftl.cws.isEmpty || !s.ftl.moves.isEmpty || !s.ftl.copies.isEmpty
    || !s.ftl.progs.isEmpty || !s.ftl.deallocs.isEmpty || s.ftl.ckptStart.isSome
    || s.dch.acts.any (fun e => !e.2.holding.isEmpty)
    || s.fch.chans.any (fun e => e.2.luns.any fun l => !l.2.queue.isEmpty)
    || s.dch.acts.any (fun e => !e.2.reads.isEmpty || !e.2.writes.isEmpty)
    || s.tsk.ctxs.any (fun e => e.2.isSome)
    || !s.pmx.jobs.isEmpty || !s.cmp.jobs.isEmpty || !s.sec.aes.isEmpty || !s.sec.digests.isEmpty
    || s.mem.subs.any (fun e => !e.2.reads.isEmpty || !e.2.writes.isEmpty)
    || !s.cnt.out.isEmpty

end State

/-! ## Commands -/

/-- SLATE_HEAL (R79): the active copy is rewritten from its DRAM copy between frames; SLATE_ID, the
frame count and the rings stay. -/
def execSlateHeal (s : State) : Host.Outcome State Fault Refusal :=
  match s.slt.dramCopy with
  | some img =>
    if s.slt.running && s.slt.frameCycle = 0 then
      done ((s.modSlt fun x => { x with active := img, badCells := [] }).sramFill 0x10 (s.slt.bank * 8192) 4936)
    else done s
  | none => done s

/-- FABRIC_CLOCK_GATE (R51): the slate stops at the end of the current frame and the clock is gated. -/
def execFabricClockGate (s : State) : Host.Outcome State Fault Refusal :=
  if s.inMode .ready && s.columnsRun && !s.dataWork then
    let s := if s.slt.frameCycle = 0 then s
      else s.setF F.sltFrameFrame ((s.getF F.sltFrameFrame + 1) % 2 ^ 32)
    done (s.joinFresh.modSlt fun x => { x with gated := true, frameCycle := 0 })
  else done s

/-- SLATE_SWAP (R71, R74). -/
def execSlateSwap (path : Path) (value : Word) (s : State) : Host.Outcome State Fault Refusal :=
  done (s.sltCtrlWrite path value)

/-- SLATE_VALIDATE (R71). -/
def execSlateValidate (path : Path) (value : Word) (s : State) : Host.Outcome State Fault Refusal :=
  done (s.sltCtrlWrite path value)

/-- SLATE_LOCK (R617, R11). -/
def execSlateLock (path : Path) (value : Word) (s : State) : Host.Outcome State Fault Refusal :=
  done (s.sltCtrlWrite path value)

/-- SHADOW_DATA_ACCESS (R72, R617): four shadow bytes at WORD × 4; WORD advances on every access. -/
def execShadowDataAccess (path : Path) (wr : Option Word) (s : State) :
    Host.Outcome State Fault Refusal :=
  match s.admitWrite path A.sltShadowData with
  | (false, s) => done s
  | (true, s) =>
    let w := s.getF F.sltShadowAddrWord
    let next := fun (s : State) => s.setF F.sltShadowAddrWord ((w + 1) % 2 ^ 13)
    let word := (1 - s.slt.bank) * 8192 + w
    match wr with
    | none => done (next ((s.sramRead 0x10 word).2.busData
        (leNat ((List.range 4).map fun i => sparseGet (fun _ => 0) s.slt.shadow (4 * w + i)))))
    | some v =>
      if s.onF F.sltCtrlLock then done (next s.refuseShadowWrite)
      else if s.slateBusy then done (next (s.setF F.sltStatusWriteDropped 1))
      else
        let put := fun (m : Sparse Byte) (e : Byte × Nat) => sparsePut (fun _ => 0) m (4 * w + e.2) e.1
        done (next ((s.sramWrite 0x10 word).modSlt fun x =>
          { x with shadow := (leBytes 4 v.toNat).zipIdx.foldl put x.shadow }))

/-- VALIDATION_DONE (R66, R69, R71): the checks of Table 02.9 on the shadow. A rejection ends the job;
a pass ends a VALIDATE, or fixes the swap boundary: the next frame boundary, or one frame later if
its decision window has begun. -/
def execValidationDone (s : State) : Host.Outcome State Fault Refusal :=
  match s.slt.job with
  | none => done s
  | some j =>
    if !s.onF F.sltStatusBusy then done s
    else
      let s := s.setF F.sltStatusBusy 0
      let end_ := fun (s : State) =>
        ((s.modSlt fun x => { x with job := none }).setF F.sltCtrlSwap 0).setF F.sltCtrlValidate 0
      match s.rejectOf s.shadowImage with
      | some r =>
        let s := end_ (s.noteReject r true)
        let s := match j.cmd with
          | some k => s.endCmd k 7 0xCA (State.rejectDword r) 0 []
          | none => s
        done (match j.partner with
          | some m => s.refuse m (State.statusWord 7 0xCA)
          | none => s)
      | none =>
        if j.swap then
          let late := 1023 * 16 + 12 ≤ s.slt.frameCycle
          let due := (s.getF F.sltFrameFrame + (if late then 2 else 1)) % 2 ^ 32
          done ((s.modSlt fun x => { x with swapDue := some due }).setF F.sltStatusSwapPending 1)
        else
          let s := end_ s
          done (match j.cmd with
            | some k => s.endCmd k 0 0 (s.getF F.sltActiveIdSlateId) 0 []
            | none => s)

/-- SWAP_BOUNDARY (R71, R73, R75). -/
def execSwapBoundary (s : State) : Host.Outcome State Fault Refusal := done s.swapSlate

end Sys2Proof.Machine
end

