-- ==== Sys2Proof/Machine/Flash.lean ====
section
/-! DEFINITION. Flash channels (chapter 05): the NAND record, bring-up and training, the operations of
a LUN and their grants, the read recovery ladder, suspend and resume, fencing, and the commands. -/

namespace Sys2Proof.Machine

/-! ## The NAND record (R165, R166) -/

/-- Age class `a` of a record: PE_LIMIT, its reserved bytes and its shift vector are legal. -/
def ageClassOk (l : List Byte) (levels classes a : Nat) : Bool :=
  let e := slice l (0x20 + 20 * a) 20
  let limit := fun (i : Nat) => field l (0x20 + 20 * i) 2
  if classes ≤ a then allZero e 0 20
  else field e 2 2 = 0 && allZero e (4 + levels) (16 - levels)
    && (a = 0 || limit (a - 1) < limit a) && (a + 1 < classes || limit a = 0xFFFF)

/-- LEVELS matches the bits per cell of the attached NAND (R165); before any NAND has been seen, one of the four
numbers of Table 05.1. -/
def levelsOk (levels : Nat) (cellBits : Option Nat) : Bool := match cellBits with
  | some b => levels = 2 ^ b - 1
  | none => levels = 1 || levels = 3 || levels = 7 || levels = 15

/-- The record passes every check of R165, with the bits per cell of the attached NAND. -/
def nandRecordOk (l : List Byte) (cellBits : Option Nat) : Bool :=
  let b := fun i => field l i 1
  let levels := b 4
  let classes := b 5
  field l 0 2 = 0x4E44 && field l 2 2 = 0x0100 && levelsOk levels cellBits
    && 1 ≤ classes && classes ≤ 8 && b 6 ≠ 0 && (b 8 = 0 || b 9 ≠ 0) && 1 ≤ b 0x0A && b 0x0A ≤ 32
    && b 0x0B = 0 && 1 ≤ field l 0x0C 2 && field l 0x0C 2 ≤ 1000
    && 1 ≤ field l 0x0E 2 && field l 0x0E 2 ≤ 10000 && 1 ≤ field l 0x10 4 && field l 0x10 4 ≤ 100000
    && allZero l 0x14 12 && (List.range 8).all (ageClassOk l levels classes)
    && (List.range 15).all (fun t => allZero l (0xC0 + 16 * t + levels) (16 - levels))
    && field l 0x1B0 4 = crc32c (l.take 0x1B0)

/-- The record's fields. -/
def parseNandRec (l : List Byte) : NandRec :=
  let levels := field l 4 1
  let vector := fun off => (List.range levels).map fun i => field l (off + i) 1
  { levels := levels, ageClasses := field l 5 1, shiftFeature := field l 6 1, loopFeature := field l 7 1,
    suspOp := field l 8 1, resumeOp := field l 9 1,
    softDelta := field l 0x0A 1, trMax := field l 0x0C 2, tprogMax := field l 0x0E 2,
    tbersMax := field l 0x10 4,
    peLimits := (List.range (field l 5 1)).map fun a => field l (0x20 + 20 * a) 2,
    defaultShift := (List.range (field l 5 1)).map fun a => vector (0x24 + 20 * a),
    retryShift := (List.range 15).map fun t => vector (0xC0 + 16 * t) }

namespace State

/-- Bytes of a calibration record (Table 16.5). -/
def calibBytes (s : State) (kind n len : Nat) : List Byte :=
  s.nvsBytes (1024 * 4096 + Config.calibOffset kind n / 8 * 8 % (160 * 4096)) len

/-- The NAND record is not used (R166): NAND_REC_BAD on every channel, and a dailies record. -/
def badNandRec (s : State) : State :=
  let s := s.modFch fun f => { f with nandRec := none }
  (forEach (List.range 16) s fun s c => s.setF (F.fchStatusNandRecBad c) 1).dailyOpen src.fch 0 []

/-- Loads the NAND record (R165, R166). -/
def loadNandRec (s : State) : State :=
  let l := s.calibBytes 0 0 436
  if nandRecordOk l (s.fch.geom.map (·.bits)) then
    let s := s.modFch fun f => { f with nandRec := some (parseNandRec l) }
    forEach (List.range 16) s fun s c => s.setF (F.fchStatusNandRecBad c) 0
  else s.badNandRec

/-- Busy limit of an array command in µs (R165, R166). -/
def opLimit (s : State) (k : FlashKind) : Nat := match s.fch.nandRec, k with
  | some r, .read => r.trMax
  | some r, .program => r.tprogMax
  | some r, .erase => r.tbersMax
  | none, .read => 200
  | none, .program => 5000
  | none, .erase => 30000

/-- The usable buffer (R230), in units of 256 KiB; below 8 MiB the flash translation layer stays off. -/
def setWbEff (s : State) : State :=
  let n := ((List.range 16).map fun c =>
    if s.chanOnline c then (List.range 32).countP (s.lunUsable c) else 0).sum
  let q := (s.fch.geom.map fun g => g.planes * g.dataArea).getD 0
  let m := ((List.range 4).map fun g => (s.groupMembers g).length).foldl max 0
  let t := max 1 (s.opLimit .program)
  let mib := 2 ^ 20
  let eff := min (128 * mib) (n * (30000 / t - 1) * q * (m - 1) / max 1 m - mib) / 2 ^ 18
  if eff < 32 then (s.setF F.ftlWbEff 0).setF F.ftlStatusState 0 else s.setF F.ftlWbEff eff

/-! ## Operations of a LUN -/

/-- Changes one operation of a LUN. -/
def modOp (s : State) (c l : Nat) (o : FlashOp) (g : FlashOp → FlashOp) : State :=
  s.modLun c l fun x => { x with queue := mapWhere x.queue (· = o) g }

/-- Removes an operation; held ones take the entry that frees (R182). -/
def dropOp (s : State) (c l : Nat) (o : FlashOp) : State :=
  s.modLun c l fun x => fillLun { x with queue := x.queue.filter (· ≠ o) }

/-- The operation whose array command runs on a LUN. -/
def runningOp (s : State) (c l : Nat) : Option FlashOp :=
  (s.lun c l).queue.find? fun o => o.began.isSome && o.suspendedAt.isNone && !o.ready

/-- Bytes that one F-column grant moves at a rate (Table 05.6). -/
def grantBytes (rate : Nat) : Nat := [32, 32, 64, 96, 160, 224, 256].getD rate 256

/-- Cells of a data transfer on a channel (R45, R171). -/
def busCells (s : State) (c bytes : Nat) : Nat := ceilDiv bytes (grantBytes (s.getF (F.fchStatusRate c)))

/-- Cells that an operation needs before its array command is issued: the data of a program, for each plane, and the
further command cells of a multi-plane operation (R171, R181). -/
def cellsBefore (s : State) (c : Nat) (o : FlashOp) : Nat :=
  (o.planes - 1) + (if o.kind = .program then o.planes * s.busCells c ((s.fch.geom.map (·.pageSize)).getD 0) else 0)

/-- Cells of the transfer of a codeword read (R171, R173). -/
def cellsAfter (s : State) (c : Nat) : Nat := s.busCells c (s.chanCw c)

/-- The read of a LUN that waits for its decoder: its data is ready and has been transferred. -/
def readyOp (s : State) (c l : Nat) : Option FlashOp :=
  (s.lun c l).queue.find? fun o => o.ready && o.kind = .read && s.cellsAfter c ≤ o.moved

/-- An operation occupies its LUN: its command runs, its data waits there, or a part of its data has been moved in. -/
def opClaims (o : FlashOp) : Bool :=
  (o.began.isSome && o.suspendedAt.isNone) || (o.kind = .program && o.began.isNone && 0 < o.moved)

/-- No other operation occupies the LUN, and no erase of the block is queued before a program of it. -/
def lunFree (s : State) (c l : Nat) (o : FlashOp) : Bool :=
  (s.lun c l).queue.all fun x => x.order = o.order
    || (!opClaims x && !(x.kind = .erase && x.block = o.block && x.order < o.order))

/-- An operation may be issued now: not a read or an erase under the power-fail rules (R189). -/
def issuable (s : State) (o : FlashOp) : Bool :=
  o.began.isNone && !(s.fch.powerFail && (o.kind = .erase || o.kind = .read))

/-- The operation can use a grant now (R181): its command can be issued on a LUN that is not busy, or its data can
be transferred. It counts once it was queued by cycle 11 of the slot (R48). -/
def opUsable (s : State) (c l : Nat) (o : FlashOp) : Bool :=
  o.at_ + 40 * (s.slt.frameCycle % 16 - 11) ≤ s.tick &&
    (if o.ready then o.kind = .read && o.moved < s.cellsAfter c else s.issuable o && s.lunFree c l o)

/-- Age class of a block by its program/erase count (R165). -/
def ageClass (r : NandRec) (pe : Nat) : Nat := (r.peLimits.findIdx? fun n => pe ≤ n).getD (r.ageClasses - 1)

/-- Hint of a block (R178). -/
def hint (s : State) (c l b : Nat) : Nat := sparseGet (fun _ => 0) s.fch.hints (blockId c l b)
def setHint (s : State) (c l b v : Nat) : State :=
  s.modFch fun f => { f with hints := sparsePut (fun _ => 0) f.hints (blockId c l b) v }

/-- The shifts of step 0: the block's hint table, or the start shifts of its age class; none without a record
(R166, R177). -/
def stepZeroShift (s : State) (c l b : Nat) : List Nat := match s.fch.nandRec with
  | none => []
  | some r =>
    if s.hint c l b = 0 then r.defaultShift.getD (ageClass r (sparseGet (fun _ => 0) s.fch.peCounts (blockId c l b))) []
    else r.retryShift.getD (s.hint c l b - 1) []

/-- The shifts that a read needs at its step (Table 05.8), as bytes. -/
def wantedShift (s : State) (c l : Nat) (o : FlashOp) : List Nat := match s.fch.nandRec with
  | none => []
  | some r =>
    if o.step = 0 then s.stepZeroShift c l o.block
    else if o.step < 16 then r.retryShift.getD (o.step - 1) []
    else
      let d := if o.soft = 0 then 256 - r.softDelta else if o.soft = 1 then 0 else r.softDelta
      (s.stepZeroShift c l o.block).map fun v => (v + d) % 256

/-- Issues the array command of an operation: the first status read comes at half the limit (R183). -/
def issueOp (s : State) (c l : Nat) (o : FlashOp) : State :=
  let h := s.hint c l o.block
  s.modOp c l o fun o =>
    { o with began := some s.tick, issued := some s.tick, pollAt := s.tick + s.opLimit o.kind * 32000, moved := 0,
             skip := if o.step = 0 then h else o.skip }

/-- Soft decoding of a read whose three reads are in (R176): the queue of 64, or the channel's own staging; a channel
that holds a request issues no further one. -/
def requestSoft (s : State) (c l : Nat) : State :=
  let r : SoftReq := { ch := c, lun := l }
  if !(s.chan c).softHeld.isEmpty then s.modChan c fun x => { x with softHeld := x.softHeld ++ [r] }
  else if s.fch.softBusy.length < 4 then s.modFch fun f => { f with softBusy := f.softBusy ++ [r] }
  else if s.fch.softQueue.length < 64 then s.modFch fun f => { f with softQueue := f.softQueue ++ [r] }
  else (s.incF (F.fchSoftWaitCount c)).modChan c fun x => { x with softHeld := x.softHeld ++ [r] }

/-- One cell of the data transfer of a ready read; the third read of step 16 asks for its soft decode (R177). -/
def moveOut (s : State) (c l : Nat) (o : FlashOp) : State :=
  if o.step = 16 && o.moved + 1 = s.cellsAfter c then
    if o.soft < 2 then
      s.modOp c l o fun o => { o with soft := o.soft + 1, began := none, ready := false, moved := 0 }
    else (s.modOp c l o fun o => { o with moved := o.moved + 1 }).requestSoft c l
  else s.modOp c l o fun o => { o with moved := o.moved + 1 }

/-- One cell for an operation (R171, R177, R181): its data moves, the LUN's shift feature is set, or its array
command is issued. -/
def serveOp (s : State) (c l : Nat) (o : FlashOp) : State :=
  if o.ready then s.moveOut c l o
  else if o.kind = .read && (s.lun c l).shift ≠ s.wantedShift c l o then
    s.modLun c l fun x => { x with shift := s.wantedShift c l o }
  else if o.moved < s.cellsBefore c o then s.modOp c l o fun o => { o with moved := o.moved + 1 }
  else s.issueOp c l o

/-- Operations of a channel that can use a grant, with their LUNs. -/
def usableOps (s : State) (c : Nat) : List (Nat × FlashOp) :=
  if !s.chanOnline c then []
  else (s.chan c).luns.flatMap fun e => ((e.2 : Lun).queue.filter fun o => s.opUsable c e.1 o).map fun o => (e.1, o)

/-- The owner under which an owner's traffic moves now: FIRMWARE while the instance is absent (R616). -/
def actOwner (s : State) (o : Nat) : Nat := if o < 512 && !s.ownerPresent o then ownFirmware else o

/-- The oldest of some operations (R181). -/
def oldestOp (l : List (Nat × FlashOp)) : Option (Nat × FlashOp) :=
  l.foldl (fun a e => match a with
    | some x => if e.2.order < x.2.order then some e else some x
    | none => some e) none

/-- A grant of channel `c` for an owner (R181): its oldest operation that can use it is served. -/
def serveFlash (s : State) (c owner : Nat) : State :=
  match oldestOp ((s.usableOps c).filter fun e => s.actOwner e.2.owner = owner) with
  | some (l, o) => s.serveOp c l o
  | none => s

/-- Blocks that hold valid data or belong to open superblocks, the journal, checkpoints or the dump: for each
superblock, its share of parity counted in. -/
def blocksNeeded (s : State) : Nat :=
  let per := max 1 ((s.fch.geom.map (·.pages)).getD 0)
  let sbs := (s.ftl.sbs.map fun e =>
    let x : Superblock := e.2
    if x.st = .opened then x.members else ceilDiv (x.valid * x.members) (max 1 x.slots)).sum
  let online := (List.range 16).countP s.chanOnline
  sbs + ceilDiv (2 * (s.ftl.jrnBytes / 4096)) per + ceilDiv s.ftl.ckptPages per + online

/-- The spare pool: good blocks that are not needed (chapter 06, Spares). The register keeps the good blocks. -/
def sparePool (s : State) : Nat := s.getF F.ftlSpareBlocks - s.blocksNeeded

/-- The spare pool has changed: the SMART spare event at the threshold and health event 0x0005 below 2%
(Table 03.13, Table 06.11). -/
def checkSpares (s : State) : State :=
  let pool := s.sparePool
  let floor := s.getF F.ftlSpareFloorBlocks
  let avail := 100 * (pool - floor) / max 1 (s.ftl.poolAtFormat - floor)
  let s := if avail < 10 && !s.ftl.spareRaised then
      (s.modFtl fun f => { f with spareRaised := true }).raiseEvent 0 1 0x02 0x02
    else s.modFtl fun f => { f with spareRaised := f.spareRaised && avail < 10 }
  if pool * 50 < s.ftl.rawBlocks && !s.ftl.evacBelow then
    (s.modFtl fun f => { f with evacBelow := true }).health 0x0005 0 0 [] pool
  else s

/-- Retires a block (R184, R211): BLOCK_RETIRE, the counts and health event 0x0003. -/
def retireBlock (s : State) (c l b : Nat) : State :=
  let id := blockId c l b
  let s := s.appendJrn .blockRetire 0 1 (c + 2 ^ 8 * l + 2 ^ 16 * b) 0 0
  let s := (s.modFtl fun f => { f with retiredBlocks := f.retiredBlocks ++ [id] }).incF F.ftlRetiredBlocks
  let s := (s.subF F.ftlSpareBlocks 1).modLun c l fun x => { x with retired := x.retired + 1 }
  (s.health 0x0003 2 (32 * c + l) [] b).checkSpares

/-- Slots of a row that lie on the page of a member channel (R201): the parity member holds none of
its own, and its failure concerns the whole row. -/
def pageSlots (s : State) (lane seg row c : Nat) : List Nat :=
  let per := s.rowSlots lane seg
  ((List.range per).map fun i => seg * 16384 + row * per + i).filter fun v => match s.slotChans lane seg v with
    | some (d, q) => d = c || q = c
    | none => false

/-- Gives a copy its slot, or leaves it waiting for one. -/
def placeCopy (s : State) (c : UnitCopy) : State :=
  let (v, s) := s.takeSlot c.stream (c.unit % 4) ownMedia
  s.modFtl fun f => { f with copies := mapWhere f.copies (fun x => x = c) fun x => { x with dst := v } }

/-- A unit is copied to a new slot (R220, R227): its ciphertext moves as it is (R40). -/
def copyUnit (s : State) (stream : Stream) (nsid unit : Nat) (src : Option Nat) (data : List Byte) : State :=
  let c : UnitCopy :=
    { nsid := nsid, unit := unit, src := src, dst := none, stream := stream, data := data, ready := false }
  (s.modFtl fun f => { f with copies := f.copies ++ [c] }).placeCopy c

/-- The units of slots that did not program are written again, at the next slots of the same stream
and lane (R211). -/
def rewriteSlots (s : State) (lane seg : Nat) (slots : List Nat) : State :=
  let _ := seg
  let wb := s.ftl.wb.filter fun e => e.unit % 4 = lane && e.mapped.isNone && match e.slot with
    | some v => slots.contains v
    | none => false
  let s := forEach wb s fun s e => s.flushEntry e
  let cs := s.ftl.copies.filter fun c => c.unit % 4 = lane && !c.ready && match c.dst with
    | some v => slots.contains v
    | none => false
  forEach cs s fun s c => s.placeCopy c

/-- Percentage Used (R234), and health event 0x000C when it first reaches 100. -/
def updateWear (s : State) : State :=
  let blocks := max 1 s.ftl.rawBlocks
  let avg := s.ftl.peSum / blocks
  let pct := 100 * avg / max 1 (s.getF F.ftlRatedPePe)
  let s := (s.setF F.ftlWearAvgPe (min avg 0xFFFF)).setF F.ftlWearPctUsed (min pct 0xFFFF)
  if 100 ≤ pct && !s.ftl.pctRaised then
    (s.modFtl fun f => { f with pctRaised := true }).health 0x000C 0 0 [] pct
  else s

/-- What waits for a superblock of a lane takes its slots: flushes and copies (R211). -/
def serveWaiters (s : State) (lane : Nat) : State :=
  let s := forEach (s.slotWaiters lane) s fun s e => s.flushEntry e
  forEach (s.ftl.copies.filter fun c => c.dst.isNone && c.unit % 4 = lane) s fun s c => s.placeCopy c

/-- Every block of a superblock has ended its erase (R221): with PASS it is free again; a block that timed out leaves
it erase-incomplete (R188). -/
def eraseEnded (s : State) (lane seg : Nat) : State :=
  if (s.sb lane seg).eraseBad then s.modSb lane seg fun x => { x with st := .eraseIncomplete, eraseBad := false }
  else
    let lo := slotKey lane (seg * 16384)
    let hi := lo + ceilDiv (s.sb lane seg).slots 16384 * 16384
    let s := s.modFtl fun f => { f with media := sparseKeep (fun k => !(lo ≤ k && k < hi)) f.media
                                        parity := sparseKeep (fun k => k / (4096 * 64) ≠ sbKey lane seg) f.parity }
    let s := ((s.setSb lane seg Superblock.reset).appendJrn .eraseEnd lane 0 seg 0 0).incF F.ftlGcCntSuperblocks
    (s.countFreeSbs lane).serveWaiters lane

/-- One channel's part of a stripe row or of an erase has ended; the last one completes it. -/
def progDone (s : State) (lane seg : Nat) (row : Option Nat) (c : Nat) : State :=
  let s := s.modFtl fun f =>
    { f with progs := mapWhere f.progs (fun p => p.lane = lane && p.seg = seg && p.row = row) fun p =>
        { p with left := p.left.filter (· ≠ c) } }
  if s.ftl.progs.any fun p => p.lane = lane && p.seg = seg && p.row = row && p.left.isEmpty then
    let s := s.modFtl fun f =>
      { f with progs := f.progs.filter fun p => !(p.lane = lane && p.seg = seg && p.row = row) }
    match row with
    | some r => (s.commitRow lane seg r).checkSpares
    | none => s.eraseEnded lane seg
  else s

/-- A program of a journal codeword goes to a channel (R212). -/
def journalTo (s : State) (c pageSeq : Nat) : State := match (List.range 32).find? fun l => s.lunUsable c l with
  | some l => s.queueOp c l (s.newOp .program (.journal pageSeq) ownMedia true (Config.systemBlock 1) pageSeq 0 1)
  | none => s

/-- A journal program has ended on a channel (R212). With PASS the codeword is on the media; otherwise it is made again
on another channel, or here, but for a fenced channel whose codeword has its other program. -/
def journalEnded (s : State) (c pageSeq : Nat) (pass : Bool) : State :=
  match s.ftl.cws.find? (·.pageSeq = pageSeq) with
  | none => s
  | some w =>
    let left := w.left.filter (· ≠ c)
    let next := if pass || ((s.chan c).fenced && (0 < w.passed || !left.isEmpty)) then none
      else ((List.range 16).find? fun x => s.chanOnline x && x ≠ c && !left.contains x).orElse
        fun _ => if s.chanOnline c then some c else none
    let s := s.modFtl fun f =>
      { f with cws := mapWhere f.cws (· = w) fun w => { w with left := left ++ next.toList, passed := w.passed + pass.toNat }
               jrn := if pass then sparsePut (fun _ => []) f.jrn pageSeq w.bytes else f.jrn }
    match next with
    | some x => s.journalTo x pageSeq
    | none => s

/-- Operations queued or held on any LUN that pass a test. -/
def opsLeft (s : State) (p : FlashOp → Bool) : Nat :=
  (s.fch.chans.map fun e => ((e.2 : Channel).luns.map fun x => ((x.2 : Lun).queue ++ (x.2 : Lun).held).countP p).sum).sum

/-- Pages of the checkpoint pass still to be programmed; those of the dump. -/
def ckptLeft (s : State) : Nat := s.opsLeft fun o => o.user = .ckpt
def dumpLeft (s : State) : Nat := s.opsLeft fun o => o.user = .dump && o.kind = .program

/-- LUNs that take pages of their own kind of content: one of each online channel (R210, R229). -/
def pageLuns (s : State) : List (Nat × Nat) :=
  ((List.range 16).filter s.chanOnline).filterMap fun c =>
    ((List.range 32).find? fun l => s.lunUsable c l).map fun l => (c, l)

/-- Queues `n` pages of a checkpoint or a dump over the online channels in turn, for MEDIA. -/
def queuePages (s : State) (user : FlashUser) (block n : Nat) : State :=
  let ls := s.pageLuns
  forEach (List.range n) s fun s i => match ls[i % max 1 ls.length]? with
    | some (c, l) => s.queueOp c l (s.newOp .program user ownMedia true block (i / max 1 ls.length) 0 1)
    | none => s

/-- FTL_CKPT follows the pages programmed (Table 06.13). -/
def ckptProgress (s : State) : State :=
  let left := s.ckptLeft
  s.setF F.ftlCkptProgress (10000 * (s.ftl.ckptPages - left) / max 1 s.ftl.ckptPages)

/-- A program or erase has ended with PASS. -/
def opPassed (s : State) (c l : Nat) (o : FlashOp) : State :=
  let s := s.dropOp c l o
  let s := if o.kind = .program then s.modLun c l fun x => { x with programs := x.programs + 1 }
    else
      let n := sparseGet (fun _ => 0) s.fch.peCounts (blockId c l o.block) + 1
      let s := (s.setHint c l o.block 0).modFch fun f =>
        { f with peCounts := sparsePut (fun _ => 0) f.peCounts (blockId c l o.block) n }
      (s.modFtl fun f => { f with peSum := f.peSum + 1, peMax := max f.peMax n }).updateWear
  match o.user with
  | .row lane seg row => s.progDone lane seg (some row) c
  | .erase lane seg =>
    (s.modChan c fun x => { x with erasedSbs := if x.eraseFirst then sbKey lane seg :: x.erasedSbs else x.erasedSbs }).progDone
      lane seg none c
  | .journal q => s.journalEnded c q true
  | .ckpt => s.ckptProgress
  | _ => s

/-- A page of a checkpoint or of a dump is programmed again on another channel. -/
def againElsewhere (s : State) (c : Nat) (o : FlashOp) : State :=
  let at_ := ((List.range 16).filter fun x => s.chanOnline x && x ≠ c).findSome? fun x =>
    ((List.range 32).find? fun l => s.lunUsable x l).map fun l => (x, l)
  match at_ with
  | some (x, l) => s.queueOp x l { o with began := none, issued := none, moved := 0, suspendedAt := none }
  | none => s

/-- A program or erase fails back to its issuer (R183, R194): its data is rewritten elsewhere; an erase that a
timeout has cut is to be made again (R188). -/
def opFailedBack (s : State) (c l : Nat) (o : FlashOp) (cut : Bool) : State :=
  let s := (s.dropOp c l o).modChan c fun x => { x with failedBack := x.failedBack ++ [o] }
  match o.user with
  | .row lane seg row => (s.rewriteSlots lane seg (s.pageSlots lane seg row c)).progDone lane seg (some row) c
  | .erase lane seg => (if cut then s.modSb lane seg fun x => { x with eraseBad := true } else s).progDone lane seg none c
  | .journal q => s.journalEnded c q false
  | .ckpt => s.againElsewhere c o
  | .dump => if o.kind = .program then s.againElsewhere c o else s
  | _ => s

/-! ## How a read ends (R177, R179, R191) -/

/-- The namespace and the unit whose data a read concerns. -/
def opUnit (s : State) (o : FlashOp) : List (Nat × Nat) := match o.user with
  | .unit reader unit =>
    ((s.ftl.reads.find? fun r => r.reader = reader && r.gen = o.gen && r.unit = unit).map fun r => (r.nsid, unit)).toList
  | .copy nsid unit _ => [(nsid, unit)]
  | .rebuild _ nsid unit _ => [(nsid, unit)]
  | _ => []

def readNs (s : State) (o : FlashOp) : List Nat := (s.opUnit o).map (·.1)

/-- One unit of a rebuild has been dealt with (R195). -/
def rebuildStep (s : State) (c : Nat) : State :=
  let s := s.modChan c fun x => { x with rebuildLeft := x.rebuildLeft - 1, rebuildDone := x.rebuildDone + 1 }
  let x := s.chan c
  s.setF (F.fchStatusRebuildPct c) (10000 * x.rebuildDone / max 1 (x.rebuildDone + x.rebuildLeft))

/-- The stream that collection copies an extent into (Table 06.3). -/
def gcStream (s : State) (nsid ext : Nat) : Stream :=
  let x := s.extent nsid ext
  if x.classified && s.isTiered nsid && x.heat ≤ s.getF F.ftlHeatCfgColdMax then .migrateOut else .gcCold

/-- A read has its data, and its issuer goes on. -/
def readServed (s : State) (o : FlashOp) : State := match o.user with
  | .copy nsid unit src =>
    if s.mapOf nsid unit = src then s.copyUnit (s.gcStream nsid (unit / 256)) nsid unit (some src) (s.slotData (unit % 4) src)
    else s.incF F.ftlGcDroppedUnits
  | .rebuild c nsid unit src =>
    let s := if s.mapOf nsid unit = src then s.copyUnit .gcCold nsid unit (some src) (s.slotData (unit % 4) src) else s
    s.rebuildStep c
  | .unit reader unit => s.readEnds reader o.owner o.gen (fun r => r.band.isNone && r.unit = unit) false
  | _ => s

/-- A codeword is unrecoverable (R179). The second loss in a stripe of a fenced unit marks the namespace degraded
(R196); one that the rebuild of a fenced unit meets is a deferred write error of cause 0x03 (R118, log entry 184). -/
def readFailed (s : State) (c l : Nat) (o : FlashOp) : State :=
  let s := (s.incF (F.fchCntUncorrCount c)).modFtl fun f => { f with unrecovered := f.unrecovered + 1 }
  let s := s.health 0x0008 2 (32 * c + l) (s.readNs o) o.block
  let fenced := (s.chan c).fenced || bit (s.getF (F.fchLunFenceFenced c)) l
  let s := if fenced then forEach (s.opUnit o) s (fun s u => s.unitLost u.1 u.2) else s
  match o.user with
  | .unit reader unit => s.readEnds reader o.owner o.gen (fun r => r.band.isNone && r.unit = unit) true
  | .rebuild c nsid unit _ =>
    let k := s.blocksPerUnit nsid
    (s.deferredWrite nsid none (unit * k) k 3).rebuildStep c
  | _ => s

/-- The information bytes of codeword `k` of a row as its other members give them: the exclusive or of them all,
parity included (R191). -/
def reconstructed (s : State) (lane seg row k slot : Nat) : List Byte :=
  ((s.stripeSlots lane seg row k).filter (· ≠ slot)).foldl (fun l v => xorBytes l (s.slotInfo lane v))
    (fit 4112 (sparseGet (fun _ => []) s.ftl.parity (parityKey lane seg row k)))

/-- The slot of a codeword by its place; none for a parity codeword. -/
def slotAt (s : State) (lane seg row k c : Nat) : Option Nat :=
  (s.stripeSlots lane seg row k).find? fun v => (s.slotChans lane seg v).map (·.1) = some c

/-- A reconstruction whose members have all been read ends (R191): the result must pass the header CRC. -/
def reconEnds (s : State) (r : Recon) : State :=
  let ok := !r.failed && match s.sbOfBlock r.ch r.lun r.op.block with
    | some (lane, seg) => match s.slotAt lane seg r.op.page r.op.cw r.ch with
      | some v => headerOk (s.reconstructed lane seg r.op.page r.op.cw v)
      | none => false
    | none => false
  if ok then s.readServed r.op else s.readFailed r.ch r.lun r.op

/-- A member read of a reconstruction has ended. -/
def memberEnds (s : State) (c id : Nat) (ok : Bool) : State :=
  match s.fch.recons.find? (·.id = id) with
  | none => s
  | some r =>
    let r := { r with left := r.left.filter (· ≠ c), failed := r.failed || !ok }
    if r.left.isEmpty then (s.modFch fun f => { f with recons := f.recons.filter (·.id ≠ id) }).reconEnds r
    else s.modFch fun f => { f with recons := mapWhere f.recons (·.id = id) fun _ => r }

/-- A read has decoded (R175): it leaves the LUN and its issuer goes on. -/
def readDone (s : State) (c l : Nat) (o : FlashOp) : State :=
  let s := s.dropOp c l o
  match o.user with
  | .member id => s.memberEnds c id true
  | _ => s.readServed o

/-- A read is unrecoverable and leaves the LUN. -/
def readLost (s : State) (c l : Nat) (o : FlashOp) : State :=
  let s := s.dropOp c l o
  match o.user with
  | .member id => s.memberEnds c id false
  | _ => s.readFailed c l o

/-- Reconstruction, step 17 (R191): the codeword of every other member of the stripe is read; a stripe whose parity
is still being programmed serves it from the write buffer (R185); a member on a fenced LUN or channel makes it
fail. A member read itself goes no further than step 16. -/
def startRecon (s : State) (c l : Nat) (o : FlashOp) : State :=
  match o.user with
  | .member id => (s.dropOp c l o).memberEnds c id false
  | _ =>
    let s := (s.dropOp c l o).incF (F.fchCntRainCount c)
    match s.sbOfBlock c l o.block with
    | none => s.readFailed c l o
    | some (lane, seg) =>
      let others := (s.sb lane seg).chans.filter (· ≠ c)
      if s.ftl.progs.any fun p => p.lane = lane && p.seg = seg && p.row = some o.page then s.readServed o
      else if others.isEmpty || others.any (fun m => !(s.chanServes m && s.lunUsable m l)) then s.readFailed c l o
      else
        let id := s.fch.nextOp
        let r : Recon := { id := id, ch := c, lun := l, op := o, left := others, failed := false }
        let s := s.modFch fun f => { f with nextOp := id + 1, recons := f.recons ++ [r] }
        forEach others s fun s m =>
          s.queueOp m l { s.newOp .read (.member id) o.owner o.own o.block o.page o.cw 1 with gen := o.gen }

/-- Reads the units of a run for a reader (R174, R262, R364): one in the buffer needs no medium, but is lost where its
codewords there are uncorrectable (Table 13.4); those that flash holds are queued on their LUN, or
reconstructed where the LUN or its channel is fenced (R194); those that a band holds wait for a sector read, and are
lost at once where the band cannot be read (R582). Each from the media is deciphered by an AES core (R431). -/
def readUnits (s : State) (reader : ReadFor) (nsid : Nat) (units : List Nat) (owner inst gen : Nat) : State :=
  forEach units s fun s u =>
    let s := s.touchMap nsid (u / 256)
    let enter := fun (s : State) (band : Option (Nat × Nat)) => s.modFtl fun f => { f with reads := f.reads ++
      [{ reader := reader, inst := inst, gen := gen, nsid := nsid, unit := u, band := band, lost := false }] }
    let gone := fun (s : State) => s.readEnds reader inst gen (fun r => r.unit = u) true
    if (s.wbFind nsid u).isSome then
      let (ok, s) := s.dramCheck (entryAt nsid u) 4096
      if ok then s else gone (enter s none)
    else if s.unitEmpty nsid u then s
    else match s.unitBand nsid u, s.slotPlace (u % 4) (s.mapOf nsid u) with
      | some (b, v), _ =>
        let s := enter (s.useMasks 256) (some (b, v))
        if s.bandGone b then gone s else s
      | none, some (ch, l, b, p, w) =>
        let o := { s.newOp .read (.unit reader u) owner false b p w 1 with gen := gen }
        let s := enter (s.useMasks 256) none
        if s.chanServes ch && s.lunUsable ch l then s.queueOp ch l o else s.startRecon ch l o
      | none, none => s

/-- A read moves to a later step of the ladder (R177): its array command is issued again, past the hint table that
step 0 used. Retry tables are skipped without a NAND record (R166). -/
def climb (s : State) (c l : Nat) (o : FlashOp) : State :=
  let next := if s.fch.nandRec.isNone then 16 else if o.step + 1 = o.skip then o.step + 2 else o.step + 1
  let s := if o.step = 0 && next < 16 then s.incF (F.fchCntRetryCount c) else s
  let s := if next = 16 then s.incF (F.fchCntSoftCount c) else s
  s.modOp c l o fun o => { o with step := next, began := none, ready := false, moved := 0, soft := 0 }

/-- The next soft request is taken, and a held one enters the queue: of several channels that hold one, the lowest
(DESIGN CHOICE, the spec is silent; log entry 166). -/
def nextSoft (s : State) (slot : Nat) : State :=
  let s := s.modFch fun f => { f with softBusy := f.softBusy.eraseIdx slot }
  let s := match s.fch.softQueue with
    | r :: rest => s.modFch fun f => { f with softQueue := rest, softBusy := f.softBusy ++ [r] }
    | [] => s
  match (List.range 16).find? fun c => !(s.chan c).softHeld.isEmpty with
  | some c => match (s.chan c).softHeld with
    | r :: rest =>
      if s.fch.softQueue.length < 64 then
        (s.modChan c fun x => { x with softHeld := rest }).modFch fun f =>
          { f with softQueue := f.softQueue ++ [r] }
      else s
    | [] => s
  | none => s

/-! ## Fencing (R192–R196) -/

/-- Every operation of a LUN leaves it (R194): reads move to reconstruction, programs and erases fail back. -/
def emptyLun (s : State) (c l : Nat) : State :=
  let x := s.lun c l
  let s := s.modLun c l fun x => { x with queue := [], held := [] }
  forEach (x.queue ++ x.held) s fun s o =>
    if o.kind = .read then s.startRecon c l o else s.opFailedBack c l o false

/-- Units mapped to a LUN, or to a whole channel: namespace, unit and slot. -/
def unitsOn (s : State) (c : Nat) (l : Option Nat) : List (Nat × Nat × Nat) :=
  (s.ftl.map.filter fun e => e.2 < mapZero - 15 &&
    match s.slotPlace (e.1 % 2 ^ 40 % 4) e.2 with
    | some (c', l', _, _, _) => c' = c && (l.isNone || l = some l')
    | none => false).map fun e => (e.1 / 2 ^ 40, e.1 % 2 ^ 40, e.2)

/-- MEDIA reconstructs units of a fenced unit and writes them onto the other channels (R195). -/
def rebuildUnits (s : State) (c : Nat) (us : List (Nat × Nat × Nat)) : State :=
  forEach us s fun s u => match s.slotPlace (u.2.1 % 4) u.2.2 with
    | some (_, l, b, p, w) => s.startRecon c l (s.newOp .read (.rebuild c u.1 u.2.1 u.2.2) ownMedia true b p w 1)
    | none => s.rebuildStep c

/-- A rebuild starts or goes on after a restart, with the progress register at its start. -/
def beginRebuild (s : State) (c : Nat) (l : Option Nat) : State :=
  let us := s.unitsOn c l
  let s := s.modChan c fun x =>
    { x with rebuilding := true, rebuildLeft := x.rebuildLeft + us.length, rebuildDone := if x.rebuilding then x.rebuildDone else 0 }
  let s := s.setF (F.fchStatusRebuildPct c) (if us.isEmpty && (s.chan c).rebuildLeft = 0 then 10000 else 0)
  s.rebuildUnits c us

/-- Good blocks of LUNs of a channel. -/
def goodBlocks (s : State) (c : Nat) (ls : List Nat) : Nat :=
  (ls.map fun l => ((s.fch.geom.map (·.blocks)).getD 0) - (s.lun c l).retired).sum

/-- LUNs of a channel that answered, fenced or not. -/
def lunsFenced (s : State) (c : Nat) (fenced : Bool) : List Nat :=
  (List.range 32).filter fun l => bit (s.chan c).present l && bit (s.getF (F.fchLunFenceFenced c)) l = fenced

/-- After a fence: the rebuild starts and the spare pool loses the unit's blocks (R195). -/
def startRebuild (s : State) (c : Nat) (l : Option Nat) : State :=
  let lost := s.goodBlocks c (l.elim (s.lunsFenced c false) fun i => [i])
  ((s.subF F.ftlSpareBlocks lost).reliabilityEvent s.nsids).checkSpares.beginRebuild c l

/-- Open superblocks with fewer than 4 members that can be programmed take no new data (R195): a row that is short is
programmed as it is, and the superblock closes. -/
def shutSbs (s : State) : State :=
  forEach (s.ftl.sbs.filter fun e => (e.2 : Superblock).st = .opened) s fun s e =>
    let lane := e.1 / 2 ^ 18
    let seg := e.1 % 2 ^ 18
    if 4 ≤ (s.sbUsable lane seg).length then s
    else
      let row := ((s.sb lane seg).next - 1) / max 1 (s.rowSlots lane seg)
      let s := if (sparseGet (fun _ => none) s.ftl.rows (sbKey lane seg)).isSome then s.programRow lane seg row else s
      (s.modSb lane seg fun x => { x with next := x.slots }).closeFull lane seg

/-- Fences a LUN (R192, R194). -/
def fenceLun (s : State) (c l : Nat) : State :=
  if bit (s.getF (F.fchLunFenceFenced c)) l then s
  else
    let s := s.setF (F.fchLunFenceFenced c) (s.getF (F.fchLunFenceFenced c) ||| 2 ^ l)
    let s := if s.getF (F.fchStatusState c) = 2 then s.setF (F.fchStatusState c) 3 else s
    let s := (s.emptyLun c l).shutSbs
    (s.health 0x0002 2 (32 * c + l) s.nsids l).startRebuild c (some l)

/-- Fences a channel (R193, R194). -/
def fenceChan (s : State) (c : Nat) : State :=
  if (s.chan c).fenced then s
  else
    let s := (s.modChan c fun x => { x with fenced := true, retraining := false, keptRate := none }).setF
      (F.fchStatusState c) 4
    let s := (s.setF (F.fchCtrlRetrain c) 0).setF (F.fchCtrlClearFence c) 0
    let s := (forEach ((s.chan c).luns.map (·.1)) s fun s l => s.emptyLun c l).shutSbs
    (s.health 0x0001 1 c s.nsids 0).startRebuild c none

/-- A channel whose training fails is fenced, and no rate was reached (R169): RATE becomes 0, DESIGN CHOICE (log entry
177). -/
def trainingFailed (s : State) (c : Nat) : State := (s.setF (F.fchStatusRate c) 0).fenceChan c

/-! ## Bring-up (R167–R170) -/

/-- Outcome of training from a highest rate with a number of failed attempts (R169): the rate
reached, or none once 800 MT/s has failed three times in a row. -/
def trainedRate (top fails : Nat) : Option Nat :=
  let top := max 1 (min 6 top)
  if fails < top then some (top - fails) else if fails < top + 2 then some 1 else none

/-- A channel has trained: ONLINE, or DEGRADED with a LUN fenced. -/
def chanUp (s : State) (c rate : Nat) : State :=
  let st := if s.getF (F.fchLunFenceFenced c) = 0 then 2 else 3
  let s := ((s.setF (F.fchStatusRate c) rate).setF (F.fchStatusState c) st).setF (F.fchCtrlClearFence c) 0
  let s := (s.setF (F.fchCtrlRetrain c) 0).modChan c fun x => { x with retraining := false, keptRate := none }
  if (s.chan c).rebuilding then s else s.setF (F.fchStatusRebuildPct c) 10000

/-- The geometry is one of Table 05.1. -/
def geomSupported (g : NandGeom) : Bool :=
  1 ≤ g.bits && g.bits ≤ 4 && 8192 ≤ g.pageSize && g.pageSize ≤ 36864 && g.dataArea ≤ g.pageSize
    && (g.planes = 1 || g.planes = 2 || g.planes = 4) && 1 ≤ g.pages && g.pages ≤ 4096 && 1 ≤ g.blocks && g.blocks ≤ 16384

/-- The geometries agree in every item that R162 names. -/
def sameGeom (a b : NandGeom) : Bool :=
  a.pageSize = b.pageSize && a.pages = b.pages && a.blocks = b.blocks && a.planes = b.planes && a.bits = b.bits

/-- LUN numbers of the targets that are used (R161, R162), as PRESENT shows them. -/
def presentLuns (g : NandGeom) (ts : List NandTarget) : Nat :=
  (ts.filter fun t => t.ce < 8 && sameGeom g t.geom).foldl (fun n t => n ||| (t.luns % 16) * 2 ^ (4 * t.ce)) 0

/-- The geometry of channel 0, target 0 becomes that of the device (R162): the first target of channel 0. A NAND
record whose LEVELS do not match it is not used (R165). -/
def learnGeom (s : State) (ch : Nat) (ts : List NandTarget) : State :=
  if ch ≠ 0 then s
  else match ts.find? fun t => geomSupported t.geom with
    | none => s
    | some t =>
      let s := s.modFch fun f => { f with geom := some t.geom }
      match s.fch.nandRec with
      | some r => if levelsOk r.levels (some t.geom.bits) then s else s.badNandRec
      | none => s

/-- A retrain begins (R170): the channel issues no array command until it ends. -/
def beginRetrain (s : State) (c : Nat) : State :=
  if s.chanOnline c then (s.setF (F.fchStatusState c) 1).modChan c fun x => { x with retraining := true } else s

/-- Pieces of the holding buffer of an actuator whose place in DRAM lies on a channel (R41, R47). -/
def heldPiece (s : State) (ch : Nat) (h : HeldSector) : Option Nat :=
  h.left.find? fun i => (s.dramLoc (Config.bufferPlace 2 + 512 * i)).channel = ch

/-- The actuator and the oldest held sector that have a piece for a D column. -/
def heldFor (s : State) (ch : Nat) : Option (Nat × HeldSector × Nat) :=
  [0, 1].findSome? fun a => (s.diskAct a).holding.findSome? fun h => (s.heldPiece ch h).map fun i => (a, h, i)

/-- The data of a sector is in DRAM: whoever waits for it goes on. -/
def sectorDelivered (s : State) (h : HeldSector) : State := match h.user with
  | .reader r => s.readEnds r h.inst h.gen (fun x => x.band = some (h.band, h.unit)) false
  | _ => s

/-- A DISK cell of D column `ch` moves one slot of 512 B of an accepted sector to DRAM (R41, R262). -/
def drainDisk (s : State) (ch : Nat) : State := match s.heldFor ch with
  | none => s
  | some (a, h, i) =>
    let left := h.left.erase i
    if left.isEmpty then (s.modDiskAct a fun d => { d with holding := d.holding.erase h }).sectorDelivered h
    else s.modDiskAct a fun d => { d with holding := mapWhere d.holding (· = h) fun h => { h with left := left } }

/-! ## Work and grants (R48, R54–R56, R616) -/

/-- A posted request can be served now: a request of a D column needs room in the queues of its channel (R455). -/
def requestReady (s : State) (k : Nat) : Bool :=
  if keyCol k = 18 || keyCol k = 19 then s.dramRoom (keyCol k - 18) (keyWr k) else true

/-- Posted requests of a column, by key, that can be served. -/
def postedOf (s : State) (c : Nat) : List Nat :=
  (s.slt.posted.filter fun e => keyCol e.1 = c && s.requestReady e.1).map (·.1)

/-- Data for a D column waits in the holding buffers of the read channels (R262). -/
def diskHolds (s : State) (ch : Nat) : Bool := (s.heldFor ch).isSome

/-- Owners with work in a column (R48, R56): a request posted in time, an operation of the flash channel, data of the
disk, or a frame of the continuity link (R479). Work of an absent instance is FIRMWARE work (R616). -/
def colWork (s : State) (c : Nat) : List Nat :=
  let own := if 2 ≤ c && c < 18 then (s.usableOps (c - 2)).map fun e => e.2.owner
    else if (c = 18 || c = 19) && s.diskHolds (c - 18) && s.dramRoom (c - 18) true then [ownDisk]
    else if c = colCnt then s.linkReady.toList
    else []
  ((s.postedOf c).map keyOwner ++ own).map s.actOwner

/-- One cell of a posted request is granted. -/
def grantPosted (s : State) (k : Nat) : State := s.modSlt fun x =>
  { x with posted := sparsePut (fun _ => 0) x.posted k (sparseGet (fun _ => 0) x.posted k - 1)
           granted := sparsePut (fun _ => 0) x.granted k (sparseGet (fun _ => 0) x.granted k + 1) }

/-- A grant of a cell of column `c` to an owner moves one quantum, or gives the cell to a posted request. -/
def grantCell (s : State) (c o : Nat) : State :=
  match (s.postedOf c).find? fun k => s.actOwner (keyOwner k) = o with
  | some k => s.grantPosted k
  | none =>
    if 2 ≤ c && c < 18 then s.serveFlash (c - 2) o
    else if c = 18 || c = 19 then (if o = ownDisk then s.drainDisk (c - 18) else s)
    else if c = colCnt then s.serveLink
    else s

/-- While the power-fail flush runs every cell of a flash column serves it, whatever its owner (R229). -/
def serveDump (s : State) (c : Nat) : State :=
  match oldestOp ((s.usableOps c).filter fun e => e.2.own) with
  | some (l, o) => s.serveOp c l o
  | none => s

end State

/-! ## Commands -/

/-- CELL_DECISION (R44, R48, R56): the decision of cell `cell` of column `col`, once in the last four cycles of the
slot before the cell's first slot; `uncorr` is an uncorrectable error on the cell (R79). A grant moves at most one
quantum, or issues one command of a flash channel (R46, R181). -/
def execCellDecision (col cell : Nat) (uncorr : Bool) (s : State) :
    Host.Outcome State Fault Refusal :=
  let next := (s.slt.frameCycle / 16 + 1) % 1024
  if s.columnsRun && col < 28 && cell < colCells col && inWindow s.slt.frameCycle && next = cell * colStride col
      && !s.slt.decided.contains col then
    let s := s.modSlt fun x => { x with decided := col :: x.decided }
    if s.ftl.dumping && 2 ≤ col && col < 18 then done (s.serveDump (col - 2))
    else match s.decideCell col cell (s.colWork col) uncorr with
      | (some o, s) => done (s.grantCell col o)
      | (none, s) => done s
  else done s

/-- FABRIC_CLOCK_UNGATE (R51): a request posted by `owner` to column `col` ungates the clock; the
slate resumes at slot 0 of the next frame. -/
def execFabricClockUngate (owner col : Nat) (s : State) : Host.Outcome State Fault Refusal :=
  let s' := s.joinFresh
  if s.slt.gated && (s'.colWork col).contains owner then
    done (s'.modSlt fun x => { x with gated := false, frameCycle := 0 })
  else done s

/-- CHANNEL_BRING_UP (R161, R162, R167, R169) at a start, or after a fence was removed: `targets` are the targets that
answered and their parameter pages, `fails` the failed training attempts. A fenced channel is not brought up, and
other channels wait for the geometry of channel 0. -/
def execChannelBringUp (ch : Nat) (targets : List NandTarget) (fails : Nat) (s : State) :
    Host.Outcome State Fault Refusal :=
  let st := s.getF (F.fchStatusState ch)
  if 16 ≤ ch || (s.chan ch).fenced || !s.logicOn || !(st = 0 || st = 1) || (s.chan ch).retraining
      || (s.chan ch).keptRate.isSome then done s
  else
    let s := s.learnGeom ch targets
    match s.fch.geom with
    | none => done s
    | some g =>
      let luns := State.presentLuns g targets
      let out := targets.any fun t => !State.sameGeom g t.geom
      let s := (s.setF (F.fchPresentPresent ch) luns).setF (F.fchStatusTargetMismatch ch) out.toNat
      let s := s.modChan ch fun x => { x with present := luns }
      done (match State.trainedRate (s.getF (F.fchCfgMaxRate ch)) fails with
        | some r => s.chanUp ch r
        | none => s.trainingFailed ch)

/-- CHANNEL_STANDBY_RESTORE (R168): on leaving Standby the kept training is loaded and checked; where a check fails
the channel runs the full sequence. -/
def execChannelStandbyRestore (ch : Nat) (ok : Bool) (s : State) : Host.Outcome State Fault Refusal :=
  let st := s.getF (F.fchStatusState ch)
  if 16 ≤ ch || (s.chan ch).fenced || !s.logicOn || !(st = 0 || st = 1) then done s
  else match (s.chan ch).keptRate with
    | some r =>
      if ok then done ((s.setF (F.fchPresentPresent ch) (s.chan ch).present).chanUp ch r)
      else done ((s.modChan ch fun x => { x with keptRate := none }).setF (F.fchStatusState ch) 1)
    | none => done s

/-- CHANNEL_RETRAIN (R170): the retrain that FCH_CTRL.RETRAIN or the timeouts of four LUNs within 1 s began, ends. -/
def execChannelRetrain (ch fails : Nat) (s : State) : Host.Outcome State Fault Refusal :=
  if 16 ≤ ch || !(s.chan ch).retraining then done s
  else
    let s := s.modChan ch fun x => { x with timeouts := [] }
    done (match State.trainedRate (s.getF (F.fchCfgMaxRate ch)) fails with
      | some r => s.chanUp ch r
      | none => s.trainingFailed ch)

/-- FLASH_STATUS_POLL (R183): a status read at its scheduled time, in a cell of the operation's owner. `fail` is the
FAIL bit of a LUN that is ready: a read goes on at its next step, a program or erase retires its block (R184). One
that is ready without it has passed; a read has its data. -/
def execFlashStatusPoll (ch lun : Nat) (busy fail : Bool) (s : State) : Host.Outcome State Fault Refusal :=
  match s.runningOp ch lun with
  | none => done s
  | some o =>
    if s.tick < o.pollAt || !s.chanOnline ch then done s
    else s.moving [{ col := colFlash ch, owner := o.owner, count := 1 }] fun s =>
      if busy then
        done (s.modOp ch lun o fun o =>
          { o with pollAt := s.tick + (if o.kind = .read then 2000 else 20000) * 64 })
      else if o.kind = .read then
        done (if fail then (if o.step = 16 then s.startRecon ch lun o else s.climb ch lun o)
          else s.modOp ch lun o fun o => { o with ready := true, moved := 0 })
      else if fail then
        let f := if o.kind = .program then F.fchCntFailPgmFail ch else F.fchCntFailErsFail ch
        done (((s.incF f).retireBlock ch lun o.block).opFailedBack ch lun o false)
      else done (s.opPassed ch lun o)

/-- FLASH_OPERATION_TIMEOUT (R183): busy at twice the limit. The LUN receives Reset LUN, which ends whatever it holds:
each operation fails back to its issuer, where a read is reconstructed (log entry 15). Operations on four LUNs that
time out within 1 s retrain the channel (R170). -/
def execFlashOperationTimeout (ch lun : Nat) (resetOk : Bool) (s : State) :
    Host.Outcome State Fault Refusal :=
  match s.runningOp ch lun with
  | none => done s
  | some o =>
    if !s.since (o.issued.getD s.tick) (s.opLimit o.kind * 2000) then done s
    else
      let s := (s.incF (F.fchCntFailTimeout ch)).incF (F.fchCntFailLunReset ch)
      let s := s.modChan ch fun x => { x with timeouts := (lun, s.tick) :: x.timeouts }
      let s := s.modLun ch lun fun x => { x with timeouts := s.tick :: x.timeouts, resetBad := !resetOk }
      let s := forEach ((s.lun ch lun).queue.filter fun x => x.began.isSome) s fun s x =>
        if x.kind = .read then s.startRecon ch lun x else s.opFailedBack ch lun x true
      let recent := ((s.chan ch).timeouts.filter fun t => !s.since t.2 1000000000).map (·.1)
      done (if 4 ≤ recent.eraseDups.length then s.beginRetrain ch else s)

/-- HARD_DECODE_DONE (R175, R177, R178): a codeword of the ready read decodes, or the read climbs. What decodes for an
issuer goes to its buffer in DRAM in a D-column cell of its owner (R54). -/
def execHardDecodeDone (ch lun : Nat) (syndromeZero crcOk : Bool) (s : State) :
    Host.Outcome State Fault Refusal :=
  match s.readyOp ch lun with
  | none => done s
  | some o =>
    if 16 ≤ o.step then done s
    else
      let pass := syndromeZero && crcOk
      s.moving (if pass then s.dramNeeds o.owner (Config.bufferPlace 2) 4096 true else []) fun s =>
        let s := if o.step = 0 then s.incF (F.fchCntCwReadCount ch) else s
        if pass then
          let s := s.incF (F.fchRetryHistCount ch o.step)
          let s := if o.step = 0 then s else s.setHint ch lun o.block o.step
          done (s.readDone ch lun o)
        else
          let s := if syndromeZero then s.incF (F.fchCntCrcMissCount ch) else s
          done (s.climb ch lun o)

/-- SOFT_DECODE_DONE (R176, R177): the decoder in `slot` ends; a failure goes on to reconstruction. -/
def execSoftDecodeDone (slot : Nat) (syndromeZero crcOk : Bool) (s : State) :
    Host.Outcome State Fault Refusal :=
  match s.fch.softBusy[slot]? with
  | none => done s
  | some r =>
    let s := s.nextSoft slot
    match s.readyOp r.ch r.lun with
    | none => done s
    | some o =>
      if syndromeZero && crcOk then done (s.readDone r.ch r.lun o)
      else
        let s := if syndromeZero then s.incF (F.fchCntCrcMissCount r.ch) else s
        done (s.startRecon r.ch r.lun o)

/-- PROGRAM_FAIL (R184, R211): the block is retired and the data goes to the next row. -/
def execProgramFail (ch lun : Nat) (s : State) : Host.Outcome State Fault Refusal :=
  match s.runningOp ch lun with
  | some o =>
    if o.kind = .program then
      done (((s.incF (F.fchCntFailPgmFail ch)).retireBlock ch lun o.block).opFailedBack ch lun o false)
    else done s
  | none => done s

/-- ERASE_FAIL (R184, R221): the block is retired, and its superblock loses it at its next opening. -/
def execEraseFail (ch lun : Nat) (s : State) : Host.Outcome State Fault Refusal :=
  match s.runningOp ch lun with
  | some o =>
    if o.kind = .erase then
      done (((s.incF (F.fchCntFailErsFail ch)).retireBlock ch lun o.block).opFailedBack ch lun o false)
    else done s
  | none => done s

/-- PROGRAM_LOOP_SAMPLE (R180): after every 64th program of a LUN, in one MEDIA cell, its loop count is read: the
average of the last 64 samples in 0.25 loop, and the maximum. Before 64 samples were taken the average is that of the
samples there are, and the field stops at 255: DESIGN CHOICE (log entry 168). -/
def execProgramLoopSample (ch lun loops : Nat) (s : State) : Host.Outcome State Fault Refusal :=
  let x := s.lun ch lun
  let due := x.programs % 64 = 0 && x.sampled < x.programs
  if (match s.fch.nandRec with
      | some r => r.loopFeature = 0
      | none => true) || !due then done s
  else s.moving [{ col := colFlash ch, owner := ownMedia, count := 1 }] fun s =>
    let s := s.modLun ch lun fun x => { x with sampled := x.programs }
    let l := (loops :: (s.chan ch).loops).take 64
    let s := s.modChan ch fun x => { x with loops := l }
    let s := s.setF (F.fchPgmLoopsAvg ch) (min 255 (4 * l.sum / max 1 l.length))
    done (s.setF (F.fchPgmLoopsMax ch) (min 255 (max loops (s.getF (F.fchPgmLoopsMax ch)))))

/-- FLASH_SUSPEND (R186): a read that waits for a LUN busy with a program or erase suspends it where it may; the
command takes a cell of the read's owner (R46). No suspend follows a power-fail event (R189). -/
def execFlashSuspend (ch lun : Nat) (s : State) : Host.Outcome State Fault Refusal :=
  match s.runningOp ch lun with
  | none => done s
  | some o =>
    let pgm := o.kind = .program
    let op := (s.fch.nandRec.map (·.suspOp)).getD 0
    let run := if pgm then s.getF (F.fchSuspendPgmMinRun ch) * 1000
      else s.getF (F.fchSuspendErsMinRun ch) * 10000
    let most := if pgm then s.getF (F.fchSuspendPgmMax ch) else s.getF (F.fchSuspendErsMax ch)
    match (s.lun ch lun).queue.find? fun x => x.kind = .read && x.began.isNone with
    | none => done s
    | some r =>
      if o.kind = .read || op = 0 || s.fch.powerFail || !s.chanOnline ch || !s.since (o.began.getD s.tick) run
          || most ≤ o.suspends then done s
      else s.moving [{ col := colFlash ch, owner := r.owner, count := 1 }] fun s =>
        let s := s.modOp ch lun o fun o =>
          { o with suspendedAt := some s.tick, suspends := o.suspends + 1 }
        done (s.incF (if pgm then F.fchCntSuspendPgm ch else F.fchCntSuspendErs ch))

/-- SUSPEND_HOLD_EXPIRE (R187): no read is queued, or HOLD_MAX has passed: the operation resumes, in a cell of its
owner (R46); a suspended erase stays suspended after a power-fail event (R189). -/
def execSuspendHoldExpire (ch lun : Nat) (s : State) : Host.Outcome State Fault Refusal :=
  match (s.lun ch lun).queue.find? fun o => o.suspendedAt.isSome with
  | none => done s
  | some o =>
    let reads := (s.lun ch lun).queue.any fun x => x.kind = .read
    let due := !reads || s.since (o.suspendedAt.getD 0) (s.getF (F.fchSuspend2HoldMax ch) * 1000)
    if due && !(s.fch.powerFail && o.kind = .erase) && (s.runningOp ch lun).isNone
        && !((s.lun ch lun).queue.any fun x => x.ready) then
      s.moving [{ col := colFlash ch, owner := o.owner, count := 1 }] fun s =>
        done (s.modOp ch lun o fun o =>
          { o with suspendedAt := none, began := some s.tick, issued := some s.tick,
                   pollAt := s.tick + s.opLimit o.kind * 32000 })
    else done s

/-- LUN_FENCE (R192): written, Read ID failing after a reset, three timeouts in 1 s of which Reset LUN did not bring
the LUN back, or more than 2% of the blocks retired. -/
def execLunFence (ch lun : Nat) (written idFails : Bool) (s : State) : Host.Outcome State Fault Refusal :=
  let x := s.lun ch lun
  let recent := x.timeouts.countP fun t => !s.since t 1000000000
  let blocks := (s.fch.geom.map (·.blocks)).getD 0
  if ch < 16 && lun < 32
      && (written || idFails || (3 ≤ recent && x.resetBad) || (0 < blocks && blocks < x.retired * 50)) then
    done (s.fenceLun ch lun)
  else done s

/-- CHANNEL_FENCE (R193): written, or eight or more of its LUNs fenced. -/
def execChannelFence (ch : Nat) (written : Bool) (s : State) : Host.Outcome State Fault Refusal :=
  let fenced := (List.range 32).countP fun l => bit (s.getF (F.fchLunFenceFenced ch)) l
  if ch < 16 && (written || 8 ≤ fenced) then done (s.fenceChan ch) else done s

/-- CLEAR_FENCE (R196): in Service mode the fences go and the channel is brought up again; its blocks are
erased before use. -/
def execClearFence (ch : Nat) (path : Path) (s : State) : Host.Outcome State Fault Refusal :=
  match s.admitWrite path (A.fchCtrl ch) with
  | (false, s) => done s
  | (true, s) =>
    if 16 ≤ ch || !s.inMode .service then done s
    else
      let back := s.lunsFenced ch true ++ (if (s.chan ch).fenced then s.lunsFenced ch false else [])
      let s := (s.addF F.ftlSpareBlocks (s.goodBlocks ch back)).checkSpares
      let s := s.modChan ch fun x =>
        { x with fenced := false, eraseFirst := true, erasedSbs := [], timeouts := [], rebuildLeft := 0, rebuildDone := 0,
                 rebuilding := false, retraining := false, keptRate := none }
      let s := s.modFch fun f => { f with chans := sparseMap (fun _ => Channel.reset) (fun c (x : Channel) =>
        if c = ch then { x with luns := sparseMap (fun _ => Lun.reset) (fun _ (l : Lun) =>
          { l with timeouts := [], resetBad := false }) x.luns } else x) f.chans }
      let s := ((s.setF (F.fchLunFenceFenced ch) 0).setF (F.fchCtrlClearFence ch) 1).setF (F.fchStatusState ch) 1
      done (s.setF (F.fchStatusRebuildPct ch) 10000)

/-- REBUILD_COMPLETE (R195): every valid codeword of the fenced unit has been rebuilt onto the other
channels of its group. -/
def execRebuildComplete (ch : Nat) (s : State) : Host.Outcome State Fault Refusal :=
  let x := s.chan ch
  if ch < 16 && x.rebuilding && x.rebuildLeft = 0 then
    let s := s.modChan ch fun x => { x with rebuilding := false }
    done ((s.setF (F.fchStatusRebuildPct ch) 10000).health 0x000E 1 ch s.nsids x.rebuildDone)
  else done s

end Sys2Proof.Machine
end

