-- ==== Sys2Proof/Machine/Ftl.lean ====
section
/-! DEFINITION. Flash translation, tiering and health (chapter 06): flush, journal, checkpoints,
collection, discard, heat, demotion and promotion, the power-fail dump, spares, sensors and the
dailies, with their commands. -/

namespace Sys2Proof.Machine

namespace State

/-! ## Bands of the tiered pool (R225, R228, R246) -/

/-- The band belongs to a zone of a zoned-disk namespace. -/
def bandZoned (s : State) (b : Nat) : Bool :=
  s.host.nss.any fun e => match e.2 with
    | some n => n.zones.any fun z => z.2 = b
    | none => false

/-- A free band of the tiered pool that may be written (R225, R245). -/
def bandFree (s : State) (b : Nat) : Bool :=
  (s.band b).st = .empty && !s.bandZoned b && s.bandHead b = .good
    && !s.ftl.moves.any fun m => m.band = b

/-- The first number from `i` on, of `n`, that passes a test. -/
def findFrom (p : Nat → Bool) : Nat → Nat → Option Nat
  | _, 0 => none
  | i, n + 1 => if p i then some i else findFrom p (i + 1) n

/-- The first free band of an online actuator. -/
def freeBand (s : State) (a : Nat) : Option Nat :=
  if !s.actOnline a then none
  else (s.dch.zones.filter fun z => z.act = a).findSome? fun z => findFrom s.bandFree z.firstBand z.bandCount

/-- Free bands of the tiered pool, counted up to a bound. -/
def countFree (s : State) : Nat → Nat → Nat → Nat
  | _, 0, _ => 0
  | _, _, 0 => 0
  | i, n + 1, m + 1 => if s.bandFree i then 1 + countFree s (i + 1) n m else countFree s (i + 1) n (m + 1)

def freeBands (s : State) (most : Nat) : Nat :=
  (s.dch.zones.map fun z => if s.actOnline z.act then s.countFree z.firstBand z.bandCount most else 0).sum

/-- Extents of a band that are live: (nsid, extent). -/
def liveExtents (s : State) (b : Nat) : List (Nat × Nat) :=
  (s.ftl.extents.filter fun e => e.2.st = .disk && e.2.band = b).map fun e => (e.1 / 2 ^ 32, e.1 % 2 ^ 32)

/-- The zone that is a band goes offline or read-only, or its capacity changes (Table 03.13). -/
def zoneChanged (s : State) (b : Nat) : State :=
  forEach s.host.nss s fun s e =>
    match e.2.bind fun n => n.zones.findIdx? fun z => z.2 = b with
    | none => s
    | some zone =>
      let s := forEach (0 :: (s.attachedTo e.1).filter (· ≠ 0)) s fun s fn => s.modCtrl fn fun c =>
        { c with changedZones := if c.changedZones.contains (e.1, zone) then c.changedZones
                                 else c.changedZones ++ [(e.1, zone)] }
      s.raiseEventNs e.1 2 0xEF 0xBF

/-- Reports every zone whose band passes a test. -/
def zonesChanged (s : State) (p : Nat → Bool) : State :=
  let bands := (s.host.nss.map fun e => match e.2 with
    | some n => (n.zones.map (·.2)).filter p
    | none => []).flatten
  forEach bands s fun s b => s.zoneChanged b

/-- BAND_RESET (R249, R263, R266): a new write stamp, the pointer at 0, no relocations; the capacity
follows the skip list, which takes the positions found bad since the last reset (log entry 17). -/
def resetBand (s : State) (b : Nat) : State :=
  let s := s.appendJrn .bandReset 0 0 b 0 0
  let stamp := s.lastSeq % 2 ^ 32
  let x := s.band b
  let user := match s.bandRec b with
    | some z => z.tracks * (z.slots - z.spares)
    | none => 65536
  let skip := x.nextSkip.foldl insertRising x.skip
  let skipped := match s.bandRec b with
    | some z => (skip.filterMap z.userIndex).length
    | none => 0
  let cap := min 65536 (user - skipped)
  let st : BandSt := if x.st = .clockBad || x.st = .unusable || x.st = .retired then x.st else .empty
  let s := s.setBand b
    { Band.reset with st := st, stamp := stamp, skip := skip, capacity := cap }
  let s := s.modDch fun d => { d with data := sparseKeep (fun k => k / 65536 ≠ b) d.data }
  if cap < x.capacity then s.zoneChanged b else s

/-! ## What becomes durable (R206, R204, R228) -/

/-- Buffer entries of a reloaded dump whose key has come since enter the buffer (R218, R229). -/
def openWaits (s : State) : State :=
  let go := s.ftl.dumpWaits.filter fun e => (s.nsKey e.nsid).isSome
  if go.isEmpty then s
  else
    let open_ := fun (e : WbEntry) => { e with data := s.decUnit e.nsid e.unit e.data }
    (s.modFtl fun f => { f with wb := go.map open_ ++ f.wb, dumpWaits := f.dumpWaits.filter fun e => !go.contains e }).syncWb

/-- Every unit of the reloaded dump is mapped by a durable record: DUMP_REPLAYED is appended and the dump
blocks are erased (R231). -/
def dumpStep (s : State) : State := match s.ftl.dump with
  | some d =>
    let s := s.openWaits
    let left := !s.ftl.dumpWaits.isEmpty ||
      d.entries.any fun (e : WbEntry) => s.ftl.wb.any fun (w : WbEntry) => w.nsid = e.nsid && w.unit = e.unit
    if s.ftl.replaying && !left then
      let s := (s.appendJrn .dumpReplayed 0 0 d.seq 0 0).modFtl fun f => { f with dump := none, replaying := false }
      forEach s.pageLuns s fun s e =>
        s.queueOp e.1 e.2 (s.newOp .erase .dump ownMedia true (Config.systemBlock 0) 0 0 1)
    else s
  | none => s

/-- The device empties the write buffer: a reloaded dump (R231), or the entry to Dormant, Standby or Service
(R209). -/
def emptying (s : State) : Bool := s.ftl.replaying || match s.pwr.trans with
  | some t => t.target = .dormant || t.target = .standby || t.target = .service
  | none => false

/-- The dump written at Safe entry is reloaded into the buffer, which still holds its entries (Table 15.10). -/
def reloadDump (s : State) : State :=
  if s.ftl.dump.isSome then (s.modFtl fun f => { f with replaying := true }).setF F.ftlStatusState 3 else s

/-- An extent whose EXTENT_SET to FLASH is durable is served from flash (R227). -/
def promoted (s : State) (nsid ext : Nat) : State :=
  let s := if (s.extent nsid ext).st = .disk then
      (s.putExtent nsid ext { s.extent nsid ext with st := .flash }).checkWhole nsid
    else s
  (s.modFtl fun f => { f with
    diskClear := sparseKeep (fun k => !(k / 2 ^ 40 = nsid && k % 2 ^ 40 / 256 = ext)) f.diskClear }).incF F.ftlMigrateCntPromoted

/-- Free tiered chunks as a percentage of TIER_CAP are below a bound. -/
def tieredBelow (s : State) (pct : Nat) : Bool := s.freeTiered * 100 < pct * s.getF F.ftlTierCapChunks

/-- Free tiered chunks as a percentage of TIER_CAP are above a bound. -/
def tieredAbove (s : State) (pct : Nat) : Bool := pct * s.getF F.ftlTierCapChunks < s.freeTiered * 100

/-- Demotion for room: from below LOW until above HIGH (R225). -/
def demotionDue (s : State) : Bool :=
  s.tieredBelow (s.getF F.ftlMigrateCfgLow) || (s.ftl.demoting && !s.tieredAbove (s.getF F.ftlMigrateCfgHigh))

/-- Demotion that goes on stops above HIGH (R225). -/
def settleDemotion (s : State) : State :=
  if s.ftl.demoting && s.tieredAbove (s.getF F.ftlMigrateCfgHigh) then s.modFtl fun f => { f with demoting := false } else s

/-- Effects of records that have become durable: mapped buffer entries are freed, freed chunks return
to the pool, promoted extents leave their band, and the old band of a finished compaction is reset unless an
extent stayed in it. -/
def onDurable (s : State) : State :=
  let d := s.ftl.durable
  let s := s.modFtl fun f =>
    { f with wb := f.wb.filter fun e => match e.mapped with
               | some q => d < q
               | none => true
             freeChunks := f.freeChunks ++ (f.chunkFree.filter fun c => c.1 ≤ d).map (·.2)
             chunkFree := f.chunkFree.filter fun c => d < c.1 }
  let up := s.ftl.promos.filter fun p => p.2.2 ≤ d
  let s := forEach up s fun s p => s.promoted p.1 p.2.1
  let s := s.modFtl fun f => { f with promos := f.promos.filter fun p => d < p.2.2 }
  let ended := s.ftl.moves.filter fun m => m.old.isSome && match m.lastSeq with
    | some q => q ≤ d
    | none => false
  let s := forEach ended s fun s m => match m.old with
    | some b => if (s.liveExtents b).isEmpty then s.resetBand b else s
    | none => s
  let s := s.modFtl fun f => { f with moves := f.moves.filter fun m => !ended.contains m }
  (s.settleDemotion.syncWb).dumpStep

/-- The lane takes no flush of a host stream (R219). -/
def laneUrgent (s : State) (lane : Nat) : Bool := s.ftl.urgent.contains lane

/-! ## Checkpoint roots (R217) -/

/-- The 64 bytes of a root: MAGIC, VERSION, pass number, START_SEQ, the place of the directory codeword and a
CRC-32C. R217 names the fields and no offsets: their order is that of the rule, DESIGN CHOICE (log entry 169). -/
def rootBytes (pass start : Nat) : List Byte :=
  let b := leBytes 2 0x4350 ++ leBytes 2 0x0100 ++ leBytes 4 pass ++ leBytes 8 start ++ leBytes 8 (Config.systemBlock 2)
    ++ zeros 36
  b ++ leBytes 4 (crc32c b)

/-- Pass number and START_SEQ of a stored root that is valid. -/
def rootAt (s : State) (i : Nat) : Option (Nat × Nat) :=
  let l := s.nvsBytes ((1610 + i) * 4096) 64
  if field l 0 2 = 0x4350 && field l 2 2 = 0x0100 && field l 0x3C 4 = crc32c (l.take 0x3C) then
    some (field l 4 4, field l 8 8)
  else none

/-- The valid root with the higher pass number. -/
def bestRoot (s : State) : Option (Nat × Nat) := match s.rootAt 0, s.rootAt 1 with
  | some a, some b => some (if a.1 < b.1 then b else a)
  | some a, none => some a
  | none, b => b

/-- Writes the root of a pass: two roots are kept and written in turn. -/
def writeRoot (s : State) (pass start : Nat) : State := s.writeArea (1610 + pass % 2) (rootBytes pass start)

/-- Pages of a checkpoint pass (R216): every map chunk in use, four to a codeword, then the extent tables. -/
def ckptSize (s : State) : Nat :=
  let chunks := s.ftl.extents.countP fun e => e.2.st = .flash || e.2.st = .moving
  let cws := ceilDiv chunks 4 + ceilDiv (8 * s.ftl.extents.length) 4096
  let k := ((List.range 4).map s.pageCws).foldl max 1
  max 1 (ceilDiv cws k)

/-- A checkpoint pass starts (R216): START_SEQ, the map as it stands, and its pages for the channels. -/
def startCkpt (s : State) : State :=
  let n := s.ckptSize
  let s := s.modFtl fun f =>
    { f with ckptStart := some f.nextSeq, ckptNext := some { map := f.map, extents := f.extents }, ckptPages := n }
  ((s.setF F.ftlStatusCkptActive 1).setF F.ftlCkptProgress 0).queuePages .ckpt (Config.systemBlock 2) n

/-! ## Collection (R219, R220) -/

/-- Units of a lane whose read or copy from a source slot is under way: lane and slot. -/
def copySources (s : State) : List (Nat × Nat) :=
  let of_ := fun (o : FlashOp) => match o.user with
    | .copy _ unit src => some (unit % 4, src)
    | _ => none
  let ops := (s.fch.chans.map fun e => ((e.2 : Channel).luns.map fun x => (x.2 : Lun).queue ++ (x.2 : Lun).held).flatten).flatten
  ops.filterMap of_ ++ s.fch.recons.filterMap (fun r => of_ r.op)
    ++ s.ftl.copies.filterMap fun c => c.src.map fun v => (c.unit % 4, v)

/-- Reads a mapped unit so that it is copied (R219): in MEDIA cells, or by reconstruction where its LUN no longer
serves. -/
def collectUnit (s : State) (nsid unit src : Nat) : State := match s.slotPlace (unit % 4) src with
  | none => s
  | some (c, l, b, p, w) =>
    let o := s.newOp .read (.copy nsid unit src) ownMedia true b p w 1
    if s.chanServes c && s.lunUsable c l then s.queueOp c l o else s.startRecon c l o

/-! ## Tiering -/

/-- Extents that may be demoted, coldest first (R225); evacuation drops the heat bound. An extent with units in the write
buffer is not chosen (log entry 172). -/
def coldExtents (s : State) : List (Nat × Nat) :=
  let evac := s.onF F.ftlStatusEvacActive
  let ok := s.ftl.extents.filter fun e =>
    e.2.st = .flash && e.2.classified && s.isTiered (e.1 / 2 ^ 32)
      && (evac || e.2.heat ≤ s.getF F.ftlHeatCfgColdMax)
      && !s.ftl.wb.any fun w => w.nsid = e.1 / 2 ^ 32 && w.unit / 256 = e.1 % 2 ^ 32
  let byHeat := (List.range 256).map fun h => ok.filter fun e => e.2.heat = h
  byHeat.flatten.map fun e => (e.1 / 2 ^ 32, e.1 % 2 ^ 32)

/-- Opens a band for a move. -/
def openMove (s : State) (a b : Nat) (exts : List (Nat × Nat)) (old : Option Nat) : State :=
  let m : BandMove := { act := a, band := b, extents := exts, old := old, done := 0, lastSeq := none }
  let s := s.modFtl fun f => { f with moves := f.moves ++ [m], lastAct := a }
  (s.modBand b fun x => { x with st := .opened }).setF F.ftlEvacProgressBand b

/-- A write to the extent is complete in the buffer. -/
def extWritten (s : State) (nsid ext : Nat) : Bool :=
  s.ftl.wb.any fun w => w.nsid = nsid && w.unit / 256 = ext && w.complete

/-- The extent is being promoted. -/
def promoting (s : State) (nsid ext : Nat) : Bool :=
  s.ftl.promos.any (fun p => p.1 = nsid && p.2.1 = ext)
    || s.ftl.copies.any fun c => c.nsid = nsid && c.unit / 256 = ext && c.src.isNone

/-- A DISK extent that has been written waits for its promotion, which goes ahead of any other (R227). -/
def writtenWaits (s : State) : Bool :=
  s.ftl.wb.any fun w => w.complete && s.isTiered w.nsid && (s.extent w.nsid (w.unit / 256)).st = .disk
    && !s.promoting w.nsid (w.unit / 256) && s.extOnline (s.extent w.nsid (w.unit / 256))

/-! ## The power-fail dump (R229–R231) -/

/-- Channels act on a power-fail event (R189): suspended programs resume, and reads and erases stay held. -/
def powerFailRules (s : State) : State :=
  let s := s.modFch fun f => { f with powerFail := true }
  forEach (List.range 16) s fun s c => forEach (List.range 32) s fun s l =>
    if (s.lun c l).queue.any fun o => o.suspendedAt.isSome && o.kind = .program then
      s.modLun c l fun x =>
        let q := mapWhere x.queue (fun o => o.suspendedAt.isSome && o.kind = .program) fun o =>
          { o with suspendedAt := none, began := some s.tick, issued := some s.tick,
                   pollAt := s.tick + s.opLimit .program * 32000 }
        { x with queue := q }
    else s

/-- Journal records that no durable codeword holds, oldest first. -/
def jrnTail (s : State) : List JrnRec := (s.ftl.cws.map (·.recs)).flatten ++ s.ftl.tail

/-- Dailies records that have not been copied to the NVS. -/
def newDailies (s : State) : List Daily := s.ftl.dailies.drop (s.ftl.dailies.length - s.ftl.dailiesNew)

/-- Pages of the dump (R229): its entries, the journal tail and the dailies, and the page of its root codeword. -/
def dumpSize (s : State) : Nat :=
  let cws := s.ftl.wb.countP (·.complete) + ceilDiv (s.jrnTail).length 126 + ceilDiv (s.newDailies).length 128
  1 + ceilDiv cws (((List.range 4).map s.pageCws).foldl max 1)

/-- WP_n goes low after a power-fail flush (Tables 05.2, 06.7). -/
def flushOver (s : State) : State := if s.pwr.failing then s.modFch fun f => { f with wpHigh := false } else s

/-- The flush of a power failure, a reset or an entry to Safe starts: no host command goes on, the channels follow
R189, and the pages of the dump go to the dump blocks. A flush that runs goes on alone (R569), and a dump that stands,
not yet reloaded, holds everything there is. -/
def startDump (s : State) : State :=
  let s := s.closePath
  if s.ftl.dumping then s
  else
    let s := s.powerFailRules
    if s.getF F.ftlStatusState ≠ 3 || (s.ftl.dump.isSome && !s.ftl.replaying) then s.flushOver
    else
      let s := s.modFtl fun f => { f with dumping := true }
      (s.queuePages .dump (Config.systemBlock 0) s.dumpSize).setF F.ftlStatusState 4

/-- An entry of the dump: in ciphertext (R229). -/
def sealed (s : State) (e : WbEntry) : WbEntry := { e with data := s.encUnit e.nsid e.unit e.data }

/-- Complete buffer entries that the dump leaves out: those of a failed subchannel (R461), and those that cannot be read
(Table 13.4). -/
def dumpLoses (s : State) : List WbEntry × State :=
  (s.ftl.wb.filter (·.complete)).foldl (fun acc e =>
    if acc.2.mem.lostUnits.contains (e.nsid, e.unit) then (acc.1 ++ [e], acc.2)
    else
      let (ok, s) := acc.2.entryRead e
      (if ok then acc.1 else acc.1 ++ [e], s)) ([], s)

/-- Every page of the dump has been programmed: it is durable, with every complete buffer entry that is not lost, the
journal tail and the dailies records not yet copied (R229). The units lost are deferred write errors of cause 0x03: at
once, or, where the logic die is about to lose power, at the next start (R461). -/
def finishDump (s : State) : State :=
  if !s.ftl.dumping || 0 < s.dumpLeft then s
  else
    let (lost, s) := s.dumpLoses
    let s := s.modMem fun m => { m with lostUnits := [] }
    let s := if s.pwr.failing then s else forEach lost s fun s e => s.loseEntry e 0x03
    let kept := s.ftl.wb.filter fun e => e.complete && !lost.contains e
    let d : Dump :=
      { seq := s.ftl.nextSeq, entries := s.ftl.dumpWaits ++ kept.map s.sealed, tail := s.jrnTail
        dailies := s.newDailies, lost := if s.pwr.failing then lost else [] }
    let s := s.modFtl fun f => { f with dump := some d, dumping := false, replaying := false, dumpWaits := [] }
    s.flushOver.setF F.ftlStatusState 5

/-- The flush is cut off: a dump that stood before it stays as it is (R231); the rest of what it was to hold is lost
(Table 17.4). -/
def cutDump (s : State) : State :=
  if !s.ftl.dumping then s
  else s.modFtl fun f =>
    let old := (f.dump.map (·.entries)).getD []
    { f with dumping := false, replaying := false
             dumpCut := some (f.wb.filter fun e => e.complete && !old.any fun o => o.order = e.order) }

/-! ## Sensors (R237) -/

/-- Whole degrees of a reading in 1/16 °C. -/
def wholeDeg (t : Int) : Int := t / 16

/-- LIMIT of a sensor (Table 06.10): 105 °C for the dies, 60 °C for the HDA. -/
def sensorLimit (i : Nat) : Int := if i = 2 then 60 else 105

/-- OVER_TEMP trip of a sensor (Table 15.15). -/
def sensorTrip (i : Nat) : Int := if i = 2 then 65 else 115

def sensorF (i : Nat) : Field := if i = 0 then F.drvTempLogicTemp else if i = 1 then F.drvTempDriveTemp else F.drvTempHdaTemp
def sensorValidF (i : Nat) : Field :=
  if i = 0 then F.drvTempLogicValid else if i = 1 then F.drvTempDriveValid else F.drvTempHdaValid

/-- The last reading of a sensor in 1/16 °C. -/
def sensorNow (s : State) (i : Nat) : Int := signedOf 16 (s.getF (sensorF i))

/-- A temperature in kelvin. -/
def kelvin (t : Int) : Nat := (wholeDeg t + 273).toNat

/-- The composite temperature: the highest sensor (Table 06.8). -/
def composite (s : State) : Nat := max (kelvin (s.sensorNow 0)) (max (kelvin (s.sensorNow 1)) (kelvin (s.sensorNow 2)))

/-- Crossings of the Temperature Thresholds of every controller (Table 03.13) by a temperature, 0 the composite and
1–3 the sensors, that was `was` at the reading before, if there was one. -/
def checkThresholds (s : State) (i k : Nat) (was : Option Nat) : State :=
  forEach (s.host.ctrls.map (·.1)) s fun s fn =>
    let c := s.ctrl fn
    let hi := sparseGet (fun _ => 0) c.tempOver i
    let lo := sparseGet (fun _ => 0) c.tempUnder i
    let above := hi ≠ 0 && hi ≤ k && was.all (· < hi)
    let under := lo ≠ 0 && k ≤ lo && was.all (lo < ·)
    if above || under then s.raiseEvent fn 1 0x01 0x02 else s

/-- One reading of one sensor: the register, MIN and MAX, THERMAL_WARN and health event 0x000D when
it passes its limit. -/
def readSensor (s : State) (i : Nat) (t : Int) : State :=
  let was := s.onF (sensorValidF i) && sensorLimit i * 16 < s.sensorNow i
  let before := if s.onF (sensorValidF i) then some (kelvin (s.sensorNow i)) else none
  let s := (s.setF (sensorF i) (unsignedOf 16 t)).setF (sensorValidF i) 1
  let d := wholeDeg t
  let h := sparseGet (fun _ => TempHist.reset) s.ftl.temps i
  let h := { h with min := if h.none then d else min h.min d, max := if h.none then d else max h.max d, none := false }
  let s := s.modFtl fun f => { f with temps := sparsePut (fun _ => TempHist.reset) f.temps i h }
  let s := if sensorLimit i * 16 < t then s.alertThermalWarn else s
  let s := if sensorLimit i * 16 < t && !was then s.health 0x000D 0 0 [] i else s
  s.checkThresholds (i + 1) (kelvin t) before

end State

/-! ## Commands -/

/-- FLUSH_START (R208): the oldest unflushed complete entry of a unit starts once the buffer is a
quarter full or the entry is 100 ms old; a DISK extent is promoted first (R227), and an urgent lane
takes no host stream (R219). It is read from DRAM in MEDIA cells and encrypted in its instance's SEC cells (R54); one that
cannot be read is a deferred write error (Table 13.4). -/
def execFlushStart (nsid unit : Nat) (s : State) : Host.Outcome State Fault Refusal :=
  match s.ftl.wb.find? fun e => e.nsid = nsid && e.unit = unit && e.complete && e.mapped.isNone with
  | none => done s
  | some e =>
    let s := s.touchNs nsid
    let due := s.emptying || s.getF F.ftlWbEff * 64 ≤ 4 * s.ftl.wb.length || s.since e.age 100000000
    let st := (s.extent nsid (unit / 256)).st
    let zoned := match s.ns nsid with
      | some n => n.type = .zoned
      | none => true
    if e.flushing || !due || zoned || st = .disk || s.getF F.ftlStatusState ≠ 3 || s.laneUrgent (unit % 4)
        || s.flushBarred nsid unit || (s.nsKey nsid).isNone then done s
    else s.moving (s.dramNeeds ownMedia (Config.bufferPlace 0) 4096 false
        ++ State.need colSec (State.flushOwner e) 4096 512) fun s => match s.entryRead e with
      | (true, s) => done (s.flushEntry e)
      | (false, s) => done (s.loseEntry e 0x03)

/-- ROW_PAD_TIMEOUT (R208): a stripe row of a stream and lane still short of data 100 ms after its first entry is
padded and programmed. -/
def execRowPadTimeout (stream lane : Nat) (s : State) : Host.Outcome State Fault Refusal :=
  if 4 ≤ lane || 4 ≤ stream then done s
  else
    let due := (s.listedSbs lane).filter fun e =>
      e.2.st = .opened && e.2.stream = some (Stream.ofNum stream)
        && match sparseGet (fun _ => none) s.ftl.rows (sbKey lane e.1) with
          | some (r : RowFill) => s.since r.firstAt 100000000
          | none => false
    done (forEach due s fun s e =>
      let per := max 1 (s.rowSlots lane e.1)
      let row := (e.2.next - 1) / per
      (s.modSb lane e.1 fun x => { x with next := (row + 1) * per }).programRow lane e.1 row)

/-- SUPERBLOCK_OPEN_TIMEOUT (R211): units that have waited 1 s for a superblock of their lane are
deferred write errors with cause 0x01. -/
def execSuperblockOpenTimeout (lane : Nat) (s : State) : Host.Outcome State Fault Refusal :=
  match sparseGet (fun _ => none) s.ftl.openWait lane with
  | none => done s
  | some t =>
    if !s.since t 1000000000 then done s
    else
      let s' := forEach (s.slotWaiters lane) s fun s e => s.loseEntry e 0x01
      done (s'.modFtl fun f => { f with openWait := sparsePut (fun _ => none) f.openWait lane none })

/-- JOURNAL_CODEWORD_WRITE (R212, R213): at 126 records, or 200 µs after the oldest, a codeword goes to two
channels, which PAGE_SEQ turns over (log entry 110). Its cells are MEDIA's. -/
def execJournalCodewordWrite (s : State) : Host.Outcome State Fault Refusal :=
  match s.ftl.tail with
  | [] => done s
  | r :: _ =>
    let cs := s.pageLuns.map (·.1)
    if (s.ftl.tail.length < 126 && !s.since r.time 200000) || cs.isEmpty || s.ftl.dumping then done s
    else s.moving (s.dramNeeds ownMedia (Config.bufferPlace 5) 4096 false) fun s =>
      let q := s.ftl.pageSeq + 1
      let recs := s.ftl.tail.take 126
      let two := ([cs.getD (q % cs.length) 0, cs.getD ((q + 1) % cs.length) 0]).eraseDups
      let cw : JrnCw :=
        { pageSeq := q, recs := recs, bytes := State.jrnCwBytes q s.ftl.rootStart s.now recs, left := two, passed := 0 }
      let s := s.modFtl fun f =>
        { f with tail := f.tail.drop 126, pageSeq := q, jrnBytes := f.jrnBytes + 4096, cws := f.cws ++ [cw] }
      done (forEach two s fun s c => s.journalTo c q)

/-- JOURNAL_DURABLE (R212, R213): both programs of a codeword have passed, or one has and the other
channel is fenced; the chain is durable up to the first codeword that is not. -/
def execJournalDurable (pageSeq : Nat) (s : State) : Host.Outcome State Fault Refusal :=
  if !s.ftl.cws.any (fun w => w.pageSeq = pageSeq && w.left.isEmpty && 0 < w.passed) then done s
  else
    let s := s.modFtl fun f =>
      let cws := f.cws.filter (·.pageSeq ≠ pageSeq)
      let first := match (cws.map (·.recs)).flatten ++ f.tail with
        | r :: _ => r.seq
        | [] => f.nextSeq
      { f with cws := cws, durable := first - 1 }
    done ((s.setF F.ftlJrnDurableLoSeqLo (s.ftl.durable % 2 ^ 32)).onDurable)

/-- The number of an access path, for what it latches. -/
def pathNum : Path → Nat
  | .bar0 => 0 | .vf => 0 | .i3c => 1 | .core => 2

/-- JRN_DURABLE_LO_READ (R213): the low half, latching the high half for that path. -/
def execJrnDurableLoRead (path : Path) (s : State) : Host.Outcome State Fault Refusal :=
  if !s.logicOn || path = .vf then done s
  else done ((s.busData (s.ftl.durable % 2 ^ 32)).modFtl fun f =>
    { f with durHi := sparsePut (fun _ => 0) f.durHi (pathNum path) (f.durable / 2 ^ 32) })

/-- CHECKPOINT_START (R216): 8 GiB of journal, CKPT_NOW, or 30 minutes after the last pass; with no pass yet it is
due at once (log entry 170). The map is read from DRAM in MEDIA cells (R54). -/
def execCheckpointStart (s : State) : Host.Outcome State Fault Refusal :=
  let due := 8 * 2 ^ 30 < s.ftl.jrnBytes || s.onF F.ftlCtrlCkptNow || s.bestRoot.isNone
    || s.since s.ftl.ckptAt 1800000000000
  if s.ftl.ckptStart.isSome || !due || s.getF F.ftlStatusState ≠ 3 || s.pageLuns.isEmpty then done s
  else s.moving (s.dramNeeds ownMedia (Config.bufferPlace 3) (4096 * s.ckptSize) false) fun s => done s.startCkpt

/-- CKPT_NOW (R216, Table 06.13): it stays set until the pass that it starts is durable. -/
def execCkptNow (path : Path) (value : Word) (s : State) : Host.Outcome State Fault Refusal :=
  done (s.regAction path A.ftlCtrl value fun s =>
    let s := if F.ftlCtrlCkptNow.get value = 1 then s.setF F.ftlCtrlCkptNow 1 else s
    if F.ftlCtrlLock.get value = 1 then s.setF F.ftlCtrlLock 1 else s)

/-- CHECKPOINT_COMPLETE (R217): every page of the pass is programmed, so its root is written; journal older than
START_SEQ is released. -/
def execCheckpointComplete (s : State) : Host.Outcome State Fault Refusal :=
  match s.ftl.ckptStart with
  | none => done s
  | some q =>
    if 0 < s.ckptLeft then done s
    else
      let pass := s.ftl.ckptPass + 1
      let s := s.writeRoot pass q
      let kept := fun (n : Nat) => field (sparseGet (fun _ => []) s.ftl.jrn n) 0x10 8
        + field (sparseGet (fun _ => []) s.ftl.jrn n) 4 2 > q
      let s := s.modFtl fun f =>
        { f with ckptStart := none, ckpt := f.ckptNext, ckptNext := none, ckptPass := pass,
                 rootStart := q, ckptAt := s.tick, jrn := sparseKeep kept f.jrn, jrnBytes := 0, ckptPages := 0 }
      let s := (s.setF F.ftlCkptPass (pass % 2 ^ 16)).setF F.ftlCkptProgress 10000
      done ((s.setF F.ftlStatusCkptActive 0).setF F.ftlCtrlCkptNow 0)

/-- GC_COLLECT (R219): the superblock of a short lane with the fewest valid units is collected: each
valid unit is read and takes a slot in its stream. -/
def execGcCollect (lane : Nat) (s : State) : Host.Outcome State Fault Refusal :=
  if 4 ≤ lane || 8 < s.getF (F.ftlFreeSbCount lane) || s.getF F.ftlStatusState ≠ 3 then done s
  else
    let srcs := s.copySources.filterMap fun e => if e.1 = lane then some (s.sbOfSlot lane e.2) else none
    let closed := (s.listedSbs lane).filter fun e => e.2.st = .closed && 0 < e.2.valid && !srcs.contains e.1
    let best := closed.foldl (fun a e => match a with
      | some (x : Nat × Superblock) => if e.2.valid < x.2.valid then some e else some x
      | none => some e) none
    match best with
    | none => done s
    | some (seg, _) =>
      let units := s.ftl.map.filter fun e =>
        e.1 % 2 ^ 40 % 4 = lane && e.2 < mapZero - 15 && s.sbOfSlot lane e.2 = seg
      done (forEach units s fun s e => s.collectUnit (e.1 / 2 ^ 40) (e.1 % 2 ^ 40) e.2)

/-- GC_COPY_COMMIT (R220): the copy commits only if the map still holds its source slot. -/
def execGcCopyCommit (nsid unit src : Nat) (s : State) : Host.Outcome State Fault Refusal :=
  match s.ftl.copies.find? fun c => c.nsid = nsid && c.unit = unit && c.src = some src && c.ready with
  | none => done s
  | some c =>
    let s := s.modFtl fun f => { f with copies := f.copies.filter (· ≠ c) }
    match c.dst with
    | some v => if s.mapOf nsid unit = src then done (s.mapSet nsid unit v) else done (s.incF F.ftlGcDroppedUnits)
    | none => done s

/-- SUPERBLOCK_ERASE (R221, R188): with no valid unit left and the records that moved them durable, ERASE_BEGIN is
appended; once that is durable the blocks are erased, and the last of them appends ERASE_END. A free superblock is
erased too where blocks of it must be before their first use (R196, R218). -/
def execSuperblockErase (lane seg : Nat) (s : State) : Host.Outcome State Fault Refusal :=
  let x := s.sb lane seg
  match s.sbPlace lane seg with
  | none => done s
  | some (g, l, b) =>
    let cs := (s.groupMembers g).filter fun c => s.blockUsable c l b
    let first := x.st = .free && (s.laneSbs lane).contains seg
      && cs.any fun c => (s.chan c).eraseFirst && !(s.chan c).erasedSbs.contains (sbKey lane seg)
    let empty := (x.st = .closed || x.st = .eraseIncomplete) && x.valid = 0 && x.lastSeq ≤ s.ftl.durable
    if first || empty then
      let s := s.appendJrn .eraseBegin lane 0 seg 0 0
      let s := s.setSb lane seg { x with st := .erasing, eraseSeq := s.lastSeq }
      done (if first then s.setFreeSbs lane (s.getF (F.ftlFreeSbCount lane) - 1) else s)
    else if x.st = .erasing && x.eraseSeq ≤ s.ftl.durable && !cs.isEmpty
        && !s.ftl.progs.any (fun p => p.lane = lane && p.seg = seg && p.row = none) then
      let s := s.modFtl fun f => { f with progs := f.progs ++ [{ lane := lane, seg := seg, row := none, left := cs }] }
      done (forEach cs s fun s c =>
        s.queueOp c l (s.newOp .erase (.erase lane seg) ownMedia true b 0 0 1))
    else done s

/-- DEALLOCATE_APPLY (R222): MAP_CLEAR for the units still covered, buffered copies of them dropped;
an extent left empty becomes UNALLOC; ranges of DISK extents are marked in their slot records. An extent that is being
demoted leaves its move (log entry 172). -/
def execDeallocateApply (s : State) : Host.Outcome State Fault Refusal :=
  let ds := s.ftl.deallocs
  let s := s.modFtl fun f =>
    { f with deallocs := []
             wb := f.wb.filter fun e => !(e.complete && ds.any fun d =>
               d.nsid = e.nsid && d.first ≤ e.unit && e.unit < d.first + d.count)
             dumpWaits := f.dumpWaits.filter fun e => !ds.any fun d =>
               d.nsid = e.nsid && d.first ≤ e.unit && e.unit < d.first + d.count }
  let s := forEach ds s fun s d =>
    let s := s.mapRun .mapClear mapUnmapped d.nsid d.first d.count
    forEach (State.extRun d.first d.count) s fun s e =>
      let x := s.extent d.nsid e
      if x.st = .disk then
        let lo := max d.first (e * 256)
        let hi := min (d.first + d.count) ((e + 1) * 256)
        forEach (List.range (hi - lo)) s fun s i => s.modFtl fun f =>
          { f with diskClear := sparsePut (fun _ => false) f.diskClear (unitKeyOf d.nsid (lo + i)) true }
      else
        (if x.st = .moving then s.setExtent d.nsid e { x with st := .flash } else s).dropIfEmpty d.nsid e
  done s.syncWb

/-- HEAT_EPOCH (R223): every extent's heat decays by an eighth, and allocated extents become
classified. -/
def execHeatEpoch (s : State) : Host.Outcome State Fault Refusal :=
  if !s.since s.ftl.epochAt (s.getF F.ftlHeatEpochSeconds * 1000000000) then done s
  else done (s.modFtl fun f =>
    { f with epochAt := s.tick
             extents := sparseMap (fun _ => Extent.reset) (fun _ e =>
               if e.st = .unalloc then e else { e with heat := e.heat - e.heat / 8, classified := true }) f.extents })

/-- DEMOTION_START (R225): free chunks below LOW, or evacuation: the coldest extents are marked MOVING
and one free band is opened, on the other actuator than last time where it has one. -/
def execDemotionStart (s : State) : Host.Outcome State Fault Refusal :=
  let evac := s.onF F.ftlStatusEvacActive
  let due := s.demotionDue
  let s := s.modFtl fun f => { f with demoting := due }
  if !(evac || due) then done s
  else
    let a := 1 - s.ftl.lastAct % 2
    match (s.freeBand a).map (fun b => (a, b)) |>.or ((s.freeBand (1 - a)).map fun b => (1 - a, b)) with
    | none => done s
    | some (a, b) =>
      let exts := s.coldExtents.take ((s.band b).capacity / 256)
      if exts.isEmpty then done s
      else
        let s := forEach exts s fun s e => s.setExtent e.1 e.2 { s.extent e.1 e.2 with st := .moving }
        done (s.openMove a b exts none)

/-- EXTENT_DEMOTED (R225, R204): an extent's EXTENT_SET to DISK is durable; its flash units and its
chunk are freed. -/
def execExtentDemoted (nsid ext : Nat) (s : State) : Host.Outcome State Fault Refusal :=
  let mine := fun (m : BandMove) => m.old.isNone && m.extents.contains (nsid, ext) && match m.lastSeq with
    | some q => q ≤ s.ftl.durable
    | none => false
  match s.ftl.moves.find? mine with
  | none => done s
  | some m =>
    let e := s.extent nsid ext
    let s := if e.st = .disk then
        let s := forEach (List.range 256) s fun s i =>
          s.putMap nsid (ext * 256 + i) mapUnmapped (m.lastSeq.getD 0)
        (s.modFtl fun f => { f with freeChunks := f.freeChunks ++ [e.chunk] }).putExtent nsid ext { e with chunk := 0 }
      else s
    let s := s.modFtl fun f => { f with moves := (mapWhere f.moves (· = m) fun m =>
      { m with extents := m.extents.filter (· ≠ (nsid, ext)) }).filter fun m => !(m.lastSeq.isSome && m.extents.all (·.1 = 0)) }
    if s.onF F.ftlStatusEvacActive then
      let s := s.modFtl fun f => { f with evacDone := f.evacDone + 1 }
      let pct := min 10000 (10000 * s.ftl.evacDone / max 1 s.ftl.evacTotal)
      let s := (s.setF F.ftlEvacPctPct pct).longOpProgress 4 pct m.band
      if s.ftl.rawBlocks * 25 ≤ s.sparePool * 1000 then
        done (((s.modFtl fun f => { f with evacBelow := false }).setF F.ftlStatusEvacActive 0).setF
          F.ftlEvacPctPct 10000 |>.endLongOp 4 0 0)
      else done s
    else done s

/-- PROMOTION (R227): a DISK extent that is hot, or that has been written, is copied into HOST_HOT, a written one ahead
of any other; buffered units are not taken from the disk copy. What is stored moves as it is (R40), into DRAM in DISK
cells and out of it in MEDIA cells (R54). Its band slot is dead once EXTENT_SET is durable. -/
def execPromotion (nsid ext : Nat) (s : State) : Host.Outcome State Fault Refusal :=
  let e := s.extent nsid ext
  let written := s.extWritten nsid ext
  let hot := s.getF F.ftlHeatCfgPromoteMin ≤ e.heat && s.tieredAbove (s.getF F.ftlMigrateCfgLow) && !s.writtenWaits
  if e.st ≠ .disk || !s.isTiered nsid || !(written || hot) || s.promoting nsid ext || !s.extOnline e
      || !s.chunkRoom nsid 1 || s.getF F.ftlStatusState ≠ 3 then done s
  else
    let units := (List.range 256).filter fun i =>
      (s.wbFind nsid (ext * 256 + i)).isNone && !s.unitEmpty nsid (ext * 256 + i)
    let n := 4096 * units.length
    s.moving (s.dramNeeds ownDisk (Config.bufferPlace 2) n true ++ s.dramNeeds ownMedia (Config.bufferPlace 2) n false)
      fun s => match s.takeChunk with
      | (none, _) => done s
      | (some c, s) =>
        let s := s.putExtent nsid ext { e with chunk := c }
        let s := forEach units s fun s i =>
          s.copyUnit .hostHot nsid (ext * 256 + i) none (s.bandData e.band (e.slot * 256 + i))
        if units.isEmpty then
          let s := s.appendJrn .extentSet nsid 1 ext { s.extent nsid ext with st := .flash }.encode 0
          done (s.modFtl fun f => { f with promos := f.promos ++ [(nsid, ext, f.nextSeq - 1)] })
        else done s

/-- BAND_COMPACTION (R228, R272): a band less than half live while fewer than 4 bands are free, or one
with a verification finding: its live extents are rewritten into a new band. -/
def execBandCompaction (act band : Nat) (s : State) : Host.Outcome State Fault Refusal :=
  let live := s.liveExtents band
  let x := s.band band
  let sparse := live.length * 2 < x.capacity / 256 && s.freeBands 4 < 4
  if (s.bandRec band).map (·.act) ≠ some act || x.st ≠ .full || s.bandZoned band || !s.actOnline act || s.ftl.moves.any (fun m => m.old = some band)
      || !(sparse || x.weak) then done s
  else match (s.freeBand act).map (fun b => (act, b)) |>.or ((s.freeBand (1 - act)).map fun b => (1 - act, b)) with
    | none => done s
    | some (a, b) =>
      if live.isEmpty then done (s.resetBand band)
      else done (s.openMove a b (live.take ((s.band b).capacity / 256)) (some band))

/-- DUMP_DURABLE (R229, Table 06.7 steps 5 and 6), once every page of the dump is programmed. -/
def execDumpDurable (s : State) : Host.Outcome State Fault Refusal := done s.finishDump

/-- EVACUATION_START (R232): the spare pool is below 2% of raw blocks. -/
def execEvacuationStart (s : State) : Host.Outcome State Fault Refusal :=
  let pool := s.sparePool
  if s.onF F.ftlStatusEvacActive || s.ftl.rawBlocks ≤ pool * 50 then done s
  else
    let cap := min (s.getF F.ftlTierCapChunks) (Config.tierCap pool)
    let s := (s.setF F.ftlTierCapChunks cap).setF F.ftlStatusEvacActive 1
    let s := s.modFtl fun f => { f with evacTotal := s.tieredChunks, evacDone := 0 }
    let s := (s.setF F.ftlEvacPctPct 0).startLongOp 4 true
    done (s.health 0x0006 0 0 (s.nsidsOf (· = .tiered)) pool)

/-- READ_ONLY_ORDER (R233): the pool is below the floor and evacuation can free nothing. -/
def execReadOnlyOrder (s : State) : Host.Outcome State Fault Refusal :=
  let stuck := s.tieredChunks = 0 || s.freeBands 1 = 0 || !(s.actOnline 0 || s.actOnline 1)
  if s.sparePool < s.getF F.ftlSpareFloorBlocks && stuck && !s.inMode .readOnly then
    let s := (s.setF F.ftlStatusRoSpares 1).health 0x0007 0 0 s.nsids s.sparePool
    done (s.placeMode .readOnly false 2 .device)
  else done s

/-- SENSOR_SAMPLE (R237): each second the always-on domain reads every sensor, in 1/16 °C. A trip that
lasts 1 s orders Safe with cause OVER_TEMP (Table 15.15). -/
def execSensorSample (logic drive hda : Int) (s : State) : Host.Outcome State Fault Refusal :=
  if s.ftl.sensorAt.any fun t => !s.since t 1000000000 then done s
  else
    let before := if s.ftl.sensorAt.isSome then some s.composite else none
    let s := s.modFtl fun f => { f with sensorAt := some s.tick }
    let s := ((s.readSensor 0 logic).readSensor 1 drive).readSensor 2 hda
    let s := s.checkThresholds 0 s.composite before
    let hot := (List.range 3).any fun i => State.sensorTrip i * 16 ≤ s.sensorNow i
    if !hot then done (s.modPwr fun p => { p with hotSince := none })
    else match s.pwr.hotSince with
      | none => done (s.modPwr fun p => { p with hotSince := some s.tick })
      | some t =>
        if s.since t 1000000000 && !s.inMode .safe then done (s.alertThermalCrit.orderSafe 4) else done s

/-- TEMP_HISTORY_BIN (R237, Table 06.10): once per minute each sensor's sample fills a bin. -/
def execTempHistoryBin (s : State) : Host.Outcome State Fault Refusal :=
  if !s.since s.ftl.binAt 60000000000 then done s
  else
    let s := forEach (List.range 3) s fun s i =>
      if !s.onF (State.sensorValidF i) then s
      else
        let d := State.wholeDeg (s.sensorNow i)
        let bin := min 15 (d.toNat / 5)
        s.modFtl fun f =>
          let h := sparseGet (fun _ => TempHist.reset) f.temps i
          let h := { h with bins := h.bins.set bin (min 0xFFFFFFFF (h.bins.getD bin 0 + 1))
                            above := h.above + (if State.sensorLimit i < d then 1 else 0) }
          { f with temps := sparsePut (fun _ => TempHist.reset) f.temps i h }
    done (s.modFtl fun f => { f with binAt := s.tick })

/-- The device enters Dormant. -/
def State.toDormant (s : State) : Bool := match s.pwr.trans with
  | some t => t.target = .dormant
  | none => false

/-- TEMP_HISTORY_SAVE (R237): every hour, and on entry to Dormant, the history is written to the NVS. -/
def execTempHistorySave (s : State) : Host.Outcome State Fault Refusal :=
  if s.toDormant || s.since s.ftl.tempsSavedAt 3600000000000 then
    done (s.modFtl fun f => { f with tempsSaved := f.temps, tempsSavedAt := s.tick })
  else done s

/-- DAILIES_COPY (R552, R238): the records not yet copied go to the NVS, at most once per 600 s except
on entry to Dormant. -/
def execDailiesCopy (s : State) : Host.Outcome State Fault Refusal :=
  let due := match s.ftl.dailiesAt with
    | some t => s.since t 600000000000
    | none => true
  if s.toDormant || due then
    done (s.modFtl fun f => { f with dailiesSaved := f.dailies, dailiesNew := 0, dailiesAt := some s.tick })
  else done s

end Sys2Proof.Machine
end

