-- ==== Sys2Proof/Machine/Disk.lean ====
section
/-! DEFINITION. The disk data channel (chapter 07): the preamp, the zone table, sector reads and their
ladder, verified writes, bands and their trailers, and band verification, with their commands. -/

namespace Sys2Proof.Machine

/-! ## Records of the calibration area (Tables 07.1 and 07.4) -/

/-- The checks of R243. -/
def preampRecordOk (l : List Byte) : Bool :=
  field l 0 2 = 0x5041 && field l 2 2 = 0x0100 && field l 4 1 < 0x80
    && 1 ≤ field l 6 1 && field l 6 1 ≤ 10 && field l 7 1 < 0x80 && field l 8 1 < 0x80
    && field l 0xD 1 < 0x80 && 100 ≤ field l 0xE 2 && field l 0xE 2 ≤ 20000
    && field l 0x10 4 = crc32c (l.take 0x10)

def parsePreamp (l : List Byte) : PreampRec :=
  { idAddr := field l 4 1, idValue := field l 5 1, heads := field l 6 1, select := field l 7 1,
    mode := field l 8 1, sleep := field l 9 1, idle := field l 0xA 1, read := field l 0xB 1, write := field l 0xC 1,
    check := field l 0xD 1, lag := field l 0xE 2 }

/-- One record of the zone table. -/
def parseZone (l : List Byte) : ZoneRec :=
  { firstBand := field l 0 4, bandCount := field l 4 2, tracks := field l 6 2,
    firstTrack := field l 8 4, wedgeBits := field l 0xC 4, slots := field l 0x10 2,
    bitRate := field l 0x12 2, phase := signedOf 16 (field l 0x14 2), act := bits (field l 0x16 1) 4 1,
    head := field l 0x16 1 % 16, spares := field l 0x17 1 }

/-- The legal values of Table 07.4; `wedges` is the number of servo wedges per revolution. -/
def zoneRecordOk (l : List Byte) (wedges : Nat) : Bool :=
  let z := parseZone l
  z.firstBand ≤ 0xFFFFFF && 1 ≤ z.bandCount && 16 ≤ z.tracks && z.tracks ≤ 1024
    && 1000 ≤ z.wedgeBits && z.wedgeBits ≤ 131071 && 64 ≤ z.slots && z.slots ≤ 4095
    && z.slots * 36416 ≤ wedges * z.wedgeBits && 1000 ≤ z.bitRate && z.bitRate ≤ 4800
    && -2048 ≤ z.phase && z.phase ≤ 2047 && z.head ≤ 9 && field l 0x16 1 < 32
    && 1 ≤ z.spares && z.spares ≤ 16

/-- Each record's first band follows the last band of the record before it. -/
def zonesChained : List ZoneRec → Bool
  | a :: b :: t => b.firstBand = a.firstBand + a.bandCount && zonesChained (b :: t)
  | _ => true

/-- Units that the user positions of a band hold without skipped positions (R250). -/
def ZoneRec.units (z : ZoneRec) : Nat := z.tracks * z.users

/-- Bits in which the 16 stream bits at a start differ from the sync mark 0xE5B1, sent bit 15 first; `window` holds the
32 stream bits from P − 8 on, the first one in bit 0 (R255). -/
def syncDiffers (window : Nat) (start : Int) : Nat :=
  (List.range 16).countP fun i => bit window ((start + 8).toNat + i) ≠ bit 0xE5B1 (15 - i)

/-- The 17 starts of the window, nearest to P first and the earlier of two as near. -/
def syncStarts : List Int := [0, -1, 1, -2, 2, -3, 3, -4, 4, -5, 5, -6, 6, -7, 7, -8, 8]

/-- The detections recorded (R255): at most 2 bits differ; fewest differing bits first, then by nearness to P and by
position; up to four. -/
def detections (window : Nat) : List Int :=
  ((List.range 3).flatMap fun n => syncStarts.filter fun p => syncDiffers window p = n).take 4

/-- The starts of R256 for the detections recorded, each once: the best detection or P, the other
detections, P, then P + 1, P − 1 and so on. -/
def framingOrder (dets : List Int) : List Int :=
  (dets ++ [0, 1, -1, 2, -2, 3, -3, 4, -4]).eraseDups

namespace State

/-! ## Heads and geometry -/

/-- The head that the preamp of an actuator has selected. -/
def selHead (s : State) (a : Nat) : Nat := s.getF (F.dchStatusHead a)

/-- The actuator of a band. -/
def bandAct (s : State) (b : Nat) : Option Nat := (s.bandRec b).map (·.act)

/-- The bands and extents of an actuator concern these namespaces (R309, R253). -/
def nsOnBands (s : State) (p : Nat → Bool) : List Nat :=
  s.nsids.filter fun i => match s.ns i with
    | some n => n.zones.any (fun z => p z.2)
        || s.ftl.extents.any fun e => e.1 / 2 ^ 32 = i && e.2.st = .disk && p e.2.band
    | none => false

/-- The position read for a position of a band: its spare where it has been relocated (R259). -/
def readPos (s : State) (b pos : Nat) : Nat :=
  (((s.band b).reloc.filter fun r => r.1 = pos).getLast?.map (·.2)).getD pos

/-- The actuator is on the track of a position of a band, on the band's head, with the sample clock
locked (R252, R297). -/
def onPos (s : State) (a b pos : Nat) : Bool := match s.bandRec b with
  | none => false
  | some z => z.act = a && s.selHead a = z.head && s.onF (F.dchStatusClkLock a)
      && s.onF (F.srvActStatusOnTrack a) && s.getF (F.srvActStatusTrack a) = z.trackOf b pos

/-! ## Discovery and the zone table (R243–R246) -/

/-- The state that the channel's work gives DCH_STATUS.STATE. -/
def syncDisk (s : State) (a : Nat) : State :=
  let st := s.getF (F.dchStatusState a)
  if st < 2 || 4 < st then s
  else
    let d := s.diskAct a
    s.setF (F.dchStatusState a) (if !d.writes.isEmpty then 4 else if !d.reads.isEmpty then 3 else 2)

/-- Shows the head conditions in DCH_HEADS. -/
def showHeads (s : State) (a heads : Nat) : State :=
  let mask := fun (c : HeadCond) => ((List.range heads).map fun h =>
    if sparseGet (fun _ => HeadCond.good) (s.diskAct a).heads h = c then 2 ^ h else 0).sum
  ((s.setF (F.dchHeadsPresent a) (2 ^ heads - 1)).setF (F.dchHeadsReadOnly a) (mask .readOnly)).setF
    (F.dchHeadsOffline a) (mask .offline)

/-- Condition of a head from its element status (Table 07.3), and whether reads use the verify reader. -/
def headCond (check : Nat) : HeadCond × Bool :=
  let failing := (List.range 4).filter fun i => !bit check i
  if failing = [] then (.good, false)
  else if failing = [0] || failing = [2] then (.readOnly, false)
  else if failing = [1] then (.readOnly, true)
  else (.offline, false)

/-- The worse of two conditions. -/
def worseCond : HeadCond → HeadCond → HeadCond
  | .offline, _ => .offline
  | _, .offline => .offline
  | .readOnly, _ => .readOnly
  | _, .readOnly => .readOnly
  | _, _ => .good

/-- Preamp discovery (Table 07.2): `ident` is what ID_ADDR answered and `checks` the element status of
each head. A condition found earlier persists until a rescan finds the head good (R245). The
answer says whether the actuator goes offline. -/
def discover (s : State) (a ident : Nat) (checks : List Nat) (rescan : Bool) : Bool × State :=
  let rec_ := s.calibBytes 1 a 20
  let s := s.setF (F.dchStatusState a) 1
  if !preampRecordOk rec_ then (true, s.setF (F.dchStatusPreampRecBad a) 1)
  else
    let r := parsePreamp rec_
    let s := (s.setF (F.dchStatusPreampRecBad a) 0).modDiskAct a fun d => { d with preamp := some r }
    if ident % 256 ≠ r.idValue then (true, s.setF (F.dchStatusPreampIdBad a) 1)
    else
      let s := forEach (List.range r.heads) (s.setF (F.dchStatusPreampIdBad a) 0) fun s h =>
        let (c, v) := headCond (checks.getD h 0)
        let old := sparseGet (fun _ => HeadCond.good) (s.diskAct a).heads h
        let cured := rescan && c = .good
        let now := if cured then .good else worseCond old c
        let s := s.modDiskAct a fun d =>
          let useV := if cured then d.useVerify.filter (· ≠ h) else d.useVerify
          { d with heads := sparsePut (fun _ => HeadCond.good) d.heads h now
                   useVerify := if v && !useV.contains h then useV ++ [h] else useV }
        if now = old then s
        else
          let mine := fun (b : Nat) => match s.bandRec b with
            | some z => z.act = a && z.head = h
            | none => false
          let s := s.zonesChanged mine
          if now = .offline then s.degradeBands mine else forEach s.nsids s checkWhole
      let s := (s.setF (F.dchStatusHead a) (r.heads - 1)).showHeads a r.heads
      (false, (s.setF (F.dchStatusState a) 2).syncDisk a)

/-- Loads the zone table of the calibration area (R246). False where it is rejected. A record that
fails only the capacity rule of R250 is kept, and its bands are UNUSABLE. -/
def loadZones (s : State) (wedges : Nat) : Bool × State :=
  let head := s.calibBytes 2 0 16
  let n := field head 4 2
  let body := (s.calibBytes 2 0 (16 + 24 * n)).drop 16
  let recs := chunks 24 n body
  let ok := field head 0 2 = 0x5A54 && field head 2 2 = 0x0100 && 1 ≤ n && n ≤ 1280 && allZero head 6 6
    && field head 0xC 4 = crc32c (head.take 12 ++ body) && recs.all (zoneRecordOk · wedges)
    && zonesChained (recs.map parseZone)
  let s := forEach [0, 1] s fun s a => s.setFIf true (F.dchStatusZoneTableBad a) (if ok then 0 else 1)
  if !ok then (false, s)
  else
    let zs := recs.map parseZone
    let s := s.modDch fun d => { d with zones := zs }
    (true, forEach (zs.filter fun z => z.units < 65536) s fun s z =>
      forEach (List.range z.bandCount) s fun s i => s.modBand (z.firstBand + i) fun b => { b with st := .unusable })

/-! ## Sector reads (R255–R262) -/

def modRead (s : State) (a : Nat) (r : SectorRead) (g : SectorRead → SectorRead) : State :=
  s.modDiskAct a fun d => { d with reads := mapWhere d.reads (· = r) g }

def dropRead (s : State) (a : Nat) (r : SectorRead) : State :=
  (s.modDiskAct a fun d => { d with reads := d.reads.erase r }).syncDisk a

/-- Slots on the recovery decoder's queue follow the reads that reframe at step 0 (R257). -/
def syncRecovery (s : State) (a : Nat) : State :=
  s.modDiskAct a fun d => { d with recovery := d.reads.countP fun r => r.st = .reframe && r.step = 0 }

/-- Highest ladder step that may run. -/
def ladderMax (s : State) (a : Nat) : Nat := min 8 (s.getF (F.dchCfgLadderMax a))

/-- Offset and heater step that a ladder step asks of the control engine (Table 07.8, R298). -/
def requestStep (s : State) (a step : Nat) : State :=
  s.modServoAct a fun x =>
    { x with reqOffset := if step = 2 then 0x0666 else if step = 3 then -0x0666 else 0
             reqHeater := step = 6 }

/-- Whoever waits for a sector learns that it is lost (R261, R365). A result of an older generation does nothing. -/
def sectorLost (s : State) (r : SectorRead) : State := match r.user with
  | .reader x => s.readEnds x r.inst r.gen (fun y => y.band = some (r.band, r.unit)) true
  | _ => s

/-- A sector that failed the whole ladder (R261). -/
def sectorFailed (s : State) (a : Nat) (r : SectorRead) : State :=
  let h := s.selHead a
  let s := (s.incF (F.dchHUncorrCount a h)).modFtl fun f => { f with unrecovered := f.unrecovered + 1 }
  let ns := match s.ftl.reads.find? fun x => r.user = .reader x.reader && x.band = some (r.band, r.unit) with
    | some x => [x.nsid]
    | none => s.nsOnBands (· = r.band)
  ((s.health 0x0008 4 a ns r.pos).dropRead a r).sectorLost r

/-- The next ladder step of a read whose framing order is exhausted (R260). -/
def nextStep (s : State) (a : Nat) (r : SectorRead) : State :=
  let h := s.selHead a
  let n := r.step + 1
  if s.ladderMax a < n then s.sectorFailed a r
  else
    let s := s.setF (F.dchHMaxStepStep a h) (max n (s.getF (F.dchHMaxStepStep a h)))
    let s := if n = 1 then s.incF (F.dchHLadderCount a h) else s
    (s.modRead a r fun r => { r with st := .wait, step := n, dets := [], starts := [] }).requestStep a n

/-- A read is accepted (R256): it goes to the holding buffer; if that is full, it is reread at step 0. -/
def acceptRead (s : State) (a : Nat) (r : SectorRead) : State :=
  let h := s.selHead a
  if 32 ≤ (s.diskAct a).holding.length then
    s.modRead a r fun r => { r with st := .wait, step := 0, dets := [], starts := [] }
  else
    let s := s.incF (F.dchHSectReadCount a h)
    let s := if r.start = r.first then s
      else if r.dets.contains r.start then s.incF (F.dchHReframeCandCount a h)
      else s.incF (F.dchHReframeOffsCount a h)
    let s := s.modBand r.band fun b => { b with losses := 0 }
    let h : HeldSector := { user := r.user, inst := r.inst, gen := r.gen, band := r.band, unit := r.unit, left := List.range 8 }
    (s.modDiskAct a fun d => { d with holding := d.holding ++ [h] }).dropRead a r

/-- Reads leave any state without a result (R262). -/
def dropReads (s : State) (a : Nat) : State :=
  (s.modDiskAct a fun d => { d with reads := [], recovery := 0 }).syncDisk a

/-! ## Verified writes (R263–R269) -/

def modWrite (s : State) (a : Nat) (w : SectorWrite) (g : SectorWrite → SectorWrite) : State :=
  s.modDiskAct a fun d => { d with writes := mapWhere d.writes (· = w) g }

/-- The verified write pointer covers every position below the lowest unresolved one (Table 07.10). -/
def advanceVwp (s : State) (a b : Nat) : State :=
  let low := ((s.diskAct a).writes.filter (·.band = b)).foldl (fun m w => min m w.orig) (s.band b).nextPos
  s.modBand b fun x => { x with vwp := max x.vwp low }

/-- A band becomes FULL and its trailer is written (R251). -/
def closeBand (s : State) (b : Nat) : State :=
  s.modBand b fun x => { x with st := .full, trailerAt := some s.now }

/-- The band trailer as the band's last position holds it (Table 07.6). -/
def bandTrailer (s : State) (b : Nat) : Option (List Byte) :=
  let x := s.band b
  x.trailerAt.map fun t =>
    let body := fit 0xFFC (leBytes 2 0x4254 ++ leBytes 2 0x0100 ++ leBytes 4 b ++ leBytes 4 x.stamp
      ++ leBytes 2 x.reloc.length ++ leBytes 2 (x.skip.length + x.nextSkip.length) ++ leBytes 4 x.capacity
      ++ zeros 4 ++ leBytes 8 t
      ++ fit 3840 (x.reloc.map fun r => leBytes 4 r.1 ++ leBytes 4 r.2).flatten
      ++ fit 128 ((x.skip ++ x.nextSkip).map (leBytes 4)).flatten)
    body ++ leBytes 4 (crc32c body)

/-- An extent of a move still follows it: it is MOVING, or on DISK in the band being compacted. -/
def moveAlive (s : State) (m : BandMove) (e : Nat × Nat) : Bool :=
  e.1 ≠ 0 &&
    let x := s.extent e.1 e.2
    match m.old with
    | none => x.st = .moving
    | some b => x.st = .disk && x.band = b

/-- The slots of a move's band whose extents still follow it. -/
def aliveSlots (s : State) (m : BandMove) : List (Nat × (Nat × Nat)) :=
  (m.extents.zipIdx.filter fun e => s.moveAlive m e.1).map fun e => (e.2, e.1)

/-- A move whose last unit has passed verify (R225, R228, R268): EXTENT_SET for each extent that follows
it, and the band is closed; with none left the band is reset. -/
def finishMove (s : State) (m : BandMove) : State :=
  let alive := s.aliveSlots m
  let verified := match alive.getLast? with
    | some e => s.unitVerified m.band (256 * e.1 + 255)
    | none => true
  if m.lastSeq.isSome || !verified || (s.diskAct m.act).writes.any (·.band = m.band) then s
  else if alive.isEmpty then
    (s.modFtl fun f => { f with moves := f.moves.filter (· ≠ m) }).resetBand m.band
  else
    let s := forEach alive s fun s e =>
      s.setExtent e.2.1 e.2.2 { s.extent e.2.1 e.2.2 with st := .disk, act := m.act, band := m.band, slot := e.1 }
    let s := s.modFtl fun f => { f with moves := mapWhere f.moves (· = m) fun x => { x with lastSeq := some (f.nextSeq - 1) } }
    (s.closeBand m.band).incF F.ftlMigrateCntBands

/-- The move of one extent is cancelled (R226, R265): it stays where it is, its slot in the band is dead. -/
def cancelExtent (s : State) (b nsid ext : Nat) : State :=
  let x := s.extent nsid ext
  let s := if x.st = .moving then s.setExtent nsid ext { x with st := .flash } else s
  s.modFtl fun f => { f with moves := mapWhere f.moves (fun (m : BandMove) => m.band = b) fun m =>
    { m with extents := mapWhere m.extents (· = (nsid, ext)) fun _ => (0, 0) } }

/-- Cancels the moves of an actuator (R228, R309); their bands are reset before reuse. -/
def cancelMoves (s : State) (a : Nat) : State :=
  let mine := s.ftl.moves.filter fun m => m.act = a && m.lastSeq.isNone
  let s := forEach mine s fun s m => forEach m.extents s fun s e =>
    if e.1 = 0 then s else s.cancelExtent m.band e.1 e.2
  let s := s.modFtl fun f => { f with moves := f.moves.filter fun m => !(m.act = a && m.lastSeq.isNone) }
  forEach mine s fun s m => s.resetBand m.band

/-- A position may serve as a spare (R250): past the user positions of its track, or a user position
beyond the last unit; never the last of the band, which holds the trailer. -/
def isSpare (s : State) (z : ZoneRec) (b pos : Nat) : Bool :=
  let x := s.band b
  pos + 1 < z.positions && !x.reloc.any (fun r => r.2 = pos) && !x.badSpares.contains pos
    && (pos % z.slots ≥ z.users
      || (z.unitPos x.skip 65535 < pos && !x.skip.contains pos && !x.nextSkip.contains pos))

/-- A position whose rewrite failed joins the skip list; a list over 32 entries retires the band
(R266). -/
def skipPos (s : State) (b pos : Nat) : State :=
  let x := s.band b
  if x.skip.contains pos || x.nextSkip.contains pos then s
  else if 32 ≤ x.skip.length + x.nextSkip.length then
    (s.modBand b fun x => { x with st := .retired }).zoneChanged b
  else s.modBand b fun x => { x with nextSkip := insertRising x.nextSkip pos }

/-- A write has failed verify (R265): a spare, a rewrite in place, or the data is lost. -/
def failedVerify (s : State) (a : Nat) (w : SectorWrite) : State :=
  let h := s.selHead a
  let s := s.incF (F.dchHVerifyFailCount a h)
  let x := s.band w.band
  let used := sparseGet (fun _ => 0) x.rewrites w.pos
  let s := if w.pos ≠ w.orig then s.modBand w.band fun x => { x with badSpares := x.badSpares ++ [w.pos] }
    else if 0 < used then s.skipPos w.band w.pos else s
  let spare := match s.bandRec w.band with
    | some z => if x.reloc.length < 480 then
        findFrom (s.isSpare z w.band) (max x.nextPos (w.pos + 1)) (z.positions - max x.nextPos (w.pos + 1))
      else none
    | none => none
  match spare with
  | some p =>
    let s := s.modBand w.band fun x => { x with reloc := x.reloc.filter (fun r => r.1 ≠ w.orig) ++ [(w.orig, p)] }
    let here := s.onPos a w.band p
    (s.incF (F.dchHRelocateCount a h)).modWrite a w fun w => { w with pos := p, st := if here then .waitSlot else .position }
  | none =>
    if used < min 3 (s.getF (F.dchCfgRewriteMax a)) then
      let s := s.modBand w.band fun x => { x with rewrites := sparsePut (fun _ => 0) x.rewrites w.pos (used + 1) }
      (s.incF (F.dchHRewriteCount a h)).modWrite a w fun w => { w with st := .waitSlot }
    else
      let s := s.modDiskAct a fun d => { d with writes := d.writes.erase w }
      let s := match w.user with
        | .buffer nsid unit => match s.wbFind nsid unit with
          | some e => s.loseEntry e 0x02
          | none => s
        | .move nsid unit => s.cancelExtent w.band nsid (unit / 256)
        | _ => s
      let s := s.advanceVwp a w.band
      let s := match s.ftl.moves.find? fun (m : BandMove) => m.band = w.band with
        | some m => s.finishMove m
        | none => s
      s.syncDisk a

/-- The write gate falls: the slot being written is cut off and fails verify (R264). -/
def cutWrite (s : State) (a : Nat) : State :=
  let s := s.modDiskAct a fun d => { d with gate := false }
  match (s.diskAct a).writes.find? (·.st = .writing) with
  | none => s
  | some w => (s.incF (F.dchHWriteCutCount a (s.selHead a))).failedVerify a w

/-- What is stored of a unit of an extent on flash or disk: its ciphertext, which moves as it is (R40). -/
def storedUnit (s : State) (nsid unit : Nat) : List Byte :=
  let e := s.extent nsid (unit / 256)
  if e.st = .disk then s.bandData e.band (e.slot * 256 + unit % 256) else s.slotData (unit % 4) (s.mapOf nsid unit)

/-- A sector has passed verify (R268): its data is the band's, its buffer entry is freed, and a move
that is complete ends. -/
def passedVerify (s : State) (a : Nat) (w : SectorWrite) : State :=
  let s := s.modDiskAct a fun d => { d with writes := d.writes.erase w }
  let store := fun (s : State) (l : List Byte) =>
    s.modDch fun d => { d with data := sparsePut (fun _ => zeros 4096) d.data (w.band * 65536 + w.unit) l }
  let s := match w.user with
    | .buffer nsid unit => match s.wbFind nsid unit with
      | some e =>
        let s := store (s.useMasks 256) (s.encUnit nsid unit e.data)
        (s.modFtl fun f => { f with wb := f.wb.filter fun x => x.order ≠ e.order }).syncWb
      | none => s
    | .move nsid unit =>
      let gone := s.unitEmpty nsid unit
      (store s (if gone then zeros 4096 else s.storedUnit nsid unit)).modFtl fun f =>
        { f with diskClear := sparsePut (fun _ => false) f.diskClear (unitKeyOf nsid unit) gone }
    | _ => s
  let s := s.advanceVwp a w.band
  let s := match w.user with
    | .buffer _ _ => if w.unit + 1 = (s.band w.band).capacity then s.closeBand w.band else s
    | _ => match s.ftl.moves.find? fun (m : BandMove) => m.band = w.band with
      | some m => s.finishMove m
      | none => s
  s.syncDisk a

/-- Power fails: the gate falls and the slots being written are abandoned, with the relocations that were not verified
yet; reads end (R262, R269). The units stay in the buffer or on flash. -/
def abandonDisk (s : State) (a : Nat) : State :=
  let ws := (s.diskAct a).writes
  let s := s.modDiskAct a fun d => { d with writes := [], reads := [], recovery := 0, gate := false }
  (forEach (ws.map (·.band)).eraseDups s fun s b => s.modBand b fun x =>
    { x with nextPos := x.vwp, reloc := x.reloc.filter fun r => !ws.any fun w => w.band = b && w.orig = r.1 }).syncDisk a

/-- Reads and writes that wait for their position reach it (Tables 07.9 and 07.10): a read only after
every slot being written has its verify result (R263). -/
def diskReady (s : State) (a : Nat) : State :=
  s.modDiskAct a fun d =>
    { d with
      reads := mapWhere d.reads (fun r => r.st = .position && s.onPos a r.band r.pos && d.writes.isEmpty)
        fun r => { r with st := .wait }
      writes := mapWhere d.writes (fun w => w.st = .position && s.onPos a w.band w.pos
          && s.onF (F.srvActStatusWriteSafe a)) fun w => { w with st := .waitSlot } }

/-- The band in which the data reader of an actuator lies (R247); none on a guard track or off the surface's bands. -/
def bandUnder (s : State) (a : Nat) : Option Nat :=
  let t := s.getF (F.srvActStatusTrack a)
  s.dch.zones.findSome? fun z =>
    if z.act ≠ a || z.head ≠ s.selHead a || t < z.firstTrack then none
    else
      let n := (t - z.firstTrack) / (z.tracks + 1)
      if n < z.bandCount && (t - z.firstTrack) % (z.tracks + 1) < z.tracks then some (z.firstBand + n) else none

/-- A revolution at 7200 rpm, in ns (R260). -/
def revolution : Nat := 8333333

/-- A band has lost lock: once for each revolution, and in three consecutive ones it is CLOCK_BAD (R253). Reads of it
are unrecoverable (R261), and nothing more is written to it. -/
def clockBad (s : State) (a b : Nat) : State :=
  let x := s.band b
  if 0 < x.losses && !s.since x.lossAt revolution then s
  else
    let n := if 0 < x.losses && !s.since x.lossAt (2 * revolution) then x.losses + 1 else 1
    let s := s.modBand b fun x => { x with losses := n, lossAt := s.tick }
    if n < 3 then s
    else
      let s := ((s.modBand b fun x => { x with st := .clockBad }).zoneChanged b).health 0x0008 4 a (s.nsOnBands (· = b)) b
      let s := forEach ((s.diskAct a).reads.filter (·.band = b)) s fun s r => s.sectorFailed a r
      let s := s.modDiskAct a fun d => { d with writes := d.writes.filter (·.band ≠ b) }
      let s := forEach (s.ftl.moves.filter fun m => m.band = b && m.lastSeq.isNone) s fun s m =>
        forEach m.extents s fun s e => if e.1 = 0 then s else s.cancelExtent b e.1 e.2
      (s.modFtl fun f => { f with moves := f.moves.filter fun m => !(m.band = b && m.lastSeq.isNone) }).syncDisk a

/-! ## Band verification (R271, R272) -/

/-- Ends a band verification with a status. -/
def endVerify (s : State) (a sct sc : Nat) : State :=
  if (s.diskAct a).verify.isNone then s
  else
    let s := s.modDiskAct a fun d => { d with verify := none }
    ((s.setF (F.dchVerifyCtrlGo a) 0).setF (F.dchVerifyCtrlAbort a) 0).endLongOp 3 sct sc

/-- Ends whatever band verification runs. -/
def endVerifyAll (s : State) (sct sc : Nat) : State := (s.endVerify 0 sct sc).endVerify 1 sct sc

/-- A band that verification skips and counts as done. -/
def verifySkips (s : State) (a b : Nat) : Bool :=
  let st := (s.band b).st
  st = .empty || st = .clockBad || st = .retired || st = .unusable || s.bandAct b ≠ some a || s.bandHead b = .offline

/-- Bands of the range from one on that verification skips. -/
def skipRun (s : State) (a : Nat) : Nat → Nat → Nat
  | _, 0 => 0
  | b, n + 1 => if s.verifySkips a b then 1 + skipRun s a (b + 1) n else 0

/-- Nothing else is queued for the actuator (R272). -/
def actIdle (s : State) (a : Nat) : Bool :=
  let d := s.diskAct a
  d.reads.isEmpty && d.writes.isEmpty && !(s.ftl.moves.any fun m => m.act = a && m.lastSeq.isNone)
    && s.cnt.resync.isNone

/-- Passes over the bands that need no reading; at the end of the range the operation succeeds. -/
def verifyAdvance (s : State) (a : Nat) (v : BandVerify) : State :=
  let v := { v with done := v.done + s.skipRun a (v.first + v.done) (v.count - v.done) }
  let s := s.modDiskAct a fun d => { d with verify := some v }
  let s := s.longOpProgress 3 (10000 * v.done / max 1 v.count) (v.first + v.done)
  if v.count ≤ v.done then s.endVerify a 0 0 else s

/-- A position that verification found weak or unrecoverable is reported, and a tiered band with either is wanted for
compaction. -/
def verifyFinding (s : State) (a b : Nat) (weak : Bool) (pos : Nat) : State :=
  let s := if weak then (s.incF (F.dchVerifyResultWeak a)).daily src.dch 0x0600 [b, pos]
    else ((s.incF (F.dchVerifyResultUncorr a)).daily src.dch 0x0601 [b, pos]).health 0x0008 4 a (s.nsOnBands (· = b)) pos
  if s.bandZoned b then s else s.modBand b fun x => { x with weak := true }

/-- One slot that verification read: the head's counters as for any read (R258, R271), and what it found. -/
def verifySlot (s : State) (a b h : Nat) (r : SlotRead) : State :=
  let ds := detections r.window
  let first := (framingOrder ds).headD 0
  let step := min r.step (s.ladderMax a)
  let s := if ds.isEmpty then s.incF (F.dchHSyncMissCount a h)
    else if ds.head? ≠ some 0 then s.incF (F.dchHSyncOffsetCount a h) else s
  let s := if 0 < step then
      (s.incF (F.dchHLadderCount a h)).setF (F.dchHMaxStepStep a h) (max step (s.getF (F.dchHMaxStepStep a h)))
    else s
  if r.lost then (s.incF (F.dchHUncorrCount a h)).verifyFinding a b false r.pos
  else
    let s := s.incF (F.dchHSectReadCount a h)
    let s := if r.start = first then s
      else if ds.contains r.start then s.incF (F.dchHReframeCandCount a h)
      else s.incF (F.dchHReframeOffsCount a h)
    if 2 ≤ step || s.getF (F.dchCfgVerifyBitsMax a) < r.bits then s.verifyFinding a b true r.pos else s

/-! ## Positioning (R262, R267, R296) -/

/-- The heads leave the track: nothing is read or written until they settle again. -/
def leaveTrack (s : State) (a : Nat) : State :=
  let s := ((s.setF (F.srvActStatusOnTrack a) 0).setF (F.srvActStatusWriteSafe a) 0).cutWrite a
  s.modDiskAct a fun d =>
    { d with reads := mapWhere d.reads (fun r => r.st = .wait || r.st = .capture) fun r => { r with st := .position }
             writes := mapWhere d.writes (fun w => w.st = .waitSlot) fun w => { w with st := .position } }

/-- Sets an actuator's state where both registers show it (Table 08.11). -/
def setActState (s : State) (a st : Nat) : State :=
  let s := (s.setF (F.srvActStatusState a) st).setF (if a = 0 then F.srvStatusAct0State else F.srvStatusAct1State) st
  s.modServoAct a fun x => { x with enteredAt := s.tick }

def actState (s : State) (a : Nat) : Nat := s.getF (F.srvActStatusState a)

/-- Starts a seek (R296): its class is the rounded-down logarithm of the distance, and it lasts the wedges
of that seek-time entry. A head switch selects the head first and seeks from where it is found. -/
def startSeek (s : State) (a head track : Nat) (write : Bool) : State :=
  let cur := s.getF (F.srvActStatusTrack a)
  let d : Int := (track : Int) - (cur : Int)
  let q : Seek :=
    { start := cur * 32768, dist := d, wedges := s.srv.seekTimes.getD (Nat.log2 d.natAbs) 1, n := 0,
      acquire := head ≠ s.selHead a }
  let s := s.leaveTrack a
  let s := if q.acquire then (s.setF (F.dchStatusHead a) head).setF (F.dchStatusClkLock a) 0 else s
  let s := s.modServoAct a fun x =>
    { x with head := head, target := track, write := write, seek := some q, readRun := 0, writeRun := 0 }
  (s.setActState a 3).setF (F.srvActStatusBusy a) 1

/-- Moves the heads for the work that waits for its position, writes first; the heads move only when no
slot being written waits for its verify result (R263). -/
def nextPosition (s : State) (a : Nat) : State :=
  let d := s.diskAct a
  let go := fun (b pos : Nat) (write : Bool) =>
    if s.onPos a b pos && (!write || (s.servoAct a).write) then s.diskReady a
    else match s.bandRec b with
      | some z => if s.actState a = 5 && !s.onF (F.srvActStatusBusy a) then s.startSeek a z.head (z.trackOf b pos) write else s
      | none => s
  let first := d.writes.foldl (fun a w => match a with
    | some (x : SectorWrite) => if w.pos < x.pos then some w else some x
    | none => some w) none
  if d.writes.any fun w => w.st ≠ .position then s
  else match first with
    | some w => go w.band w.pos true
    | none =>
      if d.reads.any fun r => r.st = .wait || r.st = .capture then s
      else match d.reads.find? (·.st = .position) with
        | some r => go r.band r.pos false
        | none => s

end State

/-! ## Commands -/

/-- SECTOR_READ_QUEUE (R262): a sector of a band of the actuator is queued, for a reader that needs it or for the device
itself. A band without a lock is not read (R253); a sector on an offline surface or actuator is lost (R582). -/
def execSectorReadQueue (act band unit : Nat) (for_ : ReadFor) (s : State) : Host.Outcome State Fault Refusal :=
  let x := s.band band
  let who : Option (Nat × Nat) := if for_ = .device then some (noTenant, 0) else
    (s.ftl.reads.find? fun r => r.reader = for_ && r.band = some (band, unit) && !r.lost
      && !s.isStale r.inst r.gen).map fun r => (r.inst, r.gen)
  match who with
  | none => done s
  | some (inst, gen) =>
    let r : SectorRead :=
      { user := .reader for_, inst := inst, gen := gen, band := band, unit := unit,
        pos := s.readPos band (s.unitPos band unit), st := .position, step := 0, dets := [], starts := [], start := 0, first := 0 }
    if s.bandAct band ≠ some act || 65536 ≤ unit then done s
    else if s.bandGone band then done (s.sectorLost r)
    else if s.getF (F.dchStatusState act) < 2 || s.ftl.dumping
        || (s.diskAct act).reads.any (fun q =>
            q.user = r.user && q.gen = gen && q.band = band && q.unit = unit && for_ ≠ .device)
        || (s.diskAct act).holding.any (fun q =>
            q.user = r.user && q.gen = gen && q.band = band && q.unit = unit && for_ ≠ .device) then done s
    else if x.st = .clockBad then done ((s.health 0x0008 4 act (s.nsOnBands (· = band)) unit).sectorLost r)
    else done (((s.modDiskAct act fun d => { d with reads := d.reads ++ [r] }).syncDisk act).nextPosition act)

/-- SECTOR_WRITE_QUEUE (R263, R267): a unit of a namespace, buffered for its zone or in an extent that
moves to the band, is queued at the band's next position; units of extents that no longer move are passed
over (R226). An actuator writes one band at a time. Host data is encrypted in the SEC cells of its instance (R54). -/
def execSectorWriteQueue (act band nsid unit : Nat) (s : State) : Host.Outcome State Fault Refusal :=
  let x := s.band band
  let place : Option (DiskUser × Nat) :=
    if s.zoneBand nsid (unit / 65536) = some band then
      if (s.wbFind nsid unit).isSome && !s.flushBarred nsid unit then some (.buffer nsid unit, unit % 65536) else none
    else match s.ftl.moves.find? fun (m : BandMove) => m.band = band with
      | none => none
      | some m => match (s.aliveSlots m).find? fun e => e.2 = (nsid, unit / 256) with
        | some e => some (.move nsid unit, e.1 * 256 + unit % 256)
        | none => none
  match place with
  | none => done s
  | some (user, u) =>
    let pos := s.unitPos band u
    let gap := (List.range 65536).find? fun v => v < u && x.nextPos ≤ s.unitPos band v && match user with
      | .move _ _ => match s.ftl.moves.find? fun (m : BandMove) => m.band = band with
        | some m => (s.aliveSlots m).any fun e => e.1 = v / 256
        | none => false
      | _ => true
    let d := s.diskAct act
    if s.bandAct band ≠ some act || x.capacity ≤ u || pos < x.nextPos || gap.isSome
        || !(x.st = .empty || x.st = .opened) || s.bandHead band ≠ .good || !s.actOnline act || s.ftl.dumping
        || d.writes.any (fun w => w.band ≠ band) then done s
    else
      let w : SectorWrite := { user := user, band := band, unit := u, orig := pos, pos := pos, st := .position }
      s.moving (match user, s.wbFind nsid unit with
        | .buffer _ _, some e => State.need colSec (State.flushOwner e) 4096 512
        | _, _ => []) fun s =>
      let s := s.modBand band fun x => { x with st := .opened, nextPos := pos + 1 }
      let s := s.modDiskAct act fun d => { d with writes := d.writes ++ [w] }
      done ((s.syncDisk act).nextPosition act)

/-- PREAMP_FRAME (R241): PREAMP_GO in Service mode sends DCH_PREAMP.FRAME; a read frame returns `rdata`.
A write of the SELECT register selects a head (Table 07.1). -/
def execPreampFrame (act : Nat) (path : Path) (rdata : Nat) (s : State) : Host.Outcome State Fault Refusal :=
  done (s.regAction path (A.dchCtrl act) 2 fun s =>
    if !s.inMode .service || 2 ≤ act then s
    else
      let f := s.getF (F.dchPreampFrame act)
      if bit f 15 then s.setF (F.dchPreampRdata act) rdata
      else match (s.diskAct act).preamp with
        | some r => if bits f 8 7 = r.select then s.setF (F.dchStatusHead act) (f % 256) else s
        | none => s)

/-- PREAMP_FAULT (R242). -/
def execPreampFault (act : Nat) (s : State) : Host.Outcome State Fault Refusal :=
  if 2 ≤ act then done s else done ((s.setF (F.dchStatusPreampFault act) 1).cutWrite act)

/-- CLOCK_LOCK (R252): the sample clock is locked; work that waits for it goes on. -/
def execClockLock (act : Nat) (s : State) : Host.Outcome State Fault Refusal :=
  if 2 ≤ act || s.getF (F.dchStatusState act) < 2 || s.getF (F.dchStatusState act) = 5 then done s
  else done ((s.setF (F.dchStatusClkLock act) 1).diskReady act)

/-- CLOCK_LOSS (R253): the gate falls, the slot being captured is reread at its step, and a third
revolution in a row makes the band CLOCK_BAD. -/
def execClockLoss (act : Nat) (s : State) : Host.Outcome State Fault Refusal :=
  if 2 ≤ act || !s.onF (F.dchStatusClkLock act) then done s
  else
    let band := s.bandUnder act
    let s := ((s.setF (F.dchStatusClkLock act) 0).cutWrite act).incF (F.dchHClockLossCount act (s.selHead act))
    let s := s.modDiskAct act fun d =>
      { d with reads := mapWhere d.reads (fun r => r.st = .capture) fun r => { r with st := .wait } }
    match band with
    | some b => done (s.clockBad act b)
    | none => done s

/-- CAPTURE_WINDOW_OPEN (R262): the stream reaches P − 8 of a waiting slot, on track and locked. -/
def execCaptureWindowOpen (act : Nat) (s : State) : Host.Outcome State Fault Refusal :=
  let d := s.diskAct act
  match d.reads.find? (·.st = .wait) with
  | none => done s
  | some r =>
    if !s.onPos act r.band r.pos || d.reads.any (·.st = .capture) then done s
    else done ((s.modRead act r fun r => { r with st := .capture }).syncDisk act)

/-- SECTOR_CAPTURE_DONE (R255, R256, R258): `window` holds the 32 stream bits from P − 8 on, the first one in bit 0. The
first start goes to its decoder. -/
def execSectorCaptureDone (act window : Nat) (s : State) : Host.Outcome State Fault Refusal :=
  match (s.diskAct act).reads.find? (·.st = .capture) with
  | none => done s
  | some r =>
    let ds := detections window
    let order := framingOrder ds
    let h := s.selHead act
    let s := if r.step = 0 && ds.isEmpty then s.incF (F.dchHSyncMissCount act h) else s
    let s := if r.step = 0 && !ds.isEmpty && ds.head? ≠ some 0 then s.incF (F.dchHSyncOffsetCount act h) else s
    let s := s.requestStep act 0
    done (s.modRead act r fun r =>
      { r with st := .decode, dets := ds, start := order.headD 0, first := order.headD 0, starts := order.drop 1 })

/-- SECTOR_DECODE_DONE (R256, R257): a start is accepted under R175, or the next one is framed, or the
read climbs the ladder. The primary decoder holds a slot at its first start of step 0; `recovery` means the other
decoder. -/
def execSectorDecodeDone (act : Nat) (recovery syndromeZero crcOk : Bool) (s : State) :
    Host.Outcome State Fault Refusal :=
  match (s.diskAct act).reads.find? fun r =>
      if recovery then r.st = .reframe || (r.st = .decode && 0 < r.step) else r.st = .decode && r.step = 0 with
  | none => done s
  | some r =>
    if syndromeZero && crcOk then done (((s.acceptRead act r).syncRecovery act).nextPosition act)
    else if r.st = .decode && r.step = 0 && 4 ≤ (s.diskAct act).recovery then
      done ((s.incF (F.dchRcvQueueFull act)).nextStep act r)
    else match r.starts with
      | n :: rest => done ((s.modRead act r fun r => { r with st := .reframe, start := n, starts := rest }).syncRecovery act)
      | [] => done (((s.nextStep act r).syncRecovery act).nextPosition act)

/-- SLOT_BIT_0 (R267): the gate rises on a write that waits for its slot under the head. Its data comes from DRAM in
DISK cells (R41, R54); without them the slot is missed, and the next revolution brings it again. -/
def execSlotBit0 (act : Nat) (s : State) : Host.Outcome State Fault Refusal :=
  let d := s.diskAct act
  match d.writes.find? fun w => w.st = .waitSlot && s.onPos act w.band w.pos with
  | none => done s
  | some w =>
    if d.gate || !s.onF (F.srvActStatusWriteSafe act) || !s.onF (F.dchStatusClkLock act) || s.ftl.dumping then done s
    else s.moving (s.dramNeeds ownDisk (Config.bufferPlace 0) 4096 false) fun s =>
      done ((s.modWrite act w fun w => { w with st := .writing }).modDiskAct act fun d => { d with gate := true })

/-- SLOT_WRITE_END (R267): the gate falls after bit 36,415 and the verify result is awaited. -/
def execSlotWriteEnd (act : Nat) (s : State) : Host.Outcome State Fault Refusal :=
  match (s.diskAct act).writes.find? (·.st = .writing) with
  | none => done s
  | some w =>
    let s := (s.modWrite act w fun w => { w with st := .verifyWait }).modDiskAct act fun d => { d with gate := false }
    done ((s.incF (F.dchHSectWriteCount act (s.selHead act))).modBand w.band fun b => { b with losses := 0 })

/-- WRITE_CUT (R264). -/
def execWriteCut (act : Nat) (s : State) : Host.Outcome State Fault Refusal := done (s.cutWrite act)

/-- VERIFY_RESULT (R264, R265): `window` holds the verify reader's 32 stream bits from P − 8 on; a detection lies within
P ± 2, and the rest is what its decoder gave at that start. -/
def execVerifyResult (act pos window : Nat) (converged : Bool) (iters bits : Nat) (equal : Bool)
    (s : State) : Host.Outcome State Fault Refusal :=
  match (s.diskAct act).writes.find? fun w => w.st = .verifyWait && w.pos = pos with
  | none => done s
  | some w =>
    let near := (detections window).any fun d => -2 ≤ d && d ≤ 2
    if near && converged && iters ≤ s.getF (F.dchCfgVerifyIterMax act) && bits ≤ s.getF (F.dchCfgVerifyBitsMax act)
        && equal then done ((s.passedVerify act w).nextPosition act)
    else done ((s.failedVerify act w).nextPosition act)

/-- BAND_VERIFY_GO (R271). -/
def execBandVerifyGo (act : Nat) (path : Path) (value : Word) (s : State) : Host.Outcome State Fault Refusal :=
  done (s.regAction path (A.dchVerifyCtrl act) value fun s =>
    let all := s.onF (F.dchVerifyCtrlAll act)
    let mode := s.inMode .ready || s.inMode .active || s.inMode .service
    let runs := (s.diskAct 0).verify.isSome || (s.diskAct 1).verify.isSome
    if (F.dchVerifyCtrlGo act).get value = 0 || 2 ≤ act || !mode || runs
        || (!all && s.getF (F.dchVerifyCtrlCount act) = 0) then s
    else
      let mine := s.dch.zones.filter (·.act = act)
      let v : BandVerify :=
        if all then
          { first := (mine.head?.map (·.firstBand)).getD 0, count := (mine.map (·.bandCount)).sum, done := 0, track := 0 }
        else
          { first := s.getF (F.dchVerifyFirstFirstBand act), count := s.getF (F.dchVerifyCtrlCount act), done := 0, track := 0 }
      let s := (s.setF (F.dchVerifyCtrlGo act) 1).startLongOp 3 true
      s.verifyAdvance act v)

/-- BAND_VERIFY_TRACK (R272): one track is read while nothing else is queued; `reads` says how its slots came out. A
position read without an entry there decodes at once at P. -/
def execBandVerifyTrack (act : Nat) (reads : List SlotRead) (s : State) : Host.Outcome State Fault Refusal :=
  match (s.diskAct act).verify with
  | none => done s
  | some v =>
    let b := v.first + v.done
    match s.bandRec b with
    | none => done (s.verifyAdvance act { v with done := v.done + 1 })
    | some z =>
      if !s.actIdle act then done s
      else
        let x := s.band b
        let here := (List.range z.slots).filterMap fun i =>
          let p := v.track * z.slots + i
          if (z.userIndex p).isSome && p < x.vwp && !x.skip.contains p then some p else none
        let trailer := x.st = .full && v.track + 1 = z.tracks
        let here := if trailer then here ++ [z.positions - 1] else here
        let s := forEach here s fun s p => match reads.find? (·.pos = p) with
          | some r => s.verifySlot act b z.head r
          | none => s.incF (F.dchHSectReadCount act z.head)
        let last := z.tracks ≤ v.track + 1 || (x.vwp ≤ (v.track + 1) * z.slots && x.st ≠ .full)
        done (s.verifyAdvance act
          (if last then { v with done := v.done + 1, track := 0 } else { v with track := v.track + 1 }))

/-- BAND_VERIFY_ABORT (R272). -/
def execBandVerifyAbort (act : Nat) (path : Path) (s : State) : Host.Outcome State Fault Refusal :=
  done (s.regAction path (A.dchVerifyCtrl act) (s.reg (A.dchVerifyCtrl act) ||| 0x40000000) fun s =>
    if 2 ≤ act then s else s.endVerify act 0 7)

end Sys2Proof.Machine
end

