-- ==== Sys2Proof/Machine/Servo.lean ====
section
/-! DEFINITION. Servo, control engine and spindle (chapter 08): the position error, loop evaluation and
selection, the loop table and its checks, actuator and spindle states, the emergency retract,
actuator failure and relay auto-tune, with their commands; and preamp discovery, which can take an
actuator offline. -/

namespace Sys2Proof.Machine

/-! ## Arithmetic (R280) -/

def sat16 (v : Int) : Int := clampInt (-32768) 32767 v
def sat40 (v : Int) : Int := clampInt (-549755813888) 549755813887 v

/-- An arithmetic right shift, rounding toward minus infinity. -/
def asr (v : Int) (n : Nat) : Int := v / (2 ^ n : Int)

/-! ## Loop records (Tables 08.5 and 08.7) -/

/-- The stored part of a record as 32 bytes, over the run-time part of another. -/
def Loop.load (r : Loop) (l : List Byte) : Loop :=
  { r with
    kind := field l 0 1, trigger := field l 1 1, order := field l 2 1, input := field l 3 1,
    output := field l 4 1, shift := field l 5 1, flags := field l 6 1,
    kp := signedOf 16 (field l 8 2), ki := signedOf 16 (field l 0xA 2), kd := signedOf 16 (field l 0xC 2),
    kf := field l 0xE 2, setpoint := signedOf 16 (field l 0x10 2), outMin := signedOf 16 (field l 0x12 2),
    outMax := signedOf 16 (field l 0x14 2), phase := field l 0x16 2,
    cand := [field l 0x18 1, field l 0x19 1, field l 0x1A 1, field l 0x1B 1],
    ffGain := signedOf 16 (field l 0x1C 2), resv := field l 7 1 + 256 * field l 0x1E 2 }

/-- The record as its 64 bytes. -/
def Loop.bytes (r : Loop) : List Byte :=
  let w16 := fun (v : Int) => leBytes 2 (unsignedOf 16 v)
  leBytes 1 r.kind ++ leBytes 1 r.trigger ++ leBytes 1 r.order ++ leBytes 1 r.input ++ leBytes 1 r.output
    ++ leBytes 1 r.shift ++ leBytes 1 r.flags ++ leBytes 1 r.resv ++ w16 r.kp ++ w16 r.ki ++ w16 r.kd
    ++ w16 r.kf ++ w16 r.setpoint ++ w16 r.outMin ++ w16 r.outMax ++ leBytes 2 r.phase
    ++ (r.cand.map (leBytes 1)).flatten ++ w16 r.ffGain ++ leBytes 2 (r.resv / 256)
    ++ leBytes 5 (unsignedOf 40 r.integ) ++ leBytes 1 r.sticky ++ w16 r.ePrev ++ w16 r.dFilt ++ w16 r.outOwn
    ++ w16 r.outSel ++ zeros 2 ++ leBytes 4 r.evals ++ zeros 12

/-- Candidates before the first 0xFF. -/
def Loop.cands (r : Loop) : List Nat := r.cand.takeWhile (· ≠ 255)

/-- Control cycles of one evaluation (R281, R283). -/
def Loop.cycles (r : Loop) : Nat := if r.cands.isEmpty then 48 else 48 + 4 * (r.cands.length + 1)

/-- The codes of Table 08.7 for the record's kind; the actuator is that of its trigger. -/
def Loop.codesOk (r : Loop) : Bool :=
  let a := r.trigger
  let wedge := a < 2
  match r.kind with
  | 0 => r.trigger = 255
  | 1 => wedge && r.input = 3 + a && r.output = 1 + a
  | 2 => wedge && r.input = 1 + a && r.output = 3 + a
  | 3 => wedge && r.input = 5 + a && r.output = 0
  | 4 => a = 2 && (r.input = 7 || r.input = 8) && r.output = 0
  | 5 => a = 2 && (r.input = 9 || r.input = 10) && r.output = r.input - 4
  | 6 => a = 2 && r.input = 0xB && r.output = 7
  | 7 => a = 2 && r.input = 0xC && r.output = 0
  | _ => false

/-- The ranges of Table 08.5, for an enabled loop. -/
def Loop.rangesOk (r : Loop) : Bool :=
  r.kind = 0 || (r.order ≤ 15 && r.shift ≤ 15 && r.flags < 8 && r.kf ≤ 0x7FFF && r.outMin ≤ r.outMax
    && r.resv = 0 && (r.cand.dropWhile (· ≠ 255)).all (· = 255) && r.cands.all (· < 48)
    && (if r.output = 0 then r.phase = 0
        else 80 ≤ r.phase && r.phase ≤ (if r.trigger = 2 then 20000 else 2047)))

/-- Drive-die output number of an OUTPUT code (Table 01.2). -/
def outputOf (code : Nat) : Nat :=
  if code ≤ 2 then 3 * (code - 1) else if code ≤ 4 then 3 * (code - 3) + 1
  else if code ≤ 6 then 3 * (code - 5) + 2 else 6

/-! ## Calibration records (Table 08.2) -/

/-- The checks of R279 for a record of an actuator's head. -/
def servoCalOk (l : List Byte) (a h wedges : Nat) : Bool :=
  let n := field l 5 1
  let len := 0x88 + 2 * n * wedges
  let ends := (List.range 16).map fun j => field l (8 + 4 * j) 4
  field l 0 2 = 0x5343 && field l 2 2 = 0x0100 && field l 4 1 = 16 * a + h && 1 ≤ n && n ≤ 16
    && field l 6 2 = wedges && (ends.drop n).all (· = 0)
    && (List.range (n - 1)).all (fun j => ends.getD j 0 < ends.getD (j + 1) 0)
    && (List.range 16).all (fun j => 1 ≤ field l (0x68 + 2 * j) 2)
    && field l len 4 = crc32c (l.take len)

def parseCal (l : List Byte) (a h wedges : Nat) : ServoCal :=
  let n := field l 5 1
  { act := a, head := h, ends := (List.range n).map fun j => field l (8 + 4 * j) 4,
    r0 := (List.range n).map fun j => field l (0x48 + 2 * j) 2,
    sens := (List.range n).map fun j => field l (0x68 + 2 * j) 2,
    rro := (List.range (n * wedges)).map fun i => signedOf 16 (field l (0x88 + 2 * i) 2) }

/-- The number that a reflected Gray code of 24 bits stands for (Table 08.1; log entry 175). -/
def grayDecode (g : Nat) : Nat := [1, 2, 4, 8, 16].foldl (fun v k => v ^^^ (v >>> k)) (g % 2 ^ 24)

/-- Even parity over the 25 bits of a Track ID field: the code and its parity bit above it (Table 08.1). -/
def idParityOk (v : Nat) : Bool := ((List.range 25).countP fun i => bit v i) % 2 = 0

namespace State

/-! ## Loop table (R291–R293) -/

/-- The enabled loops of a list, in ascending ORDER (R285). -/
def listLoops (s : State) (t : Nat) : List Nat :=
  ((List.range 16).map fun o => (List.range 48).filter fun i =>
    let r := s.loop i
    r.kind ≠ 0 && r.trigger = t && r.order = o).flatten

def enabledLoops (s : State) : List Nat := (List.range 48).filter fun i => (s.loop i).kind ≠ 0

def listCycles (s : State) (t : Nat) : Nat := ((s.listLoops t).map fun i => (s.loop i).cycles).sum

/-- Loops that candidates lead to from a set, in a number of steps. -/
def reach (s : State) : Nat → List Nat → List Nat
  | 0, l => l
  | n + 1, l => reach s n (l ++ (l.map fun i => (s.loop i).cands).flatten).eraseDups

/-- R287 for every loop of a list that drives an output. -/
def phasesOk (s : State) (t : Nat) : Bool :=
  let others := (([0, 1, 2].filter (· ≠ t)).map s.listCycles).sum
  let l := s.listLoops t
  l.zipIdx.all fun e =>
    let b := (if t = 2 then 0 else 40) + others + ((l.take (e.2 + 1)).map fun i => (s.loop i).cycles).sum
    let r := s.loop e.1
    r.output = 0 || b + 40 ≤ r.phase

/-- Rises from 0 to 0x7FFF without falling. -/
def rising : List Nat → Bool
  | a :: b :: t => a ≤ b && rising (b :: t)
  | _ => true

/-- The first of checks 5–11 that fails over the record window (Table 08.10). -/
def windowReject (s : State) : Option Nat :=
  let en := s.enabledLoops
  let outs := (en.map fun i => (s.loop i).output).filter (· ≠ 0)
  if !(List.range 48).all (fun i => (s.loop i).codesOk) then some 5
  else if !(List.range 48).all (fun i => (s.loop i).rangesOk) then some 6
  else if en.any (fun i => en.any fun j => i ≠ j && (s.loop i).trigger = (s.loop j).trigger
      && (s.loop i).order = (s.loop j).order) then some 7
  else if en.any (fun i => (s.loop i).cands.any fun c =>
      c = i || (s.loop c).kind = 0 || (s.reach 48 [c]).contains i) then some 8
  else if outs.eraseDups.length ≠ outs.length then some 9
  else if !(s.phasesOk 0 && s.phasesOk 1 && s.phasesOk 2) then some 10
  else if !(s.srv.profile.length = 256 && s.srv.profile.headD 1 = 0 && s.srv.profile.getD 255 0 = 0x7FFF
      && rising s.srv.profile && s.srv.seekTimes.length = 32 && s.srv.seekTimes.all (0 < ·)) then some 11
  else none

/-- Checks 1–4 of Table 08.10 over the stored table. -/
def headerReject (l : List Byte) : Option Nat :=
  let rng := fun (v lo hi : Nat) => lo ≤ v && v ≤ hi
  if field l 0 2 ≠ 0x4C54 then some 1
  else if field l 2 2 ≠ 0x0100 then some 2
  else if !(field l 4 2 = 48 && rng (field l 6 2) 64 640 && rng (field l 8 2) 0x100 0x7FFF
      && rng (field l 0xA 2) 20 150 && rng (field l 0xC 2) 0 0x7FFF && rng (field l 0xE 2) 0x100 0x7FFF
      && rng (field l 0x10 2) 1 0x7FFF && rng (field l 0x14 2) 1 65535 && allZero l 0x16 6) then some 3
  else if field l 0x1C 4 ≠ crc32c (l.take 0x1C ++ slice l 0x20 2112) then some 4
  else none

/-- Servo wedges per revolution. -/
def wedges (s : State) : Nat := (s.srv.header.map (·.wedges)).getD 640

/-- Records the outcome of the checks. -/
def setTable (s : State) (r : Option Nat) : State := match r with
  | none => (s.setF F.srvStatusReject 0).setF F.srvStatusTableValid 1
  | some n => (s.setF F.srvStatusReject n).setF F.srvStatusTableValid 0

/-- Loads the loop table and the servo calibration records (R279, R289, R291–R293). Run-time state
starts from zero. False where the table is rejected. -/
def loadServo (s : State) : Bool × State :=
  let l := s.calibBytes 4 0 2144
  match headerReject l with
  | some n => (false, s.setTable (some n))
  | none =>
    let h : LoopHeader :=
      { wedges := field l 6 2, retractVel := field l 8 2, retractMs := field l 0xA 2, parkHold := field l 0xC 2,
        loadVel := field l 0xE 2, maStroke := field l 0x10 2, r0Nom := field l 0x12 2, sensNom := field l 0x14 2 }
    let s := s.modSrv fun x =>
      { x with header := some h, loops := [], cals := []
               profile := (List.range 256).map fun i => field l (0x620 + 2 * i) 2
               seekTimes := (List.range 32).map fun i => field l (0x820 + 2 * i) 2 }
    let s := forEach (List.range 48) s fun s i => s.setLoop i (Loop.reset.load (slice l (0x20 + 32 * i) 32))
    let s := s.setTable s.windowReject
    let s := forEach [0, 1] s fun s a => forEach (List.range 10) s fun s hd =>
      let c := s.calibBytes 3 (10 * a + hd) (0x8C + 32 * h.wedges)
      if servoCalOk c a hd h.wedges then s.modSrv fun x => { x with cals := x.cals ++ [parseCal c a hd h.wedges] }
      else if bit (s.getF (F.dchHeadsPresent a)) hd then s.setF F.srvStatusRroMissing 1 else s
    (s.onF F.srvStatusTableValid, s)

/-! ## Inputs and setpoints (R276, R290, R295, R296, R298) -/

/-- Ratio, sensitivity and runout correction for a track and wedge of the selected head. -/
def calFor (s : State) (a track wedge : Nat) : Nat × Nat × Int :=
  match s.srv.cals.find? fun c => c.act = a && c.head = (s.servoAct a).head with
  | some c =>
    let g := ((c.ends.findIdx? fun e => track ≤ e).getD (c.ends.length - 1))
    (c.r0.getD g 0, c.sens.getD g 0, c.rro.getD (g * s.wedges + wedge) 0)
  | none => ((s.srv.header.map (·.r0Nom)).getD 0, (s.srv.header.map (·.sensNom)).getD 0, 0)

/-- The loop of an actuator with a kind. -/
def loopOf (s : State) (a kind : Nat) : Option Nat :=
  s.enabledLoops.find? fun i => (s.loop i).kind = kind && (s.loop i).trigger = a

/-- What the microactuator adds to the position error (input codes 0x03 and 0x04). -/
def maTerm (s : State) (a : Nat) : Int := match s.loopOf a 2, s.srv.header with
  | some i, some h => asr ((s.loop i).outSel * h.maStroke) 15
  | _, _ => 0

/-- Input 0x0B: 16 times the relative speed error. -/
def speedInput (s : State) : Int :=
  let t : Int := s.getF F.srvSpinTargetRpm
  if t = 0 then 0 else sat16 (16 * ((s.getF F.srvSpeedRpm : Int) - t) * 32768 / t)

/-- Value of an input code and whether its sample is valid (Table 08.6). -/
def inputOf (s : State) (code : Nat) : Int × Bool :=
  let held := fun (c : Nat) => sparseGet (fun _ => 0) s.srv.inputs c
  let a := (code + 1) % 2
  let x := s.servoAct a
  let ok := !s.srv.badInputs.contains code
  if code = 1 || code = 2 then (x.pes, x.valid)
  else if code = 3 || code = 4 then (sat16 (x.pes + s.maTerm a), x.valid)
  else if code = 5 || code = 6 then (sat16 (held code).natAbs, ok)
  else if code = 7 then (signedOf 16 (s.getF F.drvTempVcmAct0), ok)
  else if code = 8 then (signedOf 16 (s.getF F.drvTempVcmAct1), ok)
  else if code = 9 || code = 10 then (held code, ok)
  else if code = 0xB then (s.speedInput, ok)
  else (sat16 (8 * (s.getF F.drvV12PowerPower : Int)), ok)

/-- Setpoint of the VCM position loop: the trajectory of a seek, else the target track. -/
def vcmSetpoint (s : State) (a : Nat) (stored : Int) : Int :=
  let x := s.servoAct a
  let st := s.actState a
  let goal : Int := x.target * 32768
  if st = 3 then match x.seek with
    | some k =>
      if k.n < k.wedges then
        k.start + k.dist * 32768 * (s.srv.profile.getD (256 * k.n / k.wedges) 0 : Int) / 32767
      else goal
    | none => goal
  else if st = 4 || st = 5 then goal + signedOf 16 (s.getF (F.srvOffsetOffset a))
  else stored

/-- What the VCM position loop subtracts: the measured position with the microactuator's term while the
actuator seeks, settles or tracks, else its input (log entry 20). -/
def vcmMeasured (s : State) (a : Nat) : Int :=
  let x := s.servoAct a
  let st := s.actState a
  if st = 3 || st = 4 || st = 5 then x.position + s.maTerm a else (s.inputOf (3 + a)).1

/-- Setpoint of a heater loop (R290, R298). -/
def heaterSetpoint (s : State) (a : Nat) : Int :=
  let x := s.servoAct a
  if x.heaterOff then 0
  else
    let t := if x.write then s.getF (F.srvHeaterWriteTarget a) else s.getF (F.srvHeaterReadTarget a)
    sat16 (signedOf 16 t + (if x.reqHeater then signedOf 16 (s.getF F.srvHeaterStepStep) else 0))

/-- Setpoint of a loop. -/
def setpointOf (s : State) (r : Loop) : Int :=
  if r.kind = 1 then s.vcmSetpoint r.trigger r.setpoint
  else if r.kind = 2 then
    let x := s.servoAct r.trigger
    if x.reqOffset ≠ 0 then x.reqOffset else signedOf 16 (s.getF (F.srvOffsetOffset r.trigger))
  else if r.kind = 5 then s.heaterSetpoint (r.input - 9)
  else if r.kind = 7 then sat16 (80 * (s.getF F.srvPwrBudgetBudget : Int))
  else r.setpoint

/-! ## One evaluation (R281–R284) -/

/-- Minimum selection (R283): the value and the winner. -/
def select (s : State) (i : Nat) (r : Loop) (u : Int) : Int × Nat :=
  r.cands.foldl (fun (v, win) c =>
    let w := (s.loop c).outSel
    if bit r.flags 0 then
      if max w 0 < (v.natAbs : Int) then ((if u < 0 then -1 else 1) * max w 0, c) else (v, win)
    else if w < v then (w, c) else (v, win)) (u, i)

/-- One sample of a relay measurement (R311): two periods are waited for and four measured, from rising
switch to rising switch. -/
def tuneSample (t : Tune) (e y : Int) (valid : Bool) (hyst limit : Int) : Tune :=
  let high := if hyst < e then some true else if e < -hyst then some false else t.high
  let n := t.samples + 1
  let rise := high = some true && t.high ≠ some true
  let rising := if rise then n :: t.rising else t.rising
  let last := if high = t.high then t.lastSwitch else n
  let first := rise && rising.length = 3
  let inv := if valid then 0 else t.invalid + 1
  let measuring := 3 ≤ rising.length
  let ended := if limit < (e.natAbs : Int) then some 2
    else if 4096 ≤ n - last then some 3
    else if 8 ≤ inv then some 4
    else if 7 ≤ rising.length then some 0 else none
  { t with high := high, samples := n, rising := rising, lastSwitch := last, invalid := inv, ended := ended,
           maxIn := if first then y else if measuring then max t.maxIn y else t.maxIn,
           minIn := if first then y else if measuring then min t.minIn y else t.minIn }

/-- One evaluation of loop `i`, whose list was triggered at splice cycle `ref`. FF_TRAJ in a loop that is no VCM
position loop has no trajectory and adds nothing (log entry 174). -/
def evalLoop (s : State) (ref i : Nat) : State :=
  let r := s.loop i
  let (y0, valid) := s.inputOf r.input
  let y := if r.kind = 1 then s.vcmMeasured r.trigger else y0
  let sp := s.setpointOf r
  let x := s.servoAct r.trigger
  let e0 := sp - y
  let e := sat16 e0
  let p := r.kp * e
  let i0 := r.integ + r.ki * e
  let dr0 := e - r.ePrev
  let dr := sat16 dr0
  let df0 := r.dFilt + asr (r.kf * (dr - r.dFilt)) 15
  let df := sat16 df0
  let ff := if bit r.flags 2 && r.kind = 1 then r.ffGain * sat16 (sp - 2 * x.sp1 + x.sp2) * 32768 else 0
  let acc0 := p + sat40 i0 + r.kd * df + ff
  let u0 := asr (sat40 acc0) (15 - r.shift)
  let u1 := sat16 u0
  let uClamped := min (max u1 r.outMin) r.outMax
  let tuning := match s.srv.tune with
    | some t => t.loop = i && t.ended.isNone
    | none => false
  let tune := s.srv.tune.map fun t =>
    if tuning then tuneSample t e y valid (signedOf 16 (s.getF F.srvTuneCfgHyst)) (s.getF F.srvTuneCfgAbortLimit)
    else t
  let u := match tune with
    | some t => if tuning then sat16 (t.u0 + match t.high with
        | some high => if high then t.h else -t.h
        | none => 0) else uClamped
    | none => uClamped
  let (v, win) := s.select i r u
  let up := 32767 < u0 || r.outMax < u1
  let down := u0 < -32768 || u1 < r.outMin
  let hold := win ≠ i || !valid || tuning || (bit r.flags 1 && ((up && 0 < e) || (down && e < 0)))
  let flag := fun (c : Bool) (b : Nat) => if c then 2 ^ b else 0
  let sticky := r.sticky ||| flag (e ≠ e0) 0 ||| flag (sat40 i0 ≠ i0 || sat40 acc0 ≠ acc0) 1
    ||| flag (u1 ≠ u0) 2 ||| flag (uClamped ≠ u1) 3 ||| flag (dr ≠ dr0 || df ≠ df0) 4 ||| flag (win ≠ i) 5
    ||| flag (!valid) 6
  let s := s.setLoop i
    { r with integ := if hold then r.integ else sat40 i0, sticky := sticky, ePrev := e, dFilt := df,
             outOwn := u, outSel := v, evals := (r.evals + 1) % 2 ^ 32 }
  let s := s.modSrv fun x => { x with tune := tune }
  let s := match tune with
    | some t => if tuning && 3 ≤ t.rising.length then s.setF F.srvTuneStatusState 2 else s
    | none => s
  let s := if r.kind = 1 then s.modServoAct r.trigger fun x =>
      let run := if u1 ≠ u0 then x.satRun + 1 else 0
      { x with sp1 := sp, sp2 := x.sp1, satRun := run, failing := x.failing || 1024 ≤ run }
    else s
  if r.output = 0 then s
  else
    let o : HeldOutput := { stamp := (ref + r.phase) % 65536, value := unsignedOf 16 v }
    s.modSrv fun x => { x with sent := sparsePut (fun _ => none) x.sent (outputOf r.output) (some o) }

/-- The actuator's wedge list runs: LOADING to TRACKING (R285). -/
def wedgeRuns (s : State) (a : Nat) : Bool := 1 ≤ s.actState a && s.actState a ≤ 5

/-- Evaluates a list in ascending ORDER (R285), if its actuator is still in a loaded state (R307) and the loop table
is valid. -/
def runList (s : State) (t ref : Nat) : State :=
  if !s.onF F.srvStatusTableValid || (t < 2 && !s.wedgeRuns t) then s
  else forEach (s.listLoops t) s fun s i => s.evalLoop ref i

/-- The trigger of a list comes at splice cycle `ref`: it runs after the lists whose triggers came before, and among
triggers of one cycle in the order W0, W1, tick (R285). -/
def trigger (s : State) (t ref : Nat) : State := s.modSrv fun x =>
  let (l, r) := x.waiting.span fun e => !(e.2 = ref && t < e.1)
  { x with waiting := l ++ (t, ref) :: r }

/-- Runs the lists that wait, up to the first run of list `t`, in the order of their triggers. -/
def runWaiting (s : State) (t : Nat) : State :=
  match s.srv.waiting.findIdx? fun e => e.1 = t with
  | some i =>
    let due := s.srv.waiting.take (i + 1)
    forEach due (s.modSrv fun x => { x with waiting := x.waiting.drop (i + 1) }) fun s e => s.runList e.1 e.2
  | none => s

/-! ## Actuator states (R299–R309) -/

def actEnF (a : Nat) : Field := if a = 0 then F.drvStatusAct0En else F.drvStatusAct1En

/-- Ends a running tune with a result. -/
def endTune (s : State) (result : Nat) : State :=
  let s := s.modSrv fun x => { x with tune := none }
  (s.setF F.srvTuneStatusState (if result = 0 then 3 else 4)).setF F.srvTuneStatusResult result

def abortTune (s : State) : State := if s.srv.tune.isSome then s.endTune 6 else s

/-- The retract velocity as a demand: RETRACT_VEL against the direction of loading (R299). -/
def retractDrive (s : State) : VcmDrive := .velocity (-((s.srv.header.map (·.retractVel)).getD 0 : Nat))

/-- Starts to unload the heads of an actuator, driven at RETRACT_VEL (R299). -/
def unloadAct (s : State) (a : Nat) : State :=
  if !s.wedgeRuns a then s
  else
    let s := (s.leaveTrack a).modServoAct a fun x =>
      { x with seek := none, readRun := 0, writeRun := 0, vcm := s.retractDrive }
    (s.setActState a 6).setF (F.srvActStatusBusy a) 1

/-- A PARKED actuator loads at LOAD_VEL; a heater fault is forgotten (R299, R314). The enable reaches the drive die over the splice
alone (R18, R25). -/
def loadAct (s : State) (a : Nat) : State :=
  let s := s.modServoAct a fun x =>
    { x with write := false, heaterOff := false, tAA := 0, validRun := 0, invalidRun := 0,
             head := s.selHead a, target := 0, seek := none
             vcm := .velocity ((s.srv.header.map (·.loadVel)).getD 0 : Nat) }
  ((s.setActState a 1).setF (F.srvActStatusBusy a) 1).setFIf (s.onF F.devSpliceStatusUp) (actEnF a) 1

/-- The actuator's bands. -/
def onAct (s : State) (a b : Nat) : Bool := s.bandAct b = some a

/-- The actuator is OFFLINE (R308, R309); `kept` records it in the NVS. -/
def goOffline (s : State) (a : Nat) (kept : Bool) : State :=
  if s.actState a = 8 then s
  else
    let s := (s.leaveTrack a).abandonDisk a
    let s := ((s.cancelMoves a).endVerify a 0 6).modServoAct a fun x =>
      { x with seek := none, failing := false, recorded := x.recorded || kept, vcm := .off }
    let s := ((s.setActState a 8).setF (F.srvActStatusBusy a) 0).setF (actEnF a) 0
    let s := (s.setF (F.dchStatusState a) 5).setF (F.dchStatusClkLock a) 0
    let ns := s.nsOnBands (s.onAct a)
    (((s.health 0x000B 4 a ns 0).reliabilityEvent ns).zonesChanged (s.onAct a)).degradeBands (s.onAct a)

/-- A failure of Table 08.15: the actuator is unloaded first, or waits for its retract, and then goes
OFFLINE. -/
def failAct (s : State) (a : Nat) : State :=
  let st := s.actState a
  if st = 8 then s
  else if st = 0 then s.goOffline a true
  else (s.modServoAct a fun x => { x with failing := true }).unloadAct a

/-- The heads are parked and the VCM is off. -/
def parked (s : State) (a : Nat) : State :=
  let s := ((s.modServoAct a fun x => { x with vcm := .off }).setActState a 0).setF (F.srvActStatusBusy a) 0
  if (s.servoAct a).failing then s.goOffline a true else s

/-- The VCM of a loaded actuator moves to the ramp at RETRACT_VEL: the actuator is RETRACTING (Table 08.14). -/
def retractAct (s : State) (a : Nat) : State :=
  let s := (s.leaveTrack a).modServoAct a fun x =>
    { x with seek := none, retract := some s.tick, holdAt := none, vcm := s.retractDrive }
  (s.setActState a 7).setF (F.srvActStatusBusy a) 0

/-- The emergency retract (R306, R307): motion commands are ignored, heaters and microactuators are off,
the spindle drivers rectify, and every loaded actuator is RETRACTING. It runs to its end: a further cause adds no second
retract to one that runs. -/
def emergencyRetract (s : State) (cause : Nat) : State :=
  if s.onF F.drvStatusRetract then s
  else
    let loaded := [0, 1].filter fun a => 1 ≤ s.actState a && s.actState a ≤ 6
    let s := ((s.setF F.srvRetractCause cause).incF F.srvRetractCount).incF F.drvEventsRetract
    let s := ((s.setFIf (!loaded.isEmpty) F.drvStatusRetract 1).setF F.drvStatusHtrEn 0).setF F.drvStatusSpinEn 0
    let s := s.modFab fun f =>
      { f with held := [], outputs := [1, 2, 4, 5, 6].foldl (fun m o => sparsePut (fun _ => 0) m o 0) f.outputs }
    let spin := s.getF F.srvStatusSpinState
    let s := (if spin = 0 || spin = 9 then s else s.setF F.srvStatusSpinState 8).modSrv fun x =>
      { x with spinDrive := if loaded.isEmpty then .shorted else .rectify }
    (forEach loaded s retractAct).abortTune

/-- A command register write of an actuator (R300): dropped while BUSY, or where its state does not accept the OP. A
motion command is dropped without a valid table (R294). -/
def actCommand (s : State) (path : Path) (a word : Nat) (accepts : State → Bool) (act : State → State) : State :=
  s.regAction path (A.srvActCmd a) (BitVec.ofNat 32 word) fun s =>
    if 2 ≤ a || s.onF (F.srvActStatusBusy a) || !accepts s then
      s.setF F.srvStatusCmdDropped 1
    else act s

/-- What the spindle drivers do in a state (R302). -/
def spinDriveOf (st : Nat) : SpinDrive :=
  if 1 ≤ st && st ≤ 6 then .demand else if st = 7 then .shorted else .off

/-- Sets the spindle's state. -/
def setSpin (s : State) (st : Nat) : State :=
  (s.setF F.srvStatusSpinState st).modSrv fun x => { x with spinAt := s.tick, spinDrive := spinDriveOf st }

def spinState (s : State) : Nat := s.getF F.srvStatusSpinState

/-- The spindle starts (R302). The enable reaches the drive die over the splice alone (R18, R25). -/
def startSpin (s : State) : State :=
  ((s.setSpin 1).setFIf (s.onF F.devSpliceStatusUp) F.drvStatusSpinEn 1).modSrv fun x => { x with handoverFails := 0 }

/-- A spindle FAULT (R305): loaded actuators retract with cause 5, and both go OFFLINE. -/
def spindleFault (s : State) : State :=
  let s := (s.setSpin 9).setF F.drvStatusSpinEn 0
  let s := forEach [0, 1] s fun s a => s.modServoAct a fun x => { x with failing := true }
  let loaded := [0, 1].any fun a => 1 ≤ s.actState a && s.actState a ≤ 6
  let s := if loaded then s.emergencyRetract 5 else s
  forEach [0, 1] s fun s a => if s.actState a = 0 then s.goOffline a true else s

/-- TARGET_RPM changes only in STOPPED and within 5400–10000 (R304). -/
def writeTarget (s : State) (v : Nat) : State :=
  if v = s.getF F.srvSpinTargetRpm then s
  else if s.spinState = 0 && 5400 ≤ v && v ≤ 10000 then s.setF F.srvSpinTargetRpm v
  else if s.spinState = 0 then s
  else s.setF F.srvStatusWriteRefused 1

/-- Loop-record stored parts may be written: Service mode and the record's list idle (R294). -/
def recordIdle (s : State) (r : Loop) : Bool :=
  s.inMode .service &&
    (if r.trigger < 2 then s.actState r.trigger = 0 || s.actState r.trigger = 8
     else if r.trigger = 2 then s.spinState = 0 else true)

/-! ## Relay auto-tune (R310–R312) -/

/-- The loop may be tuned now: its kind's modes, enabled, and its list running. -/
def tuneAllowed (s : State) (i : Nat) : Bool :=
  let r := s.loop i
  let running := if r.trigger < 2 then s.wedgeRuns r.trigger else s.onF F.devSpliceStatusUp && s.onF F.srvStatusTableValid
  let mode := if r.kind = 4 || r.kind = 7 then
      s.inMode .doze || s.inMode .ready || s.inMode .active || s.inMode .readOnly || s.inMode .service
    else s.inMode .service
  i < 48 && r.kind ≠ 0 && running && mode

/-- A mode change that leaves the allowed set ends a running tune (R310). -/
def tuneModeCheck (s : State) : State := match s.srv.tune with
  | some t => if s.tuneAllowed t.loop then s else s.endTune 6
  | none => s

end State

/-- Factors of a tuning rule as (kp, ti, td) in 1/100,000 (Table 08.16). -/
def tuneRule : Nat → Option (Nat × Nat × Nat)
  | 0 => some (60000, 50000, 12500)
  | 1 => some (45000, 83300, 0)
  | 2 => some (33000, 50000, 33300)
  | 3 => some (20000, 50000, 33300)
  | 4 => some (31250, 220000, 0)
  | 5 => some (31250, 220000, 15900)
  | _ => none

/-- π times 10^50, rounded down: enough digits that no gain of R312 rounds otherwise. -/
def piDigits : Nat := 314159265358979323846264338327950288419716939937510

/-- A ratio times 2^k, rounded to the nearest integer. -/
def roundScaled (num : Int) (den : Nat) (k : Nat) : Int := (2 * num * 2 ^ k + den) / (2 * den)

/-- The proposal of R312 from H, the peak-to-peak input and four periods in samples: SHIFT, KP, KI, KD. -/
def tuneGains (rule : Nat × Nat × Nat) (h : Int) (pp periods : Nat) : Option (Nat × Int × Int × Int) :=
  if pp = 0 || periods = 0 then none
  else
    -- kp = rule.kp / 10^5 * 8 h / (π pp), as a ratio of integers; Tu = periods / 4 samples
    let n : Int := 8 * h * rule.1 * 10 ^ 45
    let d : Nat := piDigits * pp
    let kin : Int := n * 4 * 10 ^ 5
    let kid : Nat := d * rule.2.1 * periods
    let kdn : Int := n * rule.2.2 * periods
    let kdd : Nat := d * 4 * 10 ^ 5
    match (List.range 16).find? fun k =>
        n.natAbs < 2 ^ k * d && kin.natAbs < 2 ^ k * kid && kdn.natAbs < 2 ^ k * kdd with
    | none => none
    | some k => some (k, roundScaled n d (15 - k), roundScaled kin kid (15 - k), roundScaled kdn kdd (15 - k))

/-! ## Commands -/

/-- PREAMP_DISCOVERY (R244): discovery before the heads load. A rejected record or identification takes
the actuator offline (R243, R244). -/
def execPreampDiscovery (act ident : Nat) (checks : List Nat) (s : State) : Host.Outcome State Fault Refusal :=
  if 2 ≤ act || s.actState act ≠ 0 then done s
  else match s.discover act ident checks false with
    | (true, s) => done (s.goOffline act true)
    | (false, s) => done s

/-- PREAMP_RESCAN (R244, R245): in Service mode only. -/
def execPreampRescan (act : Nat) (path : Path) (ident : Nat) (checks : List Nat) (s : State) :
    Host.Outcome State Fault Refusal :=
  done (s.regAction path (A.dchCtrl act) 4 fun s =>
    if 2 ≤ act || !s.inMode .service || s.wedgeRuns act then s
    else
      let off := !s.actOnline act
      match s.discover act ident checks true with
      | (true, s) => s.goOffline act true
      | (false, s) => if off then s.setF (F.dchStatusState act) 5 else s)

/-- SERVO_WEDGE (R276–R278, R297): a wedge is valid or not; a valid one gives the corrected PES, the
position and the track; the windows of R297 are counted, and an invalid wedge or one outside the write
window clears WRITE_SAFE. `sync` is how far from its predicted time the sync mark was found, in bits; `id` is the
Gray code with its parity bit above it; `crossings` are the times of the stripes A1, B1, A2, B2 that were found, in 1/64
bit. At the reference edge the actuator's wedge list is triggered (R285). -/
def execServoWedge (act wedge : Nat) (sync : Option Int) (id : Nat) (crossings : List Int) (s : State) :
    Host.Outcome State Fault Refusal :=
  if 2 ≤ act || !s.wedgeRuns act then done s
  else
    let x := s.servoAct act
    let st := s.actState act
    let first := x.tAA = 0
    let pred := if first then wedge else (x.wedge + 1) % s.wedges
    let track := grayDecode id
    let at_ := fun (i : Nat) => crossings.getD i 0
    let tab2 := (at_ 1 - at_ 0) + (at_ 3 - at_ 2)
    let taa := at_ 2 - at_ 0
    let synced := sync.any fun d => d.natAbs ≤ 32
    let near := !(st = 4 || st = 5) || ((track : Int) - (x.target : Int)).natAbs ≤ 2
    let steady := first || 100 * (taa - x.tAA).natAbs ≤ 6 * x.tAA.natAbs
    let valid := synced && idParityOk id && wedge = pred && 4 ≤ crossings.length && 0 < taa && steady && near
    let (r0, sens, rro) := s.calFor act track wedge
    let r := 65536 * tab2 / (2 * taa)
    let pes := sat16 (sat16 (asr ((r - r0) * sens) 16) - rro)
    let pos : Int := track * 32768 + pes
    let s := s.trigger act s.fab.cycleLogic
    let s := s.modServoAct act fun x =>
      { x with wedge := pred, valid := valid,
               pes := if valid then pes else x.pes, position := if valid then pos else x.position,
               tAA := if valid then taa else x.tAA, invalidRun := if valid then 0 else x.invalidRun + 1,
               validRun := if valid then x.validRun + 1 else 0,
               settleWedges := if st = 4 then x.settleWedges + 1 else 0,
               seek := x.seek.map fun k =>
                 if k.acquire then
                   if valid then
                     let d : Int := (x.target : Int) - (track : Int)
                     { start := track * 32768, dist := d, wedges := s.srv.seekTimes.getD (Nat.log2 d.natAbs) 1,
                       n := 0, acquire := false }
                   else k
                 else { k with n := k.n + 1 } }
    let s := if valid then s.setF (F.srvActStatusTrack act) track else s.incF (F.srvServoErrInvalid act)
    let e := sat16 (s.vcmSetpoint act 0 - s.vcmMeasured act)
    let follows := st = 4 || st = 5
    let inRead := valid && follows && e.natAbs ≤ s.getF F.srvWindowReadWindow
    let inWrite := valid && follows && e.natAbs ≤ s.getF F.srvWindowWriteWindow
    let s := s.modServoAct act fun x =>
      { x with readRun := if inRead then x.readRun + 1 else 0, writeRun := if inWrite then x.writeRun + 1 else 0 }
    let x := s.servoAct act
    let s := if follows && s.getF F.srvSettleReadCount ≤ x.readRun then s.setF (F.srvActStatusOnTrack act) 1 else s
    let s := if follows && x.write && s.getF F.srvSettleWriteCount ≤ x.writeRun then
        s.setF (F.srvActStatusWriteSafe act) 1
      else if s.onF (F.srvActStatusWriteSafe act) && !inWrite then
        (s.setF (F.srvActStatusWriteSafe act) 0).cutWrite act
      else s
    done (s.diskReady act)

/-- SERVO_LOST (R278, R299): after 32 invalid wedges. TRACKING, SETTLING and SEEKING acquire again, ACQUIRE
unloads; a third loss within 10 minutes is an actuator failure. -/
def execServoLost (act : Nat) (s : State) : Host.Outcome State Fault Refusal :=
  let x := s.servoAct act
  let st := s.actState act
  if 2 ≤ act || x.invalidRun < 32 || st < 2 || 5 < st then done s
  else
    let times := (x.lostTimes.filter fun t => !s.since t 600000000000) ++ [s.tick]
    let s := ((s.incF (F.srvServoErrLost act)).leaveTrack act).modServoAct act fun x =>
      { x with lostTimes := times, invalidRun := 0, validRun := 0, seek := none, tAA := 0 }
    if 3 ≤ times.length then done (s.failAct act)
    else if st = 2 then done (s.unloadAct act)
    else done (s.setActState act 2)

/-- WEDGE_LIST_RUN (R277, R285): the actuator's triggered list runs, no earlier than 40 cycles after its reference
edge, and the lists triggered before it have run. -/
def execWedgeListRun (act : Nat) (s : State) : Host.Outcome State Fault Refusal :=
  match s.srv.waiting.find? fun e => e.1 = act with
  | some e => if act < 2 && 40 ≤ (s.fab.cycleLogic + 2 ^ 32 - e.2) % 2 ^ 32 then done (s.runWaiting act) else done s
  | none => done s

/-- CONTROL_TICK (R285, R314): every 40,000 control cycles from splice training, while the splice is up, the tick list
runs after the lists triggered before; every tenth tick the power and supply readings update (log entry 19). -/
def execControlTick (s : State) : Host.Outcome State Fault Refusal :=
  if !s.onF F.devSpliceStatusUp || 2 ^ 31 ≤ (s.fab.cycleLogic + 2 ^ 32 - s.srv.tickDue) % 2 ^ 32 then done s
  else
    let s := s.trigger 2 s.srv.tickDue
    let s := s.modSrv fun x => { x with ticks := x.ticks + 1, tickDue := (x.tickDue + 40000) % 2 ^ 32 }
    let s := if s.srv.ticks % 10 = 0 then
        let s := (s.setF F.drvV12PowerPower (s.free % 65536)).drew
        let s := (s.setF F.drvV12Mv (s.free % 65536)).drew
        let s := (s.setF F.drvVholdMv (s.free % 65536)).drew
        let s := (s.setF F.drvVbstMv (s.free % 65536)).drew
        (s.setF F.drvV3p3Mv (s.free % 65536)).drew
      else s
    done (s.runWaiting 2)

/-- LOOP_TABLE_CHECK (R292). -/
def execLoopTableCheck (path : Path) (value : Word) (s : State) : Host.Outcome State Fault Refusal :=
  done (s.regAction path A.srvCtrl value fun s =>
    if F.srvCtrlCheck.get value = 0 then s else s.setTable s.windowReject)

/-- CLEAR_FLAGS (R282). -/
def execClearFlags (path : Path) (value : Word) (s : State) : Host.Outcome State Fault Refusal :=
  done (s.regAction path A.srvCtrl value fun s =>
    if F.srvCtrlClearFlags.get value = 0 then s
    else s.modSrv fun x => { x with loops := sparseMap (fun _ => Loop.reset) (fun _ r => { r with sticky := 0 }) x.loops })

/-- LOOP_RECORD_WRITE (R294): a word of a stored part. The table must be checked again afterwards. -/
def execLoopRecordWrite (path : Path) (addr : Nat) (value : Word) (s : State) : Host.Outcome State Fault Refusal :=
  let i := (addr - 0x8400) / 0x40
  let off := (addr - 0x8400) % 0x40 / 4 * 4
  if addr < 0x8400 || 0x9000 ≤ addr || 0x20 ≤ off then done s
  else done (s.regAction path addr value fun s =>
    let r := s.loop i
    if !s.recordIdle r then s.setF F.srvStatusWriteRefused 1
    else (s.setLoop i (r.load (patch (r.bytes.take 32) off (leBytes 4 value.toNat)))).setF F.srvStatusTableValid 0)

/-- LOAD (R299): PARKED with the spindle AT_SPEED. -/
def execLoad (act : Nat) (path : Path) (s : State) : Host.Outcome State Fault Refusal :=
  done (s.actCommand path act 0x10000000 (fun s => s.onF F.srvStatusTableValid && s.actState act = 0 && s.spinState = 5)
    fun s => s.loadAct act)

/-- UNLOAD (R299). -/
def execUnload (act : Nat) (path : Path) (s : State) : Host.Outcome State Fault Refusal :=
  done (s.actCommand path act 0x20000000 (fun s => s.onF F.srvStatusTableValid && s.actState act = 5)
    fun s => s.unloadAct act)

/-- SEEK_READ (R296). -/
def execSeekRead (act head track : Nat) (path : Path) (s : State) : Host.Outcome State Fault Refusal :=
  done (s.actCommand path act (0x30000000 + head % 16 * 2 ^ 24 + track % 2 ^ 24)
    (fun s => s.onF F.srvStatusTableValid && s.actState act = 5 && head < 10) fun s => s.startSeek act head (track % 2 ^ 24) false)

/-- SEEK_WRITE (R296). -/
def execSeekWrite (act head track : Nat) (path : Path) (s : State) : Host.Outcome State Fault Refusal :=
  done (s.actCommand path act (0x40000000 + head % 16 * 2 ^ 24 + track % 2 ^ 24)
    (fun s => s.onF F.srvStatusTableValid && s.actState act = 5 && head < 10) fun s => s.startSeek act head (track % 2 ^ 24) true)

/-- CLEAR_OFFLINE (R308, R583): Service mode only. -/
def execClearOffline (act : Nat) (path : Path) (s : State) : Host.Outcome State Fault Refusal :=
  done (s.actCommand path act 0x50000000 (fun s => s.actState act = 8 && s.inMode .service) fun s =>
    let s := s.modServoAct act fun x =>
      { x with recorded := false, failing := false, loadFails := 0, settleFails := 0, lostTimes := [], satRun := 0 }
    let s := (s.setActState act 0).setF (F.dchStatusState act) (if (s.diskAct act).preamp.isSome then 2 else 0)
    forEach s.nsids (s.zonesChanged (s.onAct act)) State.checkWhole)

/-- SERVO_FIELDS_SEEN (R299). -/
def execServoFieldsSeen (act : Nat) (s : State) : Host.Outcome State Fault Refusal :=
  if 2 ≤ act || s.actState act ≠ 1 then done s
  else done ((s.setActState act 2).modServoAct act fun x =>
    { x with loadFails := 0, validRun := 0, vcm := .demand })

/-- LOAD_TIMEOUT (R299): no servo field within 500 ms. A third load failure in a row takes the actuator
OFFLINE (Table 08.15). -/
def execLoadTimeout (act : Nat) (s : State) : Host.Outcome State Fault Refusal :=
  let x := s.servoAct act
  if 2 ≤ act || s.actState act ≠ 1 || !s.since x.enteredAt 500000000 then done s
  else
    let s := s.modServoAct act fun x => { x with loadFails := x.loadFails + 1, failing := x.failing || 2 ≤ x.loadFails }
    done (s.unloadAct act)

/-- ACQUIRE_DONE (R299): four valid wedges in a row; the heads settle on the track they found. -/
def execAcquireDone (act : Nat) (s : State) : Host.Outcome State Fault Refusal :=
  let x := s.servoAct act
  if 2 ≤ act || s.actState act ≠ 2 || x.validRun < 4 then done s
  else done ((s.setActState act 4).modServoAct act fun x =>
    { x with target := s.getF (F.srvActStatusTrack act), settleWedges := 0, readRun := 0, writeRun := 0 })

/-- SEEK_END (R296, R299): wedge N is reached. -/
def execSeekEnd (act : Nat) (s : State) : Host.Outcome State Fault Refusal :=
  match (s.servoAct act).seek with
  | some k =>
    if 2 ≤ act || s.actState act ≠ 3 || k.acquire || k.n < k.wedges then done s
    else done ((s.setActState act 4).modServoAct act fun x =>
      { x with seek := none, settleWedges := 0, readRun := 0, writeRun := 0 })
  | none => done s

/-- SETTLE_DONE (R297): SETTLING becomes TRACKING once ON_TRACK is set, or WRITE_SAFE after SEEK_WRITE. -/
def execSettleDone (act : Nat) (s : State) : Host.Outcome State Fault Refusal :=
  let x := s.servoAct act
  let ok := if x.write then s.onF (F.srvActStatusWriteSafe act) else s.onF (F.srvActStatusOnTrack act)
  if 2 ≤ act || s.actState act ≠ 4 || !ok then done s
  else
    let s := ((s.setActState act 5).setF (F.srvActStatusBusy act) 0).modServoAct act fun x => { x with settleFails := 0 }
    done ((s.diskReady act).nextPosition act)

/-- SETTLE_TIMEOUT (R299): not settled within 64 wedges; a third failure in a row takes the actuator
OFFLINE. -/
def execSettleTimeout (act : Nat) (s : State) : Host.Outcome State Fault Refusal :=
  let x := s.servoAct act
  if 2 ≤ act || s.actState act ≠ 4 || x.settleWedges < 64 then done s
  else
    let s := ((s.leaveTrack act).incF (F.srvServoErrSettleFail act)).modServoAct act fun x =>
      { x with settleFails := x.settleFails + 1, validRun := 0 }
    if 3 ≤ x.settleFails + 1 then done (s.failAct act) else done (s.setActState act 2)

/-- HEADS_ON_RAMP (R299, Table 08.14): unloaded heads are PARKED; after a retract PARK_HOLD holds them. -/
def execHeadsOnRamp (act : Nat) (s : State) : Host.Outcome State Fault Refusal :=
  if 2 ≤ act then done s
  else if s.actState act = 6 then done (s.parked act)
  else if s.actState act = 7 && (s.servoAct act).holdAt.isNone then done (s.modServoAct act fun x =>
    { x with holdAt := some s.tick, vcm := .hold ((s.srv.header.map (·.parkHold)).getD 0) })
  else done s

/-- The DRV_FAULT bit of a driver fault (Table 08.18). -/
def driverFaultField (act : Nat) : DriverFault → Field
  | .vcmOverCurrent => if act = 0 then F.drvFaultVcm0Oc else F.drvFaultVcm1Oc
  | .vcmOpenCoil => if act = 0 then F.drvFaultVcm0Open else F.drvFaultVcm1Open
  | .vcmOverTemp => if act = 0 then F.drvFaultVcm0Ot else F.drvFaultVcm1Ot
  | .microOverCurrent => if act = 0 then F.drvFaultMa0 else F.drvFaultMa1
  | .boost => F.drvFaultBoost

/-- What the control engine does on an event of the drive die (R305, R308, R314). -/
def State.takeEvent (s : State) (e : DriveEvent) : State := match e with
  | .driverFault _ .boost => forEach [0, 1] s fun s a => s.failAct a
  | .driverFault act .microOverCurrent => s.failAct act
  | .driverFault act _ =>
    let s := s.modServoAct act fun x => { x with failing := true }
    if s.actState act = 0 then s.goOffline act true else s
  | .spindleGate => s.spindleFault
  | .powerFail | .tamper | .overTemp | .wake | .pwrdis => s

/-- An event of the drive die reaches the control engine, or is held until the splice is up (R25). -/
def State.driveEvent (s : State) (e : DriveEvent) : State :=
  if s.onF F.devSpliceStatusUp then s.takeEvent e
  else s.modFab fun f => { f with heldEvents := f.heldEvents ++ [e] }

/-- ACTUATOR_OFFLINE (R306, R308, R309, R314): a driver fault, or a failure that the state shows. A boost fault
takes the microactuator drive of both actuators to 0 V and acts as a microactuator fault of both; the drive die answers
a VCM driver fault with a retract. -/
def execActuatorOffline (act : Nat) (fault : Option DriverFault) (s : State) : Host.Outcome State Fault Refusal :=
  if 2 ≤ act then done s
  else match fault with
    | some .boost =>
      let s := (s.setF F.drvFaultBoost 1).modFab fun f =>
        { f with outputs := [1, 4].foldl (fun m o => sparsePut (fun _ => 0) m o 0) f.outputs }
      done (s.driveEvent (.driverFault act .boost))
    | some .microOverCurrent =>
      done ((s.setF (driverFaultField act .microOverCurrent) 1).driveEvent (.driverFault act .microOverCurrent))
    | some f =>
      let s := s.setF (driverFaultField act f) 1
      let s := if 1 ≤ s.actState act && s.actState act ≤ 6 then s.emergencyRetract 4 else s
      done (s.driveEvent (.driverFault act f))
    | none => if (s.servoAct act).failing then done (s.failAct act) else done s

/-- SPIN_START (R302, R293). -/
def execSpinStart (path : Path) (value : Word) (s : State) : Host.Outcome State Fault Refusal :=
  done (s.regAction path A.srvSpin value fun s =>
    let s := s.writeTarget (F.srvSpinTargetRpm.get value)
    if F.srvSpinStart.get value = 0 then s
    else if s.onF F.srvStatusTableValid && (s.spinState = 0 || (s.spinState = 9 && s.inMode .service)) then s.startSpin
    else s.setF F.srvStatusCmdDropped 1)

/-- SPIN_STOP (R302): both actuators PARKED or OFFLINE. -/
def execSpinStop (path : Path) (value : Word) (s : State) : Host.Outcome State Fault Refusal :=
  done (s.regAction path A.srvSpin value fun s =>
    let s := s.writeTarget (F.srvSpinTargetRpm.get value)
    let ok := [0, 1].all fun a => s.actState a = 0 || s.actState a = 8
    if F.srvSpinStop.get value = 0 then s
    else if ok && 1 ≤ s.spinState && s.spinState ≤ 5 then s.setSpin 6
    else s.setF F.srvStatusCmdDropped 1)

/-- ALIGN_DONE (R303): the alignment time is at least 200 ms. -/
def execAlignDone (s : State) : Host.Outcome State Fault Refusal :=
  if s.spinState = 1 && s.since s.srv.spinAt 200000000 then done (s.setSpin 2) else done s

/-- RAMP_DONE (R303): 120 rpm open-loop. -/
def execRampDone (rpm : Nat) (s : State) : Host.Outcome State Fault Refusal :=
  if s.spinState = 2 && 120 ≤ rpm then done ((s.setF F.srvSpeedRpm rpm).setSpin 3) else done s

/-- SPINDLE_HANDOVER_DONE (R302): 12 consecutive valid zero crossings. -/
def execSpindleHandoverDone (crossings : Nat) (s : State) : Host.Outcome State Fault Refusal :=
  if s.spinState = 3 && 12 ≤ crossings then done (s.setSpin 4) else done s

/-- SPINDLE_HANDOVER_TIMEOUT (R302): 200 ms without a crossing; the third failure faults. -/
def execSpindleHandoverTimeout (s : State) : Host.Outcome State Fault Refusal :=
  if s.spinState ≠ 3 || !s.since s.srv.spinAt 200000000 then done s
  else
    let s := s.modSrv fun x => { x with handoverFails := x.handoverFails + 1 }
    if 3 ≤ s.srv.handoverFails then done s.spindleFault else done (s.setSpin 1)

/-- AT_SPEED (R302): the speeds of the last 64 revolutions, newest first, all lie within 0.05% of the target. -/
def execAtSpeed (rpms : List Nat) (s : State) : Host.Outcome State Fault Refusal :=
  let t := s.getF F.srvSpinTargetRpm
  if s.spinState = 4 && 64 ≤ rpms.length
      && (rpms.take 64).all (fun rpm => 2000 * ((rpm : Int) - (t : Int)).natAbs ≤ t) then
    done ((s.setF F.srvSpeedRpm (rpms.headD 0)).setSpin 5)
  else done s

/-- SPEED_DROP (R302): below 99% of the target. -/
def execSpeedDrop (rpm : Nat) (s : State) : Host.Outcome State Fault Refusal :=
  if s.spinState = 5 && 100 * rpm < 99 * s.getF F.srvSpinTargetRpm then done ((s.setF F.srvSpeedRpm rpm).setSpin 4)
  else done s

/-- SPEED_LOW_UNLOAD (R304): below 90% of the target. -/
def execSpeedLowUnload (rpm : Nat) (s : State) : Host.Outcome State Fault Refusal :=
  if 10 * rpm < 9 * s.getF F.srvSpinTargetRpm then
    done (forEach [0, 1] (s.setF F.srvSpeedRpm rpm) fun s a => s.unloadAct a)
  else done s

/-- BRAKE_ENTER (R302): below 300 rpm in DECEL. -/
def execBrakeEnter (rpm : Nat) (s : State) : Host.Outcome State Fault Refusal :=
  if s.spinState = 6 && rpm < 300 then done ((s.setF F.srvSpeedRpm rpm).setSpin 7) else done s

/-- SPINDLE_STOPPED (R302): no crossing for 1 s in BRAKE. -/
def execSpindleStopped (s : State) : Host.Outcome State Fault Refusal :=
  if s.spinState = 7 && s.since s.srv.spinAt 1000000000 then
    done (((s.setF F.srvSpeedRpm 0).setSpin 0).setF F.drvStatusSpinEn 0)
  else done s

/-- SPINDLE_FAULT (R305): a gate-driver fault, or no crossing for 100 ms in ACCEL or AT_SPEED. A phase
over-current alone is only recorded (Table 08.18; log entry 49). -/
def execSpindleFault (gateDriver overCurrent : Bool) (s : State) : Host.Outcome State Fault Refusal :=
  let s := (s.setFIf gateDriver F.drvFaultSpinGate 1).setFIf overCurrent F.drvFaultSpinOc 1
  if gateDriver then done (s.driveEvent .spindleGate)
  else if !overCurrent && (s.spinState = 4 || s.spinState = 5) then done s.spindleFault
  else done s

/-- TARGET_RPM_WRITE (R304). -/
def execTargetRpmWrite (path : Path) (value : Word) (s : State) : Host.Outcome State Fault Refusal :=
  done (s.regAction path A.srvSpin value fun s => s.writeTarget (F.srvSpinTargetRpm.get value))

/-- The cause of a retract stands on the drive die (R306): a power-fail event, the splice lost, four discarded
commands, a VCM driver fault, or the order of a spindle FAULT. -/
def State.retractCause (s : State) (cause : Nat) : Bool := match cause with
  | 1 => s.onF F.drvStatusPwrFail
  | 2 => s.onF F.devSpliceStatusLost
  | 3 => s.fab.discards.any fun e => e.1 < 7 && 4 ≤ e.2
  | 4 => [F.drvFaultVcm0Oc, F.drvFaultVcm0Open, F.drvFaultVcm0Ot, F.drvFaultVcm1Oc, F.drvFaultVcm1Open,
      F.drvFaultVcm1Ot].any s.onF
  | 5 => s.spinState = 9
  | _ => false

/-- EMERGENCY_RETRACT (R306): the drive die retracts loaded heads for a cause that stands. -/
def execEmergencyRetract (cause : Nat) (s : State) : Host.Outcome State Fault Refusal :=
  if s.retractCause cause && [0, 1].any (fun a => 1 ≤ s.actState a && s.actState a ≤ 6) then done (s.emergencyRetract cause) else done s

/-- RETRACT_PARK_HOLD_END (R306, Tables 08.11 and 08.14): 50 ms after the heads reached the ramp, or the longest move
RETRACT_MS ended, the VCM is off and the windings are shorted; PARKED once the retract is done and power is good, else it
stays in RETRACTING until reset. -/
def execRetractParkHoldEnd (act : Nat) (s : State) : Host.Outcome State Fault Refusal :=
  let x := s.servoAct act
  let held := (x.holdAt.any fun t => s.since t 50000000)
    || x.retract.any fun t => s.since t ((50 + (s.srv.header.map (·.retractMs)).getD 150) * 1000000)
  if 2 ≤ act || s.actState act ≠ 7 || !held then done s
  else
    let s := (s.setF (State.actEnF act) 0).modServoAct act fun x => { x with retract := none, holdAt := none, vcm := .off }
    let s := if s.onF F.drvStatusPwrFail then s else s.parked act
    done (if (s.servoAct 0).retract.isNone && (s.servoAct 1).retract.isNone then
      (s.setF F.drvStatusRetract 0).modSrv fun x => { x with spinDrive := if s.spinState = 0 then .off else .shorted }
    else s)

/-- TUNE_START (R310–R312). -/
def execTuneStart (path : Path) (value : Word) (s : State) : Host.Outcome State Fault Refusal :=
  done (s.regAction path A.srvTuneCtrl value fun s =>
    let i := s.getF F.srvTuneCtrlLoop
    let rule := s.getF F.srvTuneCtrlRule
    if F.srvTuneCtrlStart.get value = 0 || s.srv.tune.isSome then s
    else if 6 ≤ rule then s.endTune 5
    else if !s.tuneAllowed i then s.endTune 1
    else
      let t : Tune :=
        { loop := i, rule := rule, h := signedOf 16 (s.getF F.srvTuneCtrlH), u0 := (s.loop i).outSel, high := none,
          samples := 0, lastSwitch := 0, rising := [], maxIn := 0, minIn := 0, invalid := 0, ended := none }
      ((s.modSrv fun x => { x with tune := some t }).setF F.srvTuneStatusState 1).setF F.srvTuneStatusResult 0)

/-- TUNE_ABORT (R310). -/
def execTuneAbort (path : Path) (value : Word) (s : State) : Host.Outcome State Fault Refusal :=
  done (s.regAction path A.srvTuneCtrl value fun s =>
    if F.srvTuneCtrlAbort.get value = 0 then s else s.abortTune)

/-- TUNE_END (R311, R312): the measurement has ended; its proposal or its failure is stored. -/
def execTuneEnd (s : State) : Host.Outcome State Fault Refusal :=
  match s.srv.tune with
  | none => done s
  | some t => match t.ended with
    | none => done s
    | some 0 =>
      let pp := (t.maxIn - t.minIn).toNat
      let periods := t.rising.headD 0 - t.rising.getD 4 0
      let s := (s.setF F.srvTuneStatusTu (4 * periods)).setF F.srvTuneAmpA (pp / 2)
      match (tuneRule t.rule).bind fun r => tuneGains r t.h pp periods with
      | none => done (s.endTune 5)
      | some (k, kp, ki, kd) =>
        let s := (s.setF F.srvTuneKpiKp (unsignedOf 16 kp)).setF F.srvTuneKpiKi (unsignedOf 16 ki)
        done (((s.setF F.srvTuneKdKd (unsignedOf 16 kd)).setF F.srvTuneKdShift k).endTune 0)
    | some code => done (s.endTune code)

end Sys2Proof.Machine
end

