-- ==== Sys2Proof/Machine/Splice.lean ====
section
/-! DEFINITION. The splice and the timecode (chapter 01): words that arrive on either die, held
commands, the loss and training of the splice, the oscillator trim and the handover of the timecode,
with their commands. -/

namespace Sys2Proof.Machine

namespace State

/-- Input codes that a sense sample of a drive-to-logic position carries (Tables 01.2 and 08.6). -/
def sampleInputs (pos : Nat) : List Nat :=
  match pos with
  | 0 => [5]
  | 2 => [9]
  | 3 => [6]
  | 5 => [10]
  | 7 => [7, 8]
  | _ => []

/-- A sense sample arrives (log entry 19): currents are the low 16 bits, signed; position 7 carries the two
bridge temperatures and the boost voltage. -/
def takeSample (s : State) (pos value : Nat) : State :=
  let s := s.modFab fun f => { f with samples := sparsePut (fun _ => 0) f.samples pos value }
  let s := s.modSrv fun x => { x with badInputs := x.badInputs.filter fun c => !(sampleInputs pos).contains c }
  let put := fun (c : Nat) (v : Int) => s.modSrv fun x => { x with inputs := sparsePut (fun _ => 0) x.inputs c v }
  match pos with
  | 0 => put 5 (signedOf 16 value)
  | 3 => put 6 (signedOf 16 value)
  | 2 => put 9 (Config.heaterPower 0 value)
  | 5 => put 10 (Config.heaterPower 1 value)
  | 7 => ((s.setF F.drvTempVcmAct0 value).setF F.drvTempVcmAct1 (value / 2 ^ 16)).setF F.drvVbstMv (value / 2 ^ 32)
  | _ => s

/-- An output of the drive die takes a value. -/
def driveOutput (s : State) (out value : Nat) : State :=
  s.modFab fun f => { f with outputs := sparsePut (fun _ => 0) f.outputs out value }

/-- The commands an output holds, oldest first (R21). -/
def heldCmds (s : State) (out : Nat) : List HeldOutput := sparseGet (fun _ => []) s.fab.held out
def setHeld (s : State) (out : Nat) (l : List HeldOutput) : State :=
  s.modFab fun f => { f with held := sparsePut (fun _ => []) f.held out l }

/-- A motion or spindle command arrives on the drive die (R21): it is held until its stamp, or applied on
arrival where the stamp has passed, which sets the LATE flag of its loop (R288). The drive die moves nothing while
the splice is not up (R25). -/
def takeCommand (s : State) (out stamp value : Nat) : State :=
  let s := s.modFab fun f => { f with discards := sparsePut (fun _ => 0) f.discards out 0 }
  if !s.onF F.devSpliceStatusUp || s.onF F.drvStatusRetract then s
  else if out = 7 then s.driveOutput out value
  else if (stamp + 65536 - s.fab.cycleDrive % 65536) % 65536 ≤ 32767 then
    s.setHeld out (s.heldCmds out ++ [{ stamp := stamp % 65536, value := value }])
  else
    let s := (s.driveOutput out value).incF F.devSpliceErrLateApply
    match s.enabledLoops.find? fun i => (s.loop i).output ≠ 0 && outputOf (s.loop i).output = out with
    | some i => s.modLoop i fun r => { r with sticky := r.sticky ||| 128 }
    | none => s

/-- A word of a management access is discarded (R23): it is sent up to four times; then the access in progress on
that path fails. -/
def mgtDiscard (s : State) (path : Path) : State :=
  let n := sparseGet (fun _ => 0) s.fab.mgtTries (pathNum path) + 1
  let put := fun (s : State) (n : Nat) => s.modFab fun f =>
    { f with mgtTries := sparsePut (fun _ => 0) f.mgtTries (pathNum path) n }
  if n < 4 then put s n
  else ((put s 0).modFab fun f => { f with mgtFailed := if f.mgtFailed.contains path then f.mgtFailed
    else f.mgtFailed ++ [path] }).setF F.devSpliceStatusMgtFail 1

/-- A link check fails or passes at the receiving die (R24). -/
def linkFail (s : State) (dir : SpliceDir) : State := s.modFab fun f => match dir with
  | .toDrive => { f with failsDrive := f.failsDrive + 1 }
  | .toLogic => { f with failsLogic := f.failsLogic + 1 }

/-- A link check that arrives whole passes if it carries the next sequence number and the cycle count of a launch
24 cycles ago (R19, R24); the next one is expected to follow it (log entry 159). -/
def linkCheck (s : State) (dir : SpliceDir) (seq count : Nat) : State :=
  let own := match dir with
    | .toDrive => s.fab.cycleDrive
    | .toLogic => s.fab.cycleLogic
  let due := match dir with
    | .toDrive => s.fab.seqDrive
    | .toLogic => s.fab.seqLogic
  let next := (seq + 1) % 2 ^ 32
  if seq = due && (count + 24) % 2 ^ 32 = own then s.modFab fun f => match dir with
    | .toDrive => { f with failsDrive := 0, seqDrive := next }
    | .toLogic => { f with failsLogic := 0, seqLogic := next }
  else (s.linkFail dir).modFab fun f => match dir with
    | .toDrive => { f with seqDrive := next }
    | .toLogic => { f with seqLogic := next }

/-- A word with an uncorrectable error is discarded (R22); an idle word is no traffic (R20). -/
def discardWord (s : State) (dir : SpliceDir) (pos : Nat) (w : SpliceWord) : State :=
  let s := s.incF F.devSpliceErrUncorrected
  match w with
  | .link .. => s.linkFail dir
  | .access path => s.mgtDiscard path
  | .command .. => if pos < 7 then s.modFab fun f =>
      { f with discards := sparsePut (fun _ => 0) f.discards pos (sparseGet (fun _ => 0) f.discards pos + 1) }
    else s
  | .sample _ => s.modSrv fun x => { x with badInputs := (x.badInputs ++ sampleInputs pos).eraseDups }
  | .event _ | .ack | .idle => s

/-- A word that arrives whole is used. -/
def useWord (s : State) (dir : SpliceDir) (pos : Nat) (w : SpliceWord) : State := match w with
  | .link seq count => s.linkCheck dir seq count
  | .access path => s.modFab fun f => { f with mgtTries := sparsePut (fun _ => 0) f.mgtTries (pathNum path) 0 }
  | .command stamp value => s.takeCommand pos stamp value
  | .sample value => s.takeSample pos value
  | .ack => s.modFab fun f => { f with events := f.events.drop 1 }
  | .event e =>
    if s.onF F.devSpliceStatusUp then s.modFab fun f => { f with events := f.events ++ [e] }
    else s.modFab fun f => { f with heldEvents := f.heldEvents ++ [e] }
  | .idle => s

end State

/-- The word is of the class that Table 01.2 assigns to the position. -/
def wordFits (w : SpliceWord) (dir : SpliceDir) (pos : Nat) : Bool := match w with
  | .idle => pos < 15
  | .link .. => pos = 15
  | .access _ => 8 ≤ pos && pos ≤ 13
  | .command .. => dir = .toDrive && pos ≤ 7
  | .sample _ => dir = .toLogic && pos ≤ 7
  | .ack => dir = .toDrive && pos = 14
  | .event _ => dir = .toLogic && pos = 14

/-! ## Commands -/

/-- SPLICE_WORD_ARRIVE (R20–R25): a word at superframe position `pos`; `chk` is what the code says of it. No die
sends a word of another class than the position's. -/
def execSpliceWordArrive (dir : SpliceDir) (pos : Nat) (chk : WordCheck) (w : SpliceWord) (s : State) :
    Host.Outcome State Fault Refusal :=
  if !wordFits w dir pos then done s
  else match chk with
    | .clean => done (s.useWord dir pos w)
    | .corrected => done ((s.incF F.devSpliceErrCorrected).useWord dir pos w)
    | .uncorrectable => done (s.discardWord dir pos w)

/-- APPLY_STAMP_MATCH (R21): the drive die's count has reached the stamp of a held command. -/
def execApplyStampMatch (out : Nat) (s : State) : Host.Outcome State Fault Refusal :=
  match (s.heldCmds out).find? fun h => (s.fab.cycleDrive % 65536 + 65536 - h.stamp) % 65536 ≤ 32767 with
  | some h => done ((s.driveOutput out h.value).setHeld out ((s.heldCmds out).erase h))
  | none => done s

/-- DISCARDED_COMMAND_LIMIT (R22, R306). -/
def execDiscardedCommandLimit (out : Nat) (s : State) : Host.Outcome State Fault Refusal :=
  if 4 ≤ sparseGet (fun _ => 0) s.fab.discards out then
    done ((s.modFab fun f => { f with discards := sparsePut (fun _ => 0) f.discards out 0 }).emergencyRetract 3)
  else done s

/-- SPLICE_LOST (R24): the drive die retracts with its drivers off, the logic die enters Safe and writes
SPLICE_LOST in the dailies. -/
def execSpliceLost (s : State) : Host.Outcome State Fault Refusal :=
  if (s.fab.failsDrive < 8 && s.fab.failsLogic < 8) || !s.onF F.devSpliceStatusUp then done s
  else
    let s := ((s.setF F.devSpliceStatusLost 1).setF F.devSpliceStatusUp 0).setF F.drvStatusSpliceUp 0
    let s := (s.emergencyRetract 2).daily src.dev 0x0100 []
    done (if s.inMode .safe then s else s.orderSafe 6)

/-- RC_OSCILLATOR_TRIM (R26): once per second while the internal oscillator is the source and the 38.4 MHz
reference runs, which it does for the PLLs of the logic die (log entry 160). -/
def execRcOscillatorTrim (s : State) : Host.Outcome State Fault Refusal :=
  let due := match s.fab.rcTrimAt with
    | some t => s.since t 1000000000
    | none => true
  if s.fab.lfRc && s.logicOn && due then done (s.modFab fun f => { f with rcTrimAt := some s.tick }) else done s

/-- TIMECODE_HANDOVER (R29, R30): the count, in 1/64 ns, moves to the keeper that the fabric PLL names; the published
value holds until the new count passes it. -/
def execTimecodeHandover (toLogic : Bool) (count : Nat) (s : State) : Host.Outcome State Fault Refusal :=
  if s.fab.logicKeeps = toLogic || s.logicOn ≠ toLogic then done s
  else done (s.modFab fun f =>
    { f with logicKeeps := toLogic, keeper := count, timecode := max f.timecode count })

/-- SPLICE_LOST_CLEAR (R39): Service mode only. -/
def execSpliceLostClear (path : Path) (s : State) : Host.Outcome State Fault Refusal :=
  done (s.regAction path A.devSpliceStatus 4 fun s =>
    if s.inMode .service then s.setF F.devSpliceStatusLost 0 else s)

end Sys2Proof.Machine
end

