-- ==== Sys2Proof/Machine/Update.lean ====
section
/-! DEFINITION. Firmware images, staging, commit and activation, and the settings copies
(chapter 16, R556–R563). -/

namespace Sys2Proof.Machine

/-! ## Firmware images (R556) -/

/-- UPD_STATUS.RESULT codes (Table 16.12). -/
def updOk : Nat := 0
def updBusy : Nat := 1
def updOwned : Nat := 2
def updBadImage : Nat := 3
def updBadSlot : Nat := 4
def updResetRequired : Nat := 5
def updPreempted : Nat := 6
def updBadSettings : Nat := 7
def updNotAllowed : Nat := 8

/-- Section k of an image header: KIND, OFFSET, LENGTH (Table 16.6). -/
def imageSection (img : List Byte) (k : Nat) : Nat × Nat × Nat :=
  (field img (0x20 + 16 * k) 1, field img (0x24 + 16 * k) 4, field img (0x28 + 16 * k) 4)

/-- The bytes of the section of a KIND. -/
def sectionBytes (img : List Byte) (kind : Nat) : List Byte :=
  match ((List.range 8).map (imageSection img)).find? (·.1 = kind) with
  | some (_, o, l) => slice img o l
  | none => []

/-- The header fields of Table 16.6 are legal; `svn` is SEC_ROLLBACK.MIN_SVN. -/
def imageHeaderOk (img : List Byte) (svn : Nat) : Bool :=
  let len := field img 4 4
  let n := field img 0x14 1
  let secs := (List.range n).map (imageSection img)
  field img 0 2 = 0x4657 && field img 2 2 = 0x0100
    && 65536 ≤ len && len ≤ 2097152 && len % 4096 = 0 && img.length = len
    && svn ≤ field img 8 4
    && field img 0x12 2 ≤ field img 0x10 2
    && 4 ≤ n && n ≤ 8 && allZero img 0x15 3
    && [1, 2, 3, 4].all (fun k => (secs.filter (·.1 = k)).length = 1)
    && secs.all (fun e => e.2.1 + e.2.2 ≤ len)
    && (List.range n).all (fun k => allZero img (0x21 + 16 * k) 3 && allZero img (0x2C + 16 * k) 4)
    && allZero img (0x20 + 16 * n) (16 * (8 - n))

/-- The check of a staged image (R444, R556, R558). -/
def imageOk (img : List Byte) (svn : Nat) : Bool :=
  imageHeaderOk img svn &&
    Config.signatureOk (sha384 (slice img 0 0xA0 ++ img.drop 0x100)) (slice img 0xA0 96)

namespace State

/-- The image in a slot (Table 16.5: slot A from sector 0, slot B from sector 512). -/
def slotImage (s : State) (slot : Nat) : List Byte :=
  let base := slot * 512 * 4096
  s.nvsBytes base (min (field (s.nvsBytes base 8) 4 4) 2097152)

def slotVersionF (slot : Nat) : Field := if slot = 0 then F.updSlotAVersion else F.updSlotBVersion

/-- Marks a slot valid or not; its VERSION register follows (Table 16.12). -/
def setSlotValid (s : State) (slot : Nat) (v : Bool) : State :=
  (s.modUpd fun u => { u with valid := sparsePut (fun _ => false) u.valid slot v }).setF
    (slotVersionF slot) (if v then field (s.slotImage slot) 0x0C 4 else 0)

def slotValid (s : State) (slot : Nat) : Bool := sparseGet (fun _ => false) s.upd.valid slot

/-- The slot that staging writes: neither the running one nor the NEXT slot of a set TRIAL
(R558). -/
def stagingSlot (s : State) : Option Nat :=
  let o := 1 - s.getF F.updSlotsActive
  if s.nvs.trial && s.nvs.bootNext = o then none else some o

/-- Stores one 4 KiB chunk of a staged image. -/
def storeChunk (s : State) (slot chunk : Nat) (data : List Byte) : State :=
  (s.writeSector (slot * 512 + chunk % 512) data).setSlotValid slot false

/-- A staging write makes its path the owner (R558). -/
def ownStaging (s : State) (owner : Nat) : State :=
  (s.setF F.updStatusOwner owner).modUpd fun u => { u with lastStage := s.tick }

/-- Firmware Image Download stages data at a byte offset, in multiples of 4 KiB; none where it ends
with Command Sequence Error (R558). -/
def stageDownload (s : State) (offset : Nat) (data : List Byte) : Option State :=
  match s.stagingSlot with
  | none => none
  | some slot =>
    if s.getF F.updStatusOwner = 2 || s.upd.commit.isSome then none
    else
      let s := s.ownStaging 1
      some (forEach (List.range (data.length / 4096)) s fun s i =>
        s.storeChunk slot (offset / 4096 + i) (slice data (4096 * i) 4096))

/-! ## Commit and activation (R558, R559) -/

/-- A commit ends: over NVMe with a status, over the register path with a RESULT. -/
def endCommit (s : State) (key : Option CmdKey) (result : Nat) : State :=
  let s := (s.modUpd fun u => { u with commit := none, chunk := [] }).setF F.updStatusOwner 0
  match key with
  | some k =>
    if result = updOk then s.endCmd k 0 0 0 0 []
    else if result = updBadImage then s.endCmd k 1 0x07 0 0 []
    else if result = updBadSlot then s.endCmd k 1 0x06 0 0 []
    else if result = updResetRequired then s.endCmd k 1 0x0B 0 0 []
    else s.endCmd k 0 0x0C 0 0 []
  | none => (s.setF F.updStatusBusy 0).setF F.updStatusResult result

/-- A commit that has won its window runs (Table 16.7). -/
def runCommit (s : State) (key : Option CmdKey) (action slot : Nat) : State :=
  let active := s.getF F.updSlotsActive
  if action = 2 then
    if s.slotValid slot then (s.bootRecord slot true false).endCommit key updOk
    else s.endCommit key updBadSlot
  else if 4 ≤ action || slot = active then s.endCommit key updBadSlot
  else
    let img := s.slotImage slot
    if !imageOk img (s.getF F.secRollbackMinSvn) then s.endCommit key updBadImage
    else
      let s := s.setSlotValid slot true
      if action = 0 then s.endCommit key updOk
      else
        let s := s.bootRecord slot true false
        if action = 1 then s.endCommit key updOk
        else if sectionBytes img 2 ≠ sectionBytes s.upd.runningImage 2
            || sectionBytes img 3 ≠ sectionBytes s.upd.runningImage 3 then
          s.endCommit key updResetRequired
        else
          let s := s.modUpd fun u =>
            { u with commit := some { key := key, action := action, slot := slot, active := true } }
          (s.raiseEvent 0 2 0x01 0x03).modHost fun h => { h with fwHold := true }

/-- Both management cores start the firmware at code address 0 (R318; log entry 52). -/
def startCores (s : State) (img : List Byte) : State :=
  let core : Proc := { Proc.reset with running := true, since := s.tick, textLen := (sectionBytes img 1).length }
  (s.setProc 0x3E core).setProc 0x3F core

/-- An image of a slot becomes the running one. -/
def useImage (s : State) (slot : Nat) (img : List Byte) : State :=
  let s := ((s.setF F.updSlotsActive slot).modUpd fun u => { u with runningImage := img }).startCores img
  ((s.setF F.updRunningVersion (field img 0x0C 4)).setF F.updSettingsVerMax (field img 0x10 2)).setF
    F.updSettingsVerMin (field img 0x12 2)

/-- Makes a slot's image the running one (R559, R560). -/
def runImage (s : State) (slot : Nat) : State := s.useImage slot (s.slotImage slot)

/-! ## Settings copies (R561–R563) -/

/-- The stored bytes of copy 0 or 1 (Table 16.5: two copies of 16 sectors from sector 1184). -/
def settingsCopy (s : State) (i : Nat) : List Byte :=
  let base := (1184 + 16 * i) * 4096
  s.nvsBytes base (min (field (s.nvsBytes base 16) 8 4) 65536)

end State

/-- A settings header with its CRC over every other byte of the copy (R561). -/
def settingsCrc (l : List Byte) : Nat := crc32c (l.take 0x1C ++ l.drop 0x20)

/-- Items of a settings copy, read in order: none if an item runs past the end (R561). -/
def settingsItems : Nat → List Byte → Option (List (Nat × List Byte))
  | 0, l => if l.isEmpty then some [] else none
  | n + 1, l =>
    let len := field l 2 2
    if l.length < 4 + len || len % 4 ≠ 0 then none
    else (settingsItems n (l.drop (4 + len))).map fun r => (field l 0 2, slice l 4 len) :: r

/-- A settings copy whose header passes (R561). -/
def settingsValid (l : List Byte) : Bool :=
  field l 0 2 = 0x5347 && field l 8 4 = l.length && 32 ≤ l.length && l.length ≤ 65536
    && allZero l 0x0E 14 && field l 0x1C 4 = settingsCrc l
    && (settingsItems (field l 0x0C 2) (l.drop 32)).isSome

/-- Every item passes its own checks. -/
def settingsItemsOk (l : List Byte) : Bool :=
  match settingsItems (field l 0x0C 2) (l.drop 32) with
  | some items => items.all fun e => Config.settingsItemOk e.1 e.2
  | none => false

/-- A settings copy from its version, sequence number and items (R561). -/
def makeSettings (version seq : Nat) (items : List (Nat × List Byte)) : List Byte :=
  let body := (items.map fun e => leBytes 2 e.1 ++ leBytes 2 e.2.length ++ e.2).flatten
  let head := leBytes 2 0x5347 ++ leBytes 2 version ++ leBytes 4 seq ++ leBytes 4 (32 + body.length)
    ++ leBytes 2 items.length ++ zeros 14
  let crc := settingsCrc (head ++ zeros 4 ++ body)
  head ++ leBytes 4 crc ++ body

namespace State

/-- The copy in use: the valid one with the higher SEQ (R561). -/
def settingsInUse (s : State) : Option (Nat × List Byte) :=
  let a := s.settingsCopy 0
  let b := s.settingsCopy 1
  match settingsValid a, settingsValid b with
  | true, true => if field a 4 4 < field b 4 4 then some (1, b) else some (0, a)
  | true, false => some (0, a)
  | false, true => some (1, b)
  | false, false => none

/-- Writes a settings copy over the older of the two, with SEQ + 1 (R562). -/
def writeSettings (s : State) (version : Nat) (items : List (Nat × List Byte)) : State :=
  let (i, seq) := match s.settingsInUse with
    | some (i, l) => (1 - i, field l 4 4 + 1)
    | none => (0, 1)
  (s.writeArea (1184 + 16 * i) (makeSettings version seq items)).modUpd fun u => { u with inUse := i }

/-- The settings staging buffer as bytes: LENGTH of the header it holds, at most 65,536. -/
def stagedSettings (s : State) : List Byte :=
  let b := fun n => (List.range n).map fun i => sparseGet (fun _ => (0 : Byte)) s.upd.stage i
  b (min (field (b 16) 8 4) 65536)

/-- A write of UPD_CTRL.CMD: refused while a command or chunk store runs. -/
def updCommand (s : State) (path : Path) (value : Word) (act : State → State) : State :=
  s.regAction path A.updCtrl value fun s =>
    if s.onF F.updStatusBusy then s.setF F.updStatusResult updBusy else act s

end State

/-! ## Commands -/

/-- UPD_DATA (R558): four staging bytes; each completed 4 KiB chunk is stored. -/
def execUpdData (path : Path) (value : Word) (s : State) : Host.Outcome State Fault Refusal :=
  done (s.regAction path A.updData value fun s =>
    if s.getF F.updStatusOwner = 1 then s.setF F.updStatusResult updOwned
    else if s.onF F.updStatusBusy || s.upd.commit.isSome then s.setF F.updStatusResult updBusy
    else match s.stagingSlot with
      | none => s.setF F.updStatusResult updNotAllowed
      | some slot =>
        let s := (s.ownStaging 2).setF F.updStatusResult updOk
        let chunk := s.upd.chunk ++ leBytes 4 value.toNat
        if chunk.length < 4096 then s.modUpd fun u => { u with chunk := chunk }
        else
          let n := s.getF F.updOffsetChunk
          ((s.storeChunk slot n chunk).modUpd fun u => { u with chunk := [] }).setF F.updOffsetChunk
            ((n + 1) % 512))

/-- UPD_COMMIT (R558): an order of the sequencer for the firmware. -/
def execUpdCommit (path : Path) (value : Word) (s : State) : Host.Outcome State Fault Refusal :=
  done (s.updCommand path value fun s =>
    let action := s.getF F.updCtrlAction
    let slot := if action = 2 then s.getF F.updCtrlSlot else
      s.stagingSlot.getD (s.getF F.updSlotsActive)
    if s.orderBarred fun _ => true then s.setF F.updStatusResult updNotAllowed
    else (s.setF F.updStatusBusy 1).placeOrder (.firmware action slot) true [.firmware] 3 (pathSide path))

/-- UPD_DISCARD (Table 16.12): ends ownership and invalidates the staging slot. -/
def execUpdDiscard (path : Path) (value : Word) (s : State) : Host.Outcome State Fault Refusal :=
  done (s.updCommand path value fun s =>
    let s := (s.setF F.updStatusOwner 0).modUpd fun u => { u with chunk := [] }
    let s := match s.stagingSlot with
      | some slot => s.setSlotValid slot false
      | none => s
    s.setF F.updStatusResult updOk)

/-- SETTINGS_SAVE (R563): in Service mode, a staged copy that passes every check is written. -/
def execSettingsSave (path : Path) (value : Word) (s : State) : Host.Outcome State Fault Refusal :=
  done (s.updCommand path value fun s =>
    if !s.inMode .service then s.setF F.updStatusResult updNotAllowed
    else
      let l := s.stagedSettings
      match settingsItems (field l 0x0C 2) (l.drop 32) with
      | some items =>
        if settingsValid l && settingsItemsOk l then
          (s.writeSettings (field l 2 2) items).setF F.updStatusResult updOk
        else s.setF F.updStatusResult updBadSettings
      | none => s.setF F.updStatusResult updBadSettings)

/-- SET_DATA_ACCESS (Table 16.12): four bytes of the settings staging buffer; WORD advances and
wraps at 0x3FFF. -/
def execSetDataAccess (path : Path) (wr : Option Word) (s : State) : Host.Outcome State Fault Refusal :=
  match s.admitWrite path A.updSetData with
  | (false, s) => done s
  | (true, s) =>
    let w := s.getF F.updSetOffsetWord
    let s' := match wr with
      | some v => s.modUpd fun u =>
        let put := fun (m : Sparse Byte) (e : Byte × Nat) => sparsePut (fun _ => 0) m (4 * w + e.2) e.1
        { u with stage := (leBytes 4 v.toNat).zipIdx.foldl put u.stage }
      | none => s.busData (leNat ((List.range 4).map fun i =>
          sparseGet (fun _ => 0) s.upd.stage (4 * w + i)))
    done (s'.setF F.updSetOffsetWord ((w + 1) % 0x4000))

/-- STAGING_OWNER_TIMEOUT (R558): ten minutes without staging release the owner. -/
def execStagingOwnerTimeout (s : State) : Host.Outcome State Fault Refusal :=
  if s.getF F.updStatusOwner ≠ 0 && s.since s.upd.lastStage 600000000000 then
    done ((s.setF F.updStatusOwner 0).modUpd fun u => { u with chunk := [] })
  else done s

/-- TRIAL_CONFIRM (R560): the host data path has been open for 60 s. -/
def execTrialConfirm (s : State) : Host.Outcome State Fault Refusal :=
  match s.pwr.openedAt with
  | some t =>
    if s.nvs.trial && s.pwr.pathOpen && s.since t 60000000000
        && s.getF F.updSlotsActive = s.nvs.bootNext then
      done (s.bootRecord s.nvs.bootNext false s.nvs.trialFailed)
    else done s
  | none => done s

end Sys2Proof.Machine
end

