-- ==== Sys2Proof/Machine/Commands.lean ====
section
/-! DEFINITION. The life of a host command (chapter 03): doorbells and fetching, the decode checks of
Table 03.4, admission, range locks, and the completion entry. -/

namespace Sys2Proof

open Sys2Proof.Machine

/-- NVMe status (code type, code) with completion dword 0. -/
abbrev Status := Nat × Nat × Nat

/-! ## Opcodes: reserved fields (log entry 27) -/

/-- Reserved bits of command dwords 10–15 of an admin command (NVMe 2.0; Tables 03.11 and 04.3 for the
vendor commands); none for an opcode that Table 03.5 does not list. -/
def adminReserved (opc : Nat) : Option (List Nat) :=
  let f := 0xFFFFFFFF
  if opc = 0x00 || opc = 0x04 then some [0xFFFF0000, f, f, f, f, f]
  else if opc = 0x01 then some [0, 0x0000FFF8, 0xFFFF0000, f, f, f]
  else if opc = 0x02 then some [0, 0, 0, 0, 0x007FFF80, f]
  else if opc = 0x05 then some [0, 0x0000FFFC, f, f, f, f]
  else if opc = 0x06 then some [0x0000FF00, 0x00FF0000, f, f, 0xFFFFFF80, f]
  else if opc = 0x08 then some [0, f, f, f, f, f]
  else if opc = 0x09 then some [0x7FFFFF00, 0, f, f, 0xFFFFFF80, f]
  else if opc = 0x0A then some [0xFFFFF800, 0, f, f, 0xFFFFFF80, f]
  else if opc = 0x0C then some [f, f, f, f, f, f]
  else if opc = 0x0D then some [0xFFFFFFF0, 0x00FFFFFF, f, f, f, f]
  else if opc = 0x10 then some [0x7FFFFFC0, f, f, f, f, f]
  else if opc = 0x11 then some [0, 0, f, f, f, f]
  else if opc = 0x14 || opc = 0x15 then some [0xFFFFFFF0, f, f, f, f, f]
  else if opc = 0x80 then some [0xFFFFC000, f, f, f, f, f]
  else if opc = 0x84 then some [0xFFFFFC00, 0, f, f, f, f]
  else if opc = 0xC1 || opc = 0xC2 then some [0, 0xFFFFFFFE, f, f, f, f]
  else if opc = 0xC5 || opc = 0xC8 then some [0, 0xFFFFFE00, f, f, f, f]
  else if opc = 0xD5 then some [0xFFFFFE00, 0, 0, 0, 0, f]
  else if 0xD0 ≤ opc && opc ≤ 0xD7 then some [0xFFFFFE00, f, f, f, f, f]
  else none

/-- Admin commands of the physical function only (Table 03.5). -/
def pfOnly (opc : Nat) : Bool :=
  opc = 0x0D || opc = 0x10 || opc = 0x11 || opc = 0x14 || opc = 0x15 || 0x80 ≤ opc

/-- Reserved bits of command dwords 10–15 of an I/O command. -/
def ioReserved (opc : Nat) : Option (List Nat) :=
  let f := 0xFFFFFFFF
  if opc = 0x00 then some [f, f, f, f, f, f]
  else if opc = 0x01 then some [0, 0, 0x02FF0000, 0xFFFFFF00, 0, 0]
  else if opc = 0x02 then some [0, 0, 0x02FF0000, 0xFFFFFF00, 0, 0]
  else if opc = 0x08 then some [0, 0, 0x00FF0000, f, 0, 0]
  else if opc = 0x09 then some [0xFFFFFF00, 0xFFFFFFF8, f, f, f, f]
  else if opc = 0x0C then some [0, 0, 0x02FF0000, f, 0, 0]
  else if opc = 0x79 then some [0, 0, f, 0xFFFFFC00, f, f]
  else if opc = 0x7A then some [0, 0, 0, 0xFFFE0000, f, f]
  else if opc = 0x7D then some [0, 0, 0x00FF0000, f, 0, 0]
  else if opc = 0x81 then some [0, f, f, f, f, f]
  else if opc = 0x82 || opc = 0x84 then some [0, f, f, f, f, f]
  else none

/-- A take command (Table 03.8). -/
def isTakeOpc (opc : Nat) : Bool := opc = 0x81 || opc = 0x82 || opc = 0x84

/-- The command moves data through its PRPs. -/
def movesData (admin : Bool) (opc : Nat) : Bool :=
  if admin then opc = 0x02 || opc = 0x06 || opc = 0x0D || opc = 0x11 || opc = 0x15 || opc = 0xC1
    || opc = 0xC2 || opc = 0xC5 || opc = 0xD0 || opc = 0xD1 || opc = 0x01 || opc = 0x05
  else opc = 0x01 || opc = 0x02 || opc = 0x09 || opc = 0x7A || opc = 0x7D || opc = 0x81 || opc = 0x82

def Sqe.dwords (q : Sqe) : List Nat := [q.dw10, q.dw11, q.dw12, q.dw13, q.dw14, q.dw15]

/-- No reserved bit is set, the command is not fused and has no metadata pointer, the data pointers are PRPs and they
are aligned (R87, R88, check 2). -/
def Sqe.shapeOk (q : Sqe) (admin : Bool) (masks : List Nat) : Bool :=
  q.fuse = 0 && q.psdt = 0 && q.dw2 = 0 && q.dw3 = 0 && q.mptr = 0 && (q.prpOk || !movesData admin q.opc)
    && (List.zip q.dwords masks).all fun e => e.1 &&& e.2 = 0

/-- First LBA and number of blocks of a command (0's based in dword 12). -/
def Sqe.lba (q : Sqe) : Nat := q.dw10 + 2 ^ 32 * q.dw11
def Sqe.blocks (q : Sqe) : Nat := q.dw12 % 65536 + 1

/-- Ranges of a Dataset Management command: (first LBA, blocks), leaving out empty ones. -/
def Sqe.dsmRanges (q : Sqe) : List (Nat × Nat) :=
  ((List.range (q.dw10 % 256 + 1)).map fun i => (field q.data (16 * i + 8) 8, field q.data (16 * i + 4) 4)).filter
    (0 < ·.2)

/-- Deallocate is asked for (R106). -/
def Sqe.deallocates (q : Sqe) : Bool := bit q.dw11 2

/-- Logical-block ranges of an I/O command that check 6 tests (Table 03.4). -/
def Sqe.ranges (q : Sqe) : List (Nat × Nat) :=
  if q.opc = 0x01 || q.opc = 0x02 || q.opc = 0x08 || q.opc = 0x0C then [(q.lba, q.blocks)]
  else if q.opc = 0x09 then if q.deallocates then q.dsmRanges else []
  else if q.opc = 0x7D || q.opc = 0x7A then [(q.lba, 1)]
  else if q.opc = 0x79 then if bit q.dw13 8 then [] else [(q.lba, 1)]
  else []

/-- Fields of a zone command that only some values make valid (check 2): the start LBA of a zone, a Send Action of
1 to 5, and a Receive of a zone report with a known reporting option (ZNS). -/
def Sqe.zoneFieldsOk (q : Sqe) : Bool :=
  if q.opc = 0x7D then q.lba % 65536 = 0
  else if q.opc = 0x79 then
    1 ≤ q.dw13 % 256 && q.dw13 % 256 ≤ 5 && (bit q.dw13 8 || q.lba % 65536 = 0)
  else if q.opc = 0x7A then q.dw13 % 256 = 0 && q.dw13 / 256 % 256 ≤ 7
  else true

/-- Namespace types an I/O command is marked for (Table 03.8). -/
def ioTypeOk (opc : Nat) (t : NsType) : Bool :=
  if opc = 0x08 || opc = 0x09 then t ≠ .zoned
  else if opc = 0x79 || opc = 0x7A || opc = 0x7D then t = .zoned
  else true

/-- Media-modifying I/O commands (R97); a Take Submit is one where it commits an output range. -/
def Sqe.modifies (q : Sqe) : Bool :=
  q.opc = 0x01 || q.opc = 0x08 || (q.opc = 0x09 && q.deallocates) || q.opc = 0x7D || q.opc = 0x79

/-- Input and output counts and the task count of a take descriptor (Table 10.2). -/
def Sqe.takeTasks (q : Sqe) : Nat := field q.data 9 1

/-- A take descriptor has an output range of KIND 0. -/
def Sqe.takeCommits (q : Sqe) : Bool :=
  let nIn := field q.data 6 1
  (List.range (field q.data 7 1)).any fun i => field q.data (64 + 32 * (nIn + i)) 1 = 0

end Sys2Proof

namespace Sys2Proof.Machine

namespace State

/-! ## Commands in flight -/

def cmd? (s : State) (key : CmdKey) : Option Cmd := s.host.cmds.find? fun (c : Cmd) => c.key = key

def modCmd (s : State) (key : CmdKey) (g : Cmd → Cmd) : State :=
  s.modHost fun h => { h with cmds := mapWhere h.cmds (fun (c : Cmd) => c.key = key) g }

/-- A POSTED or DISCARDED command is no longer in flight. -/
def dropCmd (s : State) (key : CmdKey) : State :=
  s.modHost fun h => { h with cmds := h.cmds.filter fun (c : Cmd) => c.key ≠ key }

/-- The command of a key, if it executes and has the opcode; admin commands are those of queue 0. -/
def executing (s : State) (key : CmdKey) (opc : Nat) (admin : Bool) : Option Cmd :=
  match s.cmd? key with
  | some c => if c.st = .executing && c.sqe.opc = opc && decide (key.sq = 0) = admin then some c else none
  | none => none

/-- Tenant of a function (function n + 1 is tenant n). -/
def fnTenant (fn : Nat) : Nat := fn - 1

/-- State code of a tenant (Table 04.1). -/
def instSt (s : State) (n : Nat) : Nat := s.getF (F.instStatusState n)

/-- The tenant counts as enabled (R133). -/
def instEnabled (s : State) (n : Nat) : Bool := 3 ≤ s.instSt n && s.instSt n ≤ 5

/-- Slate owner of a function's work: FIRMWARE for the physical function and for a tenant that is absent
(R54, R616). -/
def fnOwner (s : State) (fn : Nat) : Nat :=
  if fn = 0 || !s.ownerPresent (fn - 1) then ownFirmware else fn - 1

/-- The instance of a function: none for the physical function. -/
def fnInst (fn : Nat) : Nat := if fn = 0 then noTenant else fn - 1

/-- Ends a command with a status and dwords 0 and 1; space of an incomplete write is released. -/
def failWith (s : State) (key : CmdKey) (st : Status) (dw1 : Nat) : State :=
  (s.endCmd key st.1 st.2.1 st.2.2 dw1 []).releaseBuffer key

/-- Ends a command with a status and dword 0. -/
def fail (s : State) (key : CmdKey) (st : Status) : State := s.failWith key st 0

/-! ## Readiness and fetching -/

/-- The device serves its controllers: the logic die runs and the start has reached step 12 (R575). -/
def hostUp (s : State) : Bool :=
  s.logicOn && s.pwr.starting.isNone && !s.pwr.failing && s.pwr.resetting.isNone

/-- DOUBLE and FENCED devices close the host data path (R486), and a PRINCIPAL keeps it closed until its role
is settled (R485). -/
def roleClosed (s : State) : Bool :=
  s.role = roleDouble || s.role = roleFenced || (s.role = rolePrincipal && s.onF F.cntCtrlLinkEn && !s.cnt.settled)

/-- CSTS.RDY of a controller (R134, R486, R575). -/
def ctrlReady (s : State) (fn : Nat) : Bool :=
  (s.ctrl fn).rdy && s.hostUp && (fn = 0 || (s.instEnabled (fn - 1) && !s.roleClosed))

/-- Mode whose fetch rules apply: the target of a running transition that stops fetching, else the
present mode (Table 15.10). -/
def fetchMode (s : State) : Mode := match s.pwr.trans with
  | some t => if t.idle then s.mode else t.target
  | none => s.mode

/-- Entries of a take in ADMIT_WAIT are short (R361). -/
def takeShort (s : State) (c : Cmd) : Bool :=
  let n := fnTenant c.key.fn
  c.sqe.opc = 0x81 && c.key.sq ≠ 0 && c.key.fn ≠ 0 &&
    !(s.getF (F.instUseAContexts n) < s.getF (F.instQuotaCContextQuota n)
      && s.getF (F.instUseBTasks n) + c.sqe.takeTasks ≤ s.getF (F.instQuotaTTaskQuota n))

/-- The task scheduler reports its table or a ready list full for a tenant (R92, R361, R370). -/
def schedFull (s : State) (n : Nat) : Bool :=
  (s.host.cmds.any fun (c : Cmd) => c.key.fn = n + 1 && c.st = .admitWait && s.takeShort c)
    || s.tsk.chain.any fun e => e.2.any fun i => match s.task i with
        | some t => match s.ctx t.ctx with
          | some x => x.tenant = n
          | none => false
        | none => false

/-! ## Decode checks -/

/-- The namespace exists and is attached to the function. -/
def nsAttachedTo (s : State) (nsid fn : Nat) : Bool := match s.ns nsid with
  | some n => n.attached.contains fn
  | none => false

/-- Namespaces that a command covers: for a broadcast Flush every one attached (R105). -/
def cmdNsids (s : State) (fn : Nat) (q : Sqe) : List Nat :=
  if isTakeOpc q.opc then []
  else if q.opc = 0x00 && q.nsid = 0xFFFFFFFF then s.nsids.filter fun i => s.nsAttachedTo i fn
  else [q.nsid]

/-- MODE_DENIED with the present mode (Table 03.12). -/
def modeDenied (s : State) : Status := (7, 0xC0, s.getF F.pwrModeMode)

/-- Check 4 for an I/O command (R97, R530, Table 15.14). -/
def ioModeCheck (s : State) (modifies : Bool) : Option Status :=
  let m := s.mode
  if m = .service || m = .safe then some s.modeDenied
  else if m = .readOnly && modifies then
    if s.getF F.pwrModeCause = 2 then some (7, 0xC1, 5) else some s.modeDenied
  else none

/-- Check 5 (R119, Table 03.12). -/
def dweCheck (s : State) (fn : Nat) (nsids : List Nat) : Option Status :=
  let c := s.ctrl fn
  match nsids.find? c.dweConds.contains with
  | some i => some (7, 0xC2, c.dwes.countP (fun d => d.nsid = i) % 65536 + (if c.dweLost = 0 then 0 else 65536))
  | none => none

/-- A mode accepts an admin command of the physical function (Table 15.14). -/
def adminAccepted (m : Mode) (q : Sqe) : Bool :=
  let o := q.opc
  if m = .dormant || m = .standby then false
  else if o = 0x80 || o = 0x84 || (o = 0x14 && q.dw10 % 16 = 2) then m = .service
  else if o = 0x14 && q.dw10 % 16 = 1 then m = .ready || m = .active
  else if o = 0x0D || o = 0x15 || o = 0xC1 || o = 0xC5 || o = 0xC8 || 0xD0 ≤ o then m ≠ .safe
  else true

/-- Admin commands that are orders (R99). -/
def adminOrder (q : Sqe) : Bool :=
  q.opc = 0x80 || q.opc = 0x84 || q.opc = 0x0D || q.opc = 0x15 || q.opc = 0x10
    || (q.opc = 0xC1 && bit q.dw11 0) || 0xD0 ≤ q.opc

/-- Fields of an admin command that only some values make valid (check 2). -/
def adminFieldsOk (q : Sqe) : Bool :=
  let o := q.opc
  if o = 0x01 || o = 0x05 then bit q.dw11 0
  else if o = 0x02 then (q.dw10 / 65536 + 65536 * (q.dw11 % 65536) + 1) * 4 ≤ 2 ^ 20
  else if o = 0x0A then bits q.dw10 8 3 = 0
  else if o = 0x0D || o = 0x15 then q.dw10 % 16 < 2
  else if o = 0x10 then bits q.dw10 3 3 < 4 && !bit q.dw10 31
  else if o = 0x11 then (q.dw10 + 1) % 1024 = 0 && q.dw11 % 1024 = 0 && (q.dw10 + 1) * 4 ≤ 2 ^ 20
  else if o = 0x14 then q.dw10 % 16 = 1 || q.dw10 % 16 = 2 || q.dw10 % 16 = 0xF
  else if o = 0x80 then q.dw10 % 16 < 2 && bits q.dw10 4 5 = 0 && (bits q.dw10 9 3 = 0 || bits q.dw10 9 3 = 2)
  else if o = 0x84 then q.dw10 % 8 = 1 || q.dw10 % 8 = 2 || q.dw10 % 8 = 4
  else if o = 0xC1 || o = 0xC2 then q.dw10 = slateLen
  else true

/-- Check 3 for an admin command: the NSID of a command that names a namespace. -/
def adminNsOk (s : State) (fn : Nat) (q : Sqe) : Bool :=
  let o := q.opc
  let all := q.nsid = 0xFFFFFFFF
  if o = 0x02 then q.nsid = 0 || all || s.nsAttachedTo q.nsid fn
  else if o = 0x0D then q.dw10 % 16 = 0 || all || (s.ns q.nsid).isSome
  else if o = 0x15 then (s.ns q.nsid).isSome
  else if o = 0x80 then all || (s.ns q.nsid).isSome
  else if o = 0x14 then q.nsid = 0 || all || (s.ns q.nsid).isSome
  else true

/-- The decode checks of an admin command (Table 03.4, R101, R486, R529, R530). -/
def adminDecode (s : State) (fn : Nat) (q : Sqe) : Option Status :=
  match adminReserved q.opc with
  | none => some (0, 0x01, 0)
  | some masks =>
    if fn ≠ 0 && pfOnly q.opc then some (0, 0x01, 0)
    else if !q.shapeOk true masks || !adminFieldsOk q then some (0, 0x02, 0)
    else if !s.adminNsOk fn q then some (0, 0x0B, 0)
    else if fn ≠ 0 && (s.inMode .service || s.inMode .safe)
        && !(q.opc = 0x06 || q.opc = 0x02 || q.opc = 0x0A || q.opc = 0x0C) then some s.modeDenied
    else if fn = 0 && !adminAccepted s.mode q then some s.modeDenied
    else if adminOrder q && s.orderBarred (fun m => adminAccepted m q) then some s.modeDenied
    else if s.roleClosed && (q.opc = 0x0D || q.opc = 0x15 || 0xD0 ≤ q.opc) then some (0, 0x0C, 0)
    else none

/-! ## Zones (R107, R270) -/

/-- The band of the zone that holds an LBA of a zoned-disk namespace. -/
def zoneAt (s : State) (nsid lba : Nat) : Option Nat := s.zoneBand nsid (lba / 65536)

/-- Zone states as the zone descriptor codes them: Empty 1, Implicitly Opened 2, Explicitly Opened 3,
Closed 4, Read Only 0xD, Full 0xE, Offline 0xF (R107, R245, R270). -/
def zoneState (s : State) (b : Nat) : Nat :=
  let x := s.band b
  let act := s.bandAct b
  let offline := match act with
    | some a => !s.actOnline a
    | none => true
  if offline || s.bandHead b = .offline || x.st = .clockBad || x.st = .retired || x.st = .unusable || x.zopen = 4 then 0xF
  else if s.bandHead b = .readOnly then 0xD
  else if x.st = .full || x.capacity ≤ x.zwp then 0xE
  else if x.zopen = 1 then 2 else if x.zopen = 2 then 3 else if x.zopen = 3 then 4
  else if x.zwp = 0 then 1 else 4

/-- Bands of zones on an actuator. -/
def zoneBandsOn (s : State) (act : Nat) : List Nat :=
  ((s.nsids.filterMap s.ns).flatMap fun n => n.zones.filterMap fun e => if e.1 = act then some e.2 else none)

/-- Active zones (opened or closed) and open zones of an actuator. -/
def activeZones (s : State) (act : Nat) : Nat :=
  (s.zoneBandsOn act).countP fun b => let z := s.zoneState b; z = 2 || z = 3 || z = 4
def openZones (s : State) (act : Nat) : Nat :=
  (s.zoneBandsOn act).countP fun b => let z := s.zoneState b; z = 2 || z = 3

/-- A zone may be opened: 16 active and 16 open zones per actuator (R107); an implicitly opened zone is
closed to make room. -/
def zoneOpenCheck (s : State) (b : Nat) : Option Status :=
  let act := (s.bandAct b).getD 0
  let z := s.zoneState b
  if z = 1 && 16 ≤ s.activeZones act then some (1, 0xBD, 0)
  else if (z = 1 || z = 4) && 16 ≤ s.openZones act
      && !((s.zoneBandsOn act).any fun x => s.zoneState x = 2) then some (1, 0xBE, 0)
  else none

/-- A zone write of `n` blocks at an LBA is permitted now (check 7). -/
def zoneWriteCheck (s : State) (nsid lba n : Nat) (append : Bool) : Option Status :=
  match s.zoneAt nsid lba with
  | none => some (0, 0x80, 0)
  | some b =>
    let z := s.zoneState b
    let x := s.band b
    if z = 0xF then some (1, 0xBB, 0)
    else if z = 0xD then some (1, 0xBA, 0)
    else if z = 0xE then some (1, 0xB9, 0)
    else if x.capacity < (if append then x.zwp else lba % 65536) + n then some (1, 0xB8, 0)
    else if !append && lba % 65536 ≠ x.zwp then some (1, 0xBC, 0)
    else s.zoneOpenCheck b

/-- A Zone Send Action that the state of a zone does not permit (ZNS). Codes: 1 close, 2 finish, 3 open, 4 reset,
5 offline. -/
def zoneActionDenied (s : State) (nsid zone act : Nat) : Option Status :=
  match s.zoneBand nsid zone with
  | none => some (0, 0x80, 0)
  | some b =>
    let z := s.zoneState b
    if z = 0xF then some (1, if act = 5 then 0xBF else 0xBB, 0)
    else if act = 5 then if z = 0xD then none else some (1, 0xBF, 0)
    else if z = 0xD then some (1, 0xBA, 0)
    else if act = 1 then if z = 2 || z = 3 || z = 4 then none else some (1, 0xBF, 0)
    else if act = 3 then if z = 0xE then some (1, 0xBF, 0) else if z = 3 then none else s.zoneOpenCheck b
    else none

/-- Check 7 (zoned-disk only). A zone that is Offline serves reads only through the double (R500). -/
def zoneCheck (s : State) (q : Sqe) : Option Status :=
  match s.ns q.nsid with
  | none => none
  | some n =>
    if n.type ≠ .zoned then none
    else if q.opc = 0x01 then s.zoneWriteCheck q.nsid q.lba q.blocks false
    else if q.opc = 0x7D then s.zoneWriteCheck q.nsid q.lba q.blocks true
    else if q.opc = 0x79 then if bit q.dw13 8 then none else s.zoneActionDenied q.nsid (q.lba / 65536) (q.dw13 % 256)
    else if q.opc = 0x02 || q.opc = 0x0C then
      let zs := (List.range ((q.lba + q.blocks - 1) / 65536 - q.lba / 65536 + 1)).map (q.lba / 65536 + ·)
      let off := zs.any fun z => match s.zoneBand q.nsid z with
        | some b => s.zoneState b = 0xF
        | none => true
      if off && !(q.opc = 0x02 && s.throughDouble q.nsid q.lba q.blocks) then some (1, 0xBB, 0) else none
    else none

/-- Data length of an I/O command in bytes, as it is charged (Table 04.6). -/
def dataBytes (s : State) (q : Sqe) : Nat :=
  if q.opc = 0x01 || q.opc = 0x02 || q.opc = 0x0C || q.opc = 0x7D then match s.ns q.nsid with
    | some n => q.blocks * n.block
    | none => 0
  else if q.opc = 0x7A then (q.dw12 + 1) * 4
  else 0

/-- The decode checks of an I/O command (Table 03.4, R104, R486); those of a take descriptor follow its
fetch (R359). -/
def ioDecode (s : State) (fn : Nat) (q : Sqe) : Option Status :=
  if s.roleClosed then some (0, 0x82, 0)
  else match ioReserved q.opc with
  | none => some (0, 0x01, 0)
  | some masks =>
    if isTakeOpc q.opc then
      if fn = 0 || (q.opc = 0x81 && !s.onF (F.instStatusTakesAllowed (fn - 1))) then some (0, 0x01, 0)
      else if !q.shapeOk false masks then some (0, 0x02, 0)
      else if q.nsid ≠ 0 then some (0, 0x02, 0xFFFFFFFF)
      else if q.opc = 0x81 then none
      else s.ioModeCheck false
    else
      let nsids := s.cmdNsids fn q
      let wrongType := match s.ns q.nsid with
        | some n => n.attached.contains fn && !ioTypeOk q.opc n.type
        | none => false
      if wrongType then some (0, 0x01, 0)
      else if !q.shapeOk false masks || !q.zoneFieldsOk || (q.opc ≠ 0x0C && 2 ^ 20 < s.dataBytes q) then some (0, 0x02, 0)
      else if nsids.any fun i => !s.nsAttachedTo i fn then some (0, 0x0B, 0)
      else if nsids.any fun i => match s.ns i with
          | some n => n.notReady
          | none => false then some (0, 0x82, 0)
      else match s.ioModeCheck q.modifies with
      | some st => some st
      | none => match s.dweCheck fn nsids with
        | some st => some st
        | none =>
          let size := match s.ns q.nsid with
            | some n => n.size
            | none => 0
          if q.ranges.any fun r => size < r.1 + r.2 then some (0, 0x80, 0)
          else s.zoneCheck q

/-! ## Admission (R150) -/

/-- Range-lock entries that a command needs (R108). Zone Management Send and Receive take none: DESIGN CHOICE, since
the rule lists them neither among the takers nor among the others (log entry 176). -/
def lockRanges (q : Sqe) : List LockRange :=
  let excl := q.opc ≠ 0x02 && q.opc ≠ 0x0C
  if q.opc = 0x7D then [{ ns := q.nsid, first := q.lba / 65536 * 65536, count := 65536, excl := true }]
  else if q.opc = 0x79 || q.opc = 0x7A then []
  else q.ranges.map fun r => { ns := q.nsid, first := r.1, count := r.2, excl := excl }

/-- Signed bucket levels (Table 04.10). -/
def byteLevel (s : State) (n : Nat) : Int := signedOf 32 (s.getF (F.instByteLevelLevel n))
def cmdLevel (s : State) (n : Nat) : Int := signedOf 32 (s.getF (F.instCmdLevelLevel n))
def setByteLevel (s : State) (n : Nat) (v : Int) : State := s.setF (F.instByteLevelLevel n) (unsignedOf 32 v)
def setCmdLevel (s : State) (n : Nat) (v : Int) : State := s.setF (F.instCmdLevelLevel n) (unsignedOf 32 v)

/-- Both levels of a tenant are above zero; a bucket whose rate is 0 is not checked. -/
def bucketsOk (s : State) (n : Nat) : Bool :=
  (s.getF (F.instByteRateRate n) = 0 || 0 < s.byteLevel n) && (s.getF (F.instCmdRateRate n) = 0 || 0 < s.cmdLevel n)

/-- Takes a charge of bytes and commands. -/
def chargeBuckets (s : State) (n bytes cmds : Nat) : State :=
  let s := if s.getF (F.instByteRateRate n) = 0 then s else s.setByteLevel n (s.byteLevel n - bytes)
  if s.getF (F.instCmdRateRate n) = 0 then s else s.setCmdLevel n (s.cmdLevel n - 1000 * cmds)

/-- Returns bytes to the byte bucket, capped at the burst (R115, R152). -/
def refundBytes (s : State) (n bytes : Nat) : State :=
  if s.getF (F.instByteRateRate n) = 0 then s
  else s.setByteLevel n (min (s.byteLevel n + bytes) (s.getF (F.instByteBurstBurst n) * 4096))

/-- The command may leave ADMIT_WAIT: every command of the function decoded earlier has left it, and the
buckets permit (R150, R361). -/
def admitOk (s : State) (c : Cmd) : Bool :=
  (s.host.cmds.all fun (x : Cmd) => !(x.key.fn = c.key.fn && x.st = .admitWait && x.seq < c.seq))
    && (c.key.fn = 0 || s.bucketsOk (fnTenant c.key.fn)) && !s.takeShort c

/-! ## Range locks (R108–R111) -/

/-- Commands that hold their entries. -/
def lockHolders (s : State) : List Cmd :=
  s.host.cmds.filter fun (c : Cmd) => c.held && (c.st = .lockWait || c.st = .executing)

/-- The shared range that the resync of an extent locks (R501). -/
def resyncLock (s : State) : Option LockRange :=
  (s.cnt.resync.bind (·.lock)).bind fun e => (s.ns e.1).map fun n =>
    { ns := e.1, first := e.2 * (2 ^ 20 / n.block), count := 2 ^ 20 / n.block, excl := false }

/-- Entries of the device's own: the task file's and the resync's. -/
def ownLocks (s : State) : Nat :=
  (if s.mgt.tf.phase = .run then s.mgt.tf.ranges.length else 0) + s.resyncLock.toList.length

/-- Entries in use. -/
def locksInUse (s : State) : Nat := (s.lockHolders.map fun (c : Cmd) => c.ranges.length).sum + s.ownLocks

/-- Pool entries that a function holds. -/
def poolHeld (s : State) (fn : Nat) : Nat :=
  ((s.lockHolders.filter fun (c : Cmd) => c.key.fn = fn).map fun (c : Cmd) => c.ranges.length - c.reserved.toNat).sum

/-- Entries in use of the shared pool, and its size: one entry is reserved per enabled tenant. -/
def poolUsed (s : State) : Nat :=
  (s.lockHolders.map fun (c : Cmd) => c.ranges.length - c.reserved.toNat).sum + s.ownLocks
def poolSize (s : State) : Nat := 4096 - (List.range 512).countP s.instEnabled

/-- The reserved entry of the command's tenant is free to it. -/
def reservedFree (s : State) (c : Cmd) : Bool :=
  c.key.fn ≠ 0 && s.instEnabled (fnTenant c.key.fn)
    && !(s.lockHolders.any fun (x : Cmd) => x.key.fn = c.key.fn && x.reserved)

/-- Pool entries that the command needs now. -/
def poolNeed (s : State) (c : Cmd) : Nat := c.ranges.length - (s.reservedFree c).toNat

/-- The tenant's LOCK_LIMIT lets the command take its pool entries (R111, R156). -/
def limitOk (s : State) (c : Cmd) : Bool :=
  c.key.fn = 0 || s.poolNeed c = 0
    || s.poolHeld c.key.fn + s.poolNeed c ≤ s.getF (F.instQuotaQLockLimit (fnTenant c.key.fn))

/-- An earlier command of another function waits for the pool. -/
def poolQueued (s : State) (c : Cmd) : Bool :=
  s.host.cmds.any fun (x : Cmd) => x.st = .lockWait && !x.held && x.arrival < c.arrival
    && 0 < s.poolNeed x && s.limitOk x

/-- The command can take all its entries now (R108, R111). -/
def canTake (s : State) (c : Cmd) : Bool :=
  (s.host.cmds.all fun (x : Cmd) =>
      !(x.key.fn = c.key.fn && x.st = .lockWait && !x.held && x.arrival < c.arrival))
    && s.limitOk c
    && (s.poolNeed c = 0 || (!s.poolQueued c && s.poolUsed + s.poolNeed c ≤ s.poolSize))

/-- Pool entries that a command needs are there, and its tenant's limit lets it have them (R111). -/
def entriesFree (s : State) (c : Cmd) : Bool :=
  s.limitOk c && (s.poolNeed c = 0 || s.poolUsed + s.poolNeed c ≤ s.poolSize)

/-- R111 stops fetching for a tenant: the first of its commands that waits for entries finds none free. -/
def lockStalled (s : State) (n : Nat) : Bool :=
  let waits := s.host.cmds.filter fun (c : Cmd) => c.key.fn = n + 1 && c.st = .lockWait && !c.held
  match waits.find? fun (c : Cmd) => waits.all fun (x : Cmd) => c.arrival ≤ x.arrival with
  | some c => !s.entriesFree c
  | none => false

/-- The tenants whose fetching R111 has stopped now; those it has newly stopped are counted (R131). -/
def noteStalls (s : State) : State :=
  let now := (List.range 512).filter s.lockStalled
  let new := now.filter fun n => !s.host.lockStall.contains n
  (s.modHost fun h => { h with lockStall := now }).addF F.hifEventCntLockStall new.length

/-! ## Fetching -/

/-- Entries of the queue may be fetched now (R92, Tables 04.1 and 15.10). -/
def queueFetched (s : State) (fn sq : Nat) : Bool :=
  let m := s.fetchMode
  let handover := match s.cnt.order with
    | some o => o.op = 2
    | none => false
  s.ctrlReady fn && !s.host.fwHold && !handover
    && m ≠ .dormant && m ≠ .standby
    && (sq = 0 || !(m = .safe || (m = .service && fn ≠ 0)))
    && (fn = 0 || (s.instSt (fn - 1) = 3 && !s.lockStalled (fn - 1) && !s.schedFull (fn - 1)))

/-- The queue holds an entry that the host has placed and the device has not fetched. -/
def queueFilled (s : State) (fn sq : Nat) : Bool :=
  match sparseGet (fun _ => none) (s.ctrl fn).sqs sq with
  | some q => q.head ≠ q.tail
  | none => false

/-- The queue that the round-robin arbiter serves next (R91): the last one until its burst is used up,
else the next one in turn. -/
def arbiterPick (s : State) (fn : Nat) : Option Nat :=
  let c := s.ctrl fn
  let ready := (c.sqs.map (·.1)).filter fun q => s.queueFilled fn q && s.queueFetched fn q
  if ready.contains c.rrSq && 0 < c.rrServed && (c.arb = 7 || c.rrServed < 2 ^ c.arb) then some c.rrSq
  else match ready.find? (c.rrSq < ·) with
    | some q => some q
    | none => ready.head?

/-! ## Conflicts -/

/-- Two ranges overlap. -/
def rangesMeet (a b : LockRange) : Bool :=
  a.ns = b.ns && a.first < b.first + b.count && b.first < a.first + a.count

/-- Two commands conflict (R109). -/
def conflicts (a b : Cmd) : Bool :=
  a.ranges.any fun x => b.ranges.any fun y => rangesMeet x y && (x.excl || y.excl)

/-- The key under which the task file's writes stand in the buffer and in mirror messages. -/
def tfKey : CmdKey := { fn := 0, sq := 0xFFFF, cid := 0xFFFF }

/-- The task-file command in BUSY has its final status. -/
def tfEnd (s : State) (sct sc : Nat) (result : List Byte) : State :=
  s.modMgt fun m => { m with tf := { m.tf with
    phase := .ended, sct := sct, sc := sc, result := result,
    mode := if sct = 7 && sc = 0xC0 then s.getF F.pwrModeMode else 0 } }

/-- The task file holds or waits for a conflicting lock and came earlier, or the resync holds one (R108, R501). -/
def tfConflicts (s : State) (c : Cmd) : Bool :=
  (s.resyncLock.any fun y => c.ranges.any fun x => x.excl && rangesMeet x y) ||
  (s.mgt.tf.phase = .lock || s.mgt.tf.phase = .run) && s.mgt.tf.arrival < c.arrival
    && c.ranges.any fun x => s.mgt.tf.ranges.any fun y => rangesMeet x y && (x.excl || y.excl)

/-- Earlier commands that the command conflicts with and that have not completed. -/
def earlierConflicts (s : State) (c : Cmd) : List Cmd :=
  s.host.cmds.filter fun (x : Cmd) => x.arrival < c.arrival && (x.st = .lockWait || x.st = .executing) && conflicts x c

/-- The write that serves a read at once (R110): the latest earlier complete one that covers it, with no
exclusive command on the range in between, and no conflicting write incomplete. -/
def fallbackOf (s : State) (c : Cmd) : Option Nat :=
  let conf := s.earlierConflicts c
  let covers := fun (x : Cmd) => x.sqe.opc = 0x01 && x.key.sq ≠ 0 && x.dataIn &&
    c.ranges.all fun r => x.ranges.any fun w => w.ns = r.ns && w.first ≤ r.first && r.first + r.count ≤ w.first + w.count
  let latest := conf.foldl (fun (a : Nat) (x : Cmd) => max a x.arrival) 0
  if c.sqe.opc = 0x02 && c.key.sq ≠ 0
      && (conf.any fun (x : Cmd) => x.arrival = latest && covers x)
      && (conf.all fun (x : Cmd) => x.sqe.opc ≠ 0x01 || x.dataIn) then some latest else none

/-- Starts the media reads of a Read or Verify (R174, R262, R582), unless the key that its data needs is gone (R432). -/
def startReads (s : State) (c : Cmd) : State :=
  match s.ns c.sqe.nsid with
  | none => s
  | some n =>
    let per := 4096 / n.block
    let first := c.sqe.lba / per
    let units := (List.range (ceilDiv (c.sqe.lba % per + c.sqe.blocks) per)).map (first + ·)
    if (s.nsKey c.sqe.nsid).isNone then s
    else s.readUnits (.cmd c.key) c.sqe.nsid units (fnTraffic c.key.fn) (fnInst c.key.fn) c.gen

/-- The command enters EXECUTING. -/
def startExec (s : State) (c : Cmd) : State :=
  let s := s.modCmd c.key fun c => { c with st := .executing }
  if (c.sqe.opc = 0x02 || c.sqe.opc = 0x0C) && c.key.sq ≠ 0 && c.fallback.isNone then s.startReads c
  else if c.sqe.opc = 0x81 && c.key.sq ≠ 0 then
    s.modTsk fun t => { t with ctxs := sparseMap (fun _ => none) (fun _ (x : Option Ctx) => x.map fun (x : Ctx) =>
      if x.key = c.key && x.st = .free then { x with st := .preparing, locked := true } else x) t.ctxs }
  else s

/-- The command leaves ADMIT_WAIT (R109, R150): it is charged and arrives at the range-lock table. -/
def admitCmd (s : State) (c : Cmd) : State :=
  let s := s.noteStalls
  let bytes := s.dataBytes c.sqe
  let bytes := if c.sqe.opc = 0x7A then 0 else bytes
  let s := if c.key.fn = 0 then s else s.chargeBuckets (fnTenant c.key.fn) bytes 1
  let charged := if c.key.fn = 0 then 0 else bytes
  let c := { c with st := .lockWait, arrival := s.host.nextArrival, charged := charged }
  let s := s.modCmd c.key fun _ => c
  let s := s.modHost fun h => { h with nextArrival := h.nextArrival + 1 }
  if c.ranges.isEmpty then s.startExec c else s.noteStalls

/-! ## Interrupts and completion -/

/-- MSI-X vectors of a function: 32 for the physical function, MSIX_VECTORS for a tenant (R83). -/
def vectorsOf (s : State) (fn : Nat) : Nat :=
  if fn = 0 then 32 else s.getF (F.instQuotaQMsixVectors (fn - 1))

/-- Sends an MSI-X message, or sets its pending bit while the vector is masked. -/
def interrupt (s : State) (fn v : Nat) : State :=
  s.modCtrl fn fun c =>
    let e := sparseGet (fun _ => MsixEntry.reset) c.msix v
    if e.masked then { c with msix := sparsePut (fun _ => MsixEntry.reset) c.msix v { e with pend := true } }
    else { c with irqs := c.irqs ++ [v] }

/-- Free entries of a completion queue. -/
def cqRoom (s : State) (fn cq : Nat) : Nat :=
  match sparseGet (fun _ => none) (s.ctrl fn).cqs cq with
  | some q => q.size - 1 - q.entries.length
  | none => 0

/-- The completion queue of a submission queue. -/
def cqOf (s : State) (fn sq : Nat) : Option (Nat × Sq) :=
  (sparseGet (fun _ => none) (s.ctrl fn).sqs sq).map fun (q : Sq) => (q.cq, q)

/-- Counters of the SMART page (R235): 512-byte data units and commands of reads and writes, by namespace. -/
def countSmart (s : State) (c : Cmd) : State :=
  if c.key.sq = 0 || c.sct ≠ 0 || c.sc ≠ 0 then s
  else
    let bytes := s.dataBytes c.sqe
    let add := fun (m : Sparse Nat) (v : Nat) =>
      sparsePut (fun _ => 0) m c.sqe.nsid (sparseGet (fun _ => 0) m c.sqe.nsid + v)
    s.modFtl fun f =>
      if c.sqe.opc = 0x02 then
        { f with unitsRead := add f.unitsRead (bytes / 512), readCmds := add f.readCmds 1 }
      else if c.sqe.opc = 0x01 || c.sqe.opc = 0x7D then
        { f with unitsWritten := add f.unitsWritten (bytes / 512), writeCmds := add f.writeCmds 1 }
      else f

/-- A failed command enters the Error Information page, newest first, 64 entries (Table 03.6). -/
def noteError (s : State) (c : Cmd) : State :=
  if c.sct = 0 && c.sc = 0 then s
  else s.modCtrl c.key.fn fun x =>
    let e : ErrEntry :=
      { count := x.errCount + 1, sq := c.key.sq, cid := c.key.cid, sct := c.sct, sc := c.sc,
        lba := if c.key.sq = 0 then 0 else c.sqe.lba, nsid := c.sqe.nsid }
    { x with errors := (e :: x.errors).take 64, errCount := x.errCount + 1 }

/-- Script images with no registration and no take past decode are freed (R126, R356). -/
def sweepImages (s : State) : State :=
  s.modTsk fun t =>
    let used := fun (i : Nat) => (t.slots.any fun e => e.2 = some i)
      || t.ctxs.any fun e => match e.2 with
        | some (x : Ctx) => x.script = i
        | none => false
      || s.host.cmds.any fun (c : Cmd) => c.image = some i
    { t with images := sparseKeep used t.images }

/-- Automaton sets of a take are freed with its context (R394). -/
def dropSets (s : State) (h : Nat) : State :=
  s.modPmx fun x => { x with sets := x.sets.filter fun e => match e.2 with
    | some (a : AutoSet) => a.ctx ≠ some h
    | none => false }

/-- The contexts of a Take Submit are free once its completion is posted (Table 10.7). -/
def freeCtx (s : State) (h : Nat) : State :=
  match s.ctx h with
  | none => s
  | some x =>
    let s := forEach x.tasks s fun s i => s.setTask i none
    let s := (s.subF F.tskTaskUseInUse x.tasks.length).subF F.tskCtxUseInUse 1
    let s := (s.subF (F.instUseBTasks x.tenant) x.tasks.length).subF (F.instUseAContexts x.tenant) 1
    ((s.setCtx h none).dropSets h).sweepImages

/-- Handles of the contexts of a command. -/
def ctxsOf (s : State) (key : CmdKey) : List Nat :=
  (s.tsk.ctxs.filter fun e => match e.2 with
    | some (x : Ctx) => x.key = key && !x.silent
    | none => false).map (·.1)

/-- Media reads of a command or its takes that are still under way have no reader any more. -/
def orphanReads (s : State) (key : CmdKey) : State :=
  let hs := s.ctxsOf key
  s.forgetReads fun r => !s.isStale r.inst r.gen && match r.reader with
    | .cmd k => k = key
    | .take h _ => hs.contains h
    | _ => false

/-- A command leaves the device with the contexts and the script image that only it still used. -/
def retireCmd (s : State) (c : Cmd) : State :=
  let hs := s.ctxsOf c.key
  let s := (s.orphanReads c.key).dropCmd c.key
  let s := forEach hs s freeCtx
  if c.image.isSome then s.sweepImages else s

/-- Cells that the completion of a command needs (R54): its entry, its interrupt, and its data but for that of a
Read, which has been sent before. -/
def postNeeds (s : State) (c : Cmd) : List CellNeed :=
  let irq : Bool := match s.cqOf c.key.fn c.key.sq with
    | some (cq, _) => match sparseGet (fun _ => none) (s.ctrl c.key.fn).cqs cq with
      | some w => w.ien && !(sparseGet (fun _ => MsixEntry.reset) (s.ctrl c.key.fn).msix w.vector).masked
      | none => false
    | none => false
  let data := if c.sqe.opc = 0x02 && c.key.sq ≠ 0 then 0 else ceilDiv c.out.length 256
  [{ col := colHdw, owner := fnTraffic c.key.fn, count := 1 + irq.toNat + data }]

/-- Writes the completion entry and the interrupt of a command: it is POSTED (R94). -/
def postCmd (s : State) (c : Cmd) : State :=
  match s.cqOf c.key.fn c.key.sq with
  | none => s.retireCmd c
  | some (cq, q) =>
    let s := (s.countSmart c).noteError c
    let e := fun (ph : Bool) => ({ sq := c.key.sq, cid := c.key.cid, sqHead := q.head, sct := c.sct, sc := c.sc,
                                   dw0 := c.dw0, dw1 := c.dw1, phase := ph, data := c.out } : Cqe)
    let put := fun (w : Cq) =>
      { w with entries := w.entries ++ [e w.phase], tail := (w.tail + 1) % max 1 w.size,
               phase := if w.tail + 1 = w.size then !w.phase else w.phase }
    let s := s.modCtrl c.key.fn fun x =>
      { x with cqs := sparsePut (fun _ => none) x.cqs cq ((sparseGet (fun _ => none) x.cqs cq).map put) }
    let s := match sparseGet (fun _ => none) (s.ctrl c.key.fn).cqs cq with
      | some w => if w.ien then s.interrupt c.key.fn w.vector else s
      | none => s
    s.retireCmd c

/-- A caught command that must be posted before this one (R116). -/
def waitsCaught (s : State) (c : Cmd) : Bool :=
  let abort := c.key.sq = 0 && c.sqe.opc = 0x08 && c.sct = 0 && c.sc = 0 && c.dw0 % 2 = 0
  let cancel := c.key.sq ≠ 0 && c.sqe.opc = 0x84 && c.sct = 0 && c.sc = 0 && c.dw0 % 2 = 0
  (abort && s.host.cmds.any fun (x : Cmd) =>
      x.caught && x.key = { fn := c.key.fn, sq := c.sqe.dw10 % 65536, cid := c.sqe.dw10 / 65536 })
    || (cancel && s.host.cmds.any fun (x : Cmd) =>
      x.caught && x.sqe.opc = 0x81 && x.key.fn = c.key.fn && (s.ctxsOf x.key).contains (c.sqe.dw10 % 2 ^ 18))

/-- A new command of a function. -/
def newCmd (s : State) (key : CmdKey) (q : Sqe) : Cmd :=
  { key := key, sqe := q, st := .fetched,
    gen := if key.fn = 0 then 0 else s.getF (F.instStatusGen (key.fn - 1)),
    seq := s.host.nextSeq, arrival := 0, charged := 0, ranges := [], held := false, reserved := false,
    fallback := none, dataIn := false, image := none, fetching := false, ordered := false, won := false, sct := 0, sc := 0,
    dw0 := 0, dw1 := 0, out := [], caught := false }

/-- A decoded I/O command waits for admission; one that must wait is counted (Table 04.10). -/
def enterAdmit (s : State) (key : CmdKey) (ranges : List LockRange) : State :=
  let s := s.modCmd key fun c => { c with st := .admitWait, ranges := ranges, seq := s.host.nextSeq }
  let s := s.modHost fun h => { h with nextSeq := h.nextSeq + 1 }
  match s.cmd? key with
  | some c => if key.fn = 0 || s.admitOk c then s
    else
      let f := F.instAdmitStallCount (fnTenant key.fn)
      s.setF f ((s.getF f + 1) % 2 ^ 32)
  | none => s

/-- Decode of a fetched command (R96, R98): a failed check ends it; an admin command executes at once. A
Take Submit is decoded by a row of its own (R359). -/
def decodeCmd (s : State) (key : CmdKey) (q : Sqe) : State :=
  if key.sq ≠ 0 && q.opc = 0x81 then s
  else
  let r := if key.sq = 0 then s.adminDecode key.fn q else s.ioDecode key.fn q
  match r with
  | some st =>
    -- a Slate Load with ACTIVATE that its mode denies reports it in SLT_STATUS too (R74)
    let denied := key.sq = 0 && q.opc = 0xC1 && bit q.dw11 0 && st.1 = 7 && st.2.1 = 0xC0
    (if denied then s.noteOrderResult 2 else s).fail key st
  | none =>
    if key.sq = 0 then s.modCmd key fun c => { c with st := .executing }
    else s.enterAdmit key (lockRanges q)

end State

/-! ## Doorbells -/

/-- The doorbell exists: the function does, and the queue number is in its doorbell range (Tables 03.17
and 04.7). -/
def doorbellOk (s : State) (fn y : Nat) : Bool :=
  s.hostUp && (fn = 0 || s.vfExists (fn - 1)) && y < (if fn = 0 then 1024 else 256)

/-- SQ_TAIL_DOORBELL (R93, R154): a doorbell of a queue that is not created, or an invalid tail, is ignored
and raises Invalid Doorbell Write Value. -/
def execSqTailDoorbell (fn y tail : Nat) (s : State) : Host.Outcome State Fault Refusal :=
  if !doorbellOk s fn y then done s
  else match sparseGet (fun _ => none) (s.ctrl fn).sqs y with
    | none => done (s.raiseEvent fn 0 0x01 0x01)
    | some q =>
      if q.size ≤ tail then done (s.raiseEvent fn 0 0x01 0x01)
      else done ((s.modCtrl fn fun c => { c with sqs := sparsePut (fun _ => none) c.sqs y (some { q with tail := tail }) }).breakIdle)

/-- CQ_HEAD_DOORBELL (R93, R154): entries before the new head are free again. -/
def execCqHeadDoorbell (fn y head : Nat) (s : State) : Host.Outcome State Fault Refusal :=
  if !doorbellOk s fn y then done s
  else match sparseGet (fun _ => none) (s.ctrl fn).cqs y with
    | none => done (s.raiseEvent fn 0 0x01 0x01)
    | some q =>
      let n := (head + q.size - q.head) % max 1 q.size
      if q.size ≤ head || q.entries.length < n then done (s.raiseEvent fn 0 0x01 0x01)
      else done (s.modCtrl fn fun c =>
        { c with cqs := sparsePut (fun _ => none) c.cqs y (some { q with head := head, entries := q.entries.drop n }) })

/-! ## Fetch, locks and completion -/

/-- COMMAND_FETCH (R54, R91, R92, R94, R96): the queue that the arbiter picks gives its next entry, in an HDR cell of
the instance, and the entry is decoded. An entry whose identifier is still in flight stays in its queue until that
command is POSTED: DESIGN CHOICE, the spec is silent (log entry 122). -/
def execCommandFetch (fn sq : Nat) (sqe : Sqe) (s : State) : Host.Outcome State Fault Refusal :=
  let key : CmdKey := { fn := fn, sq := sq, cid := sqe.cid }
  if s.arbiterPick fn ≠ some sq || (s.cmd? key).isSome then done s
  else match sparseGet (fun _ => none) (s.ctrl fn).sqs sq with
    | none => done s
    | some q => s.moving [{ col := colHdr, owner := fnTraffic fn, count := 1 }] fun s =>
      let s := s.breakIdle
      let s := s.modCtrl fn fun c =>
        { c with sqs := sparsePut (fun _ => none) c.sqs sq (some { q with head := (q.head + 1) % max 1 q.size })
                 rrSq := sq, rrServed := if c.rrSq = sq && 0 < c.rrServed && (c.arb = 7 || c.rrServed < 2 ^ c.arb)
                   then c.rrServed + 1 else 1 }
      let s := s.modHost fun h => { h with cmds := h.cmds ++ [s.newCmd key sqe], nextSeq := h.nextSeq + 1 }
      done (s.decodeCmd key sqe)

/-- RANGE_LOCK_GRANT (R108–R111): the command takes its entries once they are free, and executes once no
earlier conflicting command is left, or at once on the fall-back. -/
def execRangeLockGrant (key : CmdKey) (s : State) : Host.Outcome State Fault Refusal :=
  match s.cmd? key with
  | none => done s
  | some c =>
    if c.st ≠ .lockWait || (!c.held && !s.canTake c) then done s
    else
      let s := s.noteStalls
      let c := if c.held then c else { c with held := true, reserved := s.reservedFree c }
      let s := (s.modCmd key fun _ => c).noteStalls
      let s := s.setF F.hifLockStatusPeak (max (s.getF F.hifLockStatusPeak) s.locksInUse)
      if s.tfConflicts c then done s
      else if (s.earlierConflicts c).isEmpty then done (s.startExec c)
      else match s.fallbackOf c with
        | some w =>
          let c := { c with fallback := some w }
          done (((s.modCmd key fun _ => c).incF F.hifEventCntFallback).startExec c)
        | none => done s

/-- COMPLETION_POST (R54, R94, R116, R559): the entry of a command whose status is final is written in HDW cells of the
instance, once its queue has room and no hold or caught command stands before it. -/
def execCompletionPost (key : CmdKey) (s : State) : Host.Outcome State Fault Refusal :=
  match s.cmd? key with
  | none => done s
  | some c =>
    let room := match s.cqOf key.fn key.sq with
      | some (cq, _) => 0 < s.cqRoom key.fn cq
      | none => true
    if c.st = .completing && room && !s.host.fwHold && s.hostUp && !s.waitsCaught c then
      s.moving (s.postNeeds c) fun s => done (s.postCmd c)
    else done s

end Sys2Proof.Machine
end

