-- ==== Sys2Proof/Machine/Queues.lean ====
section
/-! DEFINITION. Queue commands, features and asynchronous event requests (Tables 03.5 and 03.7, R90,
R93, R103, R130). -/

namespace Sys2Proof.Machine

namespace State

/-! ## Quotas (R90, R93) -/

/-- Tenants that hold a configuration record. -/
def configured (s : State) : List Nat := (s.ten.map (·.1)).filter fun n => s.instSt n ≠ 0

/-- Sum of a field of the records over the tenants not in DISABLED, leaving one out (R147). -/
def recordSum (s : State) (g : InstRec → Nat) (without : Option Nat) : Nat :=
  ((s.configured.filter fun n => some n ≠ without).filterMap fun n => (s.tenant n).record.map g).sum

/-- I/O queue pairs that the physical function holds. -/
def pfPairs (s : State) : Nat :=
  let c := s.ctrl 0
  max (c.sqs.countP (·.1 ≠ 0)) (c.cqs.countP (·.1 ≠ 0))

/-- The VIN_ALLOC registers follow the records and the physical function's queues (Table 04.11). -/
def syncAlloc (s : State) : State :=
  let s := s.setF F.vinAllocQQpairs (s.recordSum (·.ioqPairs) none + s.pfPairs)
  let s := s.setF F.vinAllocQVectors (s.recordSum (·.msixVectors) none + 32)
  let s := s.setF F.vinAllocCContexts (s.recordSum (·.contextQuota) none)
  s.setF F.vinAllocTTasks (s.recordSum (·.taskQuota) none)

/-- Queue quota of a controller: 1023 for the physical function, IOQ_PAIRS for a tenant. -/
def queueQuota (s : State) (fn : Nat) : Nat :=
  if fn = 0 then 1023 else s.getF (F.instQuotaQIoqPairs (fn - 1))

/-- Largest queue of a controller: CAP.MQES + 1. -/
def queueMax (s : State) (fn : Nat) : Nat :=
  if fn = 0 then 4096 else ((s.tenant (fn - 1)).record.map (·.queueEntries)).getD 0

/-- An I/O queue number is in the controller's range and, for the physical function, within the shared
limit of R90. -/
def queueIdOk (s : State) (fn id : Nat) (limit : Option Nat) (isNew : Bool) : Bool :=
  0 < id && id ≤ limit.getD (s.queueQuota fn)
    && (fn ≠ 0 || !isNew || s.recordSum (·.ioqPairs) none + s.pfPairs < 4096)

/-- Deletes every queue of a controller, the admin queue included, and clears its enable (R134). -/
def deleteQueues (s : State) (fn : Nat) : State :=
  let s := s.modCtrl fn fun c =>
    { c with cc := c.cc / 2 * 2, rdy := false, sqs := [], cqs := [], aers := [], rrSq := 0, rrServed := 0 }
  if fn = 0 then s.syncAlloc else s

/-- Creates the admin queue pair from AQA, ASQ and ACQ: up to 256 entries (R90). -/
def createAdmin (s : State) (fn : Nat) : State :=
  s.modCtrl fn fun c =>
    let sq : Sq :=
      { size := min 256 (bits c.aqa 0 12 + 1), head := 0, tail := 0, cq := 0, base := c.asq }
    let cq : Cq :=
      { size := min 256 (bits c.aqa 16 12 + 1), head := 0, tail := 0, phase := true, vector := 0, ien := true,
        base := c.acq, entries := [] }
    { c with sqs := sparsePut (fun _ => none) c.sqs 0 (some sq), cqs := sparsePut (fun _ => none) c.cqs 0 (some cq) }

/-! ## Events held for a request (R130) -/

/-- A new Asynchronous Event Request reports the oldest held event at once. -/
def serveEvents (s : State) (fn : Nat) : State :=
  let c := s.ctrl fn
  match c.aers, c.events with
  | key :: rest, e :: more =>
    (s.setCtrl fn { c with aers := rest, events := more, latched := if e.page = 0 then c.latched else c.latched ++ [e] }).endCmd
      key 0 0 (e.type + 2 ^ 8 * e.info + 2 ^ 16 * e.page) 0 []
  | _, _ => s

end State

/-! ## Queue commands -/

/-- CREATE_IO_COMPLETION_QUEUE (R101, R90, R93). -/
def execCreateIoCompletionQueue (key : CmdKey) (s : State) : Host.Outcome State Fault Refusal :=
  match s.executing key 0x05 true with
  | none => done s
  | some c =>
    let fn := key.fn
    let id := c.sqe.dw10 % 65536
    let size := c.sqe.dw10 / 65536 + 1
    let v := c.sqe.dw11 / 65536
    let x := s.ctrl fn
    let fresh := s.pfPairs ≤ x.cqs.countP (·.1 ≠ 0)
    if !s.queueIdOk fn id (x.numCq) fresh || (sparseGet (fun _ => none) x.cqs id).isSome then
      done (s.fail key (1, 0x01, 0))
    else if size < 2 || s.queueMax fn < size then done (s.fail key (1, 0x02, 0))
    else if bit c.sqe.dw11 1 && s.vectorsOf fn ≤ v then done (s.fail key (1, 0x08, 0))
    else
      let q : Cq :=
        { size := size, head := 0, tail := 0, phase := true, vector := v, ien := bit c.sqe.dw11 1,
          base := leNat c.sqe.data, entries := [] }
      let s := s.modCtrl fn fun x => { x with cqs := sparsePut (fun _ => none) x.cqs id (some q) }
      done ((if fn = 0 then s.syncAlloc else s).endCmd key 0 0 0 0 [])

/-- CREATE_IO_SUBMISSION_QUEUE (R101, R90, R93). -/
def execCreateIoSubmissionQueue (key : CmdKey) (s : State) : Host.Outcome State Fault Refusal :=
  match s.executing key 0x01 true with
  | none => done s
  | some c =>
    let fn := key.fn
    let id := c.sqe.dw10 % 65536
    let size := c.sqe.dw10 / 65536 + 1
    let cq := c.sqe.dw11 / 65536
    let x := s.ctrl fn
    let fresh := s.pfPairs ≤ x.sqs.countP (·.1 ≠ 0)
    if !s.queueIdOk fn id (x.numSq) fresh || (sparseGet (fun _ => none) x.sqs id).isSome then
      done (s.fail key (1, 0x01, 0))
    else if cq = 0 || (sparseGet (fun _ => none) x.cqs cq).isNone then done (s.fail key (1, 0x00, 0))
    else if size < 2 || s.queueMax fn < size then done (s.fail key (1, 0x02, 0))
    else
      let q : Sq := { size := size, head := 0, tail := 0, cq := cq, base := leNat c.sqe.data }
      let s := s.modCtrl fn fun x => { x with sqs := sparsePut (fun _ => none) x.sqs id (some q) }
      done ((if fn = 0 then s.syncAlloc else s).endCmd key 0 0 0 0 [])

/-- DELETE_IO_SUBMISSION_QUEUE (R101): commands of the queue end with Command Aborted due to SQ Deletion,
each with its completion entry (R94), before the queue goes; it waits while their entries find no room. -/
def execDeleteIoSubmissionQueue (key : CmdKey) (s : State) : Host.Outcome State Fault Refusal :=
  match s.executing key 0x00 true with
  | none => done s
  | some c =>
    let id := c.sqe.dw10 % 65536
    if id = 0 then done (s.fail key (1, 0x01, 0))
    else match sparseGet (fun _ => none) (s.ctrl key.fn).sqs id with
      | none => done (s.fail key (1, 0x01, 0))
      | some q =>
        let mine := s.host.cmds.filter fun (x : Cmd) => x.key.fn = key.fn && x.key.sq = id
        if s.cqRoom key.fn q.cq < mine.length || (mine.any fun (x : Cmd) => x.sqe.opc = 0x81 && x.st ≠ .completing) then
          done s
        else
          let s := forEach mine s fun s x => s.fail x.key (0, 0x08, 0)
          let s := forEach (s.host.cmds.filter fun (x : Cmd) => x.key.fn = key.fn && x.key.sq = id) s fun s x => s.postCmd x
          let s := s.modCtrl key.fn fun x => { x with sqs := sparsePut (fun _ => none) x.sqs id none }
          done ((if key.fn = 0 then s.syncAlloc else s).endCmd key 0 0 0 0 [])

/-- DELETE_IO_COMPLETION_QUEUE (R101): not while a submission queue uses it. -/
def execDeleteIoCompletionQueue (key : CmdKey) (s : State) : Host.Outcome State Fault Refusal :=
  match s.executing key 0x04 true with
  | none => done s
  | some c =>
    let id := c.sqe.dw10 % 65536
    let x := s.ctrl key.fn
    if id = 0 || (sparseGet (fun _ => none) x.cqs id).isNone then done (s.fail key (1, 0x01, 0))
    else if x.sqs.any fun e => match e.2 with
        | some (q : Sq) => q.cq = id
        | none => false then done (s.fail key (1, 0x0C, 0))
    else
      let s := s.modCtrl key.fn fun x => { x with cqs := sparsePut (fun _ => none) x.cqs id none }
      done ((if key.fn = 0 then s.syncAlloc else s).endCmd key 0 0 0 0 [])

/-! ## Features (Table 03.7) -/

/-- Sensors that a Temperature Threshold select names: 1–3, or all with Fh. -/
def tempSensors (dw11 : Nat) : List Nat :=
  let t := bits dw11 16 4
  if t = 0xF then [1, 2, 3] else if 1 ≤ t && t ≤ 3 then [t] else []

/-- SET_FEATURES (R93, R103): the Save bit is not supported; an identifier that Table 03.7 does not list is
Invalid Field in Command. -/
def execSetFeatures (key : CmdKey) (s : State) : Host.Outcome State Fault Refusal :=
  match s.executing key 0x09 true with
  | none => done s
  | some c =>
    let fid := c.sqe.dw10 % 256
    let v := c.sqe.dw11
    let bad := done (s.fail key (0, 0x02, 0))
    let set := fun (g : Ctrl → Ctrl) (dw0 : Nat) => done ((s.modCtrl key.fn g).endCmd key 0 0 dw0 0 [])
    if !(fid ∈ [0x01, 0x02, 0x04, 0x07, 0x08, 0x09, 0x0A, 0x0B]) then bad
    else if bit c.sqe.dw10 31 then done (s.fail key (1, 0x0D, 0))
    else if fid = 0x01 then set (fun x => { x with arb := v % 8 }) 0
    else if fid = 0x02 then if v % 32 = 0 then set (fun x => { x with power := v }) 0 else bad
    else if fid = 0x04 then
      let l := tempSensors v
      if l.isEmpty || 1 < bits v 20 2 then bad
      else if bits v 20 2 = 0 then
        set (fun x => { x with tempOver := l.foldl (fun m t => sparsePut (fun _ => 0) m t (v % 65536)) x.tempOver }) 0
      else
        set (fun x => { x with tempUnder := l.foldl (fun m t => sparsePut (fun _ => 0) m t (v % 65536)) x.tempUnder }) 0
    else if fid = 0x07 then
      let q := s.queueQuota key.fn
      let sq := min (v % 65536 + 1) q
      let cq := min (v / 65536 + 1) q
      if v % 65536 = 0xFFFF || v / 65536 = 0xFFFF then bad
      else if (s.ctrl key.fn).sqs.any (·.1 ≠ 0) || (s.ctrl key.fn).cqs.any (·.1 ≠ 0) then
        done (s.fail key (0, 0x0C, 0))
      else set (fun x => { x with numSq := some sq, numCq := some cq }) (sq - 1 + 65536 * (cq - 1))
    else if fid = 0x08 then set (fun x => { x with coalesce := v % 65536 }) 0
    else if fid = 0x09 then
      if s.vectorsOf key.fn ≤ v % 65536 then bad
      else set (fun x => { x with vecCfg := sparsePut (fun _ => 0) x.vecCfg (v % 65536) (bits v 16 1) }) 0
    else if fid = 0x0A then set (fun x => { x with atomic := v % 2 }) 0
    else if fid = 0x0B then set (fun x => { x with evCfg := v }) 0
    else bad

/-- GET_FEATURES (R93, R103): the value in dword 0. -/
def execGetFeatures (key : CmdKey) (s : State) : Host.Outcome State Fault Refusal :=
  match s.executing key 0x0A true with
  | none => done s
  | some c =>
    let fid := c.sqe.dw10 % 256
    let v := c.sqe.dw11
    let x := s.ctrl key.fn
    let q := s.queueQuota key.fn
    let answer := fun (d : Nat) => done (s.endCmd key 0 0 d 0 [])
    let bad := done (s.fail key (0, 0x02, 0))
    if fid = 0x01 then answer x.arb
    else if fid = 0x02 then answer x.power
    else if fid = 0x04 then
      let t := bits v 16 4
      if t < 1 || 3 < t || 1 < bits v 20 2 then bad
      else answer (sparseGet (fun _ => 0) (if bits v 20 2 = 0 then x.tempOver else x.tempUnder) t)
    else if fid = 0x07 then answer (x.numSq.getD q - 1 + 65536 * (x.numCq.getD q - 1))
    else if fid = 0x08 then answer x.coalesce
    else if fid = 0x09 then
      if s.vectorsOf key.fn ≤ v % 65536 then bad
      else answer (v % 65536 + 65536 * sparseGet (fun _ => 0) x.vecCfg (v % 65536))
    else if fid = 0x0A then answer x.atomic
    else if fid = 0x0B then answer x.evCfg
    else bad

/-- ASYNCHRONOUS_EVENT_REQUEST (R130, Table 03.5): at most 4 outstanding per controller; it reports a held
event at once. -/
def execAsynchronousEventRequest (key : CmdKey) (s : State) : Host.Outcome State Fault Refusal :=
  match s.executing key 0x0C true with
  | none => done s
  | some _ =>
    let x := s.ctrl key.fn
    if x.aers.contains key then done s
    else if 4 ≤ x.aers.length then done (s.fail key (1, 0x05, 0))
    else done ((s.modCtrl key.fn fun x => { x with aers := x.aers ++ [key] }).serveEvents key.fn)

end Sys2Proof.Machine
end

