-- ==== Sys2Proof/Machine/Processor.lean ====
section
/-! DEFINITION. What a Druot processor reaches and how its tasks stop (chapters 09 and 10): the data
address map and the MPU, SRAM with its merge buffers, stream ports, doorbell slots, traps, and the fence
of an engine. -/

namespace Sys2Proof.Machine

/-- Where a data address of a processor leads (Table 09.1): offsets in its local data SRAM or in the
shared SRAM of all clusters, a device DRAM address, a port page, a doorbell page, a management address. -/
inductive Place where
  | loc (off : Nat)
  | shared (off : Nat)
  | dram (a : Nat)
  | inPort (port off : Nat)
  | outPort (port off : Nat)
  | slot (page off : Nat)
  | mgmt (a : Nat)
deriving DecidableEq, Repr

/-- Tenant engines 0–31 run at T; 0x3E and 0x3F, the management cores, at M (R316). -/
def isEngine (p : Nat) : Bool := p < 32
def isCore (p : Nat) : Bool := p = 0x3E || p = 0x3F

/-! Trap causes (Table 09.10). -/
def trapIllegal : Nat := 0x01
def trapPriv : Nat := 0x02
def trapFetch : Nat := 0x03
def trapBudget : Nat := 0x04
def trapMisaligned : Nat := 0x05
def trapAddress : Nat := 0x06
def trapWindow : Nat := 0x07
def trapMpu : Nat := 0x08
def trapStream : Nat := 0x09
def trapBus : Nat := 0x0A
def trapSoftware : Nat := 0x0B

/-- An address lies in the doorbell pages, or in the management register space (Table 09.1). -/
def inSlots (a : Nat) : Bool := 0x03000000 ≤ a && a < 0x03004000
def inMgmt (a : Nat) : Bool := 0x40000000 ≤ a && a < 0x40400000

/-- One MPU region covers a range, and it permits a read or a write (R337, Table 09.11). -/
def MpuRegion.covers (r : MpuRegion) (a n : Nat) : Bool :=
  bit r.limit 7 && r.base / 256 * 256 ≤ a && a + n ≤ r.limit / 256 * 256 + 256
def MpuRegion.permits (r : MpuRegion) (wr : Bool) : Bool := if wr then bit r.limit 1 else bit r.limit 0

/-- Among the regions that cover a range the highest-numbered one decides (R337). -/
def Proc.mpuAllows (x : Proc) (a n : Nat) (wr : Bool) : Bool :=
  let rs := (List.range 16).map fun i => sparseGet (fun _ => MpuRegion.reset) x.mpu (15 - i)
  match rs.find? fun (r : MpuRegion) => r.covers a n with
  | some r => r.permits wr
  | none => false

def Proc.slot (x : Proc) (page slot : Nat) : Doorbell := sparseGet (fun _ => Doorbell.reset) x.slots (page * 4 + slot)
def Proc.setSlot (x : Proc) (page slot : Nat) (d : Doorbell) : Proc :=
  { x with slots := sparsePut (fun _ => Doorbell.reset) x.slots (page * 4 + slot) d }

/-- A slot of the processor is BUSY. -/
def Proc.anyBusy (x : Proc) : Bool := x.slots.any fun e => e.2.state = 1

/-- The bound input or output range of a port (R358). -/
def Ctx.inRange (c : Ctx) (port : Nat) : Option TakeRange := c.desc.ins.find? fun (r : TakeRange) => r.port = port
def Ctx.outRange (c : Ctx) (port : Nat) : Option TakeRange := c.desc.outs.find? fun (r : TakeRange) => r.port = port
def Ctx.consumedAt (c : Ctx) (port : Nat) : Nat := sparseGet (fun _ => 0) c.consumed port
def Ctx.stagedAt (c : Ctx) (port : Nat) : Nat := sparseGet (fun _ => 0) c.staged port
def Ctx.producedAt (c : Ctx) (port : Nat) : Nat := sparseGet (fun _ => 0) c.produced port

/-- Bytes that an input port holds, whether its stream has ended, and whether it is at EOS (Table 09.2,
R364). -/
def Ctx.portHeld (c : Ctx) (r : TakeRange) : Nat :=
  (if r.kind = 0 then min (c.stagedAt r.port) r.length else r.length) - c.consumedAt r.port
def Ctx.portEnded (c : Ctx) (r : TakeRange) : Bool := r.kind ≠ 0 || r.length ≤ c.stagedAt r.port
def Ctx.portEos (c : Ctx) (r : TakeRange) : Bool := r.length ≤ c.consumedAt r.port

/-- Bytes left before the declared output length (Table 09.3). -/
def Ctx.portSpace (c : Ctx) (r : TakeRange) : Nat := r.length - c.producedAt r.port

namespace State

/-! ## Tenant of a processor and its window -/

/-- DRAM window of a tenant: device address and bytes (R159). -/
def tenantWindow (s : State) (n : Nat) : Nat × Nat := match (s.tenant n).record with
  | some r => (r.dramBase * 2 ^ 26, r.dramSize * 2 ^ 26)
  | none => (0, 0)

/-- DRAM window of a processor (R321). -/
def procWindow (s : State) (p : Nat) : Nat × Nat :=
  let x := s.proc p
  if isEngine p then s.tenantWindow x.tenant else (x.winBase * 2 ^ 26, x.winSize * 2 ^ 26)

/-- Context of the task that an engine runs. -/
def procCtx (s : State) (p : Nat) : Option Ctx := if isEngine p then s.ctx (s.proc p).ctx else none

/-- Slate owner of a processor's work (R386). -/
def procOwner (s : State) (p : Nat) : Nat := if isEngine p then (s.proc p).tenant else ownFirmware

/-! ## Address map and protection (R320–R324, R331, R337–R339, R620) -/

/-- Where `n` bytes from an address lead, or the trap cause of Table 09.1. -/
def placeOf (s : State) (p a n : Nat) : Except Nat Place :=
  if a + n ≤ 0x10000 then .ok (.loc a)
  else if 0x01000000 ≤ a && a + n ≤ 0x01400000 then
    match s.procCtx p with
    | some c =>
      let off := a - 0x01000000
      if c.sharedBase * 65536 ≤ off && off + n ≤ (c.sharedBase + c.sharedSize) * 65536 then
        .ok (.shared (p / 8 * 2 ^ 22 + off))
      else .error trapAddress
    | none => .error trapAddress
  else if isEngine p && 0x02000000 ≤ a && a < 0x02000800 then .ok (.inPort (a % 2 ^ 16 / 256) (a % 256))
  else if isEngine p && 0x02008000 ≤ a && a < 0x02008800 then .ok (.outPort (a % 2 ^ 15 / 256) (a % 256))
  else if inSlots a then .ok (.slot (a / 0x1000 % 4) (a % 0x1000))
  else if inMgmt a then if isEngine p then .error trapAddress else .ok (.mgmt (a - 0x40000000))
  else if 0x80000000 ≤ a then
    let w := s.procWindow p
    if a + n ≤ 0x80000000 + w.2 then .ok (.dram (w.1 + (a - 0x80000000))) else .error trapWindow
  else .error trapAddress

/-- The MPU lets the processor access a range; at M only while STATUS.MPU_EN is set (R337, R339). -/
def mpuOk (s : State) (p a n : Nat) (wr : Bool) : Bool :=
  let x := s.proc p
  (isCore p && !x.status.getLsbD 1) || x.mpuAllows a n wr

/-- A port access of a load or store is illegal (R324). -/
def streamFault (s : State) (p n : Nat) (wr : Bool) : Place → Bool
  | .inPort port off =>
    wr || ((s.procCtx p).bind fun (c : Ctx) => c.inRange port).isNone || (n < 4 && 4 ≤ off) || 0x10 ≤ off
  | .outPort port off =>
    match s.procCtx p with
    | none => true
    | some c => match c.outRange port with
      | none => true
      | some r => (!wr && off < 4) || (n < 4 && 4 ≤ off) || 0x10 ≤ off || (wr && off < 4 && c.portSpace r < n)
  | _ => false

/-- Where a load or store of `n` bytes leads, or the lowest trap cause that it meets (R347). -/
def accessAt (s : State) (p a n : Nat) (wr : Bool) : Except Nat Place :=
  if a % n ≠ 0 || (n < 4 && (inSlots a || inMgmt a)) then .error trapMisaligned
  else match s.placeOf p a n with
  | .error c => .error c
  | .ok pl =>
    if !s.mpuOk p a n wr then .error trapMpu
    else if s.streamFault p n wr pl then .error trapStream
    else .ok pl

/-- A buffer of a job: memory that the processor may reach as it stands at the ring (R326, R385). -/
def bufferAt (s : State) (p a n : Nat) (wr : Bool) : Option Place :=
  match s.placeOf p a n with
  | .ok pl =>
    let mem := match pl with
      | .loc _ => true
      | .shared _ => true
      | .dram _ => true
      | _ => false
    if mem && s.mpuOk p a n wr then some pl else none
  | .error _ => none

/-! ## SRAM and merge buffers (R342, R466–R468) -/

/-- Memory identifier and word of an SRAM offset of a processor (Table 13.6). -/
def sramPlace (p : Nat) (shared : Bool) (off : Nat) : Nat × Nat :=
  if shared then (0x18 + off / 2 ^ 22, off % 2 ^ 22 / 4)
  else if isEngine p then (0x20 + p, off / 4)
  else (0x16, (p - 0x3E) * 16384 + off / 4)

def sramBytes (s : State) (p : Nat) (shared : Bool) (off n : Nat) : List Byte :=
  let m := if shared then s.eng.shared else (s.proc p).local_
  denseFrom off n (m.dropWhile fun e => e.1 < off)

def putSram (s : State) (p : Nat) (shared : Bool) (off : Nat) (l : List Byte) : State :=
  let put := fun (m : Sparse Byte) => l.zipIdx.foldl (fun m e => sparsePut (fun _ => 0) m (off + e.2) e.1) m
  if shared then s.modEng fun e => { e with shared := put e.shared }
  else s.modProc p fun x => { x with local_ := put x.local_ }

/-- Reads SRAM bytes; none where a word of them is uncorrectable. -/
def sramLoad (s : State) (p : Nat) (shared : Bool) (off n : Nat) : Option (List Byte) × State :=
  let words := (List.range ((off + n + 3) / 4 - off / 4)).map (off / 4 + ·)
  let (ok, s) := words.foldl (fun (acc : Bool × State) w =>
    let q := sramPlace p shared (w * 4)
    let (good, s) := acc.2.sramRead q.1 q.2
    (acc.1 && good, s)) (true, s)
  (if ok then some (s.sramBytes p shared off n) else none, s)

/-- Writes the given bytes of one SRAM word. A partial write reads the word first and is dropped where that
read is uncorrectable (R467). -/
def sramPutWord (s : State) (p : Nat) (shared : Bool) (word : Nat) (bytes : List (Option Byte)) : State :=
  let q := sramPlace p shared (word * 4)
  let (ok, s) := if bytes.all (·.isSome) then (true, s) else s.sramRead q.1 q.2
  if ok then
    let s := s.sramWrite q.1 q.2
    forEach bytes.zipIdx s fun s e => match e.1 with
      | some b => s.putSram p shared (word * 4 + e.2) [b]
      | none => s
  else s

/-- Writes SRAM bytes, word by word. -/
def sramStore (s : State) (p : Nat) (shared : Bool) (off : Nat) (l : List Byte) : State :=
  forEach ((List.range ((off + l.length + 3) / 4 - off / 4)).map (off / 4 + ·)) s fun s w =>
    s.sramPutWord p shared w ((List.range 4).map fun j => if off ≤ w * 4 + j then l[w * 4 + j - off]? else none)

/-- Drains one merge-buffer entry (R342). -/
def drainEntry (s : State) (p : Nat) (e : MergeEntry) : State :=
  (s.modProc p fun x => { x with merge := x.merge.filter (· ≠ e) }).sramPutWord p e.shared e.word e.bytes

def drainAll (s : State) (p : Nat) : State := forEach (s.proc p).merge s fun s e => s.drainEntry p e

/-- A store into SRAM merges into the entry of its word; a full entry drains, and a ninth word drains the
entry stored to least recently. -/
def mergeStore (s : State) (p : Nat) (shared : Bool) (off : Nat) (l : List Byte) : State :=
  let word := off / 4
  let new := fun (old : List (Option Byte)) => old.zipIdx.map fun e =>
    if off % 4 ≤ e.2 then (match l[e.2 - off % 4]? with
      | some b => some b
      | none => e.1) else e.1
  let same := fun (e : MergeEntry) => e.shared = shared && e.word = word
  let s := match (s.proc p).merge.find? same with
    | some _ => s
    | none =>
      let mine := (s.proc p).merge.filter fun (e : MergeEntry) => e.shared = shared
      if mine.length < 8 then s
      else match mine.find? fun (e : MergeEntry) => mine.all fun (y : MergeEntry) => e.last ≤ y.last with
        | some e => s.drainEntry p e
        | none => s
  let old := ((s.proc p).merge.find? same).getD { shared := shared, word := word, bytes := [none, none, none, none], last := 0 }
  let e : MergeEntry := { old with bytes := new old.bytes, last := s.tick }
  let s := s.modProc p fun x => { x with merge := (x.merge.filter fun y => !same y) ++ [e] }
  if e.bytes.all (·.isSome) then s.drainEntry p e else s

/-- A load from SRAM sees the processor's own merge buffer (R340). -/
def mergeLoad (s : State) (p : Nat) (shared : Bool) (off n : Nat) : Option (List Byte) × State :=
  let own := ((s.proc p).merge.find? fun (e : MergeEntry) => e.shared = shared && e.word = off / 4).map (·.bytes)
  let mine := fun (j : Nat) => (own.bind fun l => (l[off % 4 + j]?).join)
  if (List.range n).all fun j => (mine j).isSome then
    (some ((List.range n).map fun j => (mine j).getD 0), s)
  else match s.sramLoad p shared off n with
  | (some l, s) => (some (l.zipIdx.map fun e => (mine e.2).getD e.1), s)
  | (none, s) => (none, s)

/-! ## Memory as a job sees it -/

/-- Reads a buffer of a job; none on an uncorrectable error (R390). -/
def placeRead (s : State) (p : Nat) (pl : Place) (off n : Nat) : Option (List Byte) × State := match pl with
  | .loc o => s.sramLoad p false (o + off) n
  | .shared o => s.sramLoad p true (o + off) n
  | .dram a => s.dramRead (a + off) n
  | _ => (none, s)

def placeWrite (s : State) (p : Nat) (pl : Place) (off : Nat) (l : List Byte) : State := match pl with
  | .loc o => s.sramStore p false (o + off) l
  | .shared o => s.sramStore p true (o + off) l
  | .dram a => s.dramWrite (a + off) l
  | _ => s

/-! ## Doorbell slots and their jobs -/

/-- Events latched for WFE (R334): bit 0 a slot entered DONE, bit 1 an input port gained a byte or reached
EOS. -/
def latchEvent (s : State) (p b : Nat) : State :=
  s.modProc p fun x => { x with events := x.events ||| 2 ^ b }

/-- A slot enters DONE with its code and result words. -/
def slotDone (s : State) (p page slot code result result2 : Nat) : State :=
  (s.modProc p fun x => x.setSlot page slot
    { x.slot page slot with state := 2, code := code % 2 ^ 16, result := result % 2 ^ 32, result2 := result2 % 2 ^ 32 }).latchEvent p 0

/-- Aborts every BUSY slot of a processor (R349, R441): its jobs leave their units and queues, a move stops
where it is, and all slots read IDLE; dispatches wait 1 µs. -/
def abortSlots (s : State) (p : Nat) : State :=
  if !(s.proc p).anyBusy then s
  else
    let drop := fun (l : List AccJob) => l.filter fun (j : AccJob) => j.proc ≠ p
    let s := s.modPmx fun x => { x with jobs := drop x.jobs, mover := match x.mover with
      | some (m : Mover) => if m.proc = p then none else some m
      | none => none }
    let s := (s.modCmp fun x => { x with jobs := drop x.jobs }).modSec fun x =>
      { x with aes := drop x.aes, digests := drop x.digests }
    s.modProc p fun x =>
      { x with slots := sparseMap (fun _ => Doorbell.reset) (fun _ (d : Doorbell) => { d with state := 0 }) x.slots
               slotAbortUntil := s.tick + 64000 }

/-! ## Stopping tasks (R349, R372, R376) -/

/-- An engine's task leaves it: its stores stay, the grant returns to the take, and the engine is idle. -/
def endRun (s : State) (p : Nat) : State :=
  let s := s.drainAll p
  let x := s.proc p
  let used := x.grantSize - x.grant
  let s := s.modCtx x.ctx fun c =>
    { c with budgetLeft := c.budgetLeft + x.grant, retired := c.retired + used, retiredAll := c.retiredAll + used }
  let busy := x.busyPart + (s.tick - x.since)
  (s.addF (F.engEBusyCount p) (busy / 32768)).modProc p fun x =>
    { x with running := false, stall := none, grant := 0, grantSize := 0, busyPart := busy % 32768 }

/-- Engines that run a task of a take. -/
def enginesOf (s : State) (h : Nat) : List Nat :=
  (s.eng.procs.filter fun e => isEngine e.1 && e.2.running && e.2.ctx = h).map (·.1)

/-- Every running task of a take is stopped with its doorbells; tasks in lists are removed (R376). -/
def stopTasks (s : State) (h : Nat) : State :=
  let s := forEach (s.enginesOf h) s fun s p => (s.abortSlots p).endRun p
  let keep := fun (l : List Nat) => l.filter fun i => match s.task i with
    | some t => t.ctx ≠ h
    | none => false
  s.modTsk fun t =>
    { t with ready := sparseMap (fun _ => []) (fun _ l => keep l) t.ready
             delay := sparseMap (fun _ => []) (fun _ l => keep l) t.delay
             chain := sparseMap (fun _ => []) (fun _ l => keep l) t.chain }

/-- A take gives back its shared SRAM and its task entries (R376, R381). -/
def releaseTake (s : State) (h : Nat) : State :=
  match s.ctx h with
  | none => s
  | some x =>
    let s := forEach x.tasks s fun s i => s.setTask i none
    let s := (s.subF F.tskTaskUseInUse x.tasks.length).subF (F.instUseBTasks x.tenant) x.tasks.length
    s.modCtx h fun c => { c with tasks := [], sharedBase := 0, sharedSize := 0 }

/-- A take in PREPARING or RUNNING goes to FAULTING with a reason (R375, R379). -/
def faultTake (s : State) (h reason : Nat) (task : Option Nat) (pc addr detail : Nat) : State :=
  match s.ctx h with
  | none => s
  | some x =>
    if x.st = .preparing || x.st = .running then
      (s.stopTasks h).modCtx h fun c =>
        { c with st := .faulting, reason := reason, faultTask := task.getD 0xFF, faultPc := pc, faultAddr := addr,
                 detail := detail, waiting := none }
    else s

/-- An engine is fenced (R377, R378): the health and reliability events; a running take of it goes to
RESTARTING, and a task of any other take is stopped. -/
def fenceEngine (s : State) (e : Nat) : State :=
  if 32 ≤ e || bit (s.getF F.engFencedFenced) e then s
  else
    let s := s.setF F.engFencedFenced (s.getF F.engFencedFenced ||| 2 ^ e)
    let s := (s.health 0x000A 3 e [] 0).raiseEvent 0 1 0x00 0x02
    let x := s.proc e
    if !x.running then s
    else match s.ctx x.ctx with
    | some c =>
      if c.st = .running then
        (s.stopTasks x.ctx).modCtx x.ctx fun c => { c with st := .restarting, fencedBy := e }
      else (s.abortSlots e).endRun e
    | none => (s.abortSlots e).endRun e

/-! ## Traps (R347–R350) -/

/-- A trap at T (R348): the task ends and its take goes to FAULTING; three BUS traps within 1 s fence the
engine (R377). -/
def trapTask (s : State) (p cause pc addr : Nat) (load : Bool) : State :=
  let x := s.proc p
  let s := (s.incF (F.engETrapsCount p)).setF (F.engETrapsLastCause p) cause
  let s := if cause = trapBus && load then s.incF (F.engEMemerrLoadUncorr p) else s
  let s := (s.abortSlots p).endRun p
  let s := s.faultTake x.ctx cause (some x.task) pc addr 0
  if cause = trapBus then
    let recent := (s.tick :: x.busTraps).filter fun t => s.tick < t + 64000000000
    let s := s.modProc p fun x => { x with busTraps := recent }
    if 3 ≤ recent.length then s.fenceEngine p else s
  else s

/-- A trap at M (R350): pc, cause and address are saved and execution goes on at TVEC; a trap within a trap
is a fatal firmware fault, and the device enters Safe. -/
def trapCore (s : State) (p cause pc addr : Nat) : State :=
  let x := s.proc p
  if x.status.getLsbD 0 then s.orderSafe 5
  else s.setProc p
    { x with epc := BitVec.ofNat 32 pc, cause := BitVec.ofNat 32 cause, badaddr := BitVec.ofNat 32 addr,
             status := x.status ||| 1, pc := x.tvec &&& 0xFFFFFFFC, stall := none }

/-- A trap of the instruction at the processor's pc. -/
def trap (s : State) (p cause addr : Nat) (load : Bool) : State :=
  let pc := (s.proc p).pc.toNat
  if isEngine p then s.trapTask p cause pc addr load else s.trapCore p cause pc addr

/-! ## Stream ports (R323, R324, R364–R366) -/

/-- Device address of a window offset of a tenant. -/
def windowAddr (s : State) (tenant off : Nat) : Nat := (s.tenantWindow tenant).1 + off

/-- The input port of a take cannot deliver data of its stage: ERROR is set and the take ends with
INPUT_ERROR (R365, Table 13.4). -/
def inputError (s : State) (h port lba : Nat) : State :=
  let s := s.modCtx h fun c => if c.portError.contains port then c else { c with portError := c.portError ++ [port] }
  s.faultTake h 0x21 none 0 port lba

/-- Bytes of one block of a range. -/
def rangeBlock (s : State) (r : TakeRange) : Nat := match s.ns r.nsid with
  | some n => n.block
  | none => 4096

/-- Takes `n` bytes that an input port holds (R364): none where they cannot be read. The position
moves, and reaching EOS is an event of every engine of the take (R334). -/
def popBytes (s : State) (h : Nat) (r : TakeRange) (n : Nat) : Option (List Byte) × State :=
  match s.ctx h with
  | none => (none, s)
  | some c =>
    let pos := c.consumedAt r.port
    let (l, s) :=
      if r.kind = 0 then
        let o := pos % 2 ^ 21
        let k := min n (2 ^ 21 - o)
        let (a, s) := s.dramRead (s.windowAddr c.tenant (r.stage + o)) k
        if k < n then
          let (b, s) := s.dramRead (s.windowAddr c.tenant r.stage) (n - k)
          (match a, b with
            | some x, some y => some (x ++ y)
            | _, _ => none, s)
        else (a, s)
      else s.dramRead (s.windowAddr c.tenant (r.addr + pos)) n
    match l with
    | none => (none, s)
    | some l =>
      let s := s.modCtx h fun c => { c with consumed := sparsePut (fun _ => 0) c.consumed r.port (pos + n) }
      if pos < r.length && r.length ≤ pos + n then (some l, forEach (s.enginesOf h) s fun s p => s.latchEvent p 1)
      else (some l, s)

/-- Adds bytes to an output's stage area (R366). -/
def pushBytes (s : State) (h : Nat) (r : TakeRange) (l : List Byte) : State :=
  match s.ctx h with
  | none => s
  | some c =>
    let pos := c.producedAt r.port
    (s.dramWrite (s.windowAddr c.tenant (r.stage + pos)) l).modCtx h fun c =>
      { c with produced := sparsePut (fun _ => 0) c.produced r.port (pos + l.length) }

/-- Cells of a pop of `n` bytes from a port: D0 and D1 of the instance, for the stage ring or the window (R54,
R364). -/
def popNeeds (s : State) (p port n : Nat) : List CellNeed :=
  match s.ctx (s.proc p).ctx with
  | none => []
  | some c => match c.inRange port with
    | none => []
    | some r =>
      let pos := c.consumedAt port
      let n := min n (r.length - pos)
      s.dramNeeds c.tenant (s.windowAddr c.tenant (if r.kind = 0 then r.stage + pos % 2 ^ 21 else r.addr + pos)) n false

/-- Cells of a push of `n` bytes into an output's stage area (R366). -/
def pushNeeds (s : State) (p port n : Nat) : List CellNeed :=
  match s.ctx (s.proc p).ctx with
  | none => []
  | some c => match c.outRange port with
    | none => []
    | some r => s.dramNeeds c.tenant (s.windowAddr c.tenant (r.stage + c.producedAt r.port)) n true

/-- FULL (Table 09.3): the DRAM channel of the next stage byte is not online (log entry 28). -/
def portFull (s : State) (h : Nat) (r : TakeRange) : Bool :=
  match s.ctx h with
  | none => true
  | some c => s.getF (chStateF (s.dramLoc (s.windowAddr c.tenant (r.stage + c.producedAt r.port))).channel) ≠ 2

/-- Status word of an input port (Table 09.2). -/
def inPortStatus (c : Ctx) (port : Nat) (r : TakeRange) : Nat :=
  1 + 2 * (c.portEos r).toNat + 4 * (c.portShort.contains port).toNat + 8 * (c.portOver.contains port).toNat
    + 16 * (c.portError.contains port).toNat

end State

end Sys2Proof.Machine
end

