-- ==== Sys2Proof/Machine/Accel.lean ====
section
/-! DEFINITION. Jobs of the accelerators behind the doorbells (R325, R326, R385–R390, R434, R437): the
checks at a ring, the job record, units, and completion. -/

namespace Sys2Proof.Machine

/-! Completion codes (Tables 09.5 and 11.8, R434). -/
def jobAccess : Nat := 0xFF01
def jobBadLength : Nat := 0xFF02
def jobBadDescriptor : Nat := 0x0101
def jobUnsupported : Nat := 0x0102
def jobCorrupt : Nat := 0x0103
def jobChecksum : Nat := 0x0104
def jobTruncated : Nat := 0x0105
def jobOutputFull : Nat := 0x0106
def jobInputError : Nat := 0x0107
def jobMemoryError : Nat := 0x0108
def jobNoAutomaton : Nat := 0x0110
def jobBankDenied : Nat := 0x0111
def jobResultFull : Nat := 0x0112
def jobStoreFull : Nat := 0x0113
def jobImageBad : Nat := 0x0114
def jobBankFull : Nat := 0x0115
def jobKeyClass : Nat := 0x0120
def jobExpansion : Nat := 0x00C8
def jobVerifyFailed : Nat := 0x00C9
def jobAuthFailed : Nat := 0x00C4
def jobKeyErased : Nat := 0x00CE

/-- The offset of the first test that fails. -/
def firstBad (l : List (Bool × Nat)) : Option Nat := (l.find? (·.1)).map (·.2)

/-- Descriptor length that a pattern OP calls for (Tables 11.4 and 11.7). -/
def pmxLength (op : Nat) : Option Nat :=
  if op = 0x01 then some 32
  else if op = 0x02 || op = 0x03 || (0x10 ≤ op && op ≤ 0x13) then some 16
  else none

/-- Operation code of a job. -/
def AccJob.op (j : AccJob) : Nat := field j.desc 0 1

/-- Where a buffer address of a job leads: what its ring has checked, in the window of that moment (R326). -/
def AccJob.place (j : AccJob) (a : Nat) : Place :=
  if a < 0x10000 then .loc a
  else if a < 0x80000000 then .shared (j.proc / 8 * 2 ^ 22 + (a - 0x01000000))
  else .dram (j.win + (a - 0x80000000))

/-- Length of a digest value (Table 12.7). -/
def digestLen (alg : Nat) : Nat := if alg = 1 then 48 else 32

/-- Entries of a destination chain: (address, length) (R411). -/
def chainEntries (l : List Byte) : List (Nat × Nat) :=
  (List.range (l.length / 8)).map fun i => (field l (8 * i) 4, field l (8 * i + 4) 4)

namespace State

/-- The port is a bound input, or a bound output, of the task that the processor runs. -/
def inBound (s : State) (p port : Nat) : Bool := match s.procCtx p with
  | some c => (c.inRange port).isSome
  | none => false
def outBound (s : State) (p port : Nat) : Bool := match s.procCtx p with
  | some c => (c.outRange port).isSome
  | none => false

/-! ## Automaton sets and key slots that a processor may use -/

/-- The set that a handle names for a job (R393, R394). -/
def setOf (s : State) (ctx : Option Nat) (handle : Nat) : Option AutoSet :=
  match sparseGet (fun _ => none) s.pmx.sets (handle % 2048) with
  | some a =>
    let usable := match ctx with
      | some h => a.ctx = some h || (a.ctx.isNone && a.pub)
      | none => a.ctx.isNone
    if a.handle = handle && usable then some a else none
  | none => none

/-- Key slot that a job's KEY names, if the index is legal (R422). -/
def jobKeySlot (s : State) (p k : Nat) : Option Nat :=
  if isEngine p then match (s.tenant (s.proc p).tenant).record with
    | some r => if k < r.keyCount then some (r.keyFirst + k) else none
    | none => none
  else if k < 4096 then some k else none

/-- A job reads its key slot (Table 13.4). -/
def touchJobKey (s : State) (j : AccJob) : State := match s.jobKeySlot j.proc (field j.desc 4 2) with
  | some k => s.touchSlot k
  | none => s

/-- The key of a job by class, or its completion code (R434): an instance's own slot at T, a system slot of a
class that FIRMWARE uses at M. -/
def jobKey (s : State) (p k cls : Nat) : Except Nat (List Byte) :=
  match s.jobKeySlot p k with
  | none => .error jobBadDescriptor
  | some slot => match s.keySlot slot with
    | none => .error jobKeyErased
    | some x =>
      if x.cls = cls && (isEngine p || (!s.isTenantSlot slot && cls ≠ clsXts)) then .ok x.key
      else .error jobKeyClass

/-! ## Field checks (R385 step 4, R434 step 3, R437) -/

def pmxFieldBad (s : State) (p : Nat) (l : List Byte) : Option Nat :=
  let f := fun o n => field l o n
  let op := f 0 1
  if op = 0x01 then
    let port := bit (f 1 1) 0
    let states := ((s.setOf (if isEngine p then some (s.proc p).ctx else none) (f 4 2)).map fun (a : AutoSet) => field a.image 8 4)
    firstBad [(8 ≤ f 1 1, 1), (if port then !s.inBound p (f 2 1) else f 2 1 ≠ 0, 2), (f 3 1 ≠ 0, 3), (f 6 2 ≠ 0, 6),
      (port && f 8 4 ≠ 0, 8), (f 0xC 4 = 0 || 67108864 < f 0xC 4, 0xC),
      (if bit (f 1 1) 2 then (match states with
        | some n => n ≤ f 0x10 4
        | none => false) else f 0x10 4 ≠ 0, 0x10),
      (f 0x18 4 % 8 ≠ 0, 0x18), (1048576 < f 0x1C 4, 0x1C)]
  else if op = 0x02 then firstBad [(f 1 3 ≠ 0, 1), (f 4 4 % 4 ≠ 0, 4), (f 0xC 4 ≠ 0, 0xC)]
  else if op = 0x03 then firstBad [(f 1 3 ≠ 0, 1), (!allZero l 6 10, 6)]
  else if op = 0x10 then
    firstBad [(f 1 1 = 0 || 16 < f 1 1, 1), (f 2 2 = 0, 2), (f 8 4 = 0 || 4096 < f 8 4, 8), (f 0xC 4 % 8 ≠ 0, 0xC)]
  else
    firstBad [(op = 0x12 && isEngine p, 0), (f 1 3 ≠ 0, 1), (f 8 4 = 0 || 256 < f 8 4, 8), (f 0xC 4 ≠ 0, 0xC)]

def cmpFieldBad (s : State) (p : Nat) (l : List Byte) : Option Nat :=
  let f := fun o n => field l o n
  let comp := f 0 1 = 1
  let src := bit (f 3 1) 0
  let dst := bit (f 3 1) 1
  let ports := f 4 1
  firstBad [(!comp && f 0 1 ≠ 2, 0), (3 < f 1 1, 1), (if comp then f 2 1 = 0 || 9 < f 2 1 else f 2 1 ≠ 0, 2),
    (8 ≤ f 3 1 || (bit (f 3 1) 2 && !(comp && f 1 1 = 0)), 3),
    (bit ports 3 || bit ports 7 || (if src then !s.inBound p (ports % 8) else ports % 8 ≠ 0)
      || (if dst then !s.outBound p (ports / 16) else ports / 16 % 8 ≠ 0), 4),
    (f 5 3 ≠ 0, 5), (src && f 8 4 ≠ 0, 8), (f 0xC 4 = 0 || (comp && 4194304 < f 0xC 4), 0xC),
    (if dst then f 0x10 4 ≠ 0 else f 0x10 4 % 8 ≠ 0, 0x10),
    (if dst then f 0x14 4 ≠ 0 else f 0x14 4 = 0 || 64 < f 0x14 4, 0x14),
    (if comp then f 0x18 4 ≠ 0 else f 0x18 4 = 0 || 67108864 < f 0x18 4, 0x18), (f 0x1C 4 % 8 ≠ 0, 0x1C)]

def aesFieldBad (s : State) (p : Nat) (l : List Byte) : Option Nat :=
  let f := fun o n => field l o n
  let op := f 0 1
  let src := bit (f 1 1) 0
  let dst := bit (f 1 1) 1
  let ports := f 2 1
  let gcm := op ≤ 2
  firstBad [(op = 0 || 4 < op, 0), (4 ≤ f 1 1 || (op = 2 && f 1 1 ≠ 0), 1),
    (bit ports 3 || bit ports 7 || (if src then !s.inBound p (ports % 8) else ports % 8 ≠ 0)
      || (if dst then !s.outBound p (ports / 16) else ports / 16 % 8 ≠ 0), 2),
    (f 3 1 ≠ 0, 3), ((s.jobKeySlot p (f 4 2)).isNone, 4), (f 6 2 ≠ 0, 6), (src && f 8 4 ≠ 0, 8),
    (16777216 < f 0xC 4 || (!gcm && (f 0xC 4 = 0 || f 0xC 4 % 4096 ≠ 0)), 0xC), (dst && f 0x10 4 ≠ 0, 0x10),
    (f 0x1C 2 = 0 && f 0x18 4 ≠ 0, 0x18), (!gcm && f 0x1C 4 ≠ 0, 0x1C)]

def digestFieldBad (s : State) (p : Nat) (l : List Byte) : Option Nat :=
  let f := fun o n => field l o n
  let hmac := f 0 1 = 2
  let fl := f 2 1
  firstBad [(f 0 1 ≠ 1 && !hmac, 0), (2 < f 1 1 || (hmac && f 1 1 = 2), 1), (8 ≤ fl || (bit fl 1 && bit fl 2), 2),
    (if bit fl 0 then !s.inBound p (f 3 1) else f 3 1 ≠ 0, 3),
    (if hmac then (s.jobKeySlot p (f 4 2)).isNone else f 4 2 ≠ 0, 4), (f 6 2 ≠ 0, 6), (bit fl 0 && f 8 4 ≠ 0, 8),
    (!bit fl 1 && f 0x10 4 ≠ 0, 0x10), (!bit fl 2 && f 0x14 4 ≠ 0, 0x14), (!allZero l 0x18 8, 0x18)]

/-- Offset of the first illegal field of a descriptor on a page. -/
def fieldBad (s : State) (p page : Nat) (l : List Byte) : Option Nat :=
  if page = 0 then s.pmxFieldBad p l else if page = 1 then s.cmpFieldBad p l
  else if page = 2 then s.aesFieldBad p l else s.digestFieldBad p l

/-! ## Buffers (R385 step 5) -/

/-- The buffers that a descriptor names: (address, bytes, written). -/
def descBuffers (page : Nat) (l : List Byte) : List (Nat × Nat × Bool) :=
  let f := fun o n => field l o n
  let op := f 0 1
  let all :=
    if page = 0 then
      if op = 0x01 then [(f 8 4, if bit (f 1 1) 0 then 0 else f 0xC 4, false), (f 0x18 4, 16 + 8 * f 0x1C 4, true)]
      else if op = 0x02 then [(f 4 4, f 8 4, false)]
      else if op = 0x03 then []
      else if op = 0x10 then [(f 4 4, 24 * f 8 4, false), (f 0xC 4, 8 * f 1 1 * f 8 4, true)]
      else [(f 4 4, 48 * f 8 4, false)]
    else if page = 1 then
      [(f 8 4, if bit (f 3 1) 0 then 0 else f 0xC 4, false), (f 0x10 4, if bit (f 3 1) 1 then 0 else 8 * f 0x14 4, false),
        (f 0x1C 4, 32, true)]
    else if page = 2 then
      let tag := 16 * f 0x1E 2
      [(f 8 4, if bit (f 1 1) 0 then 0 else f 0xC 4, false), (f 0x10 4, if bit (f 1 1) 1 then 0 else f 0xC 4, true),
        (f 0x14 4, if op ≤ 2 then 12 else 8, false), (f 0x18 4, if op ≤ 2 then f 0x1C 2 else 0, false)]
        ++ (if op = 1 && !bit (f 1 1) 1 then [(f 0x10 4 + tag, 16, true)] else if op = 2 then [(f 8 4 + tag, 16, false)] else [])
    else
      let n := digestLen (f 1 1)
      [(f 8 4, if bit (f 2 1) 0 then 0 else f 0xC 4, false), (f 0x10 4, if bit (f 2 1) 1 then n else 0, false),
        (f 0x14 4, if bit (f 2 1) 2 then n else 0, true)]
  all.filter fun (b : Nat × Nat × Bool) => b.2.1 ≠ 0

def bufferOk (s : State) (p : Nat) (b : Nat × Nat × Bool) : Bool := (s.bufferAt p b.1 b.2.1 b.2.2).isSome

/-- Reads a buffer that has passed its check. -/
def bufferRead (s : State) (p a n : Nat) : Option (List Byte) × State := match s.bufferAt p a n false with
  | some pl => s.placeRead p pl 0 n
  | none => (none, s)

/-! ## The ring (R325, R326) -/

/-- The new job of a ring, before its chain, key or expected value. -/
def newJob (s : State) (p page slot : Nat) (l : List Byte) : AccJob :=
  let x := s.proc p
  { proc := p, page := page, slot := slot, owner := s.procOwner p, ctx := if isEngine p then some x.ctx else none,
    gen := if isEngine p then x.gen else 0, order := s.cmp.nextRing, win := (s.procWindow p).1, desc := l, unit := none,
    pos := 0, dfa := 0, hits := 0, dropped := 0, eos := false, consumed := 0, produced := 0, blocks := 0, raws := 0,
    blockIn := [], blockOut := none, bits := [], taken := [], key := [], expect := [], saved := none, code := none }

/-- Checks at a ring once the descriptor has been read: what follows the field checks (R385 step 5, R411,
R434 step 4, R438). The failure is a completion code with RESULT2. -/
def ringBuffers (s : State) (j : AccJob) : Except (Nat × Nat) AccJob × State :=
  let p := j.proc
  let l := j.desc
  if !((descBuffers j.page l).all fun b => s.bufferOk p b) then (.error (jobAccess, 0), s)
  else if j.page = 1 && !bit (field l 3 1) 1 then
    match s.bufferRead p (field l 0x10 4) (8 * field l 0x14 4) with
    | (none, s) => (.error (jobMemoryError, 0), s)
    | (some c, s) =>
      let es := chainEntries c
      if es.any fun e => e.2 = 0 || 16777216 < e.2 then (.error (jobBadDescriptor, 0x10), s)
      else if j.op = 2 && (es.map (·.2)).sum < field l 0x18 4 then (.error (jobBadDescriptor, 0x18), s)
      else if es.all fun e => s.bufferOk p (e.1, e.2, true) then (.ok { j with saved := some c }, s)
      else (.error (jobAccess, 0), s)
  else if j.page = 2 then
    let s := s.touchJobKey j
    match s.jobKey p (field l 4 2) (if j.op ≤ 2 then clsGcm else clsXts) with
    | .error c => (.error (c, 0), s)
    | .ok _ => (.ok j, s)
  else if j.page = 3 then
    let s := if j.op = 2 then s.touchJobKey j else s
    let keyed := if j.op = 2 then (match s.jobKey p (field l 4 2) clsHmac with
      | .error c => some c
      | .ok _ => none) else none
    match keyed with
    | some c => (.error (c, 0), s)
    | none =>
      if bit (field l 2 1) 1 then
        match s.bufferRead p (field l 0x10 4) (digestLen (field l 1 1)) with
        | (some e, s) => (.ok { j with expect := e }, s)
        | (none, s) => (.error (jobMemoryError, 0), s)
      else (.ok j, s)
  else if j.page = 0 && (j.op = 0x01 || j.op = 0x03) && (s.setOf j.ctx (field l 4 2)).isNone then
    (.error (jobNoAutomaton, 0), s)
  else (.ok j, s)

/-- The checks of a ring in the order of R326. -/
def ringCheck (s : State) (p page slot len : Nat) : Except (Nat × Nat) AccJob × State :=
  let a := ((s.proc p).slot page slot).desc
  if page ≠ 0 && len ≠ 32 then (.error (jobBadLength, 0), s)
  else match s.bufferAt p a (max 1 len) false with
  | none => (.error (jobAccess, 0), s)
  | some pl =>
    match s.placeRead p pl 0 (min len 32) with
    | (none, s) => (.error (jobMemoryError, 0), s)
    | (some l, s) =>
      if page = 0 && pmxLength (field l 0 1) ≠ some len then (.error (jobBadLength, 0), s)
      else match s.fieldBad p page l with
      | some o => (.error (jobBadDescriptor, o), s)
      | none => s.ringBuffers (s.newJob p page slot l)

def windowKey (p slot : Nat) : Nat := p * 4 + slot

def digestWin (s : State) (p slot : Nat) : DigestWin := sparseGet (fun _ => DigestWin.reset) s.sec.windows (windowKey p slot)
def setDigestWin (s : State) (p slot : Nat) (w : DigestWin) : State :=
  s.modSec fun x => { x with windows := sparsePut (fun _ => DigestWin.reset) x.windows (windowKey p slot) w }

/-- Jobs of a doorbell page. -/
def jobsOf (s : State) (page : Nat) : List AccJob :=
  if page = 0 then s.pmx.jobs else if page = 1 then s.cmp.jobs else if page = 2 then s.sec.aes else s.sec.digests
def setJobs (s : State) (page : Nat) (l : List AccJob) : State :=
  if page = 0 then s.modPmx fun x => { x with jobs := l }
  else if page = 1 then s.modCmp fun x => { x with jobs := l }
  else if page = 2 then s.modSec fun x => { x with aes := l }
  else s.modSec fun x => { x with digests := l }

/-- A ring of a doorbell slot (R325, R326, R341): a release of the processor's stores; in BUSY it is
ignored and sets REFUSED; a failed check completes the slot at once. -/
def ring (s : State) (p page slot len : Nat) : State :=
  let s := s.drainAll p
  let d := (s.proc p).slot page slot
  if d.state = 1 then s.modProc p fun x => x.setSlot page slot { d with refused := true }
  else
    let s := s.modProc p fun x => x.setSlot page slot { d with state := 1, refused := false, code := 0 }
    let s := if page = 3 then s.setDigestWin p slot DigestWin.reset else s
    match s.ringCheck p page slot len with
    | (.error (c, r2), s) => s.slotDone p page slot c 0 r2
    | (.ok j, s) => (s.setJobs page (s.jobsOf page ++ [j])).modCmp fun x => { x with nextRing := x.nextRing + 1 }

/-! ## Jobs under way -/

def job? (s : State) (page p slot : Nat) : Option AccJob :=
  (s.jobsOf page).find? fun (j : AccJob) => j.proc = p && j.slot = slot

def modJob (s : State) (page p slot : Nat) (g : AccJob → AccJob) : State :=
  s.setJobs page (mapWhere (s.jobsOf page) (fun (j : AccJob) => j.proc = p && j.slot = slot) g)

/-- The work of a job has ended: its code and result words wait for the slot (R389). -/
def endJob (s : State) (j : AccJob) (code result result2 : Nat) : State :=
  s.modJob j.page j.proc j.slot fun j => { j with code := some (code, result, result2) }

/-- A job of a page with an operation that holds a unit and has not ended. -/
def runningJob (s : State) (page p slot op : Nat) : Option AccJob := match s.job? page p slot with
  | some j => if j.op = op && j.code.isNone && j.unit.isSome then some j else none
  | none => none

def jobRead (s : State) (j : AccJob) (a n : Nat) : Option (List Byte) × State := s.placeRead j.proc (j.place a) 0 n
def jobWrite (s : State) (j : AccJob) (a : Nat) (l : List Byte) : State := s.placeWrite j.proc (j.place a) 0 l

/-- Cells of a job's access to a data address (R386): its owner's D0 and D1 cells for the DRAM window, none for
SRAM. -/
def jobDram (s : State) (j : AccJob) (a n : Nat) (wr : Bool) : List CellNeed := match j.place a with
  | .dram x => s.dramNeeds j.owner x n wr
  | _ => []

/-- Cells of a job's piece in the column of its engine (R386). -/
def jobCells (col : Nat) (j : AccJob) (n : Nat) : List CellNeed := need col j.owner n 512

/-- Runs a piece of a job. Where the piece moves data, it does so only in its owner's cells (R54, R386): `needs` gives
them from the job before and after. -/
def jobPiece (s : State) (page p slot : Nat) (needs : AccJob → AccJob → List CellNeed) (piece : State → State) :
    Host.Outcome State Fault Refusal :=
  match s.job? page p slot, (piece s).job? page p slot with
  | some j, some k =>
    if k.pos = j.pos && k.produced = j.produced && k.eos = j.eos then done (piece s)
    else s.moving (joinNeeds (needs j k)) fun s => done (piece s)
  | _, _ => done (piece s)

/-- What one transfer brings a job from its source. -/
inductive Source where
  /-- Bytes, and whether the source is at its end after them. -/
  | data (l : List Byte) (ended : Bool)
  /-- The port holds nothing yet. -/
  | wait
  /-- An uncorrectable memory error (R390). -/
  | memory
  /-- The port set ERROR; the take ends (R365, R398). -/
  | input
deriving DecidableEq, Repr

/-- Brings up to `n` more bytes of a job's source: from memory at `a + pos`, or popped from a port (R364). -/
def jobSource (s : State) (j : AccJob) (port : Option Nat) (a total n : Nat) : Source × State :=
  let k := min n (total - j.pos)
  match port with
  | none =>
    match s.jobRead j (a + j.pos) k with
    | (some l, s) => (.data l (total ≤ j.pos + k), s)
    | (none, s) => (.memory, s)
  | some pt =>
    match j.ctx.bind s.ctx with
    | none => (.input, s)
    | some c => match c.inRange pt with
      | none => (.input, s)
      | some r =>
        let k := min k (c.portHeld r)
        if c.portError.contains pt then (.input, s)
        else if k = 0 then if c.portEnded r || total ≤ j.pos then (.data [] true, s) else (.wait, s)
        else match s.popBytes (j.ctx.getD 0) r k with
          | (some l, s) =>
            let eos := match j.ctx.bind s.ctx with
              | some c => c.portEos r
              | none => true
            (.data l (eos || total ≤ j.pos + k), s)
          | (none, s) =>
            if r.kind = 0 then (.input, s.inputError (j.ctx.getD 0) pt (r.addr + c.consumedAt pt / s.rangeBlock r))
            else (.memory, s)

/-- Gives back the last `n` bytes that a port was popped of: the job has no use for them. -/
def unpop (s : State) (j : AccJob) (port : Option Nat) (n : Nat) : State := match port, j.ctx with
  | some pt, some h => s.modCtx h fun c => { c with consumed := sparsePut (fun _ => 0) c.consumed pt (c.consumedAt pt - n) }
  | _, _ => s

/-- The end of a job's transfer by an error of its source. -/
def sourceFailed (s : State) (j : AccJob) (memory : Bool) (result result2 : Nat) : State :=
  s.endJob j (if memory then jobMemoryError else jobInputError) result result2

/-! ## Units (R387, R421, R439) -/

/-- Units of a page: scanners, lanes, AES cores, the digest engine. -/
def unitCount (page : Nat) : Nat := if page = 1 then 4 else if page = 3 then 1 else 8

/-- A job holds a unit while it runs: lookups and updates do not. -/
def needsUnit (j : AccJob) : Bool := j.page ≠ 0 || j.op < 0x10

/-- The waiting job that a freed unit takes: the owner with the fewest units, then the earliest ring; on the
digest engine, the front of the queue. -/
def nextJob (s : State) (page : Nat) : Option AccJob :=
  let js := s.jobsOf page
  let held := fun (o : Nat) => js.countP fun (j : AccJob) => j.owner = o && j.unit.isSome
  let wait := js.filter fun (j : AccJob) => j.unit.isNone && j.code.isNone && needsUnit j
  if page = 3 then wait.head?
  else wait.find? fun (j : AccJob) => wait.all fun (k : AccJob) =>
    held j.owner < held k.owner || (held j.owner = held k.owner && j.order ≤ k.order)

/-- The first unit of a page that holds no job. -/
def freeUnit (s : State) (page : Nat) : Option Nat :=
  (List.range (unitCount page)).find? fun u => !((s.jobsOf page).any fun (j : AccJob) => j.unit = some u)

/-- A job starts on its unit: a cipher or digest job copies its key (R427), and ends with KEY_ERASED where it
is gone. -/
def startJob (s : State) (j : AccJob) (u : Nat) : State :=
  let cls := if j.page = 2 then (if j.op ≤ 2 then clsGcm else clsXts) else clsHmac
  let keyed := j.page = 2 || (j.page = 3 && j.op = 2)
  let s := if keyed then s.touchJobKey j else s
  let s := s.modJob j.page j.proc j.slot fun j => { j with unit := some u }
  if keyed then
    match s.jobKey j.proc (field j.desc 4 2) cls with
    | .ok k => s.modJob j.page j.proc j.slot fun j => { j with key := k }
    | .error c => s.endJob j c 0 0
  else s

end State

/-- DOORBELL_RING (R325, R326, R385, R434, R437): a write to RING of a slot. -/
def execDoorbellRing (p page slot len : Nat) (s : State) : Host.Outcome State Fault Refusal :=
  if (isEngine p || isCore p) && page < 4 && slot < 4 && s.logicOn then done (s.ring p page slot len) else done s

/-- JOB_UNIT_ASSIGN (R387, R421, R439): a free unit of a page takes a waiting job. A preempted digest job is
left to its resume. -/
def execJobUnitAssign (page : Nat) (s : State) : Host.Outcome State Fault Refusal :=
  if 4 ≤ page then done s
  else match s.freeUnit page, s.nextJob page with
  | some u, some j => if page = 3 && j.saved.isSome then done s else done (s.startJob j u)
  | _, _ => done s

/-- Units of 2^20 (or 2^10) that a count adds to a counter, with the part left over. -/
def carryUnits (part n size : Nat) : Nat × Nat := ((part + n) / size, (part + n) % size)

end Sys2Proof.Machine
end

