-- ==== Sys2Proof/Machine/Pattern.lean ====
section
/-! DEFINITION. The pattern unit (chapter 11): automaton images and scans, the associative banks and
their mover, and bank ownership. -/

namespace Sys2Proof.Machine

/-! ## Automaton images (R391, R392) -/

/-- Offsets of the sections of an image (Table 11.3). -/
def autTrans (s c : Nat) (classes : Nat) : Nat := 0x140 + 4 * (s * classes + c)
def autIndex (states classes : Nat) : Nat := 0x140 + 4 * states * classes
def autList (states classes : Nat) : Nat := autIndex states classes + 4 * states
def autLength (states classes lists : Nat) : Nat := autList states classes + roundUp (2 * lists) 4

/-- The first element of a range at which a test fails, as an offset. -/
def firstAt (n : Nat) (bad : Nat → Bool) (off : Nat → Nat) : Option Nat := ((List.range n).find? bad).map off

/-- Offset of the first failing byte of an automaton image, header fields first, then the sections in order
(R392); `len` is the LENGTH of the install. -/
def imageBad (l : List Byte) (len : Nat) (system : Bool) : Option Nat :=
  let f := fun o n => field l o n
  let states := f 8 4
  let classes := f 0xC 2
  let lists := f 0x14 4
  let t := autIndex states classes
  let m := autList states classes
  let total := autLength states classes lists
  match firstBad [(f 0 2 ≠ 0x4155, 0), (f 2 2 ≠ 0x0100, 2),
      (f 4 4 ≠ len || f 4 4 ≠ total || (if system then 2 ^ 21 else 2 ^ 20) < f 4 4, 4),
      (states = 0 || 262144 < states, 8), (classes = 0 || 256 < classes, 0xC),
      (1 < f 0xE 2 || (f 0xE 2 = 1 && !system), 0xE), (states ≤ f 0x10 4, 0x10), (1048576 < lists, 0x14),
      (!allZero l 0x20 28, 0x20), (crc32c (l.take 0x3C ++ l.drop 0x40) ≠ f 0x3C 4, 0x3C)] with
  | some o => some o
  | none =>
    let count := fun s => f (t + 4 * s) 4 / 2 ^ 24
    let first := fun s => f (t + 4 * s) 4 % 2 ^ 24
    let transBad := fun i =>
      let e := f (0x140 + 4 * i) 4
      let nx := e % 2 ^ 18
      states ≤ nx || bits e 18 13 ≠ 0 || bit e 31 != (0 < count nx)
    let runBad := fun s => (List.range (count s - 1)).find? fun k =>
      f (m + 2 * (first s + k + 1)) 2 ≤ f (m + 2 * (first s + k)) 2
    match firstAt 256 (fun b => classes ≤ f (0x40 + b) 1) (0x40 + ·) with
    | some o => some o
    | none => match firstAt (states * classes) transBad (fun i => 0x140 + 4 * i) with
      | some o => some o
      | none => match firstAt states (fun s => lists < first s + count s) (fun s => t + 4 * s) with
        | some o => some o
        | none =>
          match (List.range states).findSome? fun s => (runBad s).map fun k => m + 2 * (first s + k + 1) with
          | some o => some o
          | none => if lists % 2 = 1 && f (m + 2 * lists) 2 ≠ 0 then some (m + 2 * lists) else none

/-- One step of a scan (R396): the next state, the pattern identifiers reported, and the image offsets read. -/
def scanByte (img : List Byte) (st : Nat) (b : Byte) : Nat × List Nat × List Nat :=
  let states := field img 8 4
  let classes := field img 0xC 2
  let c := field img (0x40 + b.toNat) 1
  let e := field img (autTrans st c classes) 4
  let nx := e % 2 ^ 18
  let read := [0x40 + b.toNat, autTrans st c classes]
  if bit e 31 then
    let ix := field img (autIndex states classes + 4 * nx) 4
    let at_ := fun k => autList states classes + 2 * (ix % 2 ^ 24 + k)
    (nx, (List.range (ix / 2 ^ 24)).map fun k => field img (at_ k) 2,
      read ++ [autIndex states classes + 4 * nx] ++ (List.range (ix / 2 ^ 24)).map at_)
  else (nx, [], read)

/-- What a run of scan steps leaves: state, matches (job offset of the byte, identifier), bytes scanned, image
offsets read. -/
structure ScanRun where
  state   : Nat
  matched : List (Nat × Nat)
  n       : Nat
  read    : List Nat

/-- Scans bytes from a job offset; with `once` it stops after the first byte that reports a match. -/
def scanRun (img : List Byte) (once : Bool) (pos : Nat) : List Byte → ScanRun → ScanRun
  | [], r => r
  | b :: t, r =>
    let (nx, ids, rd) := scanByte img r.state b
    let r := { r with state := nx, matched := r.matched ++ ids.map (pos, ·), n := r.n + 1, read := r.read ++ rd }
    if once && !ids.isEmpty then r else scanRun img once (pos + 1) t r

/-! ## Associative entries (Table 11.6, R400) -/

/-- The 144-bit number in 18 bytes. -/
def bits144 (l : List Byte) : BitVec 144 := BitVec.ofNat 144 (leNat l)

/-- An entry matches a search key (R400). -/
def AssocEntry.hit (e : AssocEntry) (key : BitVec 144) : Bool := e.valid && (e.key ^^^ key) &&& e.care = 0

/-- The entry and position that a 48-byte record gives. -/
def assocRecord (l : List Byte) (positional : Bool) : Nat × AssocEntry :=
  (field l 0 2, { valid := bit (field l 2 1) 0, prio := if positional then 0 else field l 4 2, tag := field l 8 4,
                  key := bits144 (slice l 0xC 18), care := bits144 (slice l 0x1E 18) })

/-- Words of the shadow copy of a position: a 48-byte record (log entry 29). -/
def shadowWords (pos : Nat) : List Nat := (List.range 12).map (pos * 12 + ·)

namespace State

def searchAt (s : State) (pos : Nat) : AssocEntry := sparseGet (fun _ => AssocEntry.reset) s.pmx.search pos
def shadowAt (s : State) (pos : Nat) : AssocEntry := sparseGet (fun _ => AssocEntry.reset) s.pmx.shadow pos

/-- Writes both copies of an entry. -/
def putEntry (s : State) (pos : Nat) (e : AssocEntry) : State :=
  let s := s.modPmx fun x =>
    { x with search := sparsePut (fun _ => AssocEntry.reset) x.search pos e
             shadow := sparsePut (fun _ => AssocEntry.reset) x.shadow pos e }
  forEach (shadowWords pos) s fun s w => s.sramWrite 0x14 w

/-- The shadow copy of a position can be read (R407). -/
def shadowOk (s : State) (pos : Nat) : Bool × State :=
  (shadowWords pos).foldl (fun (acc : Bool × State) w =>
    let (ok, s) := acc.2.sramRead 0x14 w
    (acc.1 && ok, s)) (true, s)

/-- Owner of a bank. -/
def bankOwner (s : State) (b : Nat) : Nat := s.getF (F.pmxBankOwnerOwner b)

/-- Invalidates every entry of a bank (R402). -/
def clearBank (s : State) (b : Nat) : State :=
  let keep := fun (m : Sparse AssocEntry) => sparseKeep (fun p => p / 4096 ≠ b) m
  let s := s.modPmx fun x =>
    { x with search := keep x.search, shadow := keep x.shadow
             mover := match x.mover with
               | some (m : Mover) => if m.bank = b then none else some m
               | none => none }
  s.sramClear 0x14 (b * 4096 * 12) (4096 * 12)

/-- Reads a set of image offsets of an automaton set: false where one is uncorrectable (R390). -/
def automatonRead (s : State) (a : AutoSet) (offs : List Nat) : Bool × State :=
  offs.foldl (fun (acc : Bool × State) o =>
    let (ok, s) := acc.2.sramRead 0x13 (a.handle % 2048 * 1024 + o / 4)
    (acc.1 && ok, s)) (true, s)

/-- Pages of the automaton store that sets hold. -/
def pagesHeld (s : State) : List Nat :=
  s.pmx.sets.flatMap fun e => match e.2 with
    | some (a : AutoSet) => (List.range a.pages).map (e.1 + ·)
    | none => []

/-- The first run of free pages of an area (R393). -/
def freeRun (s : State) (first count n : Nat) : Option Nat :=
  let held := s.pagesHeld
  (List.range (count + 1 - n)).map (first + ·) |>.find? fun p => (List.range n).all fun i => !held.contains (p + i)

/-- Bytes scanned enter PMX_CNT_SCAN in KiB. -/
def countScan (s : State) (n : Nat) : State :=
  let c := carryUnits s.cmp.scanPart n 1024
  (s.addF F.pmxCntScanKib c.1).modCmp fun x => { x with scanPart := c.2 }

/-- An associative job is served in ring order (R387): lookups among themselves and updates among themselves, since no
search is delayed by an update (R408). -/
def assocFront (s : State) (j : AccJob) : Bool :=
  s.pmx.jobs.all fun (k : AccJob) =>
    !(0x10 ≤ k.op && (k.op = 0x10) = (j.op = 0x10) && k.code.isNone && k.order < j.order)

/-- An associative job of a slot that is at the front and has not ended. -/
def assocJob (s : State) (p slot op : Nat) : Option AccJob := match s.job? 0 p slot with
  | some j => if j.op = op && j.code.isNone && s.assocFront j then some j else none
  | none => none

/-- Reads the update records of a job from record `i` on; none on an uncorrectable error. -/
def updateRecords (s : State) (j : AccJob) (i n : Nat) : Option (List (Nat × AssocEntry)) × State :=
  match s.jobRead j (field j.desc 4 4 + 48 * i) (48 * n) with
  | (none, s) => (none, s)
  | (some l, s) => (some ((List.range n).map fun k => assocRecord (slice l (48 * k) 48) (j.owner = ownFirmware)), s)

/-- Number of records of an update job. -/
def updateCount (j : AccJob) : Nat := field j.desc 8 4

/-- An update job of a slot that may go on: at its first cell the banks of all its records are checked
(R401); an update of a bank whose mover runs waits (R408). -/
def updateGate (s : State) (j : AccJob) : Bool × State :=
  if s.pmx.mover.isSome then (false, s)
  else if j.pos ≠ 0 || j.hits ≠ 0 then (true, s)
  else match s.updateRecords j 0 (updateCount j) with
  | (none, s) => (false, s.endJob j jobMemoryError 0 0)
  | (some rs, s) =>
    if rs.all fun r => s.bankOwner (r.1 / 4096) = j.owner then
      (true, s.modJob 0 j.proc j.slot fun j => { j with hits := 1 })
    else (false, s.endJob j jobBankDenied 0 0)

/-- One cell of a WRITE or DELETE: up to 8 records (Table 11.1, R405). -/
def updateCell (s : State) (j : AccJob) (del : Bool) : State :=
  let n := min 8 (updateCount j - j.pos)
  match s.updateRecords j j.pos n with
  | (none, s) => s.endJob j jobMemoryError 0 0
  | (some rs, s) =>
    let s := forEach rs s fun s r =>
      s.putEntry r.1 (if del then { s.shadowAt r.1 with valid := false } else r.2)
    let s := (s.addF F.pmxCntUpdateCycles n).modJob 0 j.proc j.slot fun j => { j with pos := j.pos + n }
    if updateCount j ≤ j.pos + n then s.endJob j 0 0 0 else s

/-- Candidates of a key in rank order, best first (R404). -/
def candidates (s : State) (mask : Nat) (key : BitVec 144) (positional : Bool) : List Nat :=
  let l := (s.pmx.search.filter fun e => bit mask (e.1 / 4096) && e.2.hit key)
  let l := if positional then l
    else l.mergeSort fun a b => a.2.prio < b.2.prio || (a.2.prio = b.2.prio && a.1 ≤ b.1)
  l.map (·.1)

/-- What the confirmation of candidates leaves (R407). -/
structure Confirm where
  good  : List Nat
  lost  : Bool
  false_ : Nat
  st    : State

/-- Confirms candidates against their shadow copies until `n` stand (R407). -/
def confirm (n : Nat) (key : BitVec 144) : List Nat → Confirm → Confirm
  | [], c => c
  | pos :: t, c =>
    if n ≤ c.good.length then c
    else
      let (ok, s) := c.st.shadowOk pos
      if !ok then
        let s := ((s.putEntry pos AssocEntry.reset).incF F.pmxCntShadowUeEntries).dailyOpen src.pmx 0 [pos]
        confirm n key t { c with lost := true, st := s }
      else if (s.shadowAt pos).hit key then confirm n key t { c with good := c.good ++ [pos], st := s }
      else confirm n key t { c with false_ := c.false_ + 1, st := s.incF F.pmxCntFalseHits }

/-- Result records of one key (R403). -/
def lookupRecords (s : State) (c : Confirm) (n : Nat) : List Byte :=
  let more : Bool := n < c.good.length
  (List.range n).flatMap fun i =>
    let first := if i = 0 then 2 * more.toNat + 4 * c.lost.toNat else 0
    match c.good[i]? with
    | some pos => leBytes 4 (s.shadowAt pos).tag ++ leBytes 2 pos ++ leBytes 1 (1 + first) ++ [0]
    | none => zeros 6 ++ leBytes 1 first ++ [0]

/-- Looks one key up and writes its records. -/
def lookupKey (s : State) (j : AccJob) (k : Nat) (key : BitVec 144) : State :=
  let n := field j.desc 1 1
  let c := confirm (n + 1) key (s.candidates (field j.desc 2 2) key (j.owner = ownFirmware))
    { good := [], lost := false, false_ := 0, st := s }
  let s := c.st.jobWrite j (field j.desc 0xC 4 + 8 * n * k) (c.st.lookupRecords c n)
  (s.incF F.pmxCntLookupKeys).modJob 0 j.proc j.slot fun j =>
    { j with pos := j.pos + 1, hits := j.hits + (!c.good.isEmpty).toNat, dropped := j.dropped + c.false_ }

end State

/-! ## Scans and sets -/

/-- Input port of a descriptor, by the flag and port fields. -/
def portOf (flag port : Nat) : Option Nat := if bit flag 0 then some (port % 8) else none

/-- A scan has found all it may: FIRST_ONLY and a match. -/
def scanOnce (j : AccJob) : Bool := bit (field j.desc 1 1) 1 && 0 < j.hits

/-- One piece of a scan: up to 512 bytes go through the automaton, and matches within OUT_MAX enter the result
area. -/
def State.scanPiece (s : State) (p slot : Nat) : State :=
  match s.runningJob 0 p slot 0x01 with
  | none => s
  | some j =>
    let d := j.desc
    if j.eos || field d 0xC 4 ≤ j.pos || scanOnce j then s
    else match s.setOf j.ctx (field d 4 2) with
    | none => s.endJob j jobNoAutomaton 0 0
    | some a =>
      let port := portOf (field d 1 1) (field d 2 1)
      match s.jobSource j port (field d 8 4) (field d 0xC 4) 512 with
      | (.wait, s) => s
      | (.memory, s) => s.sourceFailed j true 0 0
      | (.input, s) => s.sourceFailed j false j.hits j.dfa
      | (.data l ended, s) =>
        let start := if j.pos = 0 then (if bit (field d 1 1) 2 then field d 0x10 4 else field a.image 0x10 4) else j.dfa
        let r := scanRun a.image (bit (field d 1 1) 1) j.pos l { state := start, matched := [], n := 0, read := [] }
        let s := s.unpop j port (l.length - r.n)
        let (ok, s) := s.automatonRead a r.read
        if !ok then s.endJob j jobMemoryError 0 0
        else
          let room := field d 0x1C 4
          let s := forEach r.matched.zipIdx s fun s m =>
            if j.hits + m.2 < room then
              s.jobWrite j (field d 0x18 4 + 16 + 8 * (j.hits + m.2))
                (leBytes 4 (m.1.1 + field d 0x14 4) ++ leBytes 2 m.1.2 ++ [0, 0])
            else s
          (s.countScan r.n).modJob 0 p slot fun j =>
            { j with pos := j.pos + r.n, dfa := r.state, hits := j.hits + r.matched.length, eos := ended && r.n = l.length }

/-- Cells of a piece of a scan: PMX for its input, D0 and D1 for a source and for the match records written. -/
def State.scanNeeds (s : State) (j k : AccJob) : List CellNeed :=
  let d := j.desc
  let room := field d 0x1C 4
  let first := min j.hits room
  State.jobCells colPmx j (k.pos - j.pos)
    ++ (if (portOf (field d 1 1) (field d 2 1)).isSome then [] else s.jobDram j (field d 8 4 + j.pos) (k.pos - j.pos) false)
    ++ s.jobDram j (field d 0x18 4 + 16 + 8 * first) (8 * (min k.hits room - first)) true

/-- SCAN (R386, R394, R396, R398): one cell of a scan. -/
def execScan (p slot : Nat) (s : State) : Host.Outcome State Fault Refusal :=
  s.jobPiece 0 p slot s.scanNeeds fun s => s.scanPiece p slot

/-- SCAN_END (R397, R398): a scan that has reached its length, EOS or its first match writes the header of
its result area. -/
def execScanEnd (p slot : Nat) (s : State) : Host.Outcome State Fault Refusal :=
  match s.runningJob 0 p slot 0x01 with
  | none => done s
  | some j =>
    let d := j.desc
    if !(j.eos || field d 0xC 4 ≤ j.pos || scanOnce j) then done s
    else
      let st := if j.pos = 0 then (if bit (field d 1 1) 2 then field d 0x10 4
        else ((s.setOf j.ctx (field d 4 2)).map fun (a : AutoSet) => field a.image 0x10 4).getD 0) else j.dfa
      s.moving (s.jobDram j (field d 0x18 4) 16 true) fun s =>
        let s := s.jobWrite j (field d 0x18 4) (leBytes 4 j.pos ++ leBytes 4 j.hits ++ leBytes 4 st ++ zeros 4)
        done (s.endJob j (if field d 0x1C 4 < j.hits then jobResultFull else 0) j.hits st)

/-- One piece of an install: 512 bytes of the image; after the last one the image is checked and takes its pages. RESULT
is the handle (log entry 30). -/
def State.installPiece (s : State) (p slot : Nat) : State :=
  match s.runningJob 0 p slot 0x02 with
  | none => s
  | some j =>
    let len := field j.desc 8 4
    match s.jobSource j none (field j.desc 4 4) len 512 with
    | (.data l _, s) =>
      let img := j.taken ++ l
      let s := s.modJob 0 p slot fun j => { j with pos := j.pos + l.length, taken := img }
      if j.pos + l.length < len then s
      else
        let system := j.ctx.isNone
        match imageBad img len system with
        | some o => (s.incF F.pmxCntInstallRejected).endJob j jobImageBad 0 o
        | none =>
          let pages := ceilDiv len 4096
          let own := s.pmx.sets.countP fun e => match e.2 with
            | some (a : AutoSet) => a.ctx = j.ctx && a.ctx.isSome
            | none => false
          if 8 ≤ own then (s.incF F.pmxCntInstallRejected).endJob j jobStoreFull 0 0xFFFFFFFF
          else match if system then s.freeRun 0 512 pages else s.freeRun 512 1536 pages with
          | none => (s.incF F.pmxCntInstallRejected).endJob j jobStoreFull 0 0
          | some pg =>
            let n := (sparseGet (fun _ => 0) s.pmx.counts pg + 1) % 32
            let a : AutoSet :=
              { handle := pg + 2048 * n, pages := pages, ctx := j.ctx, pub := field img 0xE 2 = 1, image := img }
            let s := s.modPmx fun x =>
              { x with sets := sparsePut (fun _ => none) x.sets pg (some a)
                       counts := sparsePut (fun _ => 0) x.counts pg n }
            let s := forEach (List.range (ceilDiv len 4)) s fun s w => s.sramWrite 0x13 (pg * 1024 + w)
            (s.incF F.pmxCntInstallDone).endJob j 0 a.handle (field img 0x18 4)
    | (_, s) => s.endJob j jobMemoryError 0 0

/-- Cells of a piece of an install. -/
def State.installNeeds (s : State) (j k : AccJob) : List CellNeed :=
  State.jobCells colPmx j (k.pos - j.pos) ++ s.jobDram j (field j.desc 4 4 + j.pos) (k.pos - j.pos) false

/-- INSTALL (R386, R392, R393): one cell of the image. -/
def execInstall (p slot : Nat) (s : State) : Host.Outcome State Fault Refusal :=
  s.jobPiece 0 p slot s.installNeeds fun s => s.installPiece p slot

/-- UNINSTALL (R394): frees a tenant set of the take; at M a system set. -/
def execUninstall (p slot : Nat) (s : State) : Host.Outcome State Fault Refusal :=
  match s.runningJob 0 p slot 0x03 with
  | none => done s
  | some j =>
    match s.setOf j.ctx (field j.desc 4 2) with
    | some a =>
      if a.ctx = j.ctx then
        let s := s.modPmx fun x => { x with sets := sparsePut (fun _ => none) x.sets (a.handle % 2048) none }
        done ((s.sramClear 0x13 (a.handle % 2048 * 1024) (a.pages * 1024)).endJob j 0 0 0)
      else done (s.endJob j jobNoAutomaton 0 0)
    | none => done (s.endJob j jobNoAutomaton 0 0)

/-! ## Associative banks -/

/-- One batch of a lookup: up to 8 keys. -/
def State.lookupPiece (s : State) (p slot : Nat) : State :=
  match s.assocJob p slot 0x10 with
  | none => s
  | some j =>
    let mask := field j.desc 2 2
    if (List.range 16).any fun b => bit mask b && s.bankOwner b ≠ j.owner then s.endJob j jobBankDenied 0 0
    else
      let n := min 8 (field j.desc 8 4 - j.pos)
      match s.jobRead j (field j.desc 4 4 + 24 * j.pos) (24 * n) with
      | (none, s) => s.endJob j jobMemoryError j.hits j.dropped
      | (some l, s) =>
        let s := forEach (List.range n) s fun s i => s.lookupKey j (j.pos + i) (bits144 (slice l (24 * i) 18))
        match s.job? 0 p slot with
        | some k => if field j.desc 8 4 ≤ k.pos then s.endJob k 0 k.hits k.dropped else s
        | none => s

/-- Cells of a lookup batch: one of PMX for its keys; D0 and D1 for the keys and for the records written. -/
def State.lookupNeeds (s : State) (j k : AccJob) : List CellNeed :=
  let n := k.pos - j.pos
  let m := field j.desc 1 1
  (if n = 0 then [] else [({ col := colPmx, owner := j.owner, count := 1 } : CellNeed)])
    ++ s.jobDram j (field j.desc 4 4 + 24 * j.pos) (24 * n) false
    ++ s.jobDram j (field j.desc 0xC 4 + 8 * m * j.pos) (8 * m * n) true

/-- LOOKUP (R386, R401, R403, R404, R407): one cell, up to 8 keys of the batch. -/
def execLookup (p slot : Nat) (s : State) : Host.Outcome State Fault Refusal :=
  s.jobPiece 0 p slot s.lookupNeeds fun s => s.lookupPiece p slot

/-- Cells of up to 8 associative updates: one of PMX; D0 and D1 for their records. -/
def State.updateNeeds (s : State) (j : AccJob) (n : Nat) : List CellNeed :=
  (if n = 0 then [] else [({ col := colPmx, owner := j.owner, count := 1 } : CellNeed)])
    ++ s.jobDram j (field j.desc 4 4 + 48 * j.pos) (48 * n) false

/-- One cell of a WRITE or DELETE, where the job may go on. -/
def State.updatePiece (s : State) (p slot op : Nat) (del : Bool) : State :=
  match s.assocJob p slot op with
  | none => s
  | some j => match s.updateGate j with
    | (true, s) => s.updateCell j del
    | (false, s) => s

/-- ASSOC_WRITE (R386, R405): one cell of a WRITE sets up to 8 entries in place. -/
def execAssocWrite (p slot : Nat) (s : State) : Host.Outcome State Fault Refusal :=
  s.jobPiece 0 p slot (fun j k => s.updateNeeds j (k.pos - j.pos)) fun s => s.updatePiece p slot 0x11 false

/-- DELETE (R386, R405): one cell of a DELETE clears the valid bit of up to 8 entries. -/
def execDelete (p slot : Nat) (s : State) : Host.Outcome State Fault Refusal :=
  s.jobPiece 0 p slot (fun j k => s.updateNeeds j (k.pos - j.pos)) fun s => s.updatePiece p slot 0x13 true

/-- Starts the move for the next record of an INSERT; a block without an invalid entry ends the job with BANK_FULL. -/
def State.insertPiece (s : State) (p slot : Nat) : State :=
  match s.assocJob p slot 0x12 with
  | none => s
  | some j => match s.updateGate j with
    | (false, s) => s
    | (true, s) => match s.updateRecords j j.pos 1 with
      | (some ((pos, e) :: _), s) =>
        let i := pos % 4096
        let b := pos / 4096
        match (List.range (4096 - i)).map (i + ·) |>.find? fun f => !(s.searchAt (b * 4096 + f)).valid with
        | none => s.endJob j jobBankFull 0 0
        | some f =>
          let m : Mover := { bank := b, entry := i, next := f, newRec := e, proc := p, slot := slot }
          s.modPmx fun x => { x with mover := some m }
      | (_, s) => s.endJob j jobMemoryError 0 0

/-- INSERT (R386, R405, R406): the next record of the job; one cell carries 8 of them. -/
def execInsert (p slot : Nat) (s : State) : Host.Outcome State Fault Refusal :=
  match s.assocJob p slot 0x12 with
  | none => done s
  | some j =>
    if s.pmx.mover.isNone && (s.insertPiece p slot).pmx.mover.isSome && j.pos % 8 = 0 then
      s.moving (s.updateNeeds j (min 8 (State.updateCount j - j.pos))) fun s => done (s.insertPiece p slot)
    else done (s.insertPiece p slot)

/-- MOVER_STEP (R406): one store cycle of the move in progress; the last one writes the new record. -/
def execMoverStep (s : State) : Host.Outcome State Fault Refusal :=
  match s.pmx.mover with
  | none => done s
  | some m =>
    let base := m.bank * 4096
    let s := s.incF F.pmxCntUpdateCycles
    if m.entry < m.next then
      let (ok, s) := s.shadowOk (base + m.next - 1)
      let s := if ok then s.putEntry (base + m.next) (s.shadowAt (base + m.next - 1))
        else (((s.putEntry (base + m.next - 1) AssocEntry.reset).putEntry (base + m.next) AssocEntry.reset).incF
          F.pmxCntShadowUeEntries).dailyOpen src.pmx 0 [base + m.next - 1]
      done (s.modPmx fun x => { x with mover := some { m with next := m.next - 1 } })
    else
      let s := (s.putEntry (base + m.entry) m.newRec).modPmx fun x => { x with mover := none }
      let s := s.modJob 0 m.proc m.slot fun j => { j with pos := j.pos + 1 }
      match s.job? 0 m.proc m.slot with
      | some j => done (if State.updateCount j ≤ j.pos then s.endJob j 0 0 0 else s)
      | none => done s

/-- BANK_OWNER_WRITE (R402, Table 11.13): an instance code, FIRMWARE or none becomes the owner; a new owner
invalidates every entry. Other codes are ignored. -/
def execBankOwnerWrite (path : Path) (bank : Nat) (value : Word) (s : State) : Host.Outcome State Fault Refusal :=
  if 16 ≤ bank then done s
  else done (s.regAction path (A.pmxBankOwner bank) value fun s =>
    let o := (F.pmxBankOwnerOwner bank).get value
    let s := s.modUpd fun u => { u with dirty := true }
    if !(o < 512 || o = ownFirmware || o = ownSpare) || o = s.bankOwner bank then s
    else (s.setF (F.pmxBankOwnerOwner bank) o).clearBank bank)

end Sys2Proof.Machine
end

