-- ==== Sys2Proof/Machine/Inflate.lean ====
section
/-! DEFINITION. Decoding of Deflate, zlib and gzip streams (Table 11.9, R414, R415) as RFC 1951, RFC 1950 and RFC 1952
lay them out (log entry 31): the bits of a stream, its Huffman codes and blocks, and the framing around them. -/

namespace Sys2Proof.Machine

/-! ## Checksums -/

/-- Adler-32 (RFC 1950). -/
def adler32 (l : List Byte) : Nat :=
  let (a, b) := l.foldl (fun (ab : Nat × Nat) x => ((ab.1 + x.toNat) % 65521, (ab.2 + ab.1 + x.toNat) % 65521)) (1, 0)
  b * 65536 + a

/-! ## What a decoder makes of a stream -/

/-- Why decoding stopped: the input so far ends inside a frame, an excluded feature, a malformed stream, a wrong
checksum, or one byte more than LIMIT (R414, R415). -/
inductive DecStop where
  | more
  | unsupported
  | corrupt
  | checksum
  | limit
deriving DecidableEq, Repr

/-- What a decoder makes of the first bytes of a stream: the output it delivers; none where the input ends with a frame,
else why it stopped; the input bytes that count as consumed (R414, R415); and the blocks decoded whole. -/
structure Decoded where
  out    : List Byte
  stop   : Option DecStop
  used   : Nat
  blocks : Nat
deriving DecidableEq, Repr

/-! ## Bits -/

/-- The bits of a byte string, from bit 0 of the first byte on. -/
def bitsOf (l : List Byte) : List Bool := l.flatMap fun b => (List.range 8).map b.getLsbD

/-- The number that bits spell, the first one least significant. -/
def bitsNat (l : List Bool) : Nat := l.foldr (fun b n => b.toNat + 2 * n) 0

/-- Whole bytes of a bit string, and the bits left over. -/
def packBits : List Bool → List Byte × List Bool
  | b0 :: b1 :: b2 :: b3 :: b4 :: b5 :: b6 :: b7 :: t =>
    let (l, r) := packBits t
    (BitVec.ofNat 8 (bitsNat [b0, b1, b2, b3, b4, b5, b6, b7]) :: l, r)
  | l => ([], l)

/-- Zero bits that fill a bit string up to a whole byte. -/
def padBits (n : Nat) : List Bool := List.replicate ((8 - n % 8) % 8) false

/-! ## A Deflate decoder at work (RFC 1951) -/

/-- The bits not read yet and the number read; the output, newest byte first; its length at the start of the frame; the
bits read when the output reached LIMIT and at the end of the last whole block; whole blocks; why it stopped. -/
structure Inflate where
  rest  : List Bool
  pos   : Nat
  limit : Nat
  rev   : List Byte
  n     : Nat
  base  : Nat
  mark  : Nat
  whole : Nat
  blocks : Nat
  stop  : Option DecStop
deriving DecidableEq, Repr

namespace Inflate

def fail (x : Inflate) (e : DecStop) : Inflate := { x with stop := some e }

/-- Reads `k` bits as a number, least significant first. -/
def take (x : Inflate) (k : Nat) : Nat × Inflate :=
  if x.stop.isSome then (0, x)
  else if x.rest.length < k then (0, x.fail .more)
  else (bitsNat (x.rest.take k), { x with rest := x.rest.drop k, pos := x.pos + k })

/-- Skips to the next byte boundary. -/
def align (x : Inflate) : Inflate :=
  let k := (8 - x.pos % 8) % 8
  { x with rest := x.rest.drop k, pos := x.pos + k }

/-- Puts one byte out: at LIMIT it stops instead. -/
def put (x : Inflate) (b : Byte) : Inflate :=
  if x.stop.isSome then x
  else if x.limit ≤ x.n then x.fail .limit
  else { x with rev := b :: x.rev, n := x.n + 1, mark := if x.n + 1 = x.limit then x.pos else x.mark }

/-- Copies `n` bytes from a distance back. -/
def copy (x : Inflate) (dist : Nat) : Nat → Inflate
  | 0 => x
  | n + 1 => copy (x.put (x.rev.getD (dist - 1) 0)) dist n

/-- Stored bytes. -/
def stored (x : Inflate) : Nat → Inflate
  | 0 => x
  | n + 1 =>
    let (b, y) := x.take 8
    if y.stop.isSome then y else stored (y.put (BitVec.ofNat 8 b)) n

end Inflate

/-- A Huffman code by the lengths of its symbols: how many codes of each length, and the symbols in code order. -/
structure HuffCode where
  counts : List Nat
  syms   : List Nat

def huffCode (lens : List Nat) : HuffCode :=
  { counts := (List.range 16).map fun k => lens.countP (· = k)
    syms := (List.range 15).flatMap fun k => (lens.zipIdx.filter fun e => e.1 = k + 1).map (·.2) }

/-- Codes left over of each length: none where the lengths give more codes than there are. -/
def huffLeft (c : HuffCode) : Option Nat :=
  (List.range 15).foldl (fun (l : Option Nat) k => l.bind fun n =>
    let m := c.counts.getD (k + 1) 0
    if 2 * n < m then none else some (2 * n - m)) (some 1)

/-- The code is complete, or has no more than one code of one bit where that is allowed. -/
def huffOk (c : HuffCode) (single : Bool) : Bool := match huffLeft c with
  | none => false
  | some n => n = 0 || (single && (c.counts.drop 2).all (· = 0))

/-- Reads a symbol: the code read so far, the first code of this length and the symbols before it. -/
def huffSym (c : HuffCode) : Nat → Nat → Nat → Nat → Inflate → Nat × Inflate
  | 0, _, _, _, x => (0, x.fail .corrupt)
  | k + 1, code, first, index, x =>
    let (b, x) := x.take 1
    if x.stop.isSome then (0, x)
    else
      let code := code + b
      let m := c.counts.getD (15 - k) 0
      if code < first + m then (c.syms.getD (index + (code - first)) 0, x)
      else huffSym c k (2 * code) (2 * (first + m)) (index + m) x

def readSym (c : HuffCode) (x : Inflate) : Nat × Inflate := huffSym c 15 0 0 0 x

/-- Base and extra bits of length codes 257 to 285 and of distance codes. -/
def lengthBase : List (Nat × Nat) :=
  [(3, 0), (4, 0), (5, 0), (6, 0), (7, 0), (8, 0), (9, 0), (10, 0), (11, 1), (13, 1), (15, 1), (17, 1), (19, 2), (23, 2),
   (27, 2), (31, 2), (35, 3), (43, 3), (51, 3), (59, 3), (67, 4), (83, 4), (99, 4), (115, 4), (131, 5), (163, 5),
   (195, 5), (227, 5), (258, 0)]
def distBase : List (Nat × Nat) :=
  [(1, 0), (2, 0), (3, 0), (4, 0), (5, 1), (7, 1), (9, 2), (13, 2), (17, 3), (25, 3), (33, 4), (49, 4), (65, 5), (97, 5),
   (129, 6), (193, 6), (257, 7), (385, 7), (513, 8), (769, 8), (1025, 9), (1537, 9), (2049, 10), (3073, 10), (4097, 11),
   (6145, 11), (8193, 12), (12289, 12), (16385, 13), (24577, 13)]

/-- Literals and matches of a block up to its end; the first number bounds the symbols. -/
def inflateCodes (lit dist : HuffCode) : Nat → Inflate → Inflate
  | 0, x => x.fail .more
  | n + 1, x =>
    let (v, x) := readSym lit x
    if x.stop.isSome then x
    else if v < 256 then
      let x := x.put (BitVec.ofNat 8 v)
      if x.stop.isSome then x else inflateCodes lit dist n x
    else if v = 256 then x
    else match lengthBase[v - 257]? with
    | none => x.fail .corrupt
    | some (lb, le) =>
      let (e, x) := x.take le
      let (d, x) := readSym dist x
      if x.stop.isSome then x
      else match distBase[d]? with
      | none => x.fail .corrupt
      | some (db, de) =>
        let (f, x) := x.take de
        if x.stop.isSome then x
        else if x.n - x.base < db + f then x.fail .corrupt
        else
          let x := x.copy (db + f) (lb + e)
          if x.stop.isSome then x else inflateCodes lit dist n x

/-- Code lengths of a dynamic block: `n` of them by the code-length code, newest first; the second number bounds the
steps. -/
def codeLengths (c : HuffCode) (n : Nat) : Nat → List Nat → Inflate → List Nat × Inflate
  | 0, l, x => (l, x)
  | k + 1, l, x =>
    if n ≤ l.length || x.stop.isSome then (l, if n < l.length then x.fail .corrupt else x)
    else
      let (v, x) := readSym c x
      if v < 16 then codeLengths c n k (v :: l) x
      else if v = 16 then
        let (e, x) := x.take 2
        match l with
        | [] => (l, if x.stop.isSome then x else x.fail .corrupt)
        | p :: _ => codeLengths c n k (List.replicate (3 + e) p ++ l) x
      else
        let (e, x) := x.take (if v = 17 then 3 else 7)
        codeLengths c n k (List.replicate ((if v = 17 then 3 else 11) + e) 0 ++ l) x

/-- Order of the lengths of the code-length code. -/
def lengthOrder : List Nat := [16, 17, 18, 0, 8, 7, 9, 6, 10, 5, 11, 4, 12, 3, 13, 2, 14, 1, 15]

/-- The lengths of the code-length code. -/
def lengthLens : Nat → List Nat → Inflate → List Nat × Inflate
  | 0, l, x => (l, x)
  | n + 1, l, x =>
    let (v, x) := x.take 3
    lengthLens n (l ++ [v]) x

/-- The codes of fixed blocks. -/
def fixedLit : HuffCode :=
  huffCode (List.replicate 144 8 ++ List.replicate 112 9 ++ List.replicate 24 7 ++ List.replicate 8 8)
def fixedDist : HuffCode := huffCode (List.replicate 30 5)

/-- A dynamic block after its header. -/
def inflateDynamic (x : Inflate) : Inflate :=
  let (hlit, x) := x.take 5
  let (hdist, x) := x.take 5
  let (hclen, x) := x.take 4
  let (cl, x) := lengthLens (hclen + 4) [] x
  if x.stop.isSome then x
  else if 29 < hlit || 29 < hdist then x.fail .corrupt
  else
    let at_ := cl.zip lengthOrder
    let lens := (List.range 19).map fun i => ((at_.find? (·.2 = i)).map (·.1)).getD 0
    let c := huffCode lens
    if !huffOk c false then x.fail .corrupt
    else
      let total := hlit + 257 + hdist + 1
      let (l, x) := codeLengths c total (total + 1) [] x
      if x.stop.isSome then x
      else
        let l := l.reverse
        let lit := huffCode (l.take (hlit + 257))
        let dist := huffCode (l.drop (hlit + 257))
        if l.getD 256 0 = 0 || !huffOk lit true || !huffOk dist true then x.fail .corrupt
        else inflateCodes lit dist (x.rest.length + 1) x

/-- The blocks of a Deflate stream up to its last one; the number bounds them. -/
def inflateBlocks : Nat → Inflate → Inflate
  | 0, x => x.fail .more
  | n + 1, x =>
    let (last, x) := x.take 1
    let (kind, x) := x.take 2
    let x :=
      if x.stop.isSome then x
      else if kind = 0 then
        let x := x.align
        let (len, x) := x.take 16
        let (nlen, x) := x.take 16
        if x.stop.isSome then x
        else if len + nlen ≠ 0xFFFF then x.fail .corrupt
        else x.stored len
      else if kind = 1 then inflateCodes fixedLit fixedDist (x.rest.length + 1) x
      else if kind = 2 then inflateDynamic x
      else x.fail .corrupt
    if x.stop.isSome then x
    else
      let x := { x with blocks := x.blocks + 1, whole := x.pos }
      if last = 1 then x else inflateBlocks n x

/-! ## zlib and gzip framing -/

/-- The output of the frame under way, in order. -/
def Inflate.frameOut (x : Inflate) : List Byte := (x.rev.take (x.n - x.base)).reverse

/-- Reads a byte that must have a value. -/
def Inflate.expect (x : Inflate) (v : Nat) : Inflate :=
  let (b, x) := x.take 8
  if x.stop.isSome || b = v then x else x.fail .corrupt

/-- The zlib header: CMF names Deflate with a window of at most 32 KiB, and the check bits hold; a preset dictionary is
not supported. -/
def zlibHead (x : Inflate) : Inflate :=
  let (cmf, x) := x.take 8
  if x.stop.isSome then x
  else if cmf % 16 ≠ 8 || 7 < cmf / 16 then x.fail .corrupt
  else
    let (flg, x) := x.take 8
    if x.stop.isSome then x
    else if (cmf * 256 + flg) % 31 ≠ 0 then x.fail .corrupt
    else if bit flg 5 then x.fail .unsupported
    else x

/-- Skips a string that ends with a zero byte; the number bounds it. -/
def skipString : Nat → Inflate → Inflate
  | 0, x => x.fail .more
  | n + 1, x =>
    let (b, x) := x.take 8
    if x.stop.isSome || b = 0 then x else skipString n x

/-- The gzip header of the bytes `l` of the frame: FEXTRA, FNAME and FCOMMENT are skipped and FHCRC is checked. -/
def gzipHead (x : Inflate) : Inflate :=
  let start := x
  let x := ((x.expect 0x1F).expect 0x8B).expect 8
  let (flg, x) := x.take 8
  if x.stop.isSome then x
  else if 32 ≤ flg then x.fail .corrupt
  else
    let x := (x.take 48).2
    let x := if bit flg 2 then let (n, y) := x.take 16; (y.take (8 * n)).2 else x
    let x := if bit flg 3 then skipString (x.rest.length + 1) x else x
    let x := if bit flg 4 then skipString (x.rest.length + 1) x else x
    if x.stop.isSome || !bit flg 1 then x
    else
      let head := (packBits (start.rest.take (x.pos - start.pos))).1
      let (c, x) := x.take 16
      if x.stop.isSome || c = crc32 head % 65536 then x else x.fail .checksum

/-- The trailer after the blocks of a frame (Table 11.9). -/
def inflateTail (fmt : Nat) (x : Inflate) : Inflate :=
  let x := x.align
  if fmt = 1 then x
  else if fmt = 2 then
    let (a, x) := x.take 32
    let be := leNat (leBytes 4 a).reverse
    if x.stop.isSome || be = adler32 x.frameOut then x else x.fail .checksum
  else
    let (c, x) := x.take 32
    let (n, x) := x.take 32
    if x.stop.isSome || (c = crc32 x.frameOut && n = x.frameOut.length % 2 ^ 32) then x else x.fail .checksum

/-- The frames of a stream, one after another until the input ends; the number bounds them. -/
def inflateFrames (fmt : Nat) : Nat → Inflate → Inflate
  | 0, x => x
  | n + 1, x =>
    let x := { x with base := x.n }
    let x := if fmt = 2 then zlibHead x else if fmt = 3 then gzipHead x else x
    let x := if x.stop.isSome then x else inflateBlocks (x.rest.length + 1) x
    let x := if x.stop.isSome then x else inflateTail fmt x
    if x.stop.isSome || x.rest.isEmpty then x else inflateFrames fmt n x

/-- Decodes a raw Deflate (1), zlib (2) or gzip (3) stream with an output limit (R414, R415). At the limit, what counts
as consumed reaches to the byte with the last bit of the symbol that gave the last byte, and to the end of the last whole
block (log entry 195). -/
def inflate (fmt limit : Nat) (l : List Byte) : Decoded :=
  let x := inflateFrames fmt (l.length + 1)
    { rest := bitsOf l, pos := 0, limit := limit, rev := [], n := 0, base := 0, mark := 0, whole := 0, blocks := 0,
      stop := none }
  let used := match x.stop with
    | none => l.length
    | some .more => l.length
    | some .limit => (max x.mark x.whole + 7) / 8
    | some _ => (x.pos + 7) / 8
  { out := x.rev.reverse, stop := x.stop, used := used, blocks := x.blocks }

end Sys2Proof.Machine
end

