-- ==== Sys2Proof/Machine/Zstd.lean ====
section
/-! DEFINITION. Decoding of Zstandard frames (Table 11.9, R414, R415) as RFC 8878 lays them out (log entry 31): the XXH64
checksum, finite-state-entropy and Huffman tables, the literals and sequences of a block, and frames. -/

namespace Sys2Proof.Machine

/-! ## XXH64 -/

def xxPrime1 : BitVec 64 := 0x9E3779B185EBCA87
def xxPrime2 : BitVec 64 := 0xC2B2AE3D27D4EB4F
def xxPrime3 : BitVec 64 := 0x165667B19E3779F9
def xxPrime4 : BitVec 64 := 0x85EBCA77C2B2AE63
def xxPrime5 : BitVec 64 := 0x27D4EB2F165667C5

/-- One accumulator round of XXH64. -/
def xxRound (acc v : BitVec 64) : BitVec 64 := (acc + v * xxPrime2).rotateLeft 31 * xxPrime1

/-- The 64-bit word at a byte offset. -/
def word64 (l : List Byte) (o : Nat) : BitVec 64 := BitVec.ofNat 64 (field l o 8)

/-- The tail of XXH64: 8, 4 and 1 bytes at a time; `n` bounds the steps. -/
def xxTail : Nat → List Byte → BitVec 64 → BitVec 64
  | 0, _, h => h
  | n + 1, l, h =>
    if 8 ≤ l.length then
      xxTail n (l.drop 8) ((h ^^^ xxRound 0 (word64 l 0)).rotateLeft 27 * xxPrime1 + xxPrime4)
    else if 4 ≤ l.length then
      xxTail n (l.drop 4) ((h ^^^ BitVec.ofNat 64 (field l 0 4) * xxPrime1).rotateLeft 23 * xxPrime2 + xxPrime3)
    else match l with
      | [] => h
      | b :: t => xxTail n t ((h ^^^ b.setWidth 64 * xxPrime5).rotateLeft 11 * xxPrime1)

/-- XXH64 with seed 0. -/
def xxh64 (l : List Byte) : BitVec 64 :=
  let n := l.length / 32
  let h :=
    if n = 0 then xxPrime5
    else
      let v := (List.range n).foldl (fun (v : List (BitVec 64)) i =>
        v.zipIdx.map fun e => xxRound e.1 (word64 l (32 * i + 8 * e.2))) [xxPrime1 + xxPrime2, xxPrime2, 0, 0 - xxPrime1]
      let h := (v.zipIdx.map fun e => e.1.rotateLeft ([1, 7, 12, 18].getD e.2 0)).foldl (· + ·) 0
      v.foldl (fun h x => (h ^^^ xxRound 0 x) * xxPrime1 + xxPrime4) h
  let h := xxTail 40 (l.drop (32 * n)) (h + BitVec.ofNat 64 l.length)
  let h := (h ^^^ (h >>> 33)) * xxPrime2
  let h := (h ^^^ (h >>> 29)) * xxPrime3
  h ^^^ (h >>> 32)

/-! ## Bits read from the end -/

/-- A bit string that is read from its last byte back, below the highest set bit of that byte. -/
def backBits (l : List Byte) : Option (List Bool) :=
  match l.getLast? with
  | none => none
  | some b => if b = 0 then none else some (((bitsOf l).reverse.dropWhile (! ·)).drop 1)

/-- The number that bits spell, the first one most significant. -/
def bitsMsb (l : List Bool) : Nat := l.foldl (fun n b => 2 * n + b.toNat) 0

/-- Reads `k` bits of a backward string; zeros where it has ended. The flag says that it had as many. -/
def readBack (k : Nat) (l : List Bool) : Nat × List Bool × Bool :=
  let h := l.take k
  (bitsMsb (h ++ List.replicate (k - h.length) false), l.drop k, k ≤ l.length)

/-! ## Finite-state entropy (RFC 8878, section 4.1) -/

/-- One entry of a decoding table: its symbol, and the bits and base of the next state. -/
structure FseEntry where
  sym  : Nat
  bits : Nat
  base : Nat
deriving DecidableEq, Repr

/-- A decoding table and its accuracy in bits. -/
structure FseTable where
  log   : Nat
  cells : List FseEntry
deriving DecidableEq, Repr

def FseTable.at (t : FseTable) (i : Nat) : FseEntry := t.cells.getD i { sym := 0, bits := 0, base := 0 }

/-- The table of one symbol. -/
def fseSingle (sym : Nat) : FseTable := { log := 0, cells := [{ sym := sym, bits := 0, base := 0 }] }

/-- The cells of a table of `size` that spread symbols fill, in order, below the cells of rare symbols. -/
def fseOrder (size high : Nat) : List Nat :=
  let step := size / 2 + size / 8 + 3
  ((List.range size).map fun i => i * step % size).filter (· < high)

/-- The table that a distribution gives: -1 stands for a probability below one cell. -/
def fseBuild (log : Nat) (probs : List Int) : FseTable :=
  let size := 2 ^ log
  let rare := (probs.zipIdx.filter (·.1 = -1)).map (·.2)
  let spread := probs.zipIdx.flatMap fun e => List.replicate e.1.toNat e.2
  let order := fseOrder size (size - rare.length)
  let syms : List (Nat × Nat) := order.zip spread ++ (rare.zipIdx.map fun e => (size - 1 - e.2, e.1))
  let cells : Array Nat := syms.foldl (fun a e => a.setIfInBounds e.1 e.2) (Array.replicate size 0)
  let start : Array Nat := (probs.map Int.natAbs).toArray
  let (l, _) := cells.toList.foldl (fun (acc : List FseEntry × Array Nat) s =>
    let n := acc.2.getD s 0
    let nb := log - Nat.log2 n
    ({ sym := s, bits := nb, base := n * 2 ^ nb - size } :: acc.1, acc.2.setIfInBounds s (n + 1))) ([], start)
  { log := log, cells := l.reverse }

/-- Zero probabilities that follow one, by 2-bit counts. -/
def fseZeros : Nat → Inflate → Nat × Inflate
  | 0, x => (0, x.fail .corrupt)
  | n + 1, x =>
    let (k, x) := x.take 2
    if k = 3 && x.stop.isNone then let (m, x) := fseZeros n x; (3 + m, x) else (k, x)

/-- Probabilities of a distribution, newest first, of what remains of the table; the number bounds them. -/
def fseProbs : Nat → Nat → List Int → Inflate → List Int × Inflate
  | 0, _, l, x => (l, x.fail .corrupt)
  | n + 1, left, l, x =>
    if left = 0 || x.stop.isSome then (l, x)
    else
      let nb := Nat.log2 (left + 1) + 1
      let most := 2 ^ (nb - 1)
      let spare := 2 ^ nb - 1 - (left + 1)
      let (low, y) := x.take (nb - 1)
      let (v, x) :=
        if low < spare then (low, y)
        else
          let (top, y) := y.take 1
          let v := low + top * most
          (if top = 1 then v - spare else v, y)
      let p : Int := (v : Int) - 1
      if left < p.natAbs then (l, x.fail .corrupt)
      else if p = 0 then
        let (z, x) := fseZeros 256 x
        fseProbs n left (List.replicate z 0 ++ 0 :: l) x
      else fseProbs n (left - p.natAbs) (p :: l) x

/-- The table that a description in a byte string gives, of at most `most` bits and symbols up to `top`; and its bytes. -/
def fseRead (l : List Byte) (most top : Nat) : Option (FseTable × Nat) :=
  let x : Inflate :=
    { rest := bitsOf l, pos := 0, limit := 0, rev := [], n := 0, base := 0, mark := 0, whole := 0, blocks := 0, stop := none }
  let (a, x) := x.take 4
  let log := a + 5
  if most < log then none
  else
    let (ps, x) := fseProbs 258 (2 ^ log) [] x
    if x.stop.isSome || top + 1 < ps.length then none else some (fseBuild log ps.reverse, (x.pos + 7) / 8)

/-! ## Huffman-coded literals (RFC 8878, section 4.2) -/

/-- A Huffman decoding table: the length of its longest code, and the symbol and code length at each index. -/
structure HufTable where
  log   : Nat
  cells : List (Nat × Nat)
deriving DecidableEq, Repr

/-- Weights from two interleaved states; the number bounds them. -/
def fseWeights (t : FseTable) : Nat → Nat → Nat → List Bool → List Nat
  | 0, _, _, _ => []
  | n + 1, a, b, l =>
    let e := t.at a
    let (v, l, ok) := readBack e.bits l
    e.sym :: (if ok then fseWeights t n b (e.base + v) l else [(t.at b).sym])

/-- The table of a list of weights, of which the last one is implied. -/
def hufBuild (w : List Nat) : Option HufTable :=
  let sum := (w.map fun x => if x = 0 then 0 else 2 ^ (x - 1)).sum
  let log := Nat.log2 sum + 1
  let left := 2 ^ log - sum
  if sum = 0 || 11 < log || 255 < w.length || left ≠ 2 ^ Nat.log2 left then none
  else
    let w := w ++ [Nat.log2 left + 1]
    some { log := log, cells := (List.range log).flatMap fun k =>
      (w.zipIdx.filter (·.1 = k + 1)).flatMap fun e => List.replicate (2 ^ k) (e.2, log - k) }

/-- The Huffman table that a byte string begins with, and its bytes. -/
def hufRead (l : List Byte) : Option (HufTable × Nat) :=
  match l with
  | [] => none
  | h :: t =>
    let n := h.toNat
    if n < 128 then
      if t.length < n then none
      else match fseRead (t.take n) 6 255 with
      | none => none
      | some (ft, k) => match backBits ((t.take n).drop k) with
        | none => none
        | some bits =>
          let (a, bits, ok1) := readBack ft.log bits
          let (b, bits, ok2) := readBack ft.log bits
          if ok1 && ok2 then (hufBuild (fseWeights ft 256 a b bits)).map (·, n + 1) else none
    else
      let k := n - 127
      let bytes := (k + 1) / 2
      if t.length < bytes then none
      else (hufBuild (((t.take bytes).flatMap fun b => [b.toNat / 16, b.toNat % 16]).take k)).map (·, bytes + 1)

/-- `n` symbols of a Huffman stream, which must end with them. -/
def hufSyms (t : HufTable) : Nat → List Bool → Option (List Byte)
  | 0, l => if l.isEmpty then some [] else none
  | n + 1, l =>
    let e := t.cells.getD (readBack t.log l).1 (0, 0)
    if l.length < e.2 then none else (hufSyms t n (l.drop e.2)).map (BitVec.ofNat 8 e.1 :: ·)

def hufStream (t : HufTable) (n : Nat) (l : List Byte) : Option (List Byte) := (backBits l).bind (hufSyms t n)

/-- The literals of one stream, or of four with their jump table. -/
def hufLiterals (t : HufTable) (n : Nat) (four : Bool) (l : List Byte) : Option (List Byte) :=
  if !four then hufStream t n l
  else
    let q := (n + 3) / 4
    let s1 := field l 0 2
    let s2 := field l 2 2
    let s3 := field l 4 2
    let r := l.drop 6
    if l.length < 6 || r.length < s1 + s2 + s3 || n < 3 * q then none
    else do
      let a ← hufStream t q (r.take s1)
      let b ← hufStream t q ((r.drop s1).take s2)
      let c ← hufStream t q ((r.drop (s1 + s2)).take s3)
      let d ← hufStream t (n - 3 * q) (r.drop (s1 + s2 + s3))
      return a ++ b ++ c ++ d

/-! ## Blocks (RFC 8878, section 3.1.1.3) -/

/-- What a frame carries from block to block: its Huffman table, the tables of its sequences and its repeated offsets. -/
structure ZstdCarry where
  huf  : Option HufTable
  ll   : Option FseTable
  offs : Option FseTable
  ml   : Option FseTable
  reps : List Nat

/-- The literals of a block, the bytes of their section, and the Huffman table that stands after it. -/
def zstdLiterals (l : List Byte) (huf : Option HufTable) : Option (List Byte × Nat × Option HufTable) :=
  match l with
  | [] => none
  | b :: _ =>
    let kind := b.toNat % 4
    let form := b.toNat / 4 % 4
    if kind < 2 then
      let (h, n) := if form % 2 = 0 then (1, b.toNat / 8) else if form = 1 then (2, field l 0 2 / 16) else (3, field l 0 3 / 16)
      let m := if kind = 0 then n else 1
      if l.length < h + m || 131072 < n then none
      else if kind = 0 then some (slice l h n, h + n, huf)
      else some (List.replicate n (l.getD h 0), h + 1, huf)
    else
      let (h, k) := if form < 2 then (3, 10) else if form = 2 then (4, 14) else (5, 18)
      let v := field l 0 h / 16
      let n := v % 2 ^ k
      let c := v / 2 ^ k % 2 ^ k
      if l.length < h + c || 131072 < n then none
      else
        let body := slice l h c
        if kind = 2 then match hufRead body with
          | none => none
          | some (t, m) => (hufLiterals t n (form ≠ 0) (body.drop m)).map (·, h + c, some t)
        else match huf with
          | none => none
          | some t => (hufLiterals t n (form ≠ 0) body).map (·, h + c, huf)

/-- Base and extra bits of literal-length and match-length codes. -/
def llBase : List (Nat × Nat) :=
  (List.range 16).map (·, 0) ++
    [(16, 1), (18, 1), (20, 1), (22, 1), (24, 2), (28, 2), (32, 3), (40, 3), (48, 4), (64, 6), (128, 7), (256, 8), (512, 9),
     (1024, 10), (2048, 11), (4096, 12), (8192, 13), (16384, 14), (32768, 15), (65536, 16)]
def mlBase : List (Nat × Nat) :=
  (List.range 32).map (fun i => (i + 3, 0)) ++
    [(35, 1), (37, 1), (39, 1), (41, 1), (43, 2), (47, 2), (51, 3), (59, 3), (67, 4), (83, 4), (99, 5), (131, 7), (259, 8),
     (515, 9), (1027, 10), (2051, 11), (4099, 12), (8195, 13), (16387, 14), (32771, 15), (65539, 16)]

/-- The predefined distributions. -/
def llDefault : FseTable :=
  fseBuild 6 ([4, 3] ++ List.replicate 11 2 ++ [1, 1, 1] ++ List.replicate 9 2 ++ [3, 2, 1, 1, 1, 1, 1, -1, -1, -1, -1])
def mlDefault : FseTable := fseBuild 6 ([1, 4, 3] ++ List.replicate 6 2 ++ List.replicate 37 1 ++ List.replicate 7 (-1))
def ofDefault : FseTable :=
  fseBuild 5 (List.replicate 6 1 ++ [2, 2, 2] ++ List.replicate 15 1 ++ List.replicate 5 (-1))

/-- A table of the sequences section by its mode, and its bytes: predefined, one symbol, described, or the last one. -/
def seqTable (mode : Nat) (l : List Byte) (dflt : FseTable) (last : Option FseTable) (most top : Nat) : Option (FseTable × Nat) :=
  if mode = 0 then some (dflt, 0)
  else if mode = 1 then match l with
    | b :: _ => if b.toNat ≤ top then some (fseSingle b.toNat, 1) else none
    | [] => none
  else if mode = 2 then fseRead l most top
  else last.map (·, 0)

/-- The offset that a sequence names, and the repeated offsets after it. -/
def seqOffset (v ll : Nat) (reps : List Nat) : Nat × List Nat :=
  let r := fun i => reps.getD i 0
  if 3 < v then (v - 3, [v - 3, r 0, r 1])
  else
    let i := v - 1 + (if ll = 0 then 1 else 0)
    if i = 0 then (r 0, reps)
    else if i = 1 then (r 1, [r 1, r 0, r 2])
    else if i = 2 then (r 2, [r 2, r 0, r 1])
    else (r 0 - 1, [r 0 - 1, r 0, r 1])

/-- Copies `n` bytes from a distance back in the output, newest byte first. -/
def copyBack (dist : Nat) : Nat → List Byte → List Byte
  | 0, l => l
  | n + 1, l => copyBack dist n (l.getD (dist - 1) 0 :: l)

/-- The sequences of a block over its literals and the output of its frame, newest byte first, of length `have_`. -/
def zstdSequences (lt ot mt : FseTable) : Nat → Nat → Nat → Nat → List Bool → List Byte → List Byte → Nat → List Nat →
    Option (List Byte × Nat × List Nat)
  | 0, _, _, _, bits, lits, out, have_, reps =>
    if bits.isEmpty then some (lits.reverse ++ out, have_ + lits.length, reps) else none
  | n + 1, a, b, c, bits, lits, out, have_, reps =>
    let oc := (ot.at b).sym
    let (lb, lx) := llBase.getD (lt.at a).sym (0, 0)
    let (mb, mx) := mlBase.getD (mt.at c).sym (0, 0)
    let (ov, bits, ok1) := readBack oc bits
    let (mv, bits, ok2) := readBack mx bits
    let (lv, bits, ok3) := readBack lx bits
    let ll := lb + lv
    let (off, reps) := seqOffset (2 ^ oc + ov) ll reps
    let have_ := have_ + ll
    if !(ok1 && ok2 && ok3) || lits.length < ll || off = 0 || have_ < off then none
    else
      let out := copyBack off (mb + mv) ((lits.take ll).reverse ++ out)
      let have_ := have_ + (mb + mv)
      if n = 0 then zstdSequences lt ot mt 0 a b c bits (lits.drop ll) out have_ reps
      else
        let (x, bits, ok1) := readBack (lt.at a).bits bits
        let (y, bits, ok2) := readBack (mt.at c).bits bits
        let (z, bits, ok3) := readBack (ot.at b).bits bits
        if !(ok1 && ok2 && ok3) then none
        else zstdSequences lt ot mt n ((lt.at a).base + x) ((ot.at b).base + z) ((mt.at c).base + y) bits (lits.drop ll)
          out have_ reps

/-- The sequences section of a block: the output of the frame after it, and what it carries on. -/
def zstdSection (l lits out : List Byte) (have_ : Nat) (c : ZstdCarry) : Option (List Byte × Nat × ZstdCarry) :=
  match l with
  | [] => none
  | b :: _ =>
    let (n, h) := if b.toNat < 128 then (b.toNat, 1)
      else if b.toNat < 255 then ((b.toNat - 128) * 256 + field l 1 1, 2) else (field l 1 2 + 0x7F00, 3)
    if l.length < h then none
    else if n = 0 then
      if l.length = h then some (lits.reverse ++ out, have_ + lits.length, c) else none
    else do
      let modes := field l h 1
      if l.length < h + 1 || modes % 4 ≠ 0 then none
      else
        let l := l.drop (h + 1)
        let (lt, k) ← seqTable (modes / 64) l llDefault c.ll 9 35
        let l := l.drop k
        let (ot, k) ← seqTable (modes / 16 % 4) l ofDefault c.offs 8 31
        let l := l.drop k
        let (mt, k) ← seqTable (modes / 4 % 4) l mlDefault c.ml 9 52
        let bits ← backBits (l.drop k)
        let (x, bits, ok1) := readBack lt.log bits
        let (y, bits, ok2) := readBack ot.log bits
        let (z, bits, ok3) := readBack mt.log bits
        if !(ok1 && ok2 && ok3) then none
        else
          let (out, have_, reps) ← zstdSequences lt ot mt n x y z bits lits out have_ c.reps
          return (out, have_, { c with ll := some lt, offs := some ot, ml := some mt, reps := reps })

/-- A compressed block over the output of its frame. -/
def zstdBlock (l out : List Byte) (have_ : Nat) (c : ZstdCarry) : Option (List Byte × Nat × ZstdCarry) :=
  match zstdLiterals l c.huf with
  | none => none
  | some (lits, k, huf) => zstdSection (l.drop k) lits out have_ { c with huf := huf }

/-! ## Frames (RFC 8878, section 3.1) -/

/-- A decoder at work: the bytes not read yet and the number read; the output of the frames before this one; the output
of this one, newest byte first, and its length; the end of the last block whose output LIMIT has room for, with what counts
as consumed at the limit; whole blocks; why it stopped. -/
structure Unzstd where
  rest  : List Byte
  pos   : Nat
  limit : Nat
  done  : List Byte
  rev   : List Byte
  n     : Nat
  whole : Nat
  blocks : Nat
  stop  : Option DecStop

namespace Unzstd

def fail (x : Unzstd) (e : DecStop) : Unzstd := { x with stop := some e }

/-- Skips `k` bytes. -/
def skip (x : Unzstd) (k : Nat) : Unzstd := { x with rest := x.rest.drop k, pos := x.pos + k }

/-- Output of the job so far. -/
def total (x : Unzstd) : Nat := x.done.length + x.n

end Unzstd

/-- The blocks of a frame up to its last one, of at most `most` bytes each; the number bounds them. A block is decoded once
it is there whole. -/
def zstdBlocks (most : Nat) : Nat → ZstdCarry → Unzstd → Unzstd
  | 0, _, x => x.fail .more
  | k + 1, c, x =>
    if x.rest.length < 3 then x.fail .more
    else
      let h := field x.rest 0 3
      let kind := h / 2 % 4
      let size := h / 8
      let bytes := if kind = 1 then 1 else size
      let x := x.skip 3
      if kind = 3 || most < size then x.fail .corrupt
      else if x.limit ≤ x.total && !(kind < 2 && size = 0) then x.fail .limit
      else if x.rest.length < bytes then x.fail .more
      else
        let body := x.rest.take bytes
        let y := if kind = 0 then some (body.reverse ++ x.rev, x.n + size, c)
          else if kind = 1 then some (List.replicate size (body.headD 0) ++ x.rev, x.n + size, c)
          else zstdBlock body x.rev x.n c
        let x := x.skip bytes
        match y with
        | none => x.fail .corrupt
        | some (rev, n, c) =>
          if most < n - x.n then x.fail .corrupt
          else
            let x := { x with rev := rev, n := n }
            if x.limit < x.total then { x with whole := x.pos, stop := some .limit }
            else
              let x := { x with whole := x.pos, blocks := x.blocks + 1 }
              if h % 2 = 1 then x else zstdBlocks most k c x

/-- The beginning of a frame is still possible for the bytes at hand. -/
def magicFits (l : List Byte) : Bool :=
  let fits := fun (m : List Nat) => (l.zip m).all fun e => e.1.toNat = e.2
  fits [0x28, 0xB5, 0x2F, 0xFD] ||
    (fits [(l.getD 0 0).toNat, 0x2A, 0x4D, 0x18] && 0x50 ≤ (l.getD 0 0).toNat && (l.getD 0 0).toNat ≤ 0x5F)

/-- One frame: a skippable one is passed over; else its header, blocks and content checksum (Table 11.9). -/
def zstdFrame (x : Unzstd) : Unzstd :=
  if !magicFits x.rest then { x with pos := x.pos + min 4 x.rest.length, stop := some .corrupt }
  else if x.rest.length < 4 then x.fail .more
  else if x.rest.headD 0 ≠ 0x28 then
    let n := field x.rest 4 4
    if x.rest.length < 8 + n then x.fail .more else x.skip (8 + n)
  else
    let x := x.skip 4
    match x.rest with
    | [] => x.fail .more
    | d :: _ =>
      let d := d.toNat
      let single := bit d 5
      let dict := [0, 1, 2, 4].getD (d % 4) 0
      let fcs := [if single then 1 else 0, 2, 4, 8].getD (d / 64) 0
      let win := if single then 0 else 1
      let size := 1 + win + dict + fcs
      if bit d 3 then (x.skip 1).fail .corrupt
      else if x.rest.length < size then x.fail .more
      else
        let content := field x.rest (1 + win + dict) fcs + (if fcs = 2 then 256 else 0)
        let w := field x.rest 1 1
        let base := 2 ^ (10 + w / 8)
        let window := if single then content else base + base / 8 * (w % 8)
        let id := field x.rest (1 + win) dict
        let x := x.skip size
        if id ≠ 0 || 2 ^ 27 < window then x.fail .unsupported
        else
          let c : ZstdCarry := { huf := none, ll := none, offs := none, ml := none, reps := [1, 4, 8] }
          let x := zstdBlocks (min window 131072) (x.rest.length + 1) c { x with rev := [], n := 0 }
          if x.stop.isSome then x
          else if fcs ≠ 0 && content ≠ x.n then x.fail .corrupt
          else
            let out := x.rev.reverse
            let ended := { x with done := x.done ++ out, rev := [], n := 0 }
            if !bit d 2 then ended
            else if x.rest.length < 4 then x.fail .more
            else if field x.rest 0 4 = (xxh64 out).toNat % 2 ^ 32 then ended.skip 4
            else (x.skip 4).fail .checksum

/-- The frames of a stream, one after another until the input ends; the number bounds them. -/
def zstdFrames : Nat → Unzstd → Unzstd
  | 0, x => x
  | k + 1, x =>
    let x := zstdFrame x
    if x.stop.isSome || x.rest.isEmpty then x else zstdFrames k x

/-- Decodes a Zstandard stream with an output limit (R414, R415; log entry 195). -/
def unzstd (limit : Nat) (l : List Byte) : Decoded :=
  let x := zstdFrames (l.length + 1)
    { rest := l, pos := 0, limit := limit, done := [], rev := [], n := 0, whole := 0, blocks := 0, stop := none }
  let used := match x.stop with
    | none => l.length
    | some .more => l.length
    | some .limit => x.whole
    | some _ => x.pos
  { out := (x.done ++ x.rev.reverse).take limit, stop := x.stop, used := used, blocks := x.blocks }

/-- Decodes a stream by FORMAT (Table 11.11). -/
def decodeStream (fmt limit : Nat) (l : List Byte) : Decoded :=
  if fmt = 0 then unzstd limit l else inflate fmt limit l

end Sys2Proof.Machine
end

