-- ==== Sys2Proof/Machine/Compress.lean ====
section
/-! DEFINITION. The compression lanes (R409–R416, R418): blocks, verification, chains, the result record;
and the completion of jobs of every doorbell page. -/

namespace Sys2Proof.Machine

/-! ## What a compressor writes (Table 11.9, R412; log entries 31 and 194) -/

/-- The header of a frame by FORMAT, LEVEL and FLAGS over `size` bytes of input. -/
def encodeHead (fmt level flags size : Nat) : List Byte :=
  if fmt = 0 then [0x28, 0xB5, 0x2F, 0xFD, BitVec.ofNat 8 (0xA0 + 4 * (bit flags 2).toNat)] ++ leBytes 4 size
  else if fmt = 1 then []
  else if fmt = 2 then
    let flg := 64 * (Config.zlibLevel level % 4)
    [0x78, BitVec.ofNat 8 (flg + (31 - (0x7800 + flg) % 31) % 31)]
  else [0x1F, 0x8B, 8, 0, 0, 0, 0, 0, 0, 0xFF]

/-- The trailer of a frame over its input. -/
def encodeTail (fmt flags : Nat) (l : List Byte) : List Byte :=
  if fmt = 0 then if bit flags 2 then leBytes 4 (xxh64 l).toNat else []
  else if fmt = 1 then []
  else if fmt = 2 then (leBytes 4 (adler32 l)).reverse
  else leBytes 4 (crc32 l) ++ leBytes 4 l.length

/-- A block written raw, as the bits that follow `held` bits not yet written: a Raw_Block, or a stored block. -/
def rawBlock (fmt : Nat) (last : Bool) (held : Nat) (l : List Byte) : List Bool :=
  if fmt = 0 then bitsOf (leBytes 3 (last.toNat + 8 * l.length) ++ l)
  else [last, false, false] ++ padBits (held + 3) ++ bitsOf (leBytes 2 l.length ++ leBytes 2 (0xFFFF - l.length) ++ l)

/-- A compressed block after the input before it (log entry 194). -/
def compressedBlock (fmt level : Nat) (last : Bool) (before l : List Byte) : List Bool :=
  if fmt = 0 then bitsOf (Config.zstdBlock level last before l) else Config.deflateBlock level last before l

/-! ## Destinations -/

/-- Input of a block by format (Table 11.9). -/
def blockSize (format : Nat) : Nat := if format = 0 then 131072 else 32768

/-- The chain entry and offset of an output position (Table 11.12). -/
def chainAt : List (Nat × Nat) → Nat → Nat → Nat × Nat
  | [], _, i => (i, 0)
  | e :: t, n, i => if n < e.2 then (i, n) else chainAt t (n - e.2) (i + 1)

/-- The output port of a compression job. -/
def AccJob.outPort (j : AccJob) : Option Nat := if bit (field j.desc 3 1) 1 then some (field j.desc 4 1 / 16 % 8) else none

def AccJob.chain (j : AccJob) : List (Nat × Nat) := chainEntries (j.saved.getD [])

namespace State

/-- Writes output from position `pos` on into the buffers of a chain (R411). -/
def chainWrite (s : State) (j : AccJob) : List (Nat × Nat) → Nat → List Byte → State
  | [], _, _ => s
  | e :: t, pos, l =>
    if e.2 ≤ pos then chainWrite s j t (pos - e.2) l
    else chainWrite (s.jobWrite j (e.1 + pos) (l.take (e.2 - pos))) j t 0 (l.drop (e.2 - pos))

/-- Cells of output that enters the buffers of a chain from position `pos` on (R386, R411). -/
def chainNeeds (s : State) (j : AccJob) : List (Nat × Nat) → Nat → Nat → List CellNeed
  | [], _, _ => []
  | e :: t, pos, n =>
    if e.2 ≤ pos then chainNeeds s j t (pos - e.2) n
    else s.jobDram j (e.1 + pos) (min n (e.2 - pos)) true ++ chainNeeds s j t 0 (n - (e.2 - pos))

/-- Cells of a piece of a compression job: CMP for its input; D0 and D1 for a source and for the output (R386). -/
def cmpNeeds (s : State) (j k : AccJob) : List CellNeed :=
  jobCells colCmp j (k.pos - j.pos)
    ++ (if bit (field j.desc 3 1) 0 then [] else s.jobDram j (field j.desc 8 4 + j.pos) (k.pos - j.pos) false)
    ++ (if j.outPort.isSome then [] else s.chainNeeds j j.chain j.produced (k.produced - j.produced))

/-- Bytes that the destination can still take (R413). -/
def destRoom (s : State) (j : AccJob) : Nat := match j.outPort with
  | some pt => match j.ctx.bind s.ctx with
    | some c => match c.outRange pt with
      | some r => c.portSpace r
      | none => 0
    | none => 0
  | none => (j.chain.map (·.2)).sum - j.produced

/-- Delivers output bytes of a job at its position. -/
def deliver (s : State) (j : AccJob) (l : List Byte) : State := match j.outPort with
  | some pt => match (j.ctx.bind s.ctx).bind fun (c : Ctx) => c.outRange pt with
    | some r => s.pushBytes (j.ctx.getD 0) r l
    | none => s
  | none => s.chainWrite j j.chain j.produced l

/-- CHECK of a result record (Table 11.12): of the input when compressing, of the output when decompressing. No
check is named for raw Deflate, whose value is free. -/
def cmpCheck (s : State) (j : AccJob) : Nat × State :=
  let fmt := field j.desc 1 1
  let data := if j.op = 1 then j.taken.take j.consumed
    else (decodeStream fmt (field j.desc 0x18 4) j.taken).out.take j.produced
  if fmt = 0 then ((xxh64 data).toNat % 2 ^ 32, s)
  else if fmt = 1 then (s.free % 2 ^ 32, s.drew)
  else if fmt = 2 then (adler32 data, s)
  else (crc32 data, s)

/-- Writes the record of Table 11.12 to STATUS (R416). -/
def cmpRecord (s : State) (j : AccJob) : State :=
  let (check, s) := s.cmpCheck j
  let (i, o) := if j.outPort.isSome then (0, 0) else chainAt j.chain j.produced 0
  s.jobWrite j (field j.desc 0x1C 4)
    (leBytes 4 j.consumed ++ leBytes 4 j.produced ++ leBytes 2 i ++ zeros 2 ++ leBytes 4 o ++ leBytes 4 j.blocks
      ++ leBytes 4 j.raws ++ leBytes 4 check ++ zeros 4)

/-- Ends a compression job with its counts as results (R416). -/
def endCmp (s : State) (p slot code : Nat) : State := match s.job? 1 p slot with
  | some j => s.endJob j code j.consumed j.produced
  | none => s

end State

/-! ## Commands -/

/-- Input of a compression enters the block being filled; a full or last block is compressed and waits for the
verifier. -/
def State.compressPiece (s : State) (p slot : Nat) : State :=
  match s.runningJob 1 p slot 0x01 with
  | none => s
  | some j =>
    let d := j.desc
    let fmt := field d 1 1
    if j.blockOut.isSome || j.eos then s
    else
      match s.jobSource j (portOf (field d 3 1) (field d 4 1)) (field d 8 4) (field d 0xC 4)
          (min 512 (blockSize fmt - j.blockIn.length)) with
      | (.wait, s) => s
      | (.memory, s) => s.sourceFailed j true j.consumed j.produced
      | (.input, s) => s.sourceFailed j false j.consumed j.produced
      | (.data l ended, s) =>
        let blk := j.blockIn ++ l
        let full := blk.length = blockSize fmt || ended
        s.modJob 1 p slot fun j =>
          { j with pos := j.pos + l.length, taken := j.taken ++ l, blockIn := blk, eos := ended
                   blockOut := if full then some (compressedBlock fmt (field d 2 1) ended (j.taken.take j.consumed) blk)
                     else none }

/-- COMPRESS (R386, R412): one cell of input. -/
def execCompress (p slot : Nat) (s : State) : Host.Outcome State Fault Refusal :=
  s.jobPiece 1 p slot s.cmpNeeds fun s => s.compressPiece p slot

/-- The block that the verifier has checked is written compressed, or raw where it is not shorter or the check failed;
an armed injection makes the check fail. -/
def State.verifiedPiece (s : State) (p slot : Nat) (equal : Bool) : State :=
  match s.runningJob 1 p slot 0x01 with
  | none => s
  | some j => match j.blockOut with
    | none => s
    | some b =>
      let d := j.desc
      let fmt := field d 1 1
      let lane := j.unit.getD 0
      let inject := bit (s.getF F.cmpInjectLane) lane
      let s := if inject then s.setF F.cmpInjectLane (s.getF F.cmpInjectLane - 2 ^ lane) else s
      let good := equal && !inject
      let raw := rawBlock fmt j.eos j.bits.length j.blockIn
      let size := match portOf (field d 3 1) (field d 4 1) with
        | some pt => match (j.ctx.bind s.ctx).bind fun (c : Ctx) => (c.inRange pt).map fun r => r.length - c.consumedAt pt with
          | some left => min (field d 0xC 4) (j.pos + left)
          | none => field d 0xC 4
        | none => field d 0xC 4
      let head := if j.blocks = 0 then encodeHead fmt (field d 2 1) (field d 3 1) size else []
      let bits := j.bits ++ (if good && b.length < raw.length then b else raw)
      let (l, left) := packBits (if j.eos then bits ++ padBits bits.length else bits)
      let out := head ++ l
      let s := if good then s else s.incF F.cmpCntVerifyBlocks
      if s.destRoom j < out.length then s.endCmp p slot jobOutputFull
      else
        let raws := j.raws + (!good).toNat
        let s := (s.deliver j out).modJob 1 p slot fun j =>
          { j with consumed := j.consumed + j.blockIn.length, produced := j.produced + out.length, blocks := j.blocks + 1,
                   raws := raws, blockIn := [], blockOut := none, bits := left }
        if !j.eos then s
        else match s.job? 1 p slot with
        | none => s
        | some j =>
          let tail := encodeTail fmt (field d 3 1) j.taken
          if s.destRoom j < tail.length then s.endCmp p slot jobOutputFull
          else
            let s := (s.deliver j tail).modJob 1 p slot fun j => { j with produced := j.produced + tail.length }
            s.endCmp p slot (if raws = 0 then 0 else jobVerifyFailed)

/-- COMPRESS_BLOCK_VERIFIED (R386, R412, R413, R418). -/
def execCompressBlockVerified (p slot : Nat) (equal : Bool) (s : State) : Host.Outcome State Fault Refusal :=
  s.jobPiece 1 p slot s.cmpNeeds fun s => s.verifiedPiece p slot equal

/-- Input of a decompression is decoded and the new output delivered, until the input ends at a frame, the output
reaches LIMIT, or an error. What an input port gave beyond the bytes that count as consumed is not popped (log entry
193). -/
def State.decompressPiece (s : State) (p slot : Nat) : State :=
  match s.runningJob 1 p slot 0x02 with
  | none => s
  | some j =>
    let d := j.desc
    let port := portOf (field d 3 1) (field d 4 1)
    match s.jobSource j port (field d 8 4) (field d 0xC 4) 512 with
    | (.wait, s) => s
    | (.memory, s) => s.sourceFailed j true j.consumed j.produced
    | (.input, s) => s.sourceFailed j false j.consumed j.produced
    | (.data l ended, s) =>
      let taken := j.taken ++ l
      let r := decodeStream (field d 1 1) (field d 0x18 4) taken
      let new := r.out.drop j.produced
      if s.destRoom j < new.length then s.endCmp p slot jobOutputFull
      else
        let s := (s.deliver j new).modJob 1 p slot fun j =>
          { j with pos := j.pos + l.length, taken := taken, consumed := r.used, produced := j.produced + new.length,
                   blocks := r.blocks }
        let stop := fun (c : Nat) => (s.unpop j port (taken.length - r.used)).endCmp p slot c
        match r.stop with
        | some .unsupported => stop jobUnsupported
        | some .corrupt => stop jobCorrupt
        | some .checksum => stop jobChecksum
        | some .limit => stop jobExpansion
        | some .more => if ended then s.endCmp p slot jobTruncated else s
        | none => if ended then s.endCmp p slot 0 else s

/-- DECOMPRESS (R386, R414, R415): one cell of input. -/
def execDecompress (p slot : Nat) (s : State) : Host.Outcome State Fault Refusal :=
  s.jobPiece 1 p slot s.cmpNeeds fun s => s.decompressPiece p slot

/-- CMP_INJECT (R418): in Service mode arms a flip on the next compressed block of each lane named. -/
def execCmpInject (path : Path) (value : Word) (s : State) : Host.Outcome State Fault Refusal :=
  done (s.regAction path A.cmpInject value fun s =>
    if s.inMode .service then s.setF F.cmpInjectLane (s.getF F.cmpInjectLane ||| F.cmpInjectLane.get value) else s)

/-- JOB_COMPLETE (R389, R416, R438): a compression job writes its record; then the slot of a job whose work has
ended enters DONE, and its unit is free. -/
def execJobComplete (p page slot : Nat) (s : State) : Host.Outcome State Fault Refusal :=
  match s.job? page p slot with
  | none => done s
  | some j => match j.code with
    | none => done s
    | some (c, r, r2) => s.moving (if page = 1 then s.jobDram j (field j.desc 0x1C 4) 32 true else []) fun s =>
      let s := if page = 1 then s.cmpRecord j else s
      let s := s.setJobs page ((s.jobsOf page).filter fun (x : AccJob) => !(x.proc = p && x.slot = slot))
      let s := s.slotDone p page slot c r r2
      let s :=
        if page = 1 then
          let i := carryUnits s.cmp.inPart j.consumed (2 ^ 20)
          let o := carryUnits s.cmp.outPart j.produced (2 ^ 20)
          let s := (s.incF (if j.op = 1 then F.cmpCntJobsCompress else F.cmpCntJobsDecompress)).addF F.cmpCntInMib i.1
          let s := (s.addF F.cmpCntOutMib o.1).modCmp fun x => { x with inPart := i.2, outPart := o.2 }
          if c = jobExpansion then s.incF F.cmpCntErrExpansion
          else if c = jobCorrupt || c = jobChecksum || c = jobTruncated then s.incF F.cmpCntErrCorrupt
          else if c = jobUnsupported then s.incF F.cmpCntErrUnsupported
          else if c = jobOutputFull then s.incF F.cmpCntErrOutputFull
          else s
        else if page = 3 then s.incF F.secCntDigestJobs
        else s
      done s

end Sys2Proof.Machine
end

