-- ==== Sys2Proof/Machine/CryptoJobs.lean ====
section
/-! DEFINITION. AES and digest jobs (R421, R434–R441): pieces, tags, slices, preemption and the digest
result window. -/

namespace Sys2Proof.Machine

/-- Counter-mode cipher of bytes that start at an offset of the message. -/
def gcmPart (key iv : List Byte) (pos : Nat) (l : List Byte) : List Byte :=
  xorBytes l ((gcmStream key iv (2 + pos / 16) ((pos % 16 + l.length + 15) / 16)).drop (pos % 16))

/-- XTS over whole data units from a tweak on; `n` units. -/
def xtsUnits (enc : Bool) (key : List Byte) (tweak : Nat) (n : Nat) (l : List Byte) : List Byte :=
  (List.range n).flatMap fun i => xtsUnit enc key (tweak + i) (slice l (4096 * i) 4096)

/-- The chaining state of whole blocks of a message (Table 12.9, STATE). -/
def chainState (alg : Nat) (m : List Byte) : List Byte :=
  if alg = 0 then ((chunks 64 (m.length / 64) m).foldl sha256Block sha256Init).flatMap fun x => leBytes 4 x.toNat
  else if alg = 1 then ((chunks 128 (m.length / 128) m).foldl sha512Block sha384Init).flatMap fun x => leBytes 8 x.toNat
  else ((chunks 136 (m.length / 136) m).foldl sha3Absorb (List.replicate 25 0)).flatMap fun x => leBytes 8 x.toNat

/-- The context record of a preempted digest job (Table 12.9). -/
def digestRecord (j : AccJob) : List Byte :=
  let alg := field j.desc 1 1
  let fl := field j.desc 2 1
  let keyed : Bool := j.op = 2
  let kb := hmacKey alg j.key
  let state := if keyed then
      fit 64 (chainState alg (kb.map (· ^^^ 0x36) ++ j.taken)) ++ fit 136 (chainState alg (kb.map (· ^^^ 0x5C)))
    else fit 200 (chainState alg j.taken)
  leBytes 2 0x4443 ++ leBytes 1 alg ++ leBytes 1 (keyed.toNat + 2 * bits fl 1 1 + 4 * bits fl 2 1 + 8 * bits fl 0 1)
    ++ leBytes 2 j.owner ++ leBytes 2 j.gen ++ leBytes 8 (j.pos + (if keyed then digestBlock alg else 0))
    ++ leBytes 4 (field j.desc 0xC 4 - j.pos) ++ leBytes 4 (field j.desc 8 4 + j.pos) ++ zeros 8 ++ state
    ++ fit 48 j.expect ++ zeros 8

namespace State

/-! ## AES jobs -/

/-- Input port of an AES job, and its output port. -/
def aesIn (j : AccJob) : Option Nat := portOf (field j.desc 1 1) (field j.desc 2 1)
def aesOut (j : AccJob) : Option Nat := if bit (field j.desc 1 1) 1 then some (field j.desc 2 1 / 16 % 8) else none

/-- Delivers output of an AES job; false where an output port has no space left for it. -/
def aesDeliver (s : State) (j : AccJob) (l : List Byte) : Bool × State := match aesOut j with
  | none => (true, s.jobWrite j (field j.desc 0x10 4 + j.produced) l)
  | some pt => match j.ctx.bind s.ctx with
    | none => (false, s)
    | some c => match c.outRange pt with
      | some r => if c.portSpace r < l.length then (false, s) else (true, s.pushBytes (j.ctx.getD 0) r l)
      | none => (false, s)

/-- Ends an AES job: RESULT the bytes written, RESULT2 whether a tag matched (R434). -/
def endAes (s : State) (p slot code : Nat) (tag : Bool) : State := match s.job? 2 p slot with
  | some j => s.endJob j code j.produced tag.toNat
  | none => s

/-- IV (or tweak) and additional data, read when the job starts and kept with it. -/
def aesStart (s : State) (j : AccJob) : Option (List Byte) × State := match j.saved with
  | some x => (some x, s)
  | none =>
    let (iv, s) := s.jobRead j (field j.desc 0x14 4) (if j.op ≤ 2 then 12 else 8)
    let n := if j.op ≤ 2 then field j.desc 0x1C 2 else 0
    let (aad, s) := if n = 0 then (some [], s) else s.jobRead j (field j.desc 0x18 4) n
    match iv, aad with
    | some a, some b => (some (a ++ b), s.modJob 2 j.proc j.slot fun j => { j with saved := some (a ++ b) })
    | _, _ => (none, s)

/-- The next piece of an AES job, up to 64 KiB of its source (R421); `use` turns its bytes, with the IV and
additional data, into the state after them. A piece that has not ended stands in the way. -/
def aesPiece (s : State) (p slot op : Nat) (use : State → AccJob → List Byte → List Byte → Bool → State) : State :=
  match s.runningJob 2 p slot op with
  | none => s
  | some j =>
    if j.hits ≠ 0 then s
    else match s.aesStart j with
    | (none, s) => s.endAes p slot jobMemoryError false
    | (some iv, s) =>
      if field j.desc 0xC 4 = 0 then
        use (s.modJob 2 p slot fun j => { j with hits := 1, eos := true }) j iv [] true
      else match s.jobSource j (aesIn j) (field j.desc 8 4) (field j.desc 0xC 4) 65536 with
      | (.wait, s) => s
      | (.memory, s) => s.endAes p slot jobMemoryError false
      | (.input, s) => s.endAes p slot jobInputError false
      | (.data l ended, s) =>
        use ((s.useMasks (ceilDiv l.length 16)).modJob 2 p slot fun j =>
          { j with pos := j.pos + l.length, hits := l.length + 1, eos := ended }) j iv l ended

/-- Cells of a piece of an AES job: SEC for its bytes; D0 and D1 for the IV and additional data, a source and the output
(R54, R435). -/
def aesNeeds (s : State) (j k : AccJob) : List CellNeed :=
  jobCells colSec j (k.pos - j.pos)
    ++ (if j.saved.isSome then []
        else s.jobDram j (field j.desc 0x14 4) (if j.op ≤ 2 then 12 else 8) false
          ++ (if j.op ≤ 2 then s.jobDram j (field j.desc 0x18 4) (field j.desc 0x1C 2) false else []))
    ++ (if (aesIn j).isSome then [] else s.jobDram j (field j.desc 8 4 + j.pos) (k.pos - j.pos) false)
    ++ (if (aesOut j).isSome then [] else s.jobDram j (field j.desc 0x10 4 + j.produced) (k.produced - j.produced) true)

/-- One piece of an XTS job: whole data units of 4096 bytes; each takes the next tweak (Table 12.6). -/
def xtsPiece (s : State) (p slot op : Nat) : State :=
  s.aesPiece p slot op fun s j iv l ended =>
    let buf := j.blockIn ++ l
    let n := buf.length / 4096
    let out := xtsUnits (op = 3) j.key (leNat iv + j.produced / 4096) n buf
    let (ok, s) := s.aesDeliver j out
    if !ok then s.endAes p slot jobOutputFull false
    else
      let s := s.modJob 2 p slot fun j => { j with produced := j.produced + out.length, blockIn := buf.drop (4096 * n) }
      if ended && buf.length % 4096 ≠ 0 then s.endAes p slot jobInputError false else s

/-- The stored tag of a GCM_DECRYPT matches its ciphertext (R435). -/
def tagMatches (s : State) (j : AccJob) : Option Bool × State :=
  match s.jobRead j (field j.desc 8 4 + 16 * field j.desc 0x1E 2) 16 with
  | (none, s) => (none, s)
  | (some t, s) =>
    let iv := j.saved.getD []
    (some (t = gcmTag j.key (iv.take 12) (iv.drop 12) j.taken), s)

/-! ## Digest jobs -/

/-- Bytes of one slice from a position on: SEC_DIGEST_CFG.SLICE in units of 64 bytes, up to the next block boundary
(R439). -/
def sliceBytes (s : State) (alg pos : Nat) : Nat :=
  roundUp (max 1 (s.getF F.secDigestCfgSlice * 64)) (digestBlock alg) - pos % digestBlock alg

/-- The value of a finished digest job goes to the comparator, to memory or to the result window (R438). -/
def finishDigest (s : State) (j : AccJob) : State :=
  let alg := field j.desc 1 1
  let fl := field j.desc 2 1
  let v := if j.op = 2 then hmacOf alg j.key j.taken else digestOf alg j.taken
  let w := s.digestWin j.proc j.slot
  if bit fl 1 then
    let eq := v = j.expect
    (s.setDigestWin j.proc j.slot { w with compared := true, equal := eq, ready := true }).endJob j 0 (decide eq).toNat 0
  else
    let s := if bit fl 2 then s.jobWrite j (field j.desc 0x14 4) v else s
    (s.setDigestWin j.proc j.slot { w with digest := v, ready := true }).endJob j 0 0 0

/-- A running job stands at a block boundary, past its slice, while another waits: it must yield first (R439). -/
def yieldDue (s : State) (j : AccJob) : Bool :=
  (s.sec.digests.any fun k => k.unit.isNone && k.code.isNone) && !j.eos
    && s.getF F.secDigestCfgSlice * 64 ≤ j.hits && j.pos % digestBlock (field j.desc 1 1) = 0

/-- One slice of the digest job that runs and need not yield (R437, R439). -/
def digestSlice (s : State) (p slot op : Nat) : State :=
  match s.runningJob 3 p slot op with
  | none => s
  | some j =>
    if s.yieldDue j then s else
    let total := field j.desc 0xC 4
    let n := s.sliceBytes (field j.desc 1 1) j.pos
    let (r, s) := if total = 0 then (Source.data [] true, s)
      else s.jobSource j (portOf (field j.desc 2 1) (field j.desc 3 1)) (field j.desc 8 4) total n
    match r with
    | .wait => s
    | .memory => s.sourceFailed j true 0 0
    | .input => s.sourceFailed j false 0 0
    | .data l ended =>
      let s := s.modJob 3 p slot fun j =>
        { j with pos := j.pos + l.length, hits := j.hits + l.length, taken := j.taken ++ l, eos := ended }
      match s.job? 3 p slot with
      | some j => if ended then s.finishDigest j else s
      | none => s

/-- Cells of a slice: SEC for its bytes; D0 and D1 for a source and for a value that goes to memory (R54). -/
def digestNeeds (s : State) (j k : AccJob) : List CellNeed :=
  jobCells colSec j (k.pos - j.pos)
    ++ (if bit (field j.desc 2 1) 0 then [] else s.jobDram j (field j.desc 8 4 + j.pos) (k.pos - j.pos) false)
    ++ (if k.code.isSome && bit (field j.desc 2 1) 2 then s.jobDram j (field j.desc 0x14 4) (digestLen (field j.desc 1 1)) true
        else [])

/-- A word of the digest result window (Table 12.8): DIGEST reads zeros while BUSY, which is a misuse, and
after COMPARE. -/
def readDigest (s : State) (p slot off : Nat) : Nat × State :=
  let w := s.digestWin p slot
  let busy := ((s.proc p).slot 3 slot).state = 1
  if off < 0x30 then
    if busy then (0, (s.setDigestWin p slot { w with misuse := true }).incF F.secCntAuthMisuse)
    else (if w.compared then 0 else field w.digest off 4, s)
  else if off = 0x30 then (w.ready.toNat + 2 * w.misuse.toNat + 4 * w.equal.toNat + 8 * w.compared.toNat, s)
  else (0, s)

end State

/-! ## AES commands -/

/-- A piece of plaintext is encrypted into the destination. -/
def State.gcmEncryptPiece (s : State) (p slot : Nat) : State :=
  s.aesPiece p slot 1 fun s j iv l _ =>
    let out := gcmPart j.key (iv.take 12) j.pos l
    let (ok, s) := s.aesDeliver j out
    if !ok then s.endAes p slot jobOutputFull false
    else s.modJob 2 p slot fun j => { j with produced := j.produced + out.length, taken := j.taken ++ out }

/-- GCM_ENCRYPT (R54, R434). -/
def execGcmEncrypt (p slot : Nat) (s : State) : Host.Outcome State Fault Refusal :=
  s.jobPiece 2 p slot s.aesNeeds fun s => s.gcmEncryptPiece p slot

/-- A piece of the first pass, which only computes the tag, or of the second, which decrypts. -/
def State.gcmDecryptPiece (s : State) (p slot : Nat) : State :=
  s.aesPiece p slot 2 fun s j iv l _ =>
    if j.dfa = 0 then s.modJob 2 p slot fun j => { j with taken := j.taken ++ l }
    else
      let out := gcmPart j.key (iv.take 12) j.pos l
      (s.jobWrite j (field j.desc 0x10 4 + j.produced) out).modJob 2 p slot fun j =>
        { j with produced := j.produced + out.length }

/-- GCM_DECRYPT (R54, R435). -/
def execGcmDecrypt (p slot : Nat) (s : State) : Host.Outcome State Fault Refusal :=
  s.jobPiece 2 p slot s.aesNeeds fun s => s.gcmDecryptPiece p slot

/-- XTS_ENCRYPT (R434): a piece of whole data units is encrypted. -/
def execXtsEncrypt (p slot : Nat) (s : State) : Host.Outcome State Fault Refusal :=
  s.jobPiece 2 p slot s.aesNeeds fun s => s.xtsPiece p slot 3

/-- XTS_DECRYPT (R434): a piece of whole data units is decrypted. -/
def execXtsDecrypt (p slot : Nat) (s : State) : Host.Outcome State Fault Refusal :=
  s.jobPiece 2 p slot s.aesNeeds fun s => s.xtsPiece p slot 4

/-- A piece of an AES job ends; after the last one the tag is written or checked, and the job ends or starts its second
pass. -/
def State.aesPieceEnd (s : State) (p slot : Nat) : State :=
  match s.job? 2 p slot with
  | none => s
  | some j =>
    if j.hits = 0 || j.code.isSome || j.unit.isNone then s
    else
      let s := s.modJob 2 p slot fun j => { j with hits := 0 }
      if !j.eos then s
      else if j.op = 1 then
        let iv := j.saved.getD []
        let tag := gcmTag j.key (iv.take 12) (iv.drop 12) j.taken
        match State.aesOut j with
        | none =>
          let s := s.jobWrite j (field j.desc 0x10 4 + 16 * field j.desc 0x1E 2) tag
          s.endAes p slot 0 false
        | some _ => match s.aesDeliver j tag with
          | (true, s) => s.endAes p slot 0 false
          | (false, s) => s.endAes p slot jobOutputFull false
      else if j.op = 2 && j.dfa = 0 then
        match s.tagMatches j with
        | (none, s) => s.endAes p slot jobMemoryError false
        | (some true, s) => s.modJob 2 p slot fun j => { j with dfa := 1, pos := 0, eos := false }
        | (some false, s) =>
          let s := s.jobWrite j (field j.desc 0x10 4) (zeros (field j.desc 0xC 4))
          (s.incF F.secCntAuthAuthFail).endJob j jobAuthFailed 0 0
      else s.endAes p slot 0 (j.op = 2)

/-- Cells of the end of a piece (R435): the tag that is written or read, and the zeros written in place of plaintext
where it differs. -/
def State.pieceEndNeeds (s : State) (j : AccJob) : List CellNeed :=
  let dst := field j.desc 0x10 4
  let tag := 16 * field j.desc 0x1E 2
  if !j.eos then []
  else if j.op = 1 then if (State.aesOut j).isSome then [] else s.jobDram j (dst + tag) 16 true
  else if j.op = 2 && j.dfa = 0 then
    s.jobDram j (field j.desc 8 4 + tag) 16 false
      ++ (if (s.tagMatches j).1 = some false then s.jobDram j dst (field j.desc 0xC 4) true else [])
  else []

/-- AES_PIECE_END (R421, R434, R435). -/
def execAesPieceEnd (p slot : Nat) (s : State) : Host.Outcome State Fault Refusal :=
  match s.job? 2 p slot with
  | none => done s
  | some j =>
    if j.hits = 0 || j.code.isSome || j.unit.isNone then done s
    else s.moving (s.pieceEndNeeds j) fun s => done (s.aesPieceEnd p slot)

/-! ## Digest commands -/

/-- HASH (R437, R438): a slice of the message of the running job; after the last one the value is
delivered. -/
def execHash (p slot : Nat) (s : State) : Host.Outcome State Fault Refusal :=
  s.jobPiece 3 p slot s.digestNeeds fun s => s.digestSlice p slot 1

/-- HMAC (R437, R438): as HASH, under the key copied at the start. -/
def execHmac (p slot : Nat) (s : State) : Host.Outcome State Fault Refusal :=
  s.jobPiece 3 p slot s.digestNeeds fun s => s.digestSlice p slot 2

/-- DIGEST_YIELD (R439, R440): a job past its slice yields to a waiting one at a block boundary; its context is
saved, wrapped where it is keyed, and it goes to the tail of the queue. -/
def execDigestYield (s : State) : Host.Outcome State Fault Refusal :=
  match s.sec.digests.find? fun (j : AccJob) => j.unit.isSome && j.code.isNone with
  | none => done s
  | some j =>
    if !s.yieldDue j then done s
    else
      let r := digestRecord j
      let saved := if j.op = 2 then keyWrap (s.sec.cwk.getD []) r else r
      let rest := s.sec.digests.filter fun (k : AccJob) => !(k.proc = j.proc && k.slot = j.slot)
      done ((s.modSec fun x => { x with digests := rest ++ [{ j with unit := none, saved := some saved, hits := 0 }] }).incF
        F.secCntDigestPreempt)

/-- DIGEST_RESUME (R439, R440): the preempted job at the front of the queue takes the idle engine again; a wrapped
record that fails its check ends it with MEMORY_ERROR. -/
def execDigestResume (s : State) : Host.Outcome State Fault Refusal :=
  match s.freeUnit 3, s.nextJob 3 with
  | some u, some j => match j.saved with
    | none => done s
    | some r =>
      let ok := j.op ≠ 2 || (keyUnwrap (s.sec.cwk.getD []) r).isSome
      if ok then done (s.modJob 3 j.proc j.slot fun j => { j with unit := some u, saved := none })
      else done (s.endJob j jobMemoryError 0 0)
  | _, _ => done s

/-- DIGEST_READ_BUSY (R438): a read of DIGEST while the slot is BUSY returns zeros, sets MISUSE and is
counted. -/
def execDigestReadBusy (p slot : Nat) (s : State) : Host.Outcome State Fault Refusal :=
  if slot < 4 && ((s.proc p).slot 3 slot).state = 1 then done (s.readDigest p slot 0).2 else done s

end Sys2Proof.Machine
end

