-- ==== Sys2Proof/Machine/HostIo.lean ====
section
/-! DEFINITION. I/O commands on namespaces (Table 03.8): flush, writes through the power-protected buffer
and their mirroring, reads, Write Zeroes, deallocation and zones. -/

namespace Sys2Proof.Machine

namespace State

/-! ## Before any data moves -/

/-- First unit and number of units that a run of blocks touches. -/
def unitRun (s : State) (nsid lba count : Nat) : Nat × Nat :=
  let per := s.blocksPerUnit nsid
  (lba / per, ceilDiv (lba % per + count) per)

/-- KEY_ERASED (R432): the namespace's slot holds no key. -/
def keyDenied (s : State) (nsid : Nat) : Option Status :=
  if (s.nsKey nsid).isNone then some (7, 0xCE, 0) else none

/-- MIRROR_UNAVAILABLE for a media-modifying command (R492). -/
def pairDenied (s : State) : Option Status := if s.mirrorRequired then some (7, 0xCD, 0) else none

/-- A unit holds data, in the buffer or on the media. -/
def unitHeld (s : State) (nsid unit : Nat) : Bool := (s.wbFind nsid unit).isSome || !s.unitEmpty nsid unit

/-- The unit's data lies only on a band that cannot be read now (R582). -/
def unitOffline (s : State) (nsid unit : Nat) : Bool :=
  (s.wbFind nsid unit).isNone && !s.unitEmpty nsid unit && match s.unitBand nsid unit with
    | some (b, _) => s.bandGone b
    | none => false

/-- Write Fault (R582): a write covers part of an extent whose band cannot be read, and the double cannot
give the rest. -/
def promoteDenied (s : State) (nsid lba count : Nat) : Option Status :=
  let (first, n) := s.unitRun nsid lba count
  let per := s.blocksPerUnit nsid
  let whole := fun (e : Nat) => lba ≤ e * 256 * per && (e + 1) * 256 * per ≤ lba + count
  let bad := (List.range ((first + n - 1) / 256 - first / 256 + 1)).any fun i =>
    let e := first / 256 + i
    !whole e && ((List.range 256).any fun j => s.unitOffline nsid (e * 256 + j))
  if bad && !s.isZoned nsid && !s.throughDouble nsid lba count then some (2, 0x80, 0) else none

/-! ## Mirroring of data and map changes (R487, R489, R492, R494) -/

/-- The WRITE messages of a run of blocks, one for each unit; a principal with the mirror path down marks
its extents dirty. -/
def mirrorData (s : State) (key : Option CmdKey) (nsid lba count n g : Nat) (data : List Byte) : State :=
  if s.mirroring then
    let per := s.blocksPerUnit nsid
    let blk := 4096 / per
    let (first, units) := s.unitRun nsid lba count
    forEach (List.range units) s fun s i =>
      let lo := max lba ((first + i) * per)
      let hi := min (lba + count) ((first + i + 1) * per)
      s.sendMsg msgWrite nsid n g
        (leBytes 8 lo ++ leBytes 4 (hi - lo) ++ zeros 4 ++ slice data ((lo - lba) * blk) ((hi - lo) * blk)) key (first + i)
  else if s.role = rolePrincipal then forEach (s.extentsOf nsid lba count) s fun s e => s.markDirty e.1 e.2
  else s

/-- MAP_DELTA of a map change. Kinds: 0 deallocate, 1 Write Zeroes, 2 zone reset, 3 zone finish,
4 namespace create, 5 resize, 6 delete, 7 format (log entry 32). -/
def mirrorDelta (s : State) (kind nsid lba count : Nat) : State :=
  if s.mirroring then s.mirror msgMapDelta nsid noTenant 0 (leBytes 4 kind ++ leBytes 8 lba ++ leBytes 4 count)
  else if s.role = rolePrincipal && kind < 4 then forEach (s.extentsOf nsid lba count) s fun s e => s.markDirty e.1 e.2
  else s

/-- Mirror bytes that ASYNC mode may leave unacknowledged (R489). -/
def lagLimit (s : State) : Nat := min (s.getF F.cntLagLagMax * 2 ^ 20) (s.getF F.ftlWbEff * 2 ^ 17)

/-- A write of `bytes` may start its data fetch (R207, R489). -/
def writeRoom (s : State) (nsid lba count : Nat) : Bool :=
  let n := (s.unitRun nsid lba count).2
  s.wbRoom n && !(s.mirroring && s.onF F.cntCfgMode && s.lagLimit < s.lagBytes + n * 4160)

/-! ## Zones (R107, R270) -/

/-- One implicitly opened zone of an actuator closes where all 16 open zones are in use. -/
def makeOpenRoom (s : State) (b : Nat) : State :=
  let act := (s.bandAct b).getD 0
  if s.openZones act < 16 || s.zoneState b = 2 || s.zoneState b = 3 then s
  else match (s.zoneBandsOn act).find? fun x => s.zoneState x = 2 with
    | some x => s.modBand x fun y => { y with zopen := 3 }
    | none => s

/-- A completed zone write advances the write pointer and opens the zone implicitly. -/
def zoneWritten (s : State) (nsid lba n : Nat) : State :=
  match s.zoneAt nsid lba with
  | none => s
  | some b =>
    (s.makeOpenRoom b).modBand b fun x =>
      let wp := x.zwp + n
      { x with zwp := wp, zopen := if x.capacity ≤ wp then 0 else if x.zopen = 2 then 2 else 1 }

/-! ## Writes (R42, R205, R207) -/

/-- First LBA that a write or append puts its data at. -/
def writeLba (s : State) (q : Sqe) : Nat :=
  if q.opc = 0x7D then match s.zoneAt q.nsid q.lba with
    | some b => q.lba + (s.band b).zwp
    | none => q.lba
  else q.lba

/-- A zone write fails the checks of check 7 at execution as at decode. -/
def zoneDenied (s : State) (q : Sqe) : Option Status := match s.ns q.nsid with
  | some n => if n.type = .zoned then s.zoneWriteCheck q.nsid q.lba q.blocks (q.opc = 0x7D) else none
  | none => none

/-- The data of the command is in the buffer or on its way. -/
def writeStarted (s : State) (c : Cmd) : Bool :=
  c.dataIn || s.ftl.wb.any fun e => e.key = c.key && !e.complete

/-- The data fetch of a write has failed (R100): Data Transfer Error, with nothing in the buffer, and a report through
AER. -/
def fetchFailed (s : State) (key : CmdKey) (e : FetchEnd) : State :=
  (s.modHost fun h => { h with pcie := { h.pcie with aer := h.pcie.aer ++ [(key.fn, e)] } }).fail key (0, 0x04, 0)

/-- Cells of a write's data (R54): the transfer from the host in HDR, and the buffer in D. -/
def writeNeeds (s : State) (c : Cmd) : List CellNeed :=
  let own := fnTraffic c.key.fn
  need colHdr own (s.dataBytes c.sqe) 256 ++ s.dramNeeds own (Config.bufferPlace 0) (s.dataBytes c.sqe) true

/-- Starts the data fetch of a write that executes: the key (R432), the pair (R492), the zone and the
extent are checked before any data moves; a write that finds no room, or no cells, waits. -/
def startWrite (s : State) (c : Cmd) (fetch : FetchEnd) : Host.Outcome State Fault Refusal :=
  let q := c.sqe
  let lba := s.writeLba q
  let s := s.touchNs q.nsid
  if s.writeStarted c then done s
  else match (s.keyDenied q.nsid).or (s.pairDenied.or ((s.zoneDenied q).or (s.promoteDenied q.nsid lba q.blocks))) with
  | some st => done (s.fail c.key st)
  | none =>
    if !s.writeRoom q.nsid lba q.blocks then done s
    else if fetch ≠ .ok then done (s.fetchFailed c.key fetch)
    else s.moving (s.writeNeeds c) fun s => done (s.bufferWrite q.nsid lba q.blocks q.data c.key c.gen)

/-- A write whose data is complete (R205): it is mirrored, counts for heat, moves a zone's write pointer,
and completes, unless SYNC mode waits for the double (R42, R489). -/
def finishWrite (s : State) (c : Cmd) : State :=
  let q := c.sqe
  let lba := s.writeLba q
  let run := s.unitRun q.nsid lba q.blocks
  let at_ := if q.opc = 0x7D then lba else 0
  let s := s.completeWrite c.key
  let s := s.modCmd c.key fun c => { c with dataIn := true, dw0 := at_ % 2 ^ 32, dw1 := at_ / 2 ^ 32 }
  let s := s.addHeat q.nsid run.1 run.2 4
  let s := if s.isZoned q.nsid then s.zoneWritten q.nsid lba q.blocks else s
  let wait := s.mirroring && !s.onF F.cntCfgMode
  let s := s.mirrorData (some c.key) q.nsid lba q.blocks (fnInst c.key.fn) c.gen (fit (s.dataBytes q) q.data)
  if wait then s else s.endCmd c.key 0 0 (at_ % 2 ^ 32) (at_ / 2 ^ 32) []

/-! ## Reads (R179, R261, R432, R582) -/

/-- The media, or the double, still has to deliver data of a command. -/
def readWaits (s : State) (c : Cmd) : Bool :=
  s.mediaWaits (.cmd c.key) c.gen || s.cnt.reads.any fun (r : PairRead) => r.key = c.key && r.gen = c.gen

/-- Units of the command's range. -/
def cmdUnits (s : State) (c : Cmd) : List Nat :=
  let run := s.unitRun c.sqe.nsid c.sqe.lba c.sqe.blocks
  (List.range run.2).map (run.1 + ·)

/-- A Read or Verify of data that is held while its key is gone ends with KEY_ERASED (R432). -/
def readDenied (s : State) (c : Cmd) : Bool :=
  (s.keyDenied c.sqe.nsid).isSome && (s.cmdUnits c).any (s.unitHeld c.sqe.nsid)

/-- Cells of a Read's data (R54): the buffer or the read staging in D, the decryption of what came from the media in
SEC, and the transfer to the host in HDW. -/
def readNeeds (s : State) (c : Cmd) : List CellNeed :=
  let own := fnTraffic c.key.fn
  let us := s.cmdUnits c
  let hits := us.countP fun u => (s.wbFind c.sqe.nsid u).isSome
  let media := us.countP fun u => (s.wbFind c.sqe.nsid u).isNone && !s.unitEmpty c.sqe.nsid u
  s.dramNeeds own (Config.bufferPlace 0) (4096 * hits) false ++ s.dramNeeds own (Config.bufferPlace 2) (4096 * media) false
    ++ need colSec own (4096 * media) 512 ++ need colHdw own (s.dataBytes c.sqe) 256

/-- Counts a run of blocks for the heat of its extents (R223). -/
def heatOf (s : State) (c : Cmd) : State :=
  let run := s.unitRun c.sqe.nsid c.sqe.lba c.sqe.blocks
  s.addHeat c.sqe.nsid run.1 run.2 4

/-! ## Write Zeroes and deallocation (R106, R222) -/

/-- Marks whole units ZERO: buffered copies are dropped, a move of the extent ends, and units of a DISK
extent are marked in their slot records. -/
def zeroUnits (s : State) (nsid first n : Nat) : State :=
  let s := s.cutDeallocs nsid first n
  let s := s.modFtl fun f =>
    { f with wb := f.wb.filter fun e => !(e.complete && e.nsid = nsid && first ≤ e.unit && e.unit < first + n) }
  let s := forEach ((List.range (ceilDiv (first % 256 + n) 256)).map (first / 256 + ·)) s fun s e =>
    let x := s.extent nsid e
    if x.st = .moving then s.setExtent nsid e { x with st := .flash }
    else if x.st = .disk then
      forEach ((List.range 256).filter fun i => first ≤ e * 256 + i && e * 256 + i < first + n) s fun s i => s.modFtl fun f =>
        { f with diskClear := sparsePut (fun _ => false) f.diskClear (unitKeyOf nsid (e * 256 + i)) true }
    else s
  (s.mapRun .mapZero mapZero nsid first n).syncWb

/-- Whole units that a run of blocks covers: first and number. -/
def wholeUnits (s : State) (nsid lba count : Nat) : Nat × Nat :=
  let per := s.blocksPerUnit nsid
  let first := ceilDiv lba per
  (first, (lba + count) / per - first)

/-- Zeros on a run of blocks: whole units are mapped to ZERO, partly covered units are rewritten through the
buffer. -/
def zeroBlocks (s : State) (nsid lba count : Nat) (key : CmdKey) (gen : Nat) : State :=
  let w := s.wholeUnits nsid lba count
  let run := s.unitRun nsid lba count
  let per := s.blocksPerUnit nsid
  let s := if w.2 = 0 then s else s.zeroUnits nsid w.1 w.2
  let parts := ((List.range run.2).map (run.1 + ·)).filter fun u => !(w.1 ≤ u && u < w.1 + w.2)
  let s := forEach (parts.filter (s.unitHeld nsid)) s fun s u =>
    let lo := max lba (u * per)
    let hi := min (lba + count) ((u + 1) * per)
    s.bufferWrite nsid lo (hi - lo) (zeros ((hi - lo) * (4096 / per))) key gen
  s.completeWrite key

/-- Deallocates a run of blocks: its whole units become UNMAPPED within 1 s. -/
def deallocBlocks (s : State) (nsid lba count : Nat) : State :=
  let w := s.wholeUnits nsid lba count
  if w.2 = 0 then s
  else s.modFtl fun f => { f with deallocs := f.deallocs ++ [{ nsid := nsid, first := w.1, count := w.2, time := s.tick }] }

/-! ## Zone management -/

/-- Drops the buffered units of a zone. -/
def dropZoneUnits (s : State) (nsid zone : Nat) : State :=
  (s.modFtl fun f => { f with wb := f.wb.filter fun e => !(e.nsid = nsid && e.unit / 65536 = zone) }).syncWb

/-- A zone becomes Empty (R270). -/
def zoneReset (s : State) (nsid zone : Nat) : State := match s.zoneBand nsid zone with
  | some b => (s.dropZoneUnits nsid zone).resetBand b
  | none => s

/-- A zone becomes Full: its band is FULL and the trailer is written (R270). -/
def zoneFinish (s : State) (nsid zone : Nat) : State := match s.zoneBand nsid zone with
  | some b => (s.closeBand b).modBand b fun x => { x with zopen := 0 }
  | none => s

/-- A Zone Send Action that the zone's state permits. Codes: 1 close, 2 finish, 3 open, 4 reset, 5 offline. -/
def zoneAction (s : State) (nsid zone act : Nat) : State :=
  match s.zoneBand nsid zone with
  | none => s
  | some b =>
    let z := s.zoneState b
    let lba := zone * 65536
    if act = 5 then s.modBand b fun x => { x with zopen := 4 }
    else if act = 1 then if z = 4 then s else s.modBand b fun x => { x with zopen := 3 }
    else if act = 2 then if z = 0xE then s else (s.zoneFinish nsid zone).mirrorDelta 3 nsid lba 65536
    else if act = 3 then if z = 3 then s else (s.makeOpenRoom b).modBand b fun x => { x with zopen := 2 }
    else if z = 1 then s else (s.zoneReset nsid zone).mirrorDelta 2 nsid lba 65536

/-- Zones that Select All of a Zone Send Action covers. -/
def zoneSelected (act z : Nat) : Bool :=
  if act = 1 then z = 2 || z = 3
  else if act = 2 then z = 2 || z = 3 || z = 4
  else if act = 3 then z = 4
  else if act = 4 then z = 2 || z = 3 || z = 4 || z = 0xE
  else z = 0xD

/-- Zones of a namespace whose reported state passes. -/
def zonesWith (s : State) (nsid : Nat) (p : Nat → Bool) : List Nat := match s.ns nsid with
  | some n => (List.range n.zones.length).filter fun i => match s.zoneBand nsid i with
    | some b => p (s.zoneState b)
    | none => false
  | none => []

/-- A zone descriptor (ZNS): type, state, capacity, start and write pointer. -/
def zoneDescriptor (s : State) (nsid zone : Nat) : List Byte := match s.zoneBand nsid zone with
  | some b =>
    let x := s.band b
    leBytes 1 2 ++ leBytes 1 (s.zoneState b * 16) ++ zeros 6 ++ leBytes 8 x.capacity ++ leBytes 8 (zone * 65536)
      ++ leBytes 8 (zone * 65536 + x.zwp) ++ zeros 32
  | none => zeros 64

/-- Zone states that a reporting option selects (ZNS): 0 all, 1 empty to 7 offline. -/
def zoneReported (opt z : Nat) : Bool :=
  opt = 0 || z = ([0, 1, 2, 3, 4, 0xE, 0xD, 0xF].getD opt 0)

end State

/-! ## Rows -/

/-- FLUSH (R105): it completes once no write, Write Zeroes or append that its queue fetched earlier to its
namespace is left. -/
def execFlush (key : CmdKey) (s : State) : Host.Outcome State Fault Refusal :=
  match s.executing key 0x00 false with
  | none => done s
  | some c =>
    let waits := s.host.cmds.any fun (x : Cmd) =>
      x.key.fn = key.fn && x.key.sq = key.sq && x.seq < c.seq && x.st ≠ .completing
        && (c.sqe.nsid = 0xFFFFFFFF || x.sqe.nsid = c.sqe.nsid)
        && (x.sqe.opc = 0x01 || x.sqe.opc = 0x08 || x.sqe.opc = 0x7D)
    if waits then done s else done (s.endCmd key 0 0 0 0 [])

/-- WRITE (R42, R100, R207): the write starts its data fetch. -/
def execWrite (key : CmdKey) (fetch : FetchEnd) (s : State) : Host.Outcome State Fault Refusal :=
  match s.executing key 0x01 false with
  | none => done s
  | some c => s.startWrite c fetch

/-- ZONE_APPEND (R100, R108): the data goes to the zone's write pointer; the completion gives its first LBA. -/
def execZoneAppend (key : CmdKey) (fetch : FetchEnd) (s : State) : Host.Outcome State Fault Refusal :=
  match s.executing key 0x7D false with
  | none => done s
  | some c => s.startWrite c fetch

/-- BUFFER_SPACE_FREED (R100, R207): a waiting write starts its data fetch. -/
def execBufferSpaceFreed (key : CmdKey) (fetch : FetchEnd) (s : State) : Host.Outcome State Fault Refusal :=
  match (s.executing key 0x01 false).or (s.executing key 0x7D false) with
  | none => done s
  | some c => s.startWrite c fetch

/-- WRITE_BUFFER_FILL_DONE (R205): every unit of the write is in the buffer. -/
def execWriteBufferFillDone (key : CmdKey) (s : State) : Host.Outcome State Fault Refusal :=
  match (s.executing key 0x01 false).or (s.executing key 0x7D false) with
  | none => done s
  | some c =>
    if s.ftl.wb.any fun e => e.key = key && !e.complete then done (s.finishWrite c) else done s

/-- READ (R54, R100, R110, R112, R179, R432): once the media has delivered, the data moves to the host; data that
cannot be delivered there ends the command with Data Transfer Error. -/
def execRead (key : CmdKey) (delivered : Bool) (s : State) : Host.Outcome State Fault Refusal :=
  match s.executing key 0x02 false with
  | none => done s
  | some c =>
    let s := s.touchNs c.sqe.nsid
    if s.readWaits c then done s
    else if s.readDenied c then done (s.fail key (7, 0xCE, 0))
    else s.moving (s.readNeeds c) fun s =>
      let s := s.heatOf c
      if delivered then done (s.endCmd key 0 0 0 0 (s.readBlocks c.sqe.nsid c.sqe.lba c.sqe.blocks))
      else done (s.fail key (0, 0x04, 0))

/-- VERIFY (R108): as a read, without data. -/
def execVerify (key : CmdKey) (s : State) : Host.Outcome State Fault Refusal :=
  match s.executing key 0x0C false with
  | none => done s
  | some c =>
    let s := s.touchNs c.sqe.nsid
    if s.readWaits c then done s
    else if s.readDenied c then done (s.fail key (7, 0xCE, 0))
    else done ((s.heatOf c).endCmd key 0 0 0 0 [])

/-- WRITE_ZEROES (R108, R203, R432). -/
def execWriteZeroes (key : CmdKey) (s : State) : Host.Outcome State Fault Refusal :=
  match s.executing key 0x08 false with
  | none => done s
  | some c =>
    let q := c.sqe
    let s := s.touchNs q.nsid
    match (s.keyDenied q.nsid).or (s.pairDenied.or (s.promoteDenied q.nsid q.lba q.blocks)) with
    | some st => done (s.fail key st)
    | none =>
      if !s.wbRoom 2 then done s
      else
        let run := s.unitRun q.nsid q.lba q.blocks
        let s := (s.zeroBlocks q.nsid q.lba q.blocks key c.gen).addHeat q.nsid run.1 run.2 4
        done ((s.mirrorDelta 1 q.nsid q.lba q.blocks).endCmd key 0 0 0 0 [])

/-- DATASET_MANAGEMENT (R106, R222): with Deallocate set the ranges are unmapped in the background. -/
def execDatasetManagement (key : CmdKey) (s : State) : Host.Outcome State Fault Refusal :=
  match s.executing key 0x09 false with
  | none => done s
  | some c =>
    let q := c.sqe
    if !q.deallocates then done (s.endCmd key 0 0 0 0 [])
    else match s.pairDenied with
    | some st => done (s.fail key st)
    | none =>
      let s := forEach q.dsmRanges s fun s r => (s.deallocBlocks q.nsid r.1 r.2).mirrorDelta 0 q.nsid r.1 r.2
      done (s.endCmd key 0 0 0 0 [])

/-- ZONE_MANAGEMENT_SEND (R107, R270): the state of the zone is tested again, since other commands may have changed it
since decode. -/
def execZoneManagementSend (key : CmdKey) (s : State) : Host.Outcome State Fault Refusal :=
  match s.executing key 0x79 false with
  | none => done s
  | some c =>
    let q := c.sqe
    let act := q.dw13 % 256
    match s.pairDenied with
    | some st => done (s.fail key st)
    | none =>
      if bit q.dw13 8 then
        let zs := s.zonesWith q.nsid (State.zoneSelected act)
        done ((forEach zs s fun s z =>
          if (s.zoneActionDenied q.nsid z act).isSome then s else s.zoneAction q.nsid z act).endCmd key 0 0 0 0 [])
      else match s.zoneActionDenied q.nsid (q.lba / 65536) act with
        | some st => done (s.fail key st)
        | none => done ((s.zoneAction q.nsid (q.lba / 65536) act).endCmd key 0 0 0 0 [])

/-- ZONE_MANAGEMENT_RECEIVE (R107): a header with the number of zones, then their descriptors. -/
def execZoneManagementReceive (key : CmdKey) (s : State) : Host.Outcome State Fault Refusal :=
  match s.executing key 0x7A false with
  | none => done s
  | some c =>
    let q := c.sqe
    let opt := q.dw13 / 256 % 256
    let len := (q.dw12 + 1) * 4
    let zs := (s.zonesWith q.nsid (State.zoneReported opt)).filter (q.lba / 65536 ≤ ·)
    let room := (len - 64) / 64
    let n := if bit q.dw13 16 then min room zs.length else zs.length
    let body := (zs.take room).flatMap (s.zoneDescriptor q.nsid)
    done (s.endCmd key 0 0 0 0 (fit len (leBytes 8 n ++ zeros 56 ++ body)))

end Sys2Proof.Machine
end

