-- ==== Sys2Proof/Machine/Takes.lean ====
section
/-! DEFINITION. Takes (chapter 10): the descriptor checks, allocation and placement, the task scheduler,
stage reads, restarts, faults and commit, and the take commands. -/

namespace Sys2Proof.Machine

/-! ## Descriptors and scripts (Tables 10.1 to 10.5) -/

def takeRange (l : List Byte) (o : Nat) : TakeRange :=
  { kind := field l o 1, port := field l (o + 1) 1, nsid := field l (o + 4) 4, addr := field l (o + 8) 8,
    span := field l (o + 0x10) 4, length := field l (o + 0x14) 4, stage := field l (o + 0x18) 4 }

def takeRegion (l : List Byte) (o : Nat) : TakeRegion :=
  { offset := field l o 4, size := field l (o + 4) 3, perm := field l (o + 7) 1 }

def takeTask (l : List Byte) (o : Nat) : TakeTask :=
  { entry := field l o 1, prio := field l (o + 1) 1, arg := field l (o + 4) 4, after := field l (o + 8) 8,
    delay := field l (o + 0x10) 4 }

/-- Offsets of the first input range, output range, region and task of a descriptor (R357). -/
def rangeAt (i : Nat) : Nat := 64 + 32 * i
def regionAt (l : List Byte) (i : Nat) : Nat := 64 + 32 * (field l 6 1 + field l 7 1) + 8 * i
def taskAt (l : List Byte) (i : Nat) : Nat := regionAt l (field l 8 1) + 24 * i

/-- Length that the counts of a descriptor give (R357). -/
def descLength (l : List Byte) : Nat := taskAt l (field l 9 1)

/-- The descriptor that a list of bytes spells. -/
def parseDesc (l : List Byte) : TakeDesc :=
  let nIn := field l 6 1
  { sealed := bit (field l 0x0A 1) 0, clusters := field l 0x0B 1 % 16, shared := field l 0x0C 4,
    budget := field l 0x10 6, sealKey := field l 0x16 2, report := field l 0x18 8, digest := slice l 0x20 32,
    ins := (List.range nIn).map fun i => takeRange l (rangeAt i),
    outs := (List.range (field l 7 1)).map fun i => takeRange l (rangeAt (nIn + i)),
    regions := (List.range (field l 8 1)).map fun i => takeRegion l (regionAt l i),
    tasks := (List.range (field l 9 1)).map fun i => takeTask l (taskAt l i) }

/-- Fields of a script header (Table 10.1). -/
def Script.profile (x : Script) : Nat := field x.image 4 2
def Script.entries (x : Script) : Nat := field x.image 6 1
def Script.textLen (x : Script) : Nat := field x.image 0x10 4
def Script.minShared (x : Script) : Nat := field x.image 0x1C 4
def Script.entry (x : Script) (e : Nat) : Nat := field x.image (0x20 + 4 * e) 4
def Script.consts (x : Script) : List Byte := slice x.image (field x.image 0x14 4) (field x.image 0x18 4)

/-- The offset of the first failing test of a list. -/
def firstFail : List (Bool × Nat) → Option Nat
  | [] => none
  | (ok, o) :: t => if ok then firstFail t else some o

/-- KIND 0 ranges of a descriptor: (output, range). -/
def TakeDesc.nsRanges (d : TakeDesc) : List (Bool × TakeRange) :=
  (d.ins.map fun r => (false, r)).filter (·.2.kind = 0) ++ (d.outs.map fun r => (true, r)).filter (·.2.kind = 0)

/-- Range-lock entries of a take (R108). -/
def TakeDesc.locks (d : TakeDesc) : List LockRange :=
  d.nsRanges.map fun r => { ns := r.2.nsid, first := r.2.addr, count := r.2.span, excl := r.1 }

/-- Bytes of the stage area of a range (Table 10.3), and where it and a KIND 1 input lie: (start, size). -/
def takeArea (out : Bool) (r : TakeRange) : Nat × Nat :=
  if out then (r.stage, roundUp r.length 4096)
  else if r.kind = 0 then (r.stage, 2 ^ 21)
  else (r.addr, r.span)

/-- The numbers from `i` on that a table does not list, `n` of them. -/
def unlisted {α : Type} : Sparse α → Nat → Nat → List Nat
  | [], i, n => (List.range n).map (i + ·)
  | (k, _) :: t, i, n =>
    let m := min n (k - i)
    (List.range m).map (i + ·) ++ unlisted t (k + 1) (n - m)

namespace State

/-! ## Descriptor checks (Table 10.6, R359, R621) -/

/-- The script registered for a tenant under a digest: store index and image (R355). -/
def scriptOf (s : State) (n : Nat) (digest : List Byte) : Option (Nat × Script) :=
  (s.tsk.images.filterMap fun e => e.2.map fun x => (e.1, x)).find? fun e =>
    e.2.digest = digest && s.tsk.slots.any fun r => r.1 / 64 = n && r.2 = some e.1

/-- Check 2: the header fields that do not depend on the script. -/
def headerBad (s : State) (l : List Byte) (len : Nat) : Option Nat :=
  let v := field l 2 2
  firstFail
    [(field l 0 2 = 0x5444, 0x00),
     (s.getF F.tskDescVersionMinDesc ≤ v && v ≤ s.getF F.tskDescVersionMaxDesc, 0x02),
     (field l 4 2 = len && len = descLength l && len ≤ 2192, 0x04),
     (field l 6 1 ≤ 8, 0x06), (field l 7 1 ≤ 8, 0x07), (field l 8 1 ≤ 10, 0x08),
     (1 ≤ field l 9 1 && field l 9 1 ≤ 64, 0x09), (field l 0x0A 1 < 2, 0x0A),
     (1 ≤ field l 0x0B 1 && field l 0x0B 1 < 16, 0x0B), (1 ≤ field l 0x10 6, 0x10),
     (field l 0x18 8 % 64 = 0, 0x18)]

/-- Check 4: SHARED and the task entries against the script. -/
def tasksBad (l : List Byte) (x : Script) : Option Nat :=
  let sh := field l 0x0C 4
  firstFail ((sh % 65536 = 0 && x.minShared ≤ sh && sh ≤ 2 ^ 22, 0x0C) ::
    (List.range (field l 9 1)).flatMap fun i =>
      let o := taskAt l i
      [(field l o 1 < x.entries, o), (field l (o + 1) 1 < 4, o + 1), (field l (o + 2) 2 = 0, o + 2),
       (field l (o + 8) 8 < 2 ^ i, o + 8), (field l (o + 0x10) 4 ≤ 16777216, o + 0x10),
       (field l (o + 0x14) 4 = 0, o + 0x14)])

/-- Pass 1 of check 5 for one entry: its NSID is tested right after KIND. -/
def rangeBad (s : State) (fn : Nat) (l : List Byte) (out : Bool) (i first : Nat) : Option Status :=
  let o := rangeAt i
  let r := takeRange l o
  let bad := fun (x : Option Nat) => x.map fun o => ((0, 0x02, o) : Status)
  let ports := (List.range (i - first)).map fun j => field l (rangeAt (first + j) + 1) 1
  let kindOk := if out then r.kind = 0 || r.kind = 2 else r.kind < 2
  if !kindOk then some (0, 0x02, o)
  else if r.kind = 0 && !s.nsAttachedTo r.nsid fn then some (0, 0x0B, o + 4)
  else if r.kind = 0 && (out && s.isZoned r.nsid) then some (0, 0x02, o + 4)
  else bad (firstFail
    [(r.port < 8 && !ports.contains r.port, o + 1), (field l (o + 2) 2 = 0, o + 2), (r.kind = 0 || r.nsid = 0, o + 4),
     (if r.kind = 1 then r.addr % 4 = 0 else r.kind = 0 || r.addr % 4096 = 0, o + 8),
     (if r.kind = 0 then 1 ≤ r.span else r.kind = 1 || r.span ≤ 2 ^ 20, o + 0x10),
     (if r.kind = 1 then r.stage = 0 else r.stage % 4096 = 0, o + 0x18), (field l (o + 0x1C) 4 = 0, o + 0x1C)])

/-- Pass 2 of check 5: areas lie inside the window and do not overlap. -/
def placementBad (l : List Byte) (window : Nat) : Option Nat :=
  let nIn := field l 6 1
  let all := (List.range (nIn + field l 7 1)).map fun i =>
    (decide (nIn ≤ i), takeRange l (rangeAt i), rangeAt i)
  let area := fun (e : Bool × TakeRange × Nat) => takeArea e.1 e.2.1
  firstFail (all.zipIdx.map fun (e, i) =>
    let a := area e
    let clash := (all.take i).any fun x =>
      let b := area x
      0 < a.2 && 0 < b.2 && a.1 < b.1 + b.2 && b.1 < a.1 + a.2
    (a.1 + a.2 ≤ window && !clash, e.2.2 + if !e.1 && e.2.1.kind = 1 then 8 else 0x18))

/-- Pass 3 of check 5: no KIND 0 output overlaps a KIND 0 input of its namespace. -/
def overlapBad (l : List Byte) : Option Nat :=
  let d := parseDesc l
  let nIn := field l 6 1
  firstFail (d.outs.zipIdx.map fun (r, i) =>
    (!(r.kind = 0 && d.ins.any fun x => x.kind = 0 && x.nsid = r.nsid && x.addr < r.addr + r.span && r.addr < x.addr + x.span),
      rangeAt (nIn + i) + 8))

/-- Bytes of a range. -/
def rangeBytes (s : State) (r : TakeRange) : Nat := if r.kind = 0 then r.span * s.rangeBlock r else r.span

/-- Check 6: the first range whose declared length it does not hold: (index, bytes). -/
def lengthBad (s : State) (d : TakeDesc) : Option (Nat × Nat) :=
  let tag := if d.sealed then 16 else 0
  let all := d.ins.map (fun r => (0, r)) ++ d.outs.map fun r => (tag, r)
  (all.zipIdx.find? fun e => s.rangeBytes e.1.2 < e.1.2.length + e.1.1).map fun e => (e.2, s.rangeBytes e.1.2)

/-- Check 7: region entries. -/
def regionsBad (l : List Byte) (window : Nat) : Option Nat :=
  firstFail ((List.range (field l 8 1)).flatMap fun i =>
    let o := regionAt l i
    let r := takeRegion l o
    [(r.offset % 256 = 0, o), (1 ≤ r.size && r.offset + 256 * r.size ≤ window, o + 4), (r.perm < 4, o + 7)])

/-- Key slot of SEAL_KEY. -/
def sealSlot (s : State) (n : Nat) (d : TakeDesc) : Nat := (((s.tenant n).record.map (·.keyFirst)).getD 0) + d.sealKey

/-- Checks 8 and 9 (R433). -/
def sealBad (s : State) (n : Nat) (d : TakeDesc) : Option Status :=
  let slot := s.keySlot (s.sealSlot n d)
  if !d.sealed then if d.sealKey = 0 then none else some (0, 0x02, 0x16)
  else if ((s.tenant n).record.map (·.keyCount)).getD 0 ≤ d.sealKey then some (0, 0x02, 0x16)
  else match slot with
    | some k => if k.cls = clsSeal then none else some (0, 0x02, 0x16)
    | none => some (7, 0xCE, 0)

/-- Check 10. -/
def quotaBad (s : State) (n : Nat) (d : TakeDesc) : Option Status :=
  if s.getF (F.instQuotaTTaskQuota n) < d.tasks.length then some (7, 0xCC, 0x04)
  else if s.getF (F.instQuotaCContextQuota n) = 0 then some (7, 0xCC, 0x03)
  else if 1 + s.getF (F.instQuotaQLockLimit n) < d.nsRanges.length then some (7, 0xCC, 0x05)
  else none

/-- Checks 3 to 6 of Table 03.4 after every check of Table 10.6 (R97, R119, R359). -/
def takeHostChecks (s : State) (fn : Nat) (d : TakeDesc) : Option Status :=
  let ids := d.nsRanges.map (·.2.nsid)
  let size := fun i => match s.ns i with
    | some n => n.size
    | none => 0
  if ids.any fun i => match s.ns i with
      | some n => n.notReady
      | none => false then some (0, 0x82, 0)
  else (s.ioModeCheck (d.nsRanges.any (·.1))).or ((s.dweCheck fn ids).or
    (if d.nsRanges.any fun r => size r.2.nsid < r.2.addr + r.2.span then some (0, 0x80, 0) else none))

/-- The checks of a take descriptor in their order: status with dword 1. -/
def takeChecks (s : State) (fn len : Nat) (l : List Byte) : Option (Status × Nat) :=
  let n := fnTenant fn
  let window := (s.tenantWindow n).2
  let d := parseDesc l
  let field? := fun (x : Option Nat) => x.map fun o => (((0, 0x02, o) : Status), 0)
  let plain := fun (x : Option Status) => x.map fun st => (st, 0)
  let nIn := field l 6 1
  (field? (s.headerBad l len)).or (match s.scriptOf n d.digest with
  | none => some ((7, 0xCB, 0), 0)
  | some (_, x) =>
    (field? (tasksBad l x)).or
    ((plain ((List.range (nIn + field l 7 1)).findSome? fun i =>
        s.rangeBad fn l (decide (nIn ≤ i)) i (if nIn ≤ i then nIn else 0))).or
    ((field? (placementBad l window)).or
    ((field? (overlapBad l)).or
    (match s.lengthBad d with
    | some (i, b) => some ((7, 0xC5, min b 0xFFFFFFFF), i)
    | none =>
      (field? (regionsBad l window)).or ((plain (s.sealBad n d)).or ((plain (s.quotaBad n d)).or
        (plain (s.takeHostChecks fn d)))))))))

/-! ## Allocation (R361, R362) -/

/-- The first free handle at or after the pointer. -/
def nextHandle (s : State) : Nat :=
  let ahead := unlisted (s.tsk.ctxs.dropWhile fun e => e.1 < s.tsk.pointer) s.tsk.pointer 1
  match ahead.find? (· < 262144) with
  | some h => h
  | none => ((unlisted s.tsk.ctxs 0 1).head?).getD 0

/-- Writes the words of a context record or a task entry in their SRAM. -/
def storeRecord (s : State) (id first n : Nat) : State :=
  forEach (List.range n) s fun s i => s.sramWrite id (first + i)

/-- Reads such words; false on an uncorrectable error. -/
def loadRecord (s : State) (id first n : Nat) : Bool × State :=
  (List.range n).foldl (fun (acc : Bool × State) i =>
    let (ok, s) := acc.2.sramRead id (first + i)
    (acc.1 && ok, s)) (true, s)

/-- The entry of task `i` as the descriptor gives it (R367), not yet due. -/
def freshTask (d : TakeDesc) (h i : Nat) : TaskEntry :=
  let t := d.tasks.getD i { entry := 0, prio := 0, arg := 0, after := 0, delay := 0 }
  { ctx := h, prio := t.prio, entry := t.entry, st := .free, arg := t.arg, deps := popCount 64 t.after, index := i,
    engine := 0, wake := 0,
    succ := (d.tasks.zipIdx.map fun e => if bit e.1.after i then 2 ^ e.2 else 0).sum, result := 0 }

/-- Context and task entries of a take that leaves ADMIT_WAIT. -/
def allocTake (s : State) (c : Cmd) : State :=
  let n := fnTenant c.key.fn
  let d := parseDesc c.sqe.data
  let h := s.nextHandle
  let ids := unlisted s.tsk.tasks 0 d.tasks.length
  let x : Ctx :=
    { tenant := n, gen := c.gen, st := .free, cluster := 0, total := d.tasks.length, done := 0,
      budgetLeft := d.budget, restarts := 0, reason := 0, retired := 0, retiredAll := 0,
      script := c.image.getD 0, tasks := ids, key := c.key, sharedBase := 0, sharedSize := 0,
      faultTask := 0xFF, faultPc := 0, faultAddr := 0, result := 0, desc := d, locked := false, waiting := none,
      consumed := [], staged := [], produced := [], portError := [], portShort := [], portOver := [], fencedBy := 0,
      issued := [], outCharged := 0, outData := none, outMsgs := 0, timeStart := 0, timeEnd := 0, detail := 0,
      cancelled := false, restarted := false, silent := false, noHost := false }
  let s := (s.setCtx h (some x)).modTsk fun t => { t with pointer := (h + 1) % 262144 }
  let s := forEach ids.zipIdx s fun s e => s.setTask e.1 (some (freshTask d h e.2))
  let s := forEach ids (s.storeRecord 0x11 (16 * h) 16) fun s i => s.storeRecord 0x12 (8 * i) 8
  let s := (s.addF F.tskCtxUseInUse 1).addF F.tskTaskUseInUse ids.length
  (s.addF (F.instUseAContexts n) 1).addF (F.instUseBTasks n) ids.length

/-! ## Ready, delay and overflow lists (R368, R370) -/

def readyList (s : State) (c prio : Nat) : List Nat := sparseGet (fun _ => []) s.tsk.ready (c * 4 + prio)
def setReady (s : State) (c prio : Nat) (l : List Nat) : State :=
  s.modTsk fun t => { t with ready := sparsePut (fun _ => []) t.ready (c * 4 + prio) l }
def delayList (s : State) (c : Nat) : List Nat := sparseGet (fun _ => []) s.tsk.delay c
def setDelay (s : State) (c : Nat) (l : List Nat) : State :=
  s.modTsk fun t => { t with delay := sparsePut (fun _ => []) t.delay c l }
def chainList (s : State) (c : Nat) : List Nat := sparseGet (fun _ => []) s.tsk.chain c
def setChain (s : State) (c : Nat) (l : List Nat) : State :=
  s.modTsk fun t => { t with chain := sparsePut (fun _ => []) t.chain c l }

def taskPrio (s : State) (i : Nat) : Nat := ((s.task i).map (·.prio)).getD 0

/-- A task becomes ready: it joins its list, or the chain while the list is full or the chain holds an
earlier task of that list. -/
def makeReady (s : State) (c i : Nat) : State :=
  let p := s.taskPrio i
  let l := s.readyList c p
  if l.length < 8192 && !((s.chainList c).any fun j => s.taskPrio j = p) then
    (s.setReady c p (l ++ [i])).modTask i fun t => { t with st := .ready }
  else (s.setChain c (s.chainList c ++ [i])).modTask i fun t => { t with st := .overflow }

/-- Ticks from now to a WAKE count, modulo 2^32. -/
def wakeIn (s : State) (wake : Nat) : Int := signedOf 32 (wake + 2 ^ 32 - s.getF F.tskTickCount)

/-- A task whose counter is zero becomes due (R368). -/
def makeDue (s : State) (c i delay : Nat) : State :=
  if delay = 0 then s.makeReady c i
  else
    let wake := (s.getF F.tskTickCount + delay) % 2 ^ 32
    let s := s.modTask i fun t => { t with st := .delayed, wake := wake }
    let l := s.delayList c
    let early := fun j => match s.task j with
      | some t => s.wakeIn t.wake ≤ s.wakeIn wake
      | none => true
    s.setDelay c (l.takeWhile early ++ i :: l.dropWhile early)

/-- Every delayed task whose WAKE has passed moves to its ready list, in delay-list order. -/
def wakeDelayed (s : State) : State :=
  forEach (List.range 4) s fun s c =>
    let passed := fun j => match s.task j with
      | some t => s.wakeIn t.wake ≤ 0
      | none => true
    let l := s.delayList c
    forEach (l.takeWhile passed) (s.setDelay c (l.dropWhile passed)) fun s i => s.makeReady c i

/-! ## Placement (R363) -/

/-- A shared-SRAM unit of a cluster is free. -/
def sharedFree (s : State) (c u : Nat) : Bool :=
  !(s.tsk.ctxs.any fun e => match e.2 with
    | some (x : Ctx) => x.cluster = c && x.sharedBase ≤ u && u < x.sharedBase + x.sharedSize
    | none => false)

/-- The lowest run of `n` free units of a cluster. -/
def sharedRun (s : State) (c n : Nat) : Option Nat :=
  (List.range (65 - n)).find? fun b => (List.range n).all fun i => s.sharedFree c (b + i)

def sharedUnits (s : State) (c : Nat) : Nat := (List.range 64).countP (s.sharedFree c)

/-- A cluster has an engine that is not fenced. -/
def clusterRuns (s : State) (c : Nat) : Bool :=
  (List.range 8).any fun e => !bit (s.getF F.engFencedFenced) (8 * c + e)

/-- An older waiting take names the cluster. -/
def olderWaits (s : State) (x : Ctx) (c : Nat) : Bool :=
  s.tsk.ctxs.any fun e => match e.2 with
    | some (y : Ctx) => bit y.desc.clusters c && (match y.waiting, x.waiting with
        | some a, some b => a < b
        | some _, none => true
        | none, _ => false)
    | none => false

/-- Dword 1 of a take's completion: TAKE_RESTARTED (R16, R127). -/
def takeDw1 (x : Ctx) : Nat := if x.restarted then 2 ^ 31 else 0

/-- Ends a take before it commits with a status of its own: nothing more of it runs (R432, R492). -/
def endTake (s : State) (h : Nat) (st : Status) : State :=
  match s.ctx h with
  | none => s
  | some x =>
    ((s.stopTasks h).modCtx h fun c => { c with st := .faulting, cancelled := true, waiting := none }).failWith
      x.key st (takeDw1 x)

/-- A range of the take needs a key that is gone (R432): outputs always, inputs where data is held. -/
def takeKeyGone (s : State) (d : TakeDesc) : Bool :=
  d.nsRanges.any fun r => (s.keyDenied r.2.nsid).isSome && (r.1 ||
    let run := s.unitRun r.2.nsid r.2.addr r.2.span
    (List.range run.2).any fun i => s.unitHeld r.2.nsid (run.1 + i))

/-- The steps of R363 once a cluster is chosen. -/
def setUpTake (s : State) (h c base : Nat) : State :=
  match s.ctx h with
  | none => s
  | some x =>
    let n := x.desc.shared / 65536
    let lo := c * 2 ^ 22 + base * 65536
    let s := s.modCtx h fun y =>
      { y with cluster := c, sharedBase := base, sharedSize := n, waiting := none, st := .running, done := 0,
               timeStart := if y.restarted then y.timeStart else s.now }
    let s := s.sramClear (0x18 + c) (base * 16384) (n * 16384)
    let s := s.modEng fun e => { e with shared := sparseKeep (fun k => !(lo ≤ k && k < lo + n * 65536)) e.shared }
    let consts := ((sparseGet (fun _ => none) s.tsk.images x.script).map Script.consts).getD []
    let s := s.sramStore 0 true lo consts
    let s := forEach x.tasks.zipIdx s fun s e =>
      (s.setTask e.1 (some { freshTask x.desc h e.2 with st := .waiting })).storeRecord 0x12 (8 * e.1) 8
    forEach (x.tasks.zip x.desc.tasks) s fun s e => if e.2.after = 0 then s.makeDue c e.1 e.2.delay else s

/-- A take in PREPARING is placed on a cluster, or waits, or ends where no cluster can serve it. -/
def placeTake (s : State) (h : Nat) : State :=
  match s.ctx h with
  | none => s
  | some x =>
    let named := (List.range 4).filter fun c => bit x.desc.clusters c && s.clusterRuns c
    let n := x.desc.shared / 65536
    let fits := named.filter fun c => (s.sharedRun c n).isSome && !s.olderWaits x c
    let best := fits.find? fun c => fits.all fun d => s.sharedUnits d ≤ s.sharedUnits c
    if s.takeKeyGone x.desc then s.endTake h (7, 0xCE, 0)
    else if (x.desc.nsRanges.any (·.1)) && s.mirrorRequired then s.endTake h (7, 0xCD, 0)
    else if named.isEmpty then s.faultTake h 0x23 none 0 0 0
    else match best with
    | some c => s.setUpTake h c ((s.sharedRun c n).getD 0)
    | none =>
      if x.waiting.isSome then s
      else (s.modCtx h fun c => { c with waiting := some s.tsk.nextWait }).modTsk fun t => { t with nextWait := t.nextWait + 1 }

/-- Placement of a take: where it is placed, its constants are copied in the D0 and D1 cells of the instance (R363). -/
def placing (s : State) (h : Nat) : Host.Outcome State Fault Refusal :=
  match (s.placeTake h).ctx h with
  | some x =>
    if x.st = .running then
      let consts := ((sparseGet (fun _ => none) s.tsk.images x.script).map Script.consts).getD []
      s.moving (s.dramNeeds x.tenant (Config.bufferPlace 6) consts.length false) fun s => done (s.placeTake h)
    else done (s.placeTake h)
  | none => done (s.placeTake h)

/-! ## Dispatch (R158, R317, R338, R371, R372) -/

/-- An engine that takes a dispatch. -/
def engineIdle (s : State) (p : Nat) : Bool :=
  let x := s.proc p
  !x.running && x.slotAbortUntil ≤ s.tick && !bit (s.getF F.engFencedFenced) p

/-- The engine that R371 chooses in a cluster. -/
def pickEngine (s : State) (c n : Nat) : Option Nat :=
  let idle := ((List.range 8).map (8 * c + ·)).filter s.engineIdle
  (idle.find? fun p => (s.proc p).lastTenant = some n).or idle.head?

/-- The first task of a tenant in the highest-priority list that holds one. -/
def pickTask (s : State) (c n : Nat) : Option Nat :=
  (List.range 4).findSome? fun p => (s.readyList c p).find? fun i => match s.task i with
    | some t => match s.ctx t.ctx with
      | some x => x.tenant = n
      | none => false
    | none => false

/-- A region of Table 09.9 over a byte range; none where it is empty. -/
def regionOver (base n perm : Nat) : MpuRegion :=
  if n = 0 then MpuRegion.reset
  else { base := base / 256 * 256, limit := (base + n - 1) / 256 * 256 + 128 + perm }

/-- The T-level regions of a dispatch (Table 09.9). -/
def takeRegions (s : State) (x : Ctx) : List MpuRegion :=
  let w := s.tenantWindow x.tenant
  [regionOver 0 0x10000 3, regionOver (0x01000000 + x.sharedBase * 65536) (x.sharedSize * 65536) 3,
   regionOver 0x02000000 0x800 3, regionOver 0x02008000 0x800 3, regionOver 0x03000000 0x4000 3,
   regionOver 0x80000000 w.2 3]
    ++ x.desc.regions.map fun r => regionOver (0x80000000 + r.offset) (256 * r.size) r.perm

/-- Starts a task on an engine. -/
def startTask (s : State) (c n i p : Nat) : State :=
  match s.task i with
  | none => s
  | some t =>
    let prio := t.prio
    let s := s.setReady c prio ((s.readyList c prio).filter (· ≠ i))
    let (okC, s) := s.loadRecord 0x11 (16 * t.ctx) 16
    let (okT, s) := s.loadRecord 0x12 (8 * i) 8
    match s.ctx t.ctx with
    | none => s
    | some x =>
      if !okC || !okT then s.faultTake t.ctx 0x24 none 0 0 0
      else
        let switch := (s.proc p).lastTenant ≠ some n
        let script := sparseGet (fun _ => none) s.tsk.images x.script
        let pc := (script.map fun z => z.entry t.entry).getD 0
        let grant := min x.budgetLeft 65536
        let s := (s.incF (F.tskCDispatchCount c)).when switch fun s => s.incF (F.tskCSwitchCount c)
        let s := s.when switch fun s => s.sramClear (0x20 + p) 0 16384
        let s := s.modTask i fun t => { t with st := .running, engine := p }
        let s := s.modCtx t.ctx fun x => { x with budgetLeft := x.budgetLeft - grant }
        let regs : Sparse Word := sparsePut (fun _ => 0) (sparsePut (fun _ => 0) [] 1 (BitVec.ofNat 32 t.arg)) 2
          (BitVec.ofNat 32 t.ctx)
        let mpu : Sparse MpuRegion := (s.takeRegions x).zipIdx.foldl (fun (m : Sparse MpuRegion) e =>
          sparsePut (fun _ => MpuRegion.reset) m e.2 e.1) []
        s.modProc p fun y =>
          { y with regs := regs, pc := BitVec.ofNat 32 pc, running := true, stall := none,
                   local_ := if switch then [] else y.local_, icache := if switch then [] else y.icache,
                   mpu := mpu, merge := [], events := 0, grant := grant, grantSize := grant, retired := 0,
                   since := s.tick, ctx := t.ctx, task := t.index, tenant := n, gen := x.gen,
                   profile := (script.map Script.profile).getD 0, textLen := (script.map Script.textLen).getD 0,
                   lastTenant := some n }

/-! ## End of a task (R369, R381) -/

/-- A task is DONE: its successors are decremented in ascending order. -/
def taskDone (s : State) (h : Nat) (t : TaskEntry) : State :=
  match s.ctx h with
  | none => s
  | some x =>
    forEach ((x.tasks.zip x.desc.tasks).zipIdx.filter fun e => bit t.succ e.2) s fun s e =>
      let i := e.1.1
      match s.task i with
      | none => s
      | some u =>
        let s := s.modTask i fun u => { u with deps := u.deps - 1 }
        if u.deps = 1 then s.makeDue x.cluster i e.1.2.delay else s

/-- The last task is DONE: the take commits (R381). -/
def startCommit (s : State) (h : Nat) : State :=
  let s := (s.modCtx h fun x => { x with st := .committing, timeEnd := s.now }).releaseTake h
  match s.ctx h with
  | some x => s.modTenant x.tenant fun t => { t with commits := t.commits + 1 }
  | none => s

/-- A task ended by TEND with a result word. -/
def endTask (s : State) (p result : Nat) : State :=
  let x := s.proc p
  let s := s.endRun p
  match s.ctx x.ctx with
  | none => s
  | some c =>
    if c.st ≠ .running then s
    else match c.tasks[x.task]?.bind s.task with
    | none => s
    | some t =>
      let i := (c.tasks[x.task]?).getD 0
      let s := s.modTask i fun t => { t with result := result, st := .done }
      if bit result 31 then s.faultTake x.ctx 0x20 (some x.task) 0 result 0
      else
        let s := s.modCtx x.ctx fun c =>
          { c with done := c.done + 1, result := if x.task + 1 = c.total then result else c.result }
        let s := s.taskDone x.ctx t
        if c.done + 1 = c.total then s.startCommit x.ctx else s

/-! ## Stage reads (R364, R365) -/

/-- A piece of an input range arrives in the stage ring. -/
def stagePiece (s : State) (h : Nat) (r : TakeRange) (l : List Byte) : State :=
  match s.ctx h with
  | none => s
  | some c =>
    let pos := c.stagedAt r.port
    let s := s.dramWrite (s.windowAddr c.tenant (r.stage + pos % 2 ^ 21)) l
    let s := s.modCtx h fun c =>
      { c with staged := sparsePut (fun _ => 0) c.staged r.port (pos + l.length)
               issued := sparsePut (fun _ => 0) c.issued r.port 0 }
    let run := s.unitRun r.nsid (r.addr + pos / s.rangeBlock r) (ceilDiv l.length (s.rangeBlock r))
    forEach (s.enginesOf h) (s.addHeat r.nsid run.1 run.2 1) fun s p => s.latchEvent p 1

/-- The next piece of an input range: first LBA, blocks and bytes. -/
def nextPiece (s : State) (c : Ctx) (r : TakeRange) : Nat × Nat × Nat :=
  let pos := c.stagedAt r.port
  let n := min (2 ^ 20) (r.length - pos)
  (r.addr + pos / s.rangeBlock r, ceilDiv n (s.rangeBlock r), n)

/-! ## Commit (R381, R433, R622) -/

/-- Bytes of an output's stage area; a part that cannot be read is a free value. -/
def stageBytes (s : State) (x : Ctx) (r : TakeRange) : List Byte × State :=
  let n := x.producedAt r.port
  match s.dramRead (s.windowAddr x.tenant r.stage) n with
  | (some l, s) => (l, s)
  | (none, s) =>
    ((List.range n).map fun i => BitVec.ofNat 8 (Config.freeValue (s.freeCtr + i)), { s with freeCtr := s.freeCtr + n })

/-- The sealed form of an output (R433). -/
def sealOutput (x : Ctx) (h : Nat) (key : List Byte) (r : TakeRange) (l : List Byte) : List Byte :=
  let iv := leBytes 8 x.timeStart ++ leBytes 3 h ++ leBytes 1 r.port
  let c := gcmCrypt key iv l
  c ++ gcmTag key iv x.desc.digest c

/-- Reads and seals the outputs once; KEY_ERASED where the SEAL slot has been erased. -/
def gatherOutputs (s : State) (h : Nat) : State :=
  match s.ctx h with
  | none => s
  | some x =>
    let s := if x.desc.sealed && x.outData.isNone then s.touchSlot (s.sealSlot x.tenant x.desc) else s
    if x.outData.isSome then s
    else match (if x.desc.sealed then (s.keySlot (s.sealSlot x.tenant x.desc)).map (·.key) else some []) with
    | none =>
      (((s.modCtx h fun x => { x with st := .ended }).modTenant x.tenant fun t =>
        { t with commits := t.commits - 1 }).failWith x.key (7, 0xCE, 0) (takeDw1 x)).when x.silent fun s => s.freeCtx h
    | some key =>
      let (ls, s) := x.desc.outs.foldl (fun (acc : List (List Byte) × State) r =>
        let (l, s) := acc.2.stageBytes x r
        let s := if x.desc.sealed then s.useMasks (ceilDiv l.length 16 + 1) else s
        (acc.1 ++ [if x.desc.sealed then sealOutput x h key r l else l], s)) ([], s)
      s.modCtx h fun x => { x with outData := some ls }

/-- The output and the offset in it that the next transfer begins at. -/
def outputAt : List (TakeRange × List Byte) → Nat → Option (TakeRange × List Byte × Nat)
  | [], _ => none
  | (r, l) :: t, pos => if pos < l.length then some (r, l, pos) else outputAt t (pos - l.length)

/-- The next transfer of the outputs, of at most `most` bytes: the output, the offset in it and the bytes, 0 where it
must wait for room. -/
def nextOutput (s : State) (x : Ctx) (most : Nat) : Option (TakeRange × List Byte × Nat × Nat) :=
  match outputAt (x.desc.outs.zip (x.outData.getD [])) x.outCharged with
  | none => none
  | some (r, l, pos) =>
    let left := l.length - pos
    let most := min most (2 ^ 20)
    let blk := s.rangeBlock r
    let n := if left ≤ most then left else if r.kind = 0 then most / blk * blk else most
    let n := if r.kind = 0 && !s.writeRoom r.nsid (r.addr + pos / blk) (ceilDiv n blk) then 0 else n
    some (r, l, pos, n)

/-- Cells of an output transfer (R54): the stage area in D, sealing in SEC, then the write buffer in D, or host memory
in HDW. -/
def outputNeeds (s : State) (x : Ctx) (r : TakeRange) (pos n : Nat) : List CellNeed :=
  s.dramNeeds x.tenant (s.windowAddr x.tenant (r.stage + pos)) n false
    ++ (if x.desc.sealed then need colSec x.tenant n 512 else [])
    ++ (if r.kind = 0 then s.dramNeeds x.tenant (Config.bufferPlace 0) n true
        else if x.noHost then [] else need colHdw x.tenant n 256)

/-- Makes an output transfer: a write of a KIND 0 output through the write buffer, or a write to host memory. -/
def outputPiece (s : State) (h : Nat) (x : Ctx) (r : TakeRange) (l : List Byte) (pos n : Nat) : State :=
  if r.kind = 0 then
    let blk := s.rangeBlock r
    let lba := r.addr + pos / blk
    let count := ceilDiv n blk
    let data := fit (count * blk) (slice l pos n)
    let s := (s.bufferWrite r.nsid lba count data x.key x.gen).completeWrite x.key
    let msgs := if s.mirroring then (s.unitRun r.nsid lba count).2 else 0
    let s := s.mirrorData (some x.key) r.nsid lba count x.tenant x.gen data
    s.modCtx h fun x => { x with outCharged := x.outCharged + n, outMsgs := x.outMsgs + msgs }
  else
    let s := if x.noHost then s
      else s.modTsk fun t => { t with hostWrites := (r.addr + pos, slice l pos n) :: t.hostWrites }
    s.modCtx h fun x => { x with outCharged := x.outCharged + n }

/-- The status record of a context (Table 10.11). -/
def statusRecord (h : Nat) (x : Option Ctx) : List Byte := match x with
  | none => leBytes 4 h ++ zeros 124
  | some x =>
    leBytes 4 h ++ leBytes 1 x.st.code ++ leBytes 1 x.reason ++ leBytes 1 x.faultTask ++ leBytes 1 x.restarts
      ++ leBytes 1 x.done ++ leBytes 1 x.total ++ zeros 2 ++ leBytes 4 x.result ++ leBytes 8 x.retired
      ++ leBytes 8 x.retiredAll ++ leBytes 4 x.faultPc ++ leBytes 4 x.faultAddr ++ leBytes 8 x.timeStart
      ++ leBytes 8 x.timeEnd ++ leBytes 8 x.detail
      ++ (List.range 8).flatMap (fun p => leBytes 4 (x.consumedAt p))
      ++ (List.range 8).flatMap fun p => leBytes 4 (x.producedAt p)

/-- The commit's writes have ended: the report, TAKE_COMMIT to the double, and the completion. -/
def finishCommit (s : State) (h : Nat) (x : Ctx) : State :=
  let s := if x.desc.report = 0 || x.noHost then s
    else s.modTsk fun t => { t with hostWrites := (x.desc.report, statusRecord h (some x)) :: t.hostWrites }
  let s := s.mirror msgTakeCommit 0 x.tenant x.gen (leBytes 4 h ++ leBytes 4 x.outMsgs)
  let s := (s.modCtx h fun x => { x with st := .ended }).incF F.tskCntCommitCount
  let s := s.modTenant x.tenant fun t => { t with commits := t.commits - 1 }
  if x.silent then s.freeCtx h else s.endCmd x.key 0 0 h (takeDw1 x) []

/-! ## Catching commands (R114–R117, R380) -/

/-- A take is caught: its tasks stop, and its Take Submit ends with Command Abort Requested. -/
def cancelTake (s : State) (h : Nat) : State :=
  match s.ctx h with
  | none => s
  | some x => (s.stopTasks h).modCtx h fun c =>
      { c with st := if x.st = .free then .free else .faulting, reason := 0, faultTask := 0xFF, cancelled := true, waiting := none }

/-- A take that an abort or a cancel still catches: anything before COMMITTING (R379). -/
def takeCatchable (x : Ctx) : Bool :=
  (x.st = .free || x.st = .preparing || x.st = .running || x.st = .restarting || x.st = .faulting) && !x.cancelled

/-- The command is caught where R114 says so: the state with its Command Abort Requested completion final. A Read that
still executes has sent no data, since it sends all of it in the step that ends it. -/
def catchCmd (s : State) (c : Cmd) : Option State :=
  let take := c.sqe.opc = 0x81 && c.key.sq ≠ 0
  let live := (s.ctxsOf c.key).filterMap s.ctx
  let can := c.st = .admitWait || c.st = .lockWait
    || (c.st = .executing && c.key.sq ≠ 0 && (c.sqe.opc = 0x02 || c.sqe.opc = 0x7A))
    || (take && (c.st = .fetched || (c.st = .executing && live.all takeCatchable)))
  if !can then none
  else
    let s := forEach (s.ctxsOf c.key) s cancelTake
    let s := if c.sqe.opc = 0x02 && c.key.fn ≠ 0 then s.refundBytes (fnTenant c.key.fn) c.charged else s
    let again := live.any (·.restarted)
    some ((s.modCmd c.key fun c => { c with caught := true }).failWith c.key (0, 0x07, 0) (if again then 2 ^ 31 else 0))

end State

/-! ## Rows: admission -/

/-- TAKE_SUBMIT (R104, R359, R586): check 1 and the NSID test, then the descriptor is fetched; a window that
reaches a rank 1 that is off fails. -/
def execTakeSubmit (key : CmdKey) (s : State) : Host.Outcome State Fault Refusal :=
  match s.cmd? key with
  | none => done s
  | some c =>
    if c.st ≠ .fetched || c.fetching || c.sqe.opc ≠ 0x81 || key.sq = 0 then done s
    else match s.ioDecode key.fn c.sqe with
    | some st => done (s.fail key st)
    | none =>
      if s.onF F.memStatusRank1Off && s.inRank1 (State.fnTenant key.fn) then done (s.fail key (0, 0x06, 0))
      else done (s.modCmd key fun c => { c with fetching := true })

/-- TAKE_DESCRIPTOR_FETCHED (R54, R359, R621): the descriptor has come in HDR cells of the instance; the checks of
Table 10.6 and the rest of Table 03.4 follow. Past them the take keeps its script, whatever is deregistered (R126). -/
def execTakeDescriptorFetched (key : CmdKey) (fetched : Bool) (s : State) : Host.Outcome State Fault Refusal :=
  match s.cmd? key with
  | none => done s
  | some c =>
    if c.st ≠ .fetched || !c.fetching then done s
    else if !fetched then done (s.fail key (0, 0x04, 0))
    else s.moving (State.need colHdr (fnTraffic key.fn) c.sqe.dw10 256) fun s =>
      match s.takeChecks key.fn c.sqe.dw10 c.sqe.data with
      | some (st, dw1) => done (s.endCmd key st.1 st.2.1 st.2.2 dw1 [])
      | none =>
        let d := parseDesc c.sqe.data
        let image := (s.scriptOf (State.fnTenant key.fn) d.digest).map (·.1)
        done ((s.modCmd key fun c => { c with image := image }).enterAdmit key d.locks)

/-- COMMAND_ADMIT (R150, R361): the command is charged and leaves ADMIT_WAIT; a take gets its context and
task entries. -/
def execCommandAdmit (key : CmdKey) (s : State) : Host.Outcome State Fault Refusal :=
  match s.cmd? key with
  | none => done s
  | some c =>
    if c.st ≠ .admitWait || !s.admitOk c then done s
    else
      let s := if c.sqe.opc = 0x81 then s.allocTake c else s
      done (s.admitCmd c)

/-! ## Rows: placement and scheduling -/

/-- TAKE_PREPARE (R363, R367). -/
def execTakePrepare (ctx : Nat) (s : State) : Host.Outcome State Fault Refusal :=
  match s.ctx ctx with
  | some x => if x.st = .preparing && x.waiting.isNone then s.placing ctx else done s
  | none => done s

/-- TAKE_CLUSTER_PLACED (R363): a waiting take. -/
def execTakeClusterPlaced (ctx : Nat) (s : State) : Host.Outcome State Fault Refusal :=
  match s.ctx ctx with
  | some x => if x.st = .preparing && x.waiting.isSome then s.placing ctx else done s
  | none => done s

/-- TASK_DISPATCH (R54, R371): one ready task of the tenant on an idle engine of the cluster, in a cell of its E
column. -/
def execTaskDispatch (cluster n : Nat) (s : State) : Host.Outcome State Fault Refusal :=
  if 4 ≤ cluster then done s
  else match s.pickTask cluster n, s.pickEngine cluster n with
  | some i, some p => s.moving [{ col := colEngine cluster, owner := n, count := 1 }] fun s => done (s.startTask cluster n i p)
  | _, _ => done s

/-- TASK_END (R333, R369): a task whose TEND has no store and no slot left to wait for. -/
def execTaskEnd (p : Nat) (s : State) : Host.Outcome State Fault Refusal :=
  let x := s.proc p
  match x.stall with
  | some (.tend r) => if isEngine p && x.running && !x.anyBusy then done (s.endTask p r) else done s
  | _ => done s

/-- TASK_DELAY_WAKE (R368). -/
def execTaskDelayWake (s : State) : Host.Outcome State Fault Refusal := done s.wakeDelayed

/-- OVERFLOW_DRAIN (R370). -/
def execOverflowDrain (cluster prio : Nat) (s : State) : Host.Outcome State Fault Refusal :=
  if 8192 ≤ (s.readyList cluster prio).length then done s
  else match (s.chainList cluster).find? fun i => s.taskPrio i = prio with
  | none => done s
  | some i =>
    let s := s.setChain cluster ((s.chainList cluster).filter (· ≠ i))
    done ((s.setReady cluster prio (s.readyList cluster prio ++ [i])).modTask i fun t => { t with st := .ready })

/-! ## Rows: data -/

/-- TAKE_PIECE_CHARGE (R151, R364, R381, R432): while the byte level is above zero, the next piece of a KIND 0 input is
charged and its media reads start, at most 2 MiB ahead of what has been popped; or, with no port, the next output
transfer of a commit is charged and made. -/
def execTakePieceCharge (ctx : Nat) (port : Option Nat) (most : Nat) (s : State) : Host.Outcome State Fault Refusal :=
  match s.ctx ctx with
  | none => done s
  | some x =>
    if s.getF (F.instByteRateRate x.tenant) ≠ 0 && s.byteLevel x.tenant ≤ 0 then done s
    else match port with
    | none =>
      if x.st ≠ .committing then done s
      else
        let s := s.gatherOutputs ctx
        match s.ctx ctx with
        | none => done s
        | some x => match s.nextOutput x most with
          | none => done s
          | some (r, l, pos, n) =>
            if n = 0 || x.st ≠ .committing then done s
            else s.moving (s.outputNeeds x r pos n) fun s => done ((s.outputPiece ctx x r l pos n).chargeBuckets x.tenant n 0)
    | some p => match x.inRange p with
      | none => done s
      | some r =>
        let (lba, count, n) := s.nextPiece x r
        let run := s.unitRun r.nsid lba count
        let units := (List.range run.2).map (run.1 + ·)
        if x.st ≠ .running || r.kind ≠ 0 || n = 0 || sparseGet (fun _ => 0) x.issued p ≠ 0
            || x.consumedAt p + 2 ^ 21 < x.stagedAt p + n then done s
        else if (s.keyDenied r.nsid).isSome && units.any (s.unitHeld r.nsid) then done (s.endTake ctx (7, 0xCE, 0))
        else
          let s := (s.chargeBuckets x.tenant n 0).modCtx ctx fun x => { x with issued := sparsePut (fun _ => 0) x.issued p n }
          done (s.readUnits (.take ctx p) r.nsid units x.tenant x.tenant x.gen)

/-- STAGE_PIECE_READ (R54, R364, R365, R500): the issued piece of an input has come from the media; it is decrypted and
enters the stage ring in the cells of the instance. A piece that the media has lost comes from the double, or ends
the take. -/
def execStagePieceRead (ctx port : Nat) (s : State) : Host.Outcome State Fault Refusal :=
  match s.ctx ctx with
  | none => done s
  | some x => match x.inRange port with
    | none => done s
    | some r =>
      let (lba, count, n) := s.nextPiece x r
      let run := s.unitRun r.nsid lba count
      let units := (List.range run.2).map (run.1 + ·)
      if x.st ≠ .running || sparseGet (fun _ => 0) x.issued port = 0 || s.mediaWaits (.take ctx port) x.gen
          || s.cnt.reads.any (fun q => q.key = x.key && q.gen = x.gen && q.nsid = r.nsid && q.lba = lba) then done s
      else
        let per := s.blocksPerUnit r.nsid
        match s.lostUnits (.take ctx port) x.gen, s.cmd? x.key with
        | [], _ =>
          let media := units.countP fun u => (s.wbFind r.nsid u).isNone && !s.unitEmpty r.nsid u
          let needs := s.dramNeeds x.tenant (Config.bufferPlace 2) (4096 * media) false
            ++ State.need colSec x.tenant (4096 * media) 512
            ++ s.dramNeeds x.tenant (s.windowAddr x.tenant (r.stage + x.stagedAt port % 2 ^ 21)) n true
          s.moving needs fun s => done (s.stagePiece ctx r ((s.readBlocks r.nsid lba count).take n))
        | u :: _, c =>
          let s' := s.forgetReads fun e => e.reader = .take ctx port && e.gen = x.gen
          match c with
          | some c => if s.throughDouble r.nsid lba count then done (s'.sendReadReq c r.nsid lba count)
            else done (s'.inputError ctx port (max lba (u * per)))
          | none => done (s'.inputError ctx port (max lba (u * per)))

/-! ## Rows: restart, fault and commit -/

/-- TAKE_RESTART (R378): the take rewinds, or faults at the limit of three restarts. -/
def execTakeRestart (ctx : Nat) (s : State) : Host.Outcome State Fault Refusal :=
  match s.ctx ctx with
  | none => done s
  | some x =>
    if x.st ≠ .restarting then done s
    else if 3 ≤ x.restarts then
      done (s.modCtx ctx fun c => { c with st := .faulting, reason := 0x22, faultTask := 0xFF, faultPc := 0, faultAddr := c.fencedBy })
    else
      let s := forEach x.tasks.zipIdx s fun s e => s.setTask e.1 (some (State.freshTask x.desc ctx e.2))
      let s := s.forgetReads fun r => r.gen = x.gen && match r.reader with
        | .take h _ => h = ctx
        | _ => false
      done ((s.modCtx ctx fun c =>
        { c with st := .preparing, restarts := c.restarts + 1, restarted := true, consumed := [], staged := [], produced := [],
                 portError := [], portShort := [], portOver := [], issued := [], budgetLeft := c.desc.budget,
                 retired := 0, done := 0, sharedBase := 0, sharedSize := 0 }).incF F.tskCntRestartCount)

/-- TAKE_FAULT_END (R375, R376, R380): the take releases what it holds and is ENDED; its Take Submit completes
with TAKE_FAULT unless the take was caught. -/
def execTakeFaultEnd (ctx : Nat) (s : State) : Host.Outcome State Fault Refusal :=
  match s.ctx ctx with
  | none => done s
  | some x =>
    if x.st ≠ .faulting then done s
    else
      let s := (s.releaseTake ctx).modCtx ctx fun c => { c with st := .ended, timeEnd := s.now }
      if x.cancelled then done s
      else
        let task := if x.faultTask = 0xFF then 0 else x.faultTask
        done ((s.incF F.tskCntFaultCount).endCmd x.key 7 0xC3 (ctx + task * 2 ^ 18 + x.reason * 2 ^ 24) (State.takeDw1 x) [])

/-- TAKE_COMMIT_END (R54, R381, R433, R487, R622): every output has been transferred, and in SYNC mode the double
has acknowledged its writes. -/
def execTakeCommitEnd (ctx : Nat) (s : State) : Host.Outcome State Fault Refusal :=
  match s.ctx ctx with
  | none => done s
  | some x =>
    if x.st ≠ .committing then done s
    else
      let s := s.gatherOutputs ctx
      match s.ctx ctx with
      | none => done s
      | some x =>
        let left := (State.outputAt (x.desc.outs.zip (x.outData.getD [])) x.outCharged).isSome
        let acks := s.mirroring && !s.onF F.cntCfgMode && s.cnt.out.any fun m => m.key = some x.key
        if x.st ≠ .committing || left || acks then done s
        else s.moving (if x.desc.report = 0 || x.noHost then [] else State.need colHdw x.tenant 128 256) fun s =>
          done (s.finishCommit ctx x)

/-! ## Rows: take commands -/

/-- TAKE_STATUS (R383): the record of a handle that the tenant holds, or an empty one. -/
def execTakeStatus (key : CmdKey) (s : State) : Host.Outcome State Fault Refusal :=
  match s.executing key 0x82 false with
  | none => done s
  | some c =>
    let h := c.sqe.dw10 % 2 ^ 18
    let x := (s.ctx h).bind fun (x : Ctx) => if x.tenant = State.fnTenant key.fn && !x.silent then some x else none
    done (s.endCmd key 0 0 0 0 (State.statusRecord h x))

/-- TAKE_CANCEL (R117, R379, R380, R383). -/
def execTakeCancel (key : CmdKey) (s : State) : Host.Outcome State Fault Refusal :=
  match s.executing key 0x84 false with
  | none => done s
  | some c =>
    let h := c.sqe.dw10 % 2 ^ 18
    let target := ((s.ctx h).bind fun (x : Ctx) =>
      if x.tenant = State.fnTenant key.fn && !x.silent then s.cmd? x.key else none).bind s.catchCmd
    match target with
    | some s => done (s.endCmd key 0 0 0 0 [])
    | none => done (s.endCmd key 0 0 1 0 [])

end Sys2Proof.Machine
end

