-- ==== Sys2Proof/Machine/Engines.lean ====
section
/-! DEFINITION. Engine events (chapter 09): retirement and budget grants, the end of port and WFE stalls,
merge-buffer drains, instruction cache fills, and the fence. -/

namespace Sys2Proof.Machine

namespace State

/-! ## Registers and retirement (R315, R336, R346) -/

def gReg (s : State) (p r : Nat) : Word := if r = 0 then 0 else sparseGet (fun _ => 0) (s.proc p).regs r

/-- Writes a general register; a write of g0 is discarded. -/
def setG (s : State) (p r : Nat) (v : Word) : State :=
  if r = 0 then s else s.modProc p fun x => { x with regs := sparsePut (fun _ => 0) x.regs r v }

/-- An instruction retires: it uses one instruction of the grant, and the engine asks for a new grant when
none is left. -/
def retire (s : State) (p : Nat) : State :=
  if isEngine p then
    (s.incF (F.engERetiredCount p)).modProc p fun x =>
      { x with retired := x.retired + 1, grant := x.grant - 1, stall := if x.grant ≤ 1 then some .grant else none }
  else s.modProc p fun x => { x with retired := x.retired + 1, stall := none }

/-- The instruction at pc is complete: pc moves on and the instruction retires. -/
def nextInstr (s : State) (p : Nat) (pc : Word) : State := (s.modProc p fun x => { x with pc := pc }).retire p

/-- pc of the instruction after the one at pc. -/
def pcNext (s : State) (p : Nat) : Word := (s.proc p).pc + 4

/-- A value of `n` bytes as a register holds it. -/
def extend (n : Nat) (sext : Bool) (v : Nat) : Word :=
  if sext then BitVec.ofInt 32 (signedOf (8 * n) v) else BitVec.ofNat 32 v

/-! ## Ports (R323, R364, R365) -/

/-- A pop completes: the bytes that the port holds, zero-extended where the stream ends inside the width
(SHORT) or has ended (OVERREAD). -/
def finishPop (s : State) (p d port width : Nat) (sext : Bool) : State :=
  let h := (s.proc p).ctx
  match s.ctx h with
  | none => s
  | some c => match c.inRange port with
    | none => s
    | some r =>
      let left := r.length - c.consumedAt port
      let n := min width left
      match s.popBytes h r n with
      | (some l, s) =>
        let note := fun (x : List Nat) => if x.contains port then x else x ++ [port]
        let s := s.modCtx h fun c =>
          { c with portShort := if 0 < n && n < width then note c.portShort else c.portShort
                   portOver := if n = 0 then note c.portOver else c.portOver }
        (s.setG p d (extend width sext (leNat l))).nextInstr p (s.pcNext p)
      | (none, s) =>
        if r.kind = 0 then s.inputError h port (r.addr + c.consumedAt port / s.rangeBlock r)
        else s.trap p trapBus (0x02000000 + port * 0x100) true

/-- The port holds the width of a pop, or its stream has ended. -/
def popReady (s : State) (p port width : Nat) : Bool := match s.ctx (s.proc p).ctx with
  | some c => match c.inRange port with
    | some r => width ≤ c.portHeld r || c.portEnded r
    | none => false
  | none => false

/-- A push completes. -/
def finishPush (s : State) (p port width value : Nat) : State :=
  let h := (s.proc p).ctx
  match (s.ctx h).bind fun (c : Ctx) => c.outRange port with
  | none => s
  | some r => (s.pushBytes h r (leBytes width value)).nextInstr p (s.pcNext p)

/-- The output port can take a byte. -/
def pushReady (s : State) (p port : Nat) : Bool :=
  let h := (s.proc p).ctx
  match (s.ctx h).bind fun (c : Ctx) => c.outRange port with
  | some r => !s.portFull h r
  | none => false

/-- WFE returns with the latched events and, where the time has passed, the timeout (R334). -/
def finishWfe (s : State) (p d until_ : Nat) : State :=
  let x := s.proc p
  let v := x.events % 4 + if until_ ≤ s.tick then 4 else 0
  ((s.modProc p fun x => { x with events := 0 }).setG p d (BitVec.ofNat 32 v)).nextInstr p (s.pcNext p)

/-- The engine or core runs. -/
def procRuns (s : State) (p : Nat) : Bool := s.logicOn && (s.proc p).running && (isEngine p || isCore p)

end State

/-! ## Rows: stalls that end -/

/-- PORT_POP_RESUME (R54, R323). -/
def execPortPopResume (p : Nat) (s : State) : Host.Outcome State Fault Refusal :=
  match (s.proc p).stall with
  | some (.pop d port width sext) =>
    if s.procRuns p && s.popReady p port width then
      s.moving (s.popNeeds p port width) fun s => done (s.finishPop p d port width sext)
    else done s
  | _ => done s

/-- PORT_PUSH_RESUME (R323, R366). -/
def execPortPushResume (p : Nat) (s : State) : Host.Outcome State Fault Refusal :=
  match (s.proc p).stall with
  | some (.push port width value) =>
    if s.procRuns p && s.pushReady p port then
      s.moving (s.pushNeeds p port width) fun s => done (s.finishPush p port width value)
    else done s
  | _ => done s

/-- WFE_WAKE (R334): an event has occurred, or the time has passed. -/
def execWfeWake (p : Nat) (s : State) : Host.Outcome State Fault Refusal :=
  match (s.proc p).stall with
  | some (.wfe d until_) =>
    if s.procRuns p && ((s.proc p).events % 4 ≠ 0 || until_ ≤ s.tick) then done (s.finishWfe p d until_) else done s
  | _ => done s

/-- BUDGET_GRANT (R346, R372): the spent grant is accounted, and a new one is taken from what is left; with
nothing left the next instruction traps. -/
def execBudgetGrant (p : Nat) (s : State) : Host.Outcome State Fault Refusal :=
  let x := s.proc p
  if x.stall ≠ some .grant || !s.procRuns p then done s
  else match s.ctx x.ctx with
  | none => done s
  | some c =>
    let g := min c.budgetLeft 65536
    let s := s.modCtx x.ctx fun c =>
      { c with budgetLeft := c.budgetLeft - g, retired := c.retired + x.grantSize, retiredAll := c.retiredAll + x.grantSize }
    done (s.modProc p fun x => { x with stall := none, grant := g, grantSize := g })

/-! ## Rows: memories -/

/-- Drains the merge-buffer entries whose last store is 64 engine cycles old (R342). Those that drain in one cycle
drain in ascending engine number, so that the store of the highest one stands (R343; log entry 190). -/
def State.drainOld (s : State) : State :=
  forEach (s.eng.procs.map (·.1)) s fun s p =>
    forEach ((s.proc p).merge.filter fun (e : MergeEntry) => e.last + 2048 ≤ s.tick) s fun s e => s.drainEntry p e

/-- MERGE_ENTRY_DRAIN (R342): 64 engine cycles after the last store of the entry. -/
def execMergeEntryDrain (p entry : Nat) (s : State) : Host.Outcome State Fault Refusal :=
  match (s.proc p).merge[entry]? with
  | some e => if e.last + 2048 ≤ s.tick then done (s.drainEntry p e) else done s
  | none => done s

/-- ICACHE_FILL (R318, R319): the line at pc, read in the D0 and D1 cells of the instance; a parity error is refetched
once, a second one traps with cause BUS. -/
def execIcacheFill (p : Nat) (parityErrors : Nat) (s : State) : Host.Outcome State Fault Refusal :=
  let x := s.proc p
  let line := x.pc.toNat / 64
  if !s.procRuns p || x.stall.isSome || x.icache.contains line then done s
  else if x.textLen ≤ x.pc.toNat then done (s.trap p trapFetch x.pc.toNat false)
  else s.moving (s.dramNeeds (s.procOwner p) (Config.bufferPlace 6 + line * 64) 64 false) fun s =>
    let s := if 0 < parityErrors && isEngine p then s.incF (F.engEMemerrIcacheParity p) else s
    if 2 ≤ parityErrors then done (s.trap p trapBus x.pc.toNat false)
    else done (s.modProc p fun x => { x with icache := insertRising x.icache line })

/-! ## Rows: fence (R353, R377, R378) -/

/-- ENGINE_FENCE: a write of ENG_FENCED or a failure; both act alike. -/
def execEngineFence (e : Nat) (_written : Bool) (s : State) : Host.Outcome State Fault Refusal :=
  if s.logicOn then done (s.fenceEngine e) else done s

/-- ENGINE_UNFENCE: in Service mode, engines named by the word lose their fence and have no previous tenant
(R371). -/
def execEngineUnfence (path : Path) (value : Word) (s : State) : Host.Outcome State Fault Refusal :=
  done (s.regAction path A.engUnfence value fun s =>
    if s.inMode .service then
      let gone := s.getF F.engFencedFenced &&& value.toNat
      let s := s.setF F.engFencedFenced (s.getF F.engFencedFenced - gone)
      forEach ((List.range 32).filter (bit gone)) s fun s p => s.modProc p fun x => { x with lastTenant := none }
    else s)

/-- ENGINE_ACK_TIMEOUT (R377). -/
def execEngineAckTimeout (e : Nat) (s : State) : Host.Outcome State Fault Refusal :=
  if s.logicOn then done (s.fenceEngine e) else done s

end Sys2Proof.Machine
end

