-- ==== Sys2Proof/Machine/Tenancy.lean ====
section
/-! DEFINITION. Tenancy (chapter 04): instance records and set-up commands, resets and removals,
generations, token buckets, and the settings copy that follows them (R564). -/

namespace Sys2Proof.Machine

/-! ## The configuration record (Table 04.4) -/

/-- The record that 64 bytes spell. -/
def parseRecord (l : List Byte) : InstRec :=
  { ioqPairs := field l 0x04 2, queueEntries := field l 0x06 2, msixVectors := field l 0x08 2,
    lockLimit := field l 0x0A 2, contextQuota := field l 0x0C 4, taskQuota := field l 0x10 4,
    keyFirst := field l 0x14 2, keyCount := field l 0x16 2, dramBase := field l 0x18 2, dramSize := field l 0x1A 2,
    scriptQuota := field l 0x1C 1, takesAllowed := bit (field l 0x1D 1) 0, byteRate := field l 0x20 4,
    byteBurst := field l 0x24 4, cmdRate := field l 0x28 4, cmdBurst := field l 0x2C 4 }

/-- The 64 bytes of a record. -/
def recordBytes (n : Nat) (r : InstRec) : List Byte :=
  leBytes 2 0x0100 ++ leBytes 2 n ++ leBytes 2 r.ioqPairs ++ leBytes 2 r.queueEntries ++ leBytes 2 r.msixVectors
    ++ leBytes 2 r.lockLimit ++ leBytes 4 r.contextQuota ++ leBytes 4 r.taskQuota ++ leBytes 2 r.keyFirst
    ++ leBytes 2 r.keyCount ++ leBytes 2 r.dramBase ++ leBytes 2 r.dramSize ++ leBytes 1 r.scriptQuota
    ++ leBytes 1 r.takesAllowed.toNat ++ zeros 2 ++ leBytes 4 r.byteRate ++ leBytes 4 r.byteBurst
    ++ leBytes 4 r.cmdRate ++ leBytes 4 r.cmdBurst ++ zeros 16

/-- Rate fields in range: the tests of offsets 0x20 to 0x2C. -/
def rateTests (br bb cr cb : Nat) : List (Bool × Nat) :=
  [(br ≤ 51200, 0x20), (1 ≤ bb && bb ≤ 262144, 0x24), (cr ≤ 10000, 0x28), (1 ≤ cb && cb ≤ 65535, 0x2C)]

namespace State

/-- The first illegal field of a record, in offset order (R146). -/
def recordBad (s : State) (n : Nat) (l : List Byte) : Option Nat :=
  let r := parseRecord l
  let lo := s.getF F.vinDramFreeFirstG
  let hi := s.getF F.vinDramFreeLastG
  firstFail
    (([(field l 0 2 = 0x0100, 0x00), (field l 2 2 = n, 0x02), (1 ≤ r.ioqPairs && r.ioqPairs ≤ 255, 0x04),
      (2 ≤ r.queueEntries && r.queueEntries ≤ 4096, 0x06), (1 ≤ r.msixVectors && r.msixVectors ≤ 32, 0x08),
      (r.lockLimit ≤ 3584, 0x0A), (r.contextQuota ≤ 262144, 0x0C), (r.taskQuota ≤ 65536, 0x10),
      (r.keyFirst ≤ 4095, 0x14), (r.keyFirst + r.keyCount ≤ 4096, 0x16), (lo ≤ r.dramBase && r.dramBase ≤ hi, 0x18),
      (r.dramSize ≤ 32 && r.dramBase + r.dramSize ≤ hi + 1, 0x1A), (r.scriptQuota ≤ 64, 0x1C),
      (field l 0x1D 1 < 2, 0x1D), (field l 0x1E 2 = 0, 0x1E)] : List (Bool × Nat))
      ++ rateTests r.byteRate r.byteBurst r.cmdRate r.cmdBurst ++ [(allZero l 0x30 16, 0x30)])

/-- Records of the other tenants that are not DISABLED. -/
def otherRecords (s : State) (n : Nat) : List InstRec :=
  (s.configured.filter (· ≠ n)).filterMap fun m => (s.tenant m).record

/-- The first pool that a record would exceed: resource code and amount still free (R147). An empty range overlaps
nothing. For the overlaps 0x06 and 0x07 the amount is the key slots, or the 64 MiB granules, that no other instance
holds: DESIGN CHOICE, the rule names no unit for them (log entry 179). -/
def poolBad (s : State) (n : Nat) (r : InstRec) : Option (Nat × Nat) :=
  let sum := fun (g : InstRec → Nat) => s.recordSum g (some n)
  let meet := fun (a b c d : Nat) => 0 < b && 0 < d && a < c + d && c < a + b
  let q := sum (·.ioqPairs) + s.pfPairs
  let v := sum (·.msixVectors) + 32
  let c := sum (·.contextQuota)
  let t := sum (·.taskQuota)
  let granules := s.getF F.vinDramFreeLastG + 1 - s.getF F.vinDramFreeFirstG
  if 4096 < q + r.ioqPairs then some (1, 4096 - q)
  else if Config.msixPool < v + r.msixVectors then some (2, Config.msixPool - v)
  else if 262144 < c + r.contextQuota then some (3, 262144 - c)
  else if 65536 < t + r.taskQuota then some (4, 65536 - t)
  else if (s.otherRecords n).any fun x => meet r.keyFirst r.keyCount x.keyFirst x.keyCount then
    some (6, 4096 - sum (·.keyCount))
  else if (s.otherRecords n).any fun x => meet r.dramBase r.dramSize x.dramBase x.dramSize then
    some (7, granules - sum (·.dramSize))
  else none

/-- The INST registers of a window follow the record (Tables 04.8 to 04.10). -/
def showRecord (s : State) (n : Nat) (r : InstRec) : State :=
  let s := (s.setF (F.instStatusTakesAllowed n) r.takesAllowed.toNat).setF (F.instQuotaQLockLimit n) r.lockLimit
  let s := (s.setF (F.instQuotaQMsixVectors n) r.msixVectors).setF (F.instQuotaQIoqPairs n) r.ioqPairs
  let s := (s.setF (F.instQuotaCContextQuota n) r.contextQuota).setF (F.instQuotaTScriptQuota n) r.scriptQuota
  let s := (s.setF (F.instQuotaTTaskQuota n) r.taskQuota).setF (F.instDramBaseG n) r.dramBase
  let s := (s.setF (F.instDramSizeG n) r.dramSize).setF (F.instKeysCount n) r.keyCount
  let s := (s.setF (F.instKeysFirst n) r.keyFirst).setF (F.instByteRateRate n) r.byteRate
  let s := (s.setF (F.instByteBurstBurst n) r.byteBurst).setF (F.instCmdRateRate n) r.cmdRate
  s.setF (F.instCmdBurstBurst n) r.cmdBurst

/-- Registers of a window that only an instance that is not DISABLED shows (R155). -/
def clearRecord (s : State) (n : Nat) : State :=
  let none : InstRec :=
    { ioqPairs := 0, queueEntries := 0, msixVectors := 0, lockLimit := 0, contextQuota := 0, taskQuota := 0,
      keyFirst := 0, keyCount := 0, dramBase := 0, dramSize := 0, scriptQuota := 0, takesAllowed := false,
      byteRate := 0, byteBurst := 0, cmdRate := 0, cmdBurst := 0 }
  let s := (s.showRecord n none).setF (F.instByteLevelLevel n) 0
  ((s.setF (F.instCmdLevelLevel n) 0).setF (F.instAdmitStallCount n) 0).setF (F.instStaleCount n) 0

/-! ## Mirroring and settings (R487, R488, R564) -/

/-- Sends the CONFIG item of an instance to the double (Table 14.14). -/
def mirrorInstance (s : State) (n : Nat) : State :=
  let rec_ := match (s.tenant n).record with
    | some r => recordBytes n r
    | none => zeros 64
  let g := s.getF (F.instStatusGen n)
  s.mirror msgConfig 0 n g (leBytes 1 1 ++ zeros 3 ++ leBytes 4 68 ++ rec_ ++ leBytes 1 (s.instSt n) ++ zeros 1 ++ leBytes 2 g)

/-- An instance changes its state. -/
def setInstState (s : State) (n : Nat) (st : InstSt) : State :=
  (s.setF (F.instStatusState n) st.code).mirrorInstance n

/-- The state that the settings record for an instance: DISABLED, CONFIGURED or ENABLED (R564). -/
def recordedState (s : State) (n : Nat) : Nat :=
  let st := s.instSt n
  if st = 0 then 0 else if st = 1 || (st = 6 && (s.tenant n).removing) then 1 else 3

/-- Settings item 0x0004: 68 bytes for each instance that is not DISABLED: its record, its recorded state and
three zeros (log entry 39). -/
def instanceItem (s : State) : List Byte :=
  s.configured.flatMap fun n => match (s.tenant n).record with
    | some r => recordBytes n r ++ leBytes 1 (s.recordedState n) ++ zeros 3
    | none => []

/-- Settings item 0x0003: the sixteen PMX_BANK_OWNER values. -/
def bankItem (s : State) : List Byte := (List.range 16).flatMap fun b => leBytes 4 (s.reg (A.pmxBankOwner b)).toNat

/-- A change of items 0x0003 or 0x0004 waits for its copy, with the command that made it. -/
def settingsChanged (s : State) (key : Option CmdKey) : State :=
  s.modUpd fun u => { u with dirty := true, waiting := match key with
    | some k => u.waiting ++ [k]
    | none => u.waiting }

/-- A set-up command completes with Success once nothing of it is pending (R564). -/
def setupDone (s : State) (key : CmdKey) : State :=
  let waits := s.upd.waiting.contains key || s.ten.any fun e => e.2.pend.contains key
  if waits then s else s.endCmd key 0 0 0 0 []

/-- The pending set-up commands of a tenant that pass are no longer pending; each ends by `g`. -/
def endPend (s : State) (n : Nat) (p : Nat → Bool) (g : State → CmdKey → State) : State :=
  let mine := (s.tenant n).pend.filter fun k => match s.cmd? k with
    | some c => p c.sqe.opc
    | none => true
  forEach mine (s.modTenant n fun t => { t with pend := t.pend.filter fun k => !mine.contains k }) g

/-- Ends pending commands with Command Abort Requested (R619). -/
def abortKey (s : State) (k : CmdKey) : State :=
  (s.modUpd fun u => { u with waiting := u.waiting.filter (· ≠ k) }).endCmd k 0 0x07 0 0 []

/-! ## Orders that are admin commands (R99, R526) -/

/-- An admin command that is an order takes its place in the window. -/
def orderAdmin (s : State) (c : Cmd) (mgmt : Bool) (targets : List Target) : State :=
  if c.ordered then s
  else (s.placeOrder (.nvme c.key) mgmt targets 3 .nvme).modCmd c.key fun c => { c with ordered := true }

/-! ## Controllers (R85, R134) -/

/-- A full NVMe controller reset: queues, features and vectors at their reset values; the error log and the
deferred-write page stay. AQA, ASQ and ACQ stay where `keep` says so. -/
def resetCtrl (s : State) (fn : Nat) (keep : Bool) : State :=
  let s := s.modCtrl fn fun c =>
    { Ctrl.reset with
        aqa := if keep then c.aqa else 0
        asq := if keep then c.asq else 0
        acq := if keep then c.acq else 0
        dwes := c.dwes, dweLost := c.dweLost, dweConds := c.dweConds, errors := c.errors, errCount := c.errCount,
        irqs := c.irqs
        msix := sparseMap (fun _ => MsixEntry.reset) (fun _ (e : MsixEntry) => { e with masked := true, pend := false }) c.msix }
  if fn = 0 then s.syncAlloc else s

/-- Commands of a function end without a completion entry (R85, R95): writes that are not complete give their
buffer space back, and cells asked for or granted are given up. Reads in flight of an instance come back with an older
generation (R138); those of the physical function have no reader any more. -/
def discardCmds (s : State) (fn : Nat) : State :=
  let mine := s.host.cmds.filter fun (c : Cmd) => c.key.fn = fn
  let s := forEach mine s fun s (c : Cmd) => s.releaseBuffer c.key
  let s := s.modHost fun h => { h with cmds := h.cmds.filter fun (c : Cmd) => c.key.fn ≠ fn }
  let s := if fn ≠ 0 then s.dropCells (fnTraffic fn) else
    (s.forgetReads fun r => match r.reader with
      | .cmd k => k.fn = 0
      | _ => false).modCnt fun x => { x with reads := x.reads.filter fun (r : PairRead) => r.key.fn ≠ 0 }
  s.sweepImages

/-- CC.EN is set: the admin queues exist and the controller is ready. -/
def enableCtrl (s : State) (fn cc : Nat) : State :=
  let s := s.modCtrl fn fun c => { c with cc := (cc &&& 0x01FFFFF1) / 2 * 2 + 1 }
  if fn ≠ 0 && !s.instEnabled (fn - 1) then s.modCtrl fn fun c => { c with enHeld := true }
  else (s.createAdmin fn).modCtrl fn fun c => { c with rdy := true, enHeld := false }

/-! ## Reset and removal (R135, R136, R139–R141, Table 04.2) -/

/-- Both buckets at their bursts (R149). -/
def fillBuckets (s : State) (n : Nat) : State :=
  (s.setByteLevel n (s.getF (F.instByteBurstBurst n) * 4096)).setCmdLevel n (s.getF (F.instCmdBurstBurst n) * 1000)

/-- Takes of a tenant: one that commits goes on without completion, report and host writes; every other
one is stopped and freed. -/
def dropTakes (s : State) (n : Nat) : State :=
  forEach (s.tsk.ctxs.map (·.1)) s fun s h => match s.ctx h with
    | some x =>
      if x.tenant ≠ n then s
      else if x.st = .committing then s.modCtx h fun x => { x with silent := true, noHost := true }
      else (s.stopTasks h).freeCtx h
    | none => s

/-- The generation advances (R137). -/
def advanceGen (s : State) (n : Nat) : State := s.setF (F.instStatusGen n) ((s.getF (F.instStatusGen n) + 1) % 65536)

/-- Generations of the outstanding operations of an instance that are not the current one (R139): media reads, reads
through the double, and results that wait to be discarded. Its tasks' accelerator jobs are aborted (R349). -/
def olderGens (s : State) (n : Nat) : List Nat :=
  let g := s.getF (F.instStatusGen n)
  ((s.ftl.reads.filter fun r => r.inst = n).map (·.gen)
    ++ (s.cnt.reads.filter fun (r : PairRead) => r.key.fn = n + 1).map (·.gen)
    ++ (s.tenant n).staleOps).filter (· ≠ g)

/-- The oldest generation among the outstanding operations of older generations (R139). -/
def oldestStale (s : State) (n : Nat) : Option Nat :=
  let g := s.getF (F.instStatusGen n)
  let age := fun x => (g + 65536 - x) % 65536
  (s.olderGens n).find? fun x => (s.olderGens n).all fun y => age y ≤ age x

/-- The key slots of an instance are erased. -/
def eraseTenantKeys (s : State) (n : Nat) : State := match (s.tenant n).record with
  | some r => s.eraseKeys r.keyFirst r.keyCount
  | none => s

/-- What a removal clears beside the reset (Table 04.2, R402). The keys stay while a commit still seals with them
(R622). -/
def removeTenant (s : State) (n : Nat) : State :=
  let s := s.modCtrl (n + 1) fun c => { c with dwes := [], dweLost := 0, dweConds := [] }
  let s := s.setF (F.instStatusDwePending n) 0
  let s := s.modFtl fun f => { f with wb := f.wb.map fun (e : WbEntry) =>
    if e.key.fn = n + 1 then { e with key := { e.key with fn := 0 } } else e }
  let s := (s.modTsk fun t => { t with slots := sparseKeep (fun k => k / 64 ≠ n) t.slots }).sweepImages
  let s := if (s.tenant n).commits = 0 then s.eraseTenantKeys n else s.modTenant n fun t => { t with eraseDue := true }
  forEach ((List.range 16).filter fun b => s.bankOwner b = n) s clearBank

/-- An instance in ENABLED, QUIESCING or QUIESCED enters RESETTING; one in RESETTING joins (R136). `full` says
that the controller's admin-queue registers return to reset too (R134). -/
def resetInstance (s : State) (n : Nat) (removal full : Bool) : State :=
  let st := s.instSt n
  if st = 6 then
    let s := if full then s.resetCtrl (n + 1) false else s
    let first := removal && !(s.tenant n).removing
    let s := s.modTenant n fun t => { t with removing := t.removing || removal }
    if first then s.removeTenant n else s
  else if !s.instEnabled n then s
  else
    let g := s.getF (F.instStatusGen n)
    let s := s.endPend n (· = 0xD6) abortKey
    let held := s.oldestStale n = some ((g + 1) % 65536)
    let s := s.modTenant n fun t => { t with removing := removal, advanceHeld := held }
    let s := s.setF (F.instStatusState n) InstSt.resetting.code
    let s := if held then s else s.advanceGen n
    let s := (s.mirrorInstance n).dropTakes n
    let s := (s.discardCmds (n + 1)).resetCtrl (n + 1) (!full)
    let s := (s.modHost fun h => { h with lockStall := h.lockStall.filter (· ≠ n) }).fillBuckets n
    if removal then s.removeTenant n else s

/-- An instance enters ENABLED: its buckets are full, and a held CC.EN takes effect (R134, R149). -/
def enterEnabled (s : State) (n : Nat) : State :=
  let s := (s.setInstState n .enabled).fillBuckets n
  let c := s.ctrl (n + 1)
  if c.enHeld then s.enableCtrl (n + 1) c.cc else s

/-- RESETTING may end (R141). -/
def resetEnds (s : State) (n : Nat) : Bool :=
  let t := s.tenant n
  t.commits = 0 && !(s.eng.procs.any fun e => isEngine e.1 && e.2.running && e.2.tenant = n)
    && !(t.advanceHeld && !(s.olderGens n).isEmpty)

/-! ## The window (R142, R144) -/

/-- Zero-fills device DRAM from `a`, `n` bytes long: nothing of the old contents stays, queued writes
included. -/
def fillZero (s : State) (a n : Nat) : State :=
  let out := fun x => !(a ≤ x && x < a + n)
  let s := s.modMem fun m =>
    { m with dram := sparseKeep out m.dram
             masks := sparseKeep (fun k => 2 ≤ k / 2 ^ 40 || out (k % 2 ^ 40 * 64)) m.masks
             subs := sparseMap (fun _ => Subchannel.reset) (fun _ (x : Subchannel) =>
               { x with writes := x.writes.filter fun (r : BurstReq) => out (r.burst * 64) }) m.subs }
  forEach ((List.range (n / 2 ^ 17)).map (a + 2 ^ 17 * ·)) s fun s b => (s.fillBlock b).fillBlock (b + 4096)

/-- The window contents of an instance are lost. -/
def loseWindow (s : State) (n : Nat) : State := s.setF (F.instStatusWindowLost n) 1

/-- CONFIGURED to SCRUBBING (R142). -/
def startScrub (s : State) (n : Nat) (atStart : Bool) : State :=
  (s.setInstState n .scrubbing).modTenant n fun t => { t with fillAtStart := atStart, wasEnabled := false, disableWait := false }

/-- Virtual functions below `num` exist: instances recorded ENABLED enter SCRUBBING (R571). -/
def vfsExist (s : State) (num : Nat) : State :=
  let s := s.modHost fun h => { h with vfEnable := true, numVfs := num }
  forEach (s.configured.filter fun n => n < num && (s.tenant n).wasEnabled && s.instSt n = 1) s fun s n => s.startScrub n true

/-! ## Set-up commands once they have won (R99, R145) -/

/-- Instance number of a set-up command. -/
def setupInst (c : Cmd) : Nat := c.sqe.dw10 % 512

/-- Command Sequence Error. -/
def sequenceError (s : State) (key : CmdKey) : State := s.fail key (0, 0x0C, 0)

def runConfigure (s : State) (c : Cmd) : State :=
  let n := setupInst c
  let l := fit 64 c.sqe.data
  if 1 < s.instSt n then s.sequenceError c.key
  else match s.recordBad n l with
  | some o => s.fail c.key (0, 0x02, o)
  | none =>
    let r := parseRecord l
    match s.poolBad n r with
    | some (code, free) => s.fail c.key (7, 0xCC, code + 256 * min free 0xFFFFFF)
    | none =>
      let s := s.modTenant n fun t => { t with record := some r, newRates := none, wasEnabled := false }
      let s := (s.showRecord n r).setInstState n .configured
      (s.syncAlloc.settingsChanged (some c.key)).setupDone c.key

def runRead (s : State) (c : Cmd) : State :=
  let n := setupInst c
  let l := match (s.tenant n).record with
    | some r => recordBytes n r
    | none => zeros 64
  s.endCmd c.key 0 0 (s.instSt n + 2 ^ 16 * s.getF (F.instStatusGen n)) 0 l

def runEnable (s : State) (c : Cmd) : State :=
  let n := setupInst c
  if s.instSt n ≠ 1 || !s.vfExists n then s.sequenceError c.key
  else
    let s := s.startScrub n false
    (s.modTenant n fun t => { t with pend := t.pend ++ [c.key] }).settingsChanged (some c.key)

def runDisable (s : State) (c : Cmd) : State :=
  let n := setupInst c
  let st := s.instSt n
  let wait := fun (s : State) => s.modTenant n fun t => { t with pend := t.pend ++ [c.key] }
  if st = 0 then s.sequenceError c.key
  else if st = 1 then
    let s := (s.modTenant n fun t => { t with record := none, newRates := none, wasEnabled := false }).clearRecord n
    ((s.setInstState n .disabled).syncAlloc.settingsChanged (some c.key)).setupDone c.key
  else if st = 2 then (wait (s.modTenant n fun t => { t with disableWait := true })).settingsChanged (some c.key)
  else (wait (s.resetInstance n true false)).settingsChanged (some c.key)

def runReset (s : State) (c : Cmd) : State :=
  let n := setupInst c
  if s.instSt n < 3 then s.sequenceError c.key
  else ((s.noteReset 4).resetInstance n false false).modTenant n fun t => { t with pend := t.pend ++ [c.key] }

def runRateSet (s : State) (c : Cmd) : State :=
  let n := setupInst c
  let q := c.sqe
  if s.instSt n = 0 then s.sequenceError c.key
  else match firstFail (rateTests q.dw11 q.dw12 q.dw13 q.dw14) with
  | some o => s.fail c.key (0, 0x02, o)
  | none =>
    let s := s.modTenant n fun t =>
      { t with newRates := some (q.dw11, q.dw12, q.dw13, q.dw14)
               record := t.record.map fun r =>
                 { r with byteRate := q.dw11, byteBurst := q.dw12, cmdRate := q.dw13, cmdBurst := q.dw14 } }
    ((s.mirrorInstance n).settingsChanged (some c.key)).setupDone c.key

def runQuiesce (s : State) (c : Cmd) : State :=
  let n := setupInst c
  if s.instSt n ≠ 3 then s.sequenceError c.key
  else (s.setInstState n .quiescing).modTenant n fun t => { t with pend := t.pend ++ [c.key] }

def runResume (s : State) (c : Cmd) : State :=
  let n := setupInst c
  if s.instSt n ≠ 5 then s.sequenceError c.key
  else (s.setInstState n .enabled).setupDone c.key

/-! ## Ticks (R32, R149, R152) -/

/-- Credits one tenant for `k` ticks; rates that a Rate Set left take force first. -/
def creditTenant (s : State) (n k : Nat) : State :=
  let s := match (s.tenant n).newRates with
    | some (br, bb, cr, cb) =>
      let s := (s.setF (F.instByteRateRate n) br).setF (F.instByteBurstBurst n) bb
      ((s.setF (F.instCmdRateRate n) cr).setF (F.instCmdBurstBurst n) cb).modTenant n fun t => { t with newRates := none }
    | none => s
  let b := min (s.byteLevel n + ((k * s.getF (F.instByteRateRate n) : Nat) : Int)) ((s.getF (F.instByteBurstBurst n) * 4096 : Nat) : Int)
  let c := min (s.cmdLevel n + ((k * s.getF (F.instCmdRateRate n) : Nat) : Int)) ((s.getF (F.instCmdBurstBurst n) * 1000 : Nat) : Int)
  (s.setByteLevel n b).setCmdLevel n c

/-- Ticks that the timecode has passed and that have not been delivered. -/
def ticksDue (s : State) : Nat := s.now / 1000 - s.fab.tickMark

/-- Delivers `k` ticks as one. -/
def deliverTicks (s : State) (k : Nat) : State :=
  let s := s.modFab fun f => { f with tickMark := f.tickMark + k }
  let s := s.setF F.tskTickCount ((s.getF F.tskTickCount + k) % 2 ^ 32)
  (forEach s.configured s fun s n => s.creditTenant n k).wakeDelayed

end State

/-! ## Rows: ticks and generations -/

/-- DELAY_LIST_TICK (R32): only while the logic die keeps the timecode. -/
def execDelayListTick (s : State) : Host.Outcome State Fault Refusal :=
  if !s.fab.logicKeeps || s.ticksDue = 0 then done s else done (s.deliverTicks s.ticksDue)

/-- STALE_RESULT_DISCARD (R138, R139, R155): a result of an older generation that has come back is discarded and counted;
an instance in DISABLED keeps its count at zero. -/
def execStaleResultDiscard (n gen : Nat) (s : State) : Host.Outcome State Fault Refusal :=
  let t := s.tenant n
  if 512 ≤ n || !t.staleOps.contains gen then done s
  else
    let g := s.getF (F.instStatusGen n)
    let age := fun x => (g + 65536 - x) % 65536
    let s := s.setTenant n
      { t with staleOps := t.staleOps.erase gen, staleCount := t.staleCount + 1
               staleOldest := if t.staleCount = 0 || age t.staleOldest < age gen then gen else t.staleOldest
               staleSince := some (t.staleSince.getD s.tick) }
    let s := if s.instSt n = 0 then s else s.setF (F.instStaleCount n) ((s.getF (F.instStaleCount n) + 1) % 2 ^ 32)
    done (s.setF F.vinStaleTotalCount ((s.getF F.vinStaleTotalCount + 1) % 2 ^ 32))

/-- STALE_GENERATION_RECORD (R138): one record for each 1 ms with discards. -/
def execStaleGenerationRecord (n : Nat) (s : State) : Host.Outcome State Fault Refusal :=
  let t := s.tenant n
  match t.staleSince with
  | some at_ =>
    if !s.since at_ 1000000 then done s
    else
      let s := s.dailyFor src.vin 0xC7 n (s.getF (F.instStatusGen n)) [t.staleCount, t.staleOldest]
      done (s.modTenant n fun t => { t with staleCount := 0, staleOldest := 0, staleSince := none })
  | none => done s

/-! ## Rows: resets -/

/-- CC_EN_CLEAR (R135): the tenant's CC.EN goes from 1 to 0. -/
def execCcEnClear (n : Nat) (s : State) : Host.Outcome State Fault Refusal :=
  let c := s.ctrl (n + 1)
  if !s.vfExists n || !bit c.cc 0 then done s
  else
    let s := s.modCtrl (n + 1) fun c => { c with cc := c.cc / 2 * 2, enHeld := false }
    done ((if s.instEnabled n then s.noteReset 4 else s).resetInstance n false false)

/-- CC_EN_SET (R134): the controller becomes ready, or the write is held until the instance is ENABLED. -/
def execCcEnSet (fn cc : Nat) (s : State) : Host.Outcome State Fault Refusal :=
  if !s.hostUp || (fn ≠ 0 && !s.vfExists (fn - 1)) || (s.ctrl fn).rdy then done s
  else done (s.enableCtrl fn (cc % 2 ^ 32))

/-- FUNCTION_LEVEL_RESET of virtual function n + 1 (R134, R135). -/
def execFunctionLevelReset (n : Nat) (s : State) : Host.Outcome State Fault Refusal :=
  if !s.vfExists n then done s
  else if s.instEnabled n || s.instSt n = 6 then
    done ((if s.instEnabled n then s.noteReset 4 else s).resetInstance n false true)
  else done (s.resetCtrl (n + 1) false)

/-- PF_FUNCTION_LEVEL_RESET (R82): the physical function's controller is reset; its commands end without
completion. -/
def execPfFunctionLevelReset (s : State) : Host.Outcome State Fault Refusal :=
  done ((s.discardCmds 0).resetCtrl 0 false)

/-- VF_ENABLE_SET (R571): virtual functions exist. -/
def execVfEnableSet (num : Nat) (s : State) : Host.Outcome State Fault Refusal :=
  if Config.totalVfs < num || (s.host.vfEnable && num < s.host.numVfs) then done s else done (s.vfsExist num)

/-- VF_ENABLE_CLEAR (R135): every instance is removed. -/
def execVfEnableClear (s : State) : Host.Outcome State Fault Refusal :=
  let s := forEach (List.range 512) s fun s n => s.resetInstance n true false
  done (s.modHost fun h => { h with vfEnable := false })

/-- NUMVFS_LOWER (R135): instances whose virtual function goes are removed. -/
def execNumvfsLower (num : Nat) (s : State) : Host.Outcome State Fault Refusal :=
  if s.host.numVfs ≤ num then done s
  else
    let s := forEach ((List.range 512).filter (num ≤ ·)) s fun s n => s.resetInstance n true false
    done (s.modHost fun h => { h with numVfs := num })

/-- RESETTING_END (R139, R141). -/
def execResettingEnd (n : Nat) (s : State) : Host.Outcome State Fault Refusal :=
  if s.instSt n ≠ 6 || !s.resetEnds n then done s
  else
    let t := s.tenant n
    let s := if t.advanceHeld then s.advanceGen n else s
    let s := if t.eraseDue then s.eraseTenantKeys n else s
    let s := s.modTenant n fun t => { t with removing := false, advanceHeld := false, eraseDue := false }
    let s := if t.removing then s.setInstState n .configured else s.enterEnabled n
    done (s.endPend n (fun _ => true) State.setupDone)

/-- WINDOW_FILL_DONE (R142, R570, R619): the window reads as zero; ENABLED, or CONFIGURED where an Instance
Disable waits. -/
def execWindowFillDone (n : Nat) (s : State) : Host.Outcome State Fault Refusal :=
  let t := s.tenant n
  if s.instSt n ≠ 2 || (t.fillAtStart && !s.pwr.pathOpen) then done s
  else
    let w := s.tenantWindow n
    let s := s.fillZero w.1 w.2
    if t.disableWait then
      let s := (s.setInstState n .configured).modTenant n fun t => { t with disableWait := false }
      let s := s.endPend n (· = 0xD2) State.abortKey
      done (s.endPend n (fun _ => true) State.setupDone)
    else done ((s.enterEnabled n).endPend n (· = 0xD2) State.setupDone)

/-- QUIESCE_DONE (R143): no command, take or commit of the instance is left. -/
def execQuiesceDone (n : Nat) (s : State) : Host.Outcome State Fault Refusal :=
  let left := s.host.cmds.any fun (c : Cmd) => c.key.fn = n + 1 && !((s.ctrl (n + 1)).aers.contains c.key)
  if s.instSt n ≠ 4 || left || (s.tenant n).commits ≠ 0 then done s
  else done ((s.setInstState n .quiesced).endPend n (· = 0xD6) State.setupDone)

/-! ## Rows: set-up commands -/

/-- INSTANCE_CONFIGURE (R146–R148): an order of the sequencer for the instance. -/
def execInstanceConfigure (key : CmdKey) (s : State) : Host.Outcome State Fault Refusal :=
  match s.executing key 0xD0 true with
  | some c => done (s.orderAdmin c false [.inst (State.setupInst c)])
  | none => done s

/-- INSTANCE_READ (Table 04.3). -/
def execInstanceRead (key : CmdKey) (s : State) : Host.Outcome State Fault Refusal :=
  match s.executing key 0xD1 true with
  | some c => done (s.orderAdmin c false [.inst (State.setupInst c)])
  | none => done s

/-- INSTANCE_ENABLE (R142). -/
def execInstanceEnable (key : CmdKey) (s : State) : Host.Outcome State Fault Refusal :=
  match s.executing key 0xD2 true with
  | some c => done (s.orderAdmin c false [.inst (State.setupInst c)])
  | none => done s

/-- INSTANCE_DISABLE (R135, R145). -/
def execInstanceDisable (key : CmdKey) (s : State) : Host.Outcome State Fault Refusal :=
  match s.executing key 0xD3 true with
  | some c => done (s.orderAdmin c false [.inst (State.setupInst c)])
  | none => done s

/-- INSTANCE_RESET (R135). -/
def execInstanceReset (key : CmdKey) (s : State) : Host.Outcome State Fault Refusal :=
  match s.executing key 0xD4 true with
  | some c => done (s.orderAdmin c false [.inst (State.setupInst c)])
  | none => done s

/-- RATE_SET (R148, R152). -/
def execRateSet (key : CmdKey) (s : State) : Host.Outcome State Fault Refusal :=
  match s.executing key 0xD5 true with
  | some c => done (s.orderAdmin c false [.inst (State.setupInst c)])
  | none => done s

/-- INSTANCE_QUIESCE (R143). -/
def execInstanceQuiesce (key : CmdKey) (s : State) : Host.Outcome State Fault Refusal :=
  match s.executing key 0xD6 true with
  | some c => done (s.orderAdmin c false [.inst (State.setupInst c)])
  | none => done s

/-- INSTANCE_RESUME (R143). -/
def execInstanceResume (key : CmdKey) (s : State) : Host.Outcome State Fault Refusal :=
  match s.executing key 0xD7 true with
  | some c => done (s.orderAdmin c false [.inst (State.setupInst c)])
  | none => done s

/-! ## Settings -/

/-- SETTINGS_UPDATE (R564): a new copy takes items 0x0003 and 0x0004 from the running state and keeps every
other; once it is durable, the commands that waited for it complete. -/
def execSettingsUpdate (s : State) : Host.Outcome State Fault Refusal :=
  if !s.upd.dirty || !s.logicOn then done s
  else
    let (version, old) := match s.settingsInUse with
      | some (_, l) => (field l 2 2, (settingsItems (field l 0x0C 2) (l.drop 32)).getD [])
      | none => (s.getF F.updSettingsVerMax, [])
    let put := fun (l : List (Nat × List Byte)) (id : Nat) (d : List Byte) =>
      l.takeWhile (fun e => e.1 < id) ++ [(id, d)] ++ (l.dropWhile fun e => e.1 < id).filter (·.1 ≠ id)
    let s := s.writeSettings version (put (put old 3 s.bankItem) 4 s.instanceItem)
    let keys := s.upd.waiting
    let s := s.modUpd fun u => { u with dirty := false, waiting := [] }
    done (forEach keys s State.setupDone)

end Sys2Proof.Machine
end

