-- ==== Sys2Proof/Machine/Namespaces.lean ====
section
/-! DEFINITION. Namespaces: create, delete, attach, detach, Format NVM and Sanitize (R86, R99, R200, R202–R204,
R432, R526, R529), and the segment assignment of the flash tier. -/

namespace Sys2Proof.Machine

/-! ## Operands -/

/-- Type and block size that a create asks for: command set in dword 11, format in byte 26 of the data (log
entries 26 and 40). -/
def createForm (q : Sqe) : Option (NsType × Nat) :=
  let f := field q.data 26 1 % 16
  if q.dw11 / 2 ^ 24 = 0 then
    if f < 2 then some (if Config.createTiered q.data then .tiered else .flash, if f = 0 then 512 else 4096) else none
  else if q.dw11 / 2 ^ 24 = 2 && f = 0 then some (.zoned, 4096)
  else none

/-- Block size of an LBA format of a type (Table 03.2). -/
def formatBlock (t : NsType) (f : Nat) : Option Nat :=
  if t = .zoned then if f = 0 then some 4096 else none
  else if f = 0 then some 512 else if f = 1 then some 4096 else none

/-- Code of a type in MAP_DELTA (log entry 32). -/
def NsType.code : NsType → Nat
  | .flash => 0 | .tiered => 1 | .zoned => 2

/-- A controller list: a count and that many identifiers. -/
def controllerList (l : List Byte) : List Nat := (List.range (field l 0 2)).map fun i => field l (2 + 2 * i) 2

namespace State

/-! ## Capacity (R203, R204) -/

/-- Extents of 1 MiB that a namespace takes. -/
def Namespace.extents (n : Namespace) : Nat := ceilDiv (n.size * n.block) (2 ^ 20)

/-- Extents of the namespaces of some types. -/
def extentsOfTypes (s : State) (p : NsType → Bool) : Nat :=
  ((s.nsidsOf p).filterMap fun i => (s.ns i).map fun n => Namespace.extents n).sum

/-- Bands of the disk tier, and those that are zones of a namespace. -/
def bandTotal (s : State) : Nat := (s.dch.zones.map fun (z : ZoneRec) => z.firstBand + z.bandCount).foldl max 0
def zonedBands (s : State) : Nat := ((s.nsids.filterMap s.ns).map fun n => n.zones.length).sum

/-- A new namespace of a type and a number of extents fits. -/
def capacityOk (s : State) (t : NsType) (n : Nat) : Bool :=
  let flash := s.extentsOfTypes (· = .flash)
  let tiered := s.extentsOfTypes (· = .tiered)
  let disk := 256 * (s.bandTotal - s.zonedBands)
  match t with
  | .flash => flash + n ≤ s.ftl.chunks && flash + tiered + n ≤ s.ftl.chunks + disk
  | .tiered => flash + tiered + n ≤ s.ftl.chunks + disk
  | .zoned => true

/-- TIER_CAP: the chunks that flash namespaces do not reserve; evacuation keeps the cap it has set (R204,
R232). -/
def syncTierCap (s : State) : State :=
  let cap := s.ftl.chunks - s.extentsOfTypes (· = .flash)
  if s.onF F.ftlStatusEvacActive then s.setF F.ftlTierCapChunks (min cap (s.getF F.ftlTierCapChunks))
  else s.setF F.ftlTierCapChunks cap

/-- The segment assignment at format (R200): groups and their LUNs, superblocks, spare pool and chunk pool, with the
CODE_RATE and RAIN_GROUP that hold from now on (R197). The chunk pool follows from 15% overprovisioning of the raw data area (chapter 00; log entry 42). -/
def assignSegments (s : State) : State :=
  let s := s.modFch fun f => { f with formatCfg := (List.range 16).map fun c =>
    (c, s.getF (F.fchCfgCodeRate c), s.getF (F.fchCfgRainGroup c)) }
  let groups := (List.range 4).map s.groupMembers
  let groupLuns := groups.map fun cs => (List.range 32).filter fun l => cs.all fun c => bit (s.getF (F.fchPresentPresent c)) l
  let geom := s.fch.geom
  let luns := ((List.range 16).map fun c =>
    if s.chanOnline c then (List.range 32).countP fun l => s.lunUsable c l else 0).sum
  let raw := luns * (geom.map (·.blocks)).getD 0
  let bytes := raw * (geom.map fun g => g.pages * g.dataArea).getD 0
  let s := s.modFtl fun f =>
    { f with groups := groups, groupLuns := groupLuns, rawBlocks := raw, chunks := bytes * 100 / 115 / 2 ^ 20, freeChunks := [], nextChunk := 0
             chunkFree := [], poolAtFormat := raw - f.retiredBlocks.length, sbs := [], rows := [], openWait := [], urgent := []
             progs := [], copies := [], spareRaised := false, evacBelow := false }
  let excess := (List.range 4).any fun lane =>
    262143 < ((List.range 4).map fun g => s.groupSbs g lane * s.sbSegs g).sum
  let s := (s.setF F.ftlStatusBlocksUnused excess.toNat).setF F.ftlSpareBlocks s.ftl.poolAtFormat
  let s := s.setF F.ftlSpareFloorBlocks (raw / 200)
  let s := forEach (List.range 4) s fun s lane => s.setF (F.ftlFreeSbCount lane) (s.laneSbs lane).length
  s.syncTierCap

/-! ## Events -/

/-- The namespace-attribute notice (Table 03.13) at the physical function and the controllers given. -/
def nsNotice (s : State) (nsid : Nat) (fns : List Nat) : State :=
  forEach (0 :: fns.filter (· ≠ 0)) s fun s fn =>
    (s.modCtrl fn fun c => { c with changedNs := insertRising c.changedNs nsid }).raiseEvent fn 2 0x00 0x04

/-! ## Create, delete, attach -/

/-- The first `n` free bands. -/
def takeBands (s : State) (n : Nat) : Option (List (Nat × Nat)) :=
  let l := ((List.range s.bandTotal).filter fun b => s.bandFree b).take n
  if l.length < n then none else some (l.map fun b => ((s.bandAct b).getD 0, b))

/-- Creates a namespace under an NSID. -/
def addNs (s : State) (nsid : Nat) (t : NsType) (block size : Nat) (zones : List (Nat × Nat)) : State :=
  let s := s.setNs nsid (some { type := t, block := block, size := size, attached := [], degraded := false,
                                lost := [], notReady := false, zones := zones })
  s.syncTierCap

/-- NAMESPACE_MANAGEMENT, create, once it has won its window. -/
def runCreate (s : State) (c : Cmd) : State :=
  let q := c.sqe
  let size := field q.data 0 8
  match createForm q with
  | none => s.fail c.key (1, 0x0A, 0)
  | some (t, block) =>
    if size = 0 || field q.data 29 1 ≠ 0 || (t = .zoned && size % 65536 ≠ 0) then s.fail c.key (0, 0x02, 0)
    else if field q.data 8 8 ≠ size then s.fail c.key (1, 0x1B, 0)
    else match (List.range 1024).find? fun i => (s.ns (i + 1)).isNone with
    | none => s.fail c.key (1, 0x16, 0)
    | some i =>
      let nsid := i + 1
      if !s.capacityOk t (ceilDiv (size * block) (2 ^ 20)) then s.fail c.key (1, 0x15, 0)
      else match (if t = .zoned then s.takeBands (size / 65536) else some []) with
      | none => s.fail c.key (1, 0x15, 0)
      | some zones =>
        let s := (s.addNs nsid t block size zones).mirrorDelta 4 nsid size (t.code + 16 * (block / 512))
        s.endCmd c.key 0 0 nsid 0 []

/-- A chunk of the pool stands behind an extent: it holds its data, or a promotion or an unfinished demotion has
it (R204, R227). -/
def holdsChunk (s : State) (nsid ext : Nat) : Bool :=
  let st := (s.extent nsid ext).st
  st = .flash || st = .moving || s.promoting nsid ext
    || s.ftl.moves.any fun m => m.old.isNone && m.extents.contains (nsid, ext)

/-- Removes everything a namespace holds on the media and in the buffer: its extents become UNALLOC, its zones
and the bands that hold no other extent are reset (R202, R249). -/
def wipeNs (s : State) (nsid : Nat) : State :=
  let mine := (s.ftl.extents.filter fun e => e.1 / 2 ^ 32 = nsid).map fun e => (e.1 % 2 ^ 32, e.2)
  let held := (mine.filter fun e => s.holdsChunk nsid e.1).map (·.1)
  let bands := (mine.filterMap fun e => if e.2.st = .disk then some e.2.band else none).eraseDups
  let s := s.modFtl fun f =>
    { f with wb := f.wb.filter fun (e : WbEntry) => e.nsid ≠ nsid
             dumpWaits := f.dumpWaits.filter fun (e : WbEntry) => e.nsid ≠ nsid
             deallocs := f.deallocs.filter fun (d : Dealloc) => d.nsid ≠ nsid
             copies := f.copies.filter fun (x : UnitCopy) => x.nsid ≠ nsid
             promos := f.promos.filter fun p => p.1 ≠ nsid
             diskClear := sparseKeep (fun k => k / 2 ^ 40 ≠ nsid) f.diskClear }
  let s := forEach mine s fun s e =>
    let x : Extent := e.2
    let s := if x.st = .flash || x.st = .moving then s.mapRun .mapClear mapUnmapped nsid (e.1 * 256) 256 else s
    let s := s.setExtent nsid e.1 Extent.reset
    if held.contains e.1 then
      s.modFtl fun f => { f with chunkFree := f.chunkFree ++ [(f.nextSeq - 1, x.chunk)] }
    else s
  let zones := ((s.ns nsid).map fun n => n.zones.map (·.2)).getD []
  let s := forEach (bands.filter fun b => (s.liveExtents b).isEmpty) s fun s b => s.resetBand b
  (forEach zones s fun s b => s.resetBand b).syncWb

/-- Deletes a namespace: I/O commands to it end. -/
def deleteNs (s : State) (nsid : Nat) : State :=
  let fns := s.attachedTo nsid
  let mine := s.host.cmds.filter fun (c : Cmd) =>
    c.key.sq ≠ 0 && c.sqe.nsid = nsid && c.st ≠ .completing && !isTakeOpc c.sqe.opc
  let s := forEach mine s fun s c => s.fail c.key (0, 0x0B, 0)
  let s := s.wipeNs nsid
  let s := (s.setNs nsid none).syncTierCap
  (s.nsNotice nsid fns).mirrorDelta 6 nsid 0 0

/-- NAMESPACE_MANAGEMENT, delete, once it has won. -/
def runDelete (s : State) (c : Cmd) : State :=
  let l := if c.sqe.nsid = 0xFFFFFFFF then s.nsids else [c.sqe.nsid]
  if l.any fun i => (s.ns i).isNone then s.fail c.key (0, 0x0B, 0)
  else (forEach l s fun s i => s.deleteNs i).endCmd c.key 0 0 0 0 []

/-- CONFIG item of an attachment (Table 14.14). -/
def mirrorAttach (s : State) (nsid n : Nat) (on : Bool) : State :=
  s.mirror msgConfig nsid n 0 (leBytes 1 2 ++ zeros 3 ++ leBytes 4 8 ++ leBytes 4 nsid ++ leBytes 2 n
    ++ leBytes 1 on.toNat ++ zeros 1)

/-- Attaches a namespace to a controller or detaches it. -/
def setAttached (s : State) (nsid fn : Nat) (on : Bool) : State :=
  s.modNs nsid fun n => { n with attached := if on then insertRising n.attached fn else n.attached.filter (· ≠ fn) }

/-- NAMESPACE_ATTACHMENT once it has won: the whole list is checked first. -/
def runAttach (s : State) (c : Cmd) : State :=
  let nsid := c.sqe.nsid
  let on := c.sqe.dw10 % 16 = 0
  let l := controllerList c.sqe.data
  let has := fun fn => s.nsAttachedTo nsid fn
  if (s.ns nsid).isNone then s.fail c.key (0, 0x0B, 0)
  else if l.isEmpty || 2047 < l.length || (l.any fun fn => 512 < fn) then s.fail c.key (1, 0x1C, 0)
  else if on && l.any has then s.fail c.key (1, 0x18, 0)
  else if !on && l.any (fun fn => !has fn) then s.fail c.key (1, 0x1A, 0)
  else
    let s := forEach l s fun s fn =>
      let s := s.setAttached nsid fn on
      s.mirrorAttach nsid (if fn = 0 then noTenant else fn - 1) on
    (s.nsNotice nsid l).endCmd c.key 0 0 0 0 []

/-! ## Format NVM and Sanitize -/

/-- Namespaces that Format NVM or Sanitize covers. -/
def formatCovers (s : State) (q : Sqe) : List Nat :=
  if q.opc = 0x84 || q.nsid = 0xFFFFFFFF then s.nsids else [q.nsid]

/-- Bound slots of namespaces, each once. -/
def boundSlots (s : State) (l : List Nat) : List Nat := (l.filterMap s.nsKeySlot).eraseDups

/-- GENERATE on a bound slot (R432). -/
def regenerate (s : State) (slot : Nat) : State :=
  let (k, s) := s.drbg 64
  s.changeSlot slot (some { cls := clsXts, label := 0, key := k })

/-- What a channel keeps through a format: every block must be erased before its first use (R218). -/
def Channel.formatted (c : Channel) : Channel :=
  { c with eraseFirst := true, erasedSbs := [], failedBack := [], softHeld := [], rebuilding := false, rebuildLeft := 0
           rebuildDone := 0
           luns := sparseMap (fun _ => Lun.reset) (fun _ (l : Lun) => { l with queue := [], held := [], shift := [] }) c.luns }

/-- The flash tier is emptied: buffer, map, journal, checkpoint and its roots, dump, and every operation under way. -/
def eraseFlash (s : State) : State :=
  let s := s.modFtl fun f =>
    { f with wb := [], deallocs := [], copies := [], promos := [], progs := [], diskClear := [], map := [], extents := []
             media := [], parity := [], reads := [], moves := [], ckpt := none, ckptNext := none, ckptStart := none
             ckptPages := 0, jrn := [], jrnBytes := 0, tail := [], cws := [], durable := f.nextSeq - 1, dump := none
             replaying := false, dumpWaits := [], dumpBad := false, dumpCut := none }
  let s := s.modFch fun f =>
    { f with chans := sparseMap (fun _ => Channel.reset) (fun _ (c : Channel) => Channel.formatted c) f.chans
             hints := [], softQueue := [], softBusy := [], recons := [] }
  let s := forEach (List.range 16) s fun s c => s.setF (F.fchStatusRebuildPct c) 10000
  let s := forEach [1610, 1611] s fun s l => s.eraseLogical l
  s.setF F.ftlStatusCkptActive 0

/-- Every superblock is erased, every band reset and the segments assigned anew (R173, R200, R218). -/
def eraseTier (s : State) : State :=
  let s := s.eraseFlash.assignSegments
  let s := s.modDch fun d => { d with acts := sparseMap (fun _ => DiskAct.reset) (fun _ (a : DiskAct) =>
    { a with reads := [], writes := [], holding := [] }) d.acts }
  (forEach (List.range s.bandTotal) s fun s b => s.resetBand b).syncWb

/-- CODE_RATE and RAIN_GROUP of the settings (item 0x0001) take effect (R197): only through a Sanitize block erase in
Service mode. -/
def takeSettingsCfg (s : State) : State :=
  if !s.inMode .service then s
  else
    let items := match s.settingsInUse with
      | some (_, l) => (settingsItems (field l 0x0C 2) (l.drop 32)).getD []
      | none => []
    forEach (items.filter (·.1 = 1)) s fun s item =>
      forEach (List.range (item.2.length / 8)) s fun s i =>
        let a := field item.2 (8 * i) 4
        let c := (a - 0x5000) / 0x100
        match regDesc? a with
        | some r => if a / 0x1000 = 5 && a = A.fchCfg c then
            s.setReg a (s.wordAfter r a false false (BitVec.ofNat 32 (field item.2 (8 * i + 4) 4)))
          else s
        | none => s

/-- A long operation on namespaces that has won its window starts: until its end they are not ready (R529). -/
def startWipe (s : State) (c : Cmd) (kind : Nat) : State :=
  let l := s.formatCovers c.sqe
  let s := forEach l s fun s i => s.modNs i fun n => { n with notReady := true }
  (s.startLongOp kind false).modCmd c.key fun c => { c with won := true }

/-- FORMAT_NVM once it has won. -/
def runFormat (s : State) (c : Cmd) : State :=
  let l := s.formatCovers c.sqe
  if l.any fun i => (s.ns i).isNone then s.fail c.key (0, 0x0B, 0)
  else if l.any fun i => match s.ns i with
      | some n => (formatBlock n.type (c.sqe.dw10 % 16)).isNone
      | none => false then s.fail c.key (1, 0x0A, 0)
  else if bits c.sqe.dw10 9 3 = 2 && s.onF F.secStatusEntropyFail then s.fail c.key (0, 0x06, 0)
  else s.startWipe c 0

/-- SANITIZE once it has won: exit failure mode, block erase or crypto erase (R420). -/
def runSanitize (s : State) (c : Cmd) : State :=
  let a := c.sqe.dw10 % 8
  if a = 1 then s.endCmd c.key 0 0 0 0 []
  else if a = 4 && s.onF F.secStatusEntropyFail then s.fail c.key (0, 0x06, 0)
  else s.startWipe c 1

/-- The end of a format or sanitize of a namespace: its block size, and ready again. -/
def wiped (s : State) (nsid : Nat) (block : Option Nat) : State :=
  s.modNs nsid fun n =>
    let b := block.getD n.block
    { n with notReady := false, degraded := false, lost := [], size := n.size * n.block / b, block := b }

/-- Format NVM ends (R97, R200, R249): the data is gone, keys are new for secure erase setting 2. -/
def finishFormat (s : State) (c : Cmd) : State :=
  let l := s.formatCovers c.sqe
  let all := s.nsids.all l.contains
  let s := if all then s.eraseTier else forEach l s fun s i => s.wipeNs i
  let s := if bits c.sqe.dw10 9 3 = 2 then forEach (s.boundSlots l) s fun s k => s.regenerate k else s
  let s := forEach l s fun s i => match s.ns i with
    | some n => ((s.wiped i (formatBlock n.type (c.sqe.dw10 % 16))).nsNotice i n.attached).mirrorDelta 7 i 0
        (c.sqe.dw10 % 16)
    | none => s
  (s.endLongOp 0 0 0).endCmd c.key 0 0 0 0 []

/-- Sanitize ends (R432): a crypto erase renews the bound keys, a block erase empties the tiers. -/
def finishSanitize (s : State) (c : Cmd) : State :=
  let l := s.nsids
  let s := if c.sqe.dw10 % 8 = 4 then forEach (s.boundSlots l) s fun s k => s.regenerate k
    else s.takeSettingsCfg.eraseTier
  let s := forEach l s fun s i =>
    if c.sqe.dw10 % 8 = 4 then s.modNs i fun n => { n with notReady := false } else s.wiped i none
  (s.endLongOp 1 0 0).endCmd c.key 0 0 0 0 []

/-- Safe cuts off a format or sanitize: Internal Error; its namespaces stay not ready (R529). -/
def cutWipes (s : State) : State :=
  let l := s.host.cmds.filter fun (c : Cmd) =>
    c.won && c.st = .executing && c.key.sq = 0 && (c.sqe.opc = 0x80 || c.sqe.opc = 0x84)
  let s := forEach l s fun s c => s.fail c.key (0, 0x06, 0)
  (s.endLongOp 0 0 0x06).endLongOp 1 0 0x06

end State

/-! ## Rows -/

/-- NAMESPACE_MANAGEMENT (R86, R99, R204): an order on each namespace it covers. -/
def execNamespaceManagement (key : CmdKey) (s : State) : Host.Outcome State Fault Refusal :=
  match s.executing key 0x0D true with
  | none => done s
  | some c =>
    let l := if c.sqe.dw10 % 16 = 0 then [] else if c.sqe.nsid = 0xFFFFFFFF then s.nsids else [c.sqe.nsid]
    done (s.orderAdmin c false (l.map .ns))

/-- NAMESPACE_ATTACHMENT (R99): an order on the namespace. -/
def execNamespaceAttachment (key : CmdKey) (s : State) : Host.Outcome State Fault Refusal :=
  match s.executing key 0x15 true with
  | none => done s
  | some c => done (s.orderAdmin c false [.ns c.sqe.nsid])

/-- FORMAT_NVM (R97, R99, R529): the order first; once it has won and started, the format ends. -/
def execFormatNvm (key : CmdKey) (s : State) : Host.Outcome State Fault Refusal :=
  match s.executing key 0x80 true with
  | none => done s
  | some c =>
    if c.won then done (s.finishFormat c) else done (s.orderAdmin c false ((s.formatCovers c.sqe).map .ns))

/-- SANITIZE (R99, R432): the order first; once it has won and started, the sanitize ends. -/
def execSanitize (key : CmdKey) (s : State) : Host.Outcome State Fault Refusal :=
  match s.executing key 0x84 true with
  | none => done s
  | some c =>
    if c.won then done (s.finishSanitize c) else done (s.orderAdmin c false ((s.formatCovers c.sqe).map .ns))

end Sys2Proof.Machine
end

