-- ==== Sys2Proof/Machine/Logs.lean ====
section
/-! DEFINITION. Log pages and Identify data structures (Tables 03.5, 03.6, 03.10, 06.8, 06.9 and 06.12; R102,
R121, R122, R130, R235, R236, R238, R580, R618).  The layouts marked NVMe follow NVMe 2.0 (log entry 27). -/

namespace Sys2Proof.Machine

/-! ## Records -/

/-- A page of `n` bytes from pieces at offsets, zeros elsewhere. -/
def layOut (n : Nat) (l : List (Nat × List Byte)) : List Byte := l.foldl (fun p e => patch p e.1 e.2) (zeros n)

/-- An entry of the Error Information page (NVMe). -/
def ErrEntry.bytes (e : ErrEntry) : List Byte :=
  layOut 64 [(0, leBytes 8 e.count), (8, leBytes 2 e.sq), (10, leBytes 2 e.cid),
             (12, leBytes 2 (2 * e.sc + 512 * e.sct)), (16, leBytes 8 e.lba), (24, leBytes 4 e.nsid)]

/-- An entry of page 0xC0 (Table 03.10). -/
def Dwe.bytes (d : Dwe) : List Byte :=
  layOut 32 [(0, leBytes 4 d.nsid), (4, leBytes 2 d.sq), (6, leBytes 2 d.cid), (8, leBytes 8 d.first),
             (0x10, leBytes 4 d.count), (0x14, leBytes 1 d.cause), (0x18, leBytes 8 d.time)]

/-- An entry of page 0xC2 (Table 06.9). -/
def HealthEvent.bytes (e : HealthEvent) : List Byte :=
  leBytes 8 e.time ++ leBytes 2 e.code ++ leBytes 1 e.severity ++ leBytes 1 e.unitKind ++ leBytes 4 e.unit
    ++ leBytes 4 e.nsid ++ zeros 4 ++ leBytes 8 e.detail

/-- A temperature history record (Table 06.10); `limit` in °C. -/
def TempHist.bytes (h : TempHist) (limit : Nat) : List Byte :=
  h.bins.flatMap (leBytes 4) ++ leBytes 1 (unsignedOf 8 (if h.none then -128 else h.min))
    ++ leBytes 1 (unsignedOf 8 (if h.none then -128 else h.max)) ++ leBytes 1 limit ++ leBytes 1 h.none.toNat ++ leBytes 4 h.above

/-- A dailies record (Table 06.12): each detail in 4 bytes (log entry 43). -/
def Daily.bytes (d : Daily) : List Byte :=
  leBytes 8 d.time ++ leBytes 1 d.source ++ leBytes 1 d.severity ++ leBytes 2 d.reason ++ leBytes 2 d.tenant
    ++ leBytes 2 d.gen ++ fit 16 (d.detail.flatMap (leBytes 4))

/-- A self-test result (NVMe, R580); unused entries hold result Fh. -/
def SelfTestResult.bytes (r : SelfTestResult) : List Byte :=
  layOut 28 [(0, leBytes 1 (r.result + 16 * (if r.extended then 2 else 1))), (1, leBytes 1 r.segment), (26, leBytes 2 r.unit)]

namespace State

/-! ## SMART / Health (R235, Table 06.8) -/

/-- Available Spare in percent. -/
def availSpare (s : State) : Nat :=
  let floor := s.getF F.ftlSpareFloorBlocks
  min 100 (100 * (s.sparePool - floor) / max 1 (s.ftl.poolAtFormat - floor))

/-- A channel, LUN, engine or actuator is fenced, or a namespace is degraded. -/
def reliabilityBad (s : State) : Bool :=
  ((List.range 16).any fun c => (s.chan c).fenced || s.getF (F.fchLunFenceFenced c) ≠ 0)
    || s.getF F.engFencedFenced ≠ 0 || !(s.actOnline 0 && s.actOnline 1)
    || s.nsids.any fun i => match s.ns i with
      | some n => n.degraded
      | none => false

def criticalWarning (s : State) : Nat :=
  let hot : Bool := (List.range 3).any fun i => sensorLimit i * 16 < s.sensorNow i
  let spare : Bool := s.availSpare < 10
  spare.toNat + 2 * hot.toNat + 4 * s.reliabilityBad.toNat + 8 * (s.inMode .readOnly).toNat + 16 * s.ftl.dumpBad.toNat

/-- A counter by namespace (R102, R235): over all of them for the physical function, over its own namespaces for an
instance, or for one of these that the command names. -/
def smartCount (s : State) (m : Sparse Nat) (fn nsid : Nat) : Nat :=
  if fn = 0 then (m.map (·.2)).sum
  else ((m.filter fun e => s.nsAttachedTo e.1 fn && (nsid = 0 || nsid = 0xFFFFFFFF || e.1 = nsid)).map (·.2)).sum

/-- Fields of the page that no rule states: busy time, power cycles, power-on hours, unsafe shutdowns and the
temperature times are free values. -/
def smartPage (s : State) (fn nsid : Nat) : List Byte :=
  let f := s.ftl
  let open_ := fun (i : Nat) => leBytes 8 (Config.freeValue (s.freeCtr + i))
  layOut 512
    [(0, leBytes 1 s.criticalWarning), (1, leBytes 2 s.composite),
     (3, leBytes 1 s.availSpare), (4, leBytes 1 10), (5, leBytes 1 (min 255 (s.getF F.ftlWearPctUsed))),
     (32, leBytes 16 (ceilDiv (s.smartCount f.unitsRead fn nsid) 1000)), (48, leBytes 16 (ceilDiv (s.smartCount f.unitsWritten fn nsid) 1000)),
     (64, leBytes 16 (s.smartCount f.readCmds fn nsid)), (80, leBytes 16 (s.smartCount f.writeCmds fn nsid)),
     (96, open_ 0), (112, open_ 1), (128, open_ 2), (144, open_ 3), (160, leBytes 16 (f.unrecovered + f.dweCount)),
     (176, leBytes 16 (s.ctrl fn).errCount), (192, open_ 4),
     (200, leBytes 2 (kelvin (s.sensorNow 0))), (202, leBytes 2 (kelvin (s.sensorNow 1))), (204, leBytes 2 (kelvin (s.sensorNow 2)))]

/-! ## The pages -/

/-- Firmware Slot Information (NVMe): slots 1 (A) and 2 (B). -/
def firmwarePage (s : State) : List Byte :=
  let next := if s.nvs.trial || s.nvs.bootNext ≠ s.getF F.updSlotsActive then s.nvs.bootNext + 1 else 0
  let rev := fun (i : Nat) => if s.slotValid i || s.getF F.updSlotsActive = i then
      (List.range 8).map (Config.revision (field (s.slotImage i) 0x0C 4)) else zeros 8
  layOut 512 [(0, leBytes 1 (s.getF F.updSlotsActive + 1 + 16 * next)), (8, rev 0), (16, rev 1)]

/-- Commands Supported and Effects (NVMe): CSUPP for the opcodes of Tables 03.5 and 03.8. -/
def effectsPage (fn : Nat) : List Byte :=
  let word := fun (admin : Bool) (o : Nat) (ok : Bool) => if ok then leBytes 4 (1 + 2 * (Config.cmdEffects admin o % 2 ^ 31)) else zeros 4
  ((List.range 256).flatMap fun o => word true o ((adminReserved o).isSome && (fn = 0 || !pfOnly o)))
    ++ ((List.range 256).flatMap fun o => word false o ((ioReserved o).isSome && (fn ≠ 0 || !isTakeOpc o)))
    ++ zeros 2048

/-- Device Self-test (NVMe, R580): 20 results, newest first. -/
def selfTestPage (s : State) : List Byte :=
  let cur := match s.pwr.selfTest with
    | some t => if t.extended then 2 else 1
    | none => 0
  let pct := if cur = 0 then 0 else (s.longOp 5).pct / 100
  let rs := (s.pwr.selfTests.take 20).map SelfTestResult.bytes
  leBytes 1 cur ++ leBytes 1 pct ++ zeros 2 ++ rs.flatten
    ++ (List.replicate (20 - rs.length) (leBytes 1 0x0F ++ zeros 27)).flatten

/-- Changed Zone List of a namespace (ZNS). -/
def zonePage (s : State) (fn nsid : Nat) : List Byte :=
  let l := ((s.ctrl fn).changedZones.filter fun e => e.1 = nsid).map fun e => e.2 * 65536
  fit 4096 (leBytes 2 (if 511 < l.length then 0xFFFF else l.length) ++ zeros 6 ++ (l.take 511).flatMap (leBytes 8))

/-- Deferred Write Errors (Table 03.10). -/
def dwePage (s : State) (fn : Nat) : List Byte :=
  let c := s.ctrl fn
  let t := (c.dwes.head?.map (·.time)).getD 0
  fit 2080 (leBytes 2 c.dwes.length ++ leBytes 2 c.dweLost ++ zeros 4 ++ leBytes 8 t ++ zeros 16 ++ c.dwes.flatMap Dwe.bytes)

/-- The dailies (R238). -/
def dailiesPage (s : State) : List Byte :=
  let l := s.ftl.dailies
  leBytes 4 l.length ++ zeros 4 ++ leBytes 8 ((l.head?.map (·.time)).getD 0) ++ zeros 16 ++ l.flatMap Daily.bytes

/-- Health Events (Table 06.9): an instance's controller sees the entries of its own namespaces. -/
def healthPage (s : State) (fn : Nat) : List Byte :=
  let l := if fn = 0 then s.ftl.events else s.ftl.events.filter fun (e : HealthEvent) => s.nsAttachedTo e.nsid fn
  let hist := fun (i : Nat) => (sparseGet (fun _ => TempHist.reset) s.ftl.temps i).bytes (sensorLimit i).toNat
  let head := leBytes 2 l.length ++ leBytes 2 s.ftl.eventsLost ++ zeros 4 ++ leBytes 4 s.sparePool
    ++ leBytes 4 (s.getF F.ftlSpareFloorBlocks) ++ leBytes 4 (s.getF F.ftlRetiredBlocks) ++ leBytes 4 (s.getF F.ftlWearAvgPe)
    ++ leBytes 4 s.ftl.peMax ++ leBytes 4 (s.getF F.ftlRatedPePe) ++ zeros 8 ++ hist 0 ++ hist 1 ++ hist 2
  fit (256 + 32 * 64) (head ++ l.flatMap HealthEvent.bytes)

/-- A log page for a controller; none where it does not exist there (Table 03.6). -/
def logPage (s : State) (fn nsid lid : Nat) : Option (List Byte) :=
  if lid = 0x01 then some (fit 4096 ((s.ctrl fn).errors.flatMap ErrEntry.bytes))
  else if lid = 0x02 then some (s.smartPage fn nsid)
  else if lid = 0x03 then some s.firmwarePage
  else if lid = 0x04 then
    let l := (s.ctrl fn).changedNs
    some (fit 4096 (if 1024 < l.length then leBytes 4 0xFFFFFFFF else l.flatMap (leBytes 4)))
  else if lid = 0x05 then some (effectsPage fn)
  else if lid = 0x06 && fn = 0 then some s.selfTestPage
  else if lid = 0xBF then some (s.zonePage fn nsid)
  else if lid = 0xC0 then some (s.dwePage fn)
  else if lid = 0xC1 && fn = 0 then some s.dailiesPage
  else if lid = 0xC2 then some (s.healthPage fn)
  else none

/-- A part of a page; bytes past its end are not stated. -/
def pageSlice (lid : Nat) (l : List Byte) (off n : Nat) : List Byte :=
  slice l off n ++ (List.range (off + n - max off l.length)).map fun i => Config.logTail lid (max off l.length + i)

/-! ## What a read clears -/

/-- Deferred write errors that a read of page 0xC0 has returned (R121, R122, R618). -/
def clearDwes (s : State) (fn off n : Nat) : State :=
  let c := s.ctrl fn
  let seen := fun (i : Nat) => off ≤ 0x20 + 32 * i && 0x20 + 32 * i + 32 ≤ off + n
  let left := (c.dwes.zipIdx.filter fun e => !seen e.2).map fun e => e.1.nsid
  let whole : Bool := off = 0 && 2080 ≤ n
  let s := s.setCtrl fn
    { c with
        dwes := c.dwes.filter fun (d : Dwe) => left.contains d.nsid
        dweConds := if whole then [] else c.dweConds.filter fun i => left.contains i || !(c.dwes.any fun d => d.nsid = i)
        dweLost := if whole then 0 else c.dweLost }
  if fn ≠ 0 && (s.ctrl fn).dweConds.isEmpty then s.setF (F.instStatusDwePending (fn - 1)) 0 else s

/-- A read with Retain Asynchronous Event clear: the page's events are no longer latched, and lists that a read
empties are emptied (R121, R130). An event of the page that is held and not yet reported stays held and is reported to
the next request: DESIGN CHOICE, the spec is silent (log entry 178). -/
def logRead (s : State) (fn nsid lid off n : Nat) : State :=
  let s := s.modCtrl fn fun c => { c with latched := c.latched.filter fun (e : AsyncEvent) => e.page ≠ lid }
  if lid = 0x04 then s.modCtrl fn fun c => { c with changedNs := [] }
  else if lid = 0xBF then s.modCtrl fn fun c => { c with changedZones := c.changedZones.filter fun e => e.1 ≠ nsid }
  else if lid = 0xC0 then s.clearDwes fn off n
  else s

/-! ## Identify (Table 03.5; layouts NVMe 2.0) -/

/-- The bytes that no rule states. -/
def identifyBase (cns fn nsid : Nat) : List Byte := (List.range 4096).map (Config.identify cns fn nsid)

/-- Identify Namespace of the NVM command set: sizes, formats and atomic write units (R87, R89, Table 03.2). -/
def identifyNs (n : Namespace) (base : List Byte) : List Byte :=
  let fmt := if n.type = .zoned then 0 else if n.block = 512 then 0 else 1
  let unit := if n.block = 512 then 2047 else 255
  let lbaf := if n.type = .zoned then [0, 0, 12, 0] else [0, 0, 9, 0, 0, 0, 12, 0]
  [(0, leBytes 8 n.size), (8, leBytes 8 n.size), (25, leBytes 1 (if n.type = .zoned then 0 else 1)), (26, leBytes 1 fmt),
   (27, [0]), (28, [0]), (29, [0]), (31, [0]), (34, leBytes 2 unit), (36, leBytes 2 unit), (128, lbaf)].foldl
    (fun p e => patch p e.1 e.2) base

/-- Identify Controller: what R82, R87–R91, R101, R105, R113, R558 and R578 state; Host Memory Buffer, Keep Alive and
namespace write protection are reported absent (R87, R101). -/
def identifyCtrl (fn : Nat) (base : List Byte) : List Byte :=
  [(77, leBytes 1 8), (78, leBytes 2 fn), (256, leBytes 2 (if fn = 0 then 0x1E else 0)), (258, [3]), (259, [3]),
   (260, leBytes 1 0x14), (272, leBytes 4 0), (276, leBytes 4 0), (316, leBytes 2 30), (319, [1]), (320, leBytes 2 0), (328, leBytes 4 3), (512, leBytes 1 0x66), (513, leBytes 1 0x44),
   (516, leBytes 4 1024), (520, leBytes 2 0x8C), (525, leBytes 1 6), (526, leBytes 2 255), (528, leBytes 2 255),
   (531, [0]), (536, leBytes 4 0)].foldl (fun p e => patch p e.1 e.2) base

/-- Identify Namespace of the Zoned Namespace command set: 16 active and 16 open zones for each actuator that holds
zones of the namespace, as 0's based numbers, and no zone random write area (R107). -/
def identifyZns (n : Namespace) (base : List Byte) : List Byte :=
  let acts := (List.range 2).countP fun a => n.zones.any fun z => z.1 = a
  [(2, leBytes 2 1), (4, leBytes 4 (16 * acts - 1)), (8, leBytes 4 (16 * acts - 1))].foldl
    (fun p e => patch p e.1 e.2) base

/-- A list of numbers above a bound, 4 bytes each, as a 4096-byte list. -/
def idList (l : List Nat) (above : Nat) : List Byte := fit 4096 (((l.filter (above < ·)).take 1024).flatMap (leBytes 4))

/-- Namespaces that a controller may see. -/
def seenNs (s : State) (fn : Nat) : List Nat := if fn = 0 then s.nsids else s.nsids.filter fun i => s.nsAttachedTo i fn

/-- Controllers that exist: the physical function's and those of the virtual functions. -/
def ctrlIds (s : State) : List Nat := 0 :: ((List.range 512).filter s.vfExists).map (· + 1)

/-- A controller list structure from a bound on. -/
def ctrlList (l : List Nat) (from_ : Nat) : List Byte :=
  let l := (l.filter (from_ ≤ ·)).take 2047
  fit 4096 (leBytes 2 l.length ++ l.flatMap (leBytes 2))

/-- Command set of a type: NVM 0, Zoned Namespace 2. -/
def csiOf (t : NsType) : Nat := if t = .zoned then 2 else 0

/-- The Identify data structure, or the status that refuses it (R101, R160). -/
def identifyData (s : State) (fn nsid cns cntid csi : Nat) : Except Status (List Byte) :=
  let base := identifyBase cns fn nsid
  let bad : Except Status (List Byte) := .error (0, 0x0B, 0)
  let active := s.nsids.filter fun i => s.nsAttachedTo i fn
  let oneNs := fun (l : List Nat) (g : Namespace → List Byte) =>
    if nsid = 0 || (1024 < nsid && nsid ≠ 0xFFFFFFFF) then bad
    else if nsid = 0xFFFFFFFF then .ok base
    else match s.ns nsid with
      | some n => .ok (if l.contains nsid then g n else zeros 4096)
      | none => .ok (zeros 4096)
  if cns = 0x00 then oneNs active fun n => identifyNs n base
  else if cns = 0x01 then .ok (identifyCtrl fn base)
  else if cns = 0x02 then if 0xFFFFFFFE ≤ nsid then bad else .ok (idList active nsid)
  else if cns = 0x03 then
    if active.contains nsid then match s.ns nsid with
      | some n => .ok (fit 4096 (base.take 16 ++ [4, 1, 0, 0] ++ leBytes 1 (csiOf n.type)))
      | none => bad
    else bad
  else if cns = 0x05 then
    oneNs active fun n => if csiOf n.type ≠ csi then zeros 4096 else if csi = 2 then identifyZns n base else base
  else if cns = 0x06 then if csi = 0 || csi = 2 then .ok base else .error (0, 0x02, 0)
  else if cns = 0x08 then oneNs active fun _ => base
  else if cns = 0x10 then if 0xFFFFFFFE ≤ nsid then bad else .ok (idList (s.seenNs fn) nsid)
  else if cns = 0x11 then oneNs (s.seenNs fn) fun n => identifyNs n base
  else if cns = 0x12 then
    if (s.seenNs fn).contains nsid then
      .ok (ctrlList ((s.attachedTo nsid).filter fun c => fn = 0 || c = fn) cntid)
    else bad
  else if cns = 0x13 then .ok (ctrlList (if fn = 0 then s.ctrlIds else [fn]) cntid)
  else if cns = 0x14 || cns = 0x15 then .ok base
  else .error (0, 0x02, 0)

end State

/-! ## Rows -/

/-- GET_LOG_PAGE (R102, R121, R130): a part of a page; without Retain it may clear errors and events. -/
def execGetLogPage (key : CmdKey) (s : State) : Host.Outcome State Fault Refusal :=
  match s.executing key 0x02 true with
  | none => done s
  | some c =>
    let q := c.sqe
    let lid := q.dw10 % 256
    let n := (q.dw10 / 65536 + 65536 * (q.dw11 % 65536) + 1) * 4
    let off := q.dw12 + 2 ^ 32 * q.dw13
    match s.logPage key.fn q.nsid lid with
    | none => done (s.fail key (1, 0x09, 0))
    | some l =>
      if off % 4 ≠ 0 || l.length ≤ off then done (s.fail key (0, 0x02, 0))
      else
        let s := s.endCmd key 0 0 0 0 (State.pageSlice lid l off n)
        let s := if lid = 0x02 then { s with freeCtr := s.freeCtr + 5 } else s
        done (if bit q.dw10 15 then s else s.logRead key.fn q.nsid lid off n)

/-- IDENTIFY (R101). -/
def execIdentify (key : CmdKey) (s : State) : Host.Outcome State Fault Refusal :=
  match s.executing key 0x06 true with
  | none => done s
  | some c =>
    let q := c.sqe
    match s.identifyData key.fn q.nsid (q.dw10 % 256) (q.dw10 / 65536) (q.dw11 / 2 ^ 24) with
    | .ok l => done (s.endCmd key 0 0 0 0 l)
    | .error st => done (s.fail key st)

end Sys2Proof.Machine
end

