-- ==== Sys2Proof/Machine/HostAdmin.lean ====
section
/-! DEFINITION. The remaining admin commands: Abort, firmware, self-test, slates and scripts (R113–R117,
R123–R126, R354–R356, R558, R578–R580), and the conventional PCIe reset, which ends a self-test. -/

namespace Sys2Proof.Machine

/-! ## Scripts -/

/-- The digest of a script image, computed with its own bytes as zero (R354). -/
def scriptDigest (l : List Byte) : List Byte := sha256 (patch l 0x60 (zeros 32))

namespace State

/-- The first illegal field of a script header (Table 10.1), by its byte offset. -/
def scriptBad (s : State) (l : List Byte) (len : Nat) : Option Nat :=
  let text := field l 0x10 4
  let const := field l 0x18 4
  let shared := field l 0x1C 4
  let n := field l 6 1
  let v := field l 2 2
  let p := field l 4 2
  firstFail
    (([(field l 0 2 = 0x5354, 0x00),
      (s.getF F.tskVersionMinScript ≤ v && v ≤ s.getF F.tskVersionMaxScript, 0x02),
      (s.getF F.engVersionMinProfile ≤ p && p ≤ s.getF F.engVersionMaxProfile, 0x04),
      (1 ≤ n && n ≤ 16, 0x06), (field l 7 1 = 0, 0x07),
      (field l 8 4 = len && field l 8 4 = 0x80 + text + const, 0x08), (field l 0x0C 4 = 0x80, 0x0C),
      (4 ≤ text && text % 4 = 0, 0x10), (field l 0x14 4 = (if const = 0 then 0 else 0x80 + text), 0x14),
      (const ≤ 262144 && const % 4 = 0, 0x18),
      (shared % 65536 = 0 && const ≤ shared && shared ≤ 2 ^ 22 && (0 < shared || const = 0), 0x1C)] : List (Bool × Nat))
      ++ (List.range 16).map fun e =>
        let a := field l (0x20 + 4 * e) 4
        (if e < n then decide (a % 4 = 0 ∧ a < text) else decide (a = 0), 0x20 + 4 * e))

/-- 64 KiB units of the script store in use (R356). -/
def storeUsed (s : State) : Nat :=
  (s.tsk.images.filterMap fun e => e.2.map fun (x : Script) => x.units).sum

/-- Registration slots that an instance holds, with their images. -/
def registrations (s : State) (n : Nat) : List (Nat × Nat) :=
  s.tsk.slots.filterMap fun e => if e.1 / 64 = n then e.2.map fun i => (e.1 % 64, i) else none

/-- The store index of an image by its digest. -/
def imageOf (s : State) (digest : List Byte) : Option Nat :=
  (s.tsk.images.find? fun e => match e.2 with
    | some (x : Script) => x.digest = digest
    | none => false).map (·.1)

/-- CONFIG items of an image (Table 14.14). -/
def mirrorImage (s : State) (digest image : List Byte) : State :=
  forEach (List.range (ceilDiv image.length 4064)) s fun s i =>
    let part := slice image (4064 * i) 4064
    s.mirror msgConfig 0 noTenant 0 (leBytes 1 5 ++ zeros 3 ++ leBytes 4 (40 + part.length) ++ digest
      ++ leBytes 4 image.length ++ leBytes 4 (4064 * i) ++ part)

/-- CONFIG items 3 and 4: a registration of an instance is made or removed. -/
def mirrorReg (s : State) (item : Nat) (digest : List Byte) (n slot : Nat) : State :=
  s.mirror msgConfig 0 n 0 (leBytes 1 item ++ zeros 3 ++ leBytes 4 36 ++ digest ++ leBytes 2 n ++ leBytes 1 slot ++ zeros 1)

/-- Puts an image into the store. -/
def addImage (s : State) (digest image : List Byte) : Nat × State :=
  let i := (unlisted s.tsk.images 4096 1).headD 0
  let x : Script := { digest := digest, image := image, units := ceilDiv image.length 65536 }
  (i, s.modTsk fun t => { t with images := sparsePut (fun _ => none) t.images i (some x) })

/-- Sets or removes a registration. -/
def setReg_ (s : State) (n slot : Nat) (i : Option Nat) : State :=
  s.modTsk fun t => { t with slots := sparsePut (fun _ => none) t.slots (64 * n + slot) i }

/-- Script Register: the status that refuses it, or the slot with the state (R355). -/
def registerScript (s : State) (n len : Nat) (l : List Byte) : Except Status (Nat × State) :=
  if s.instSt n = 0 then .error (0, 0x0C, 0)
  else if len % 4 ≠ 0 || 2 ^ 20 < len then .error (0, 0x02, 0xFFFFFFFF)
  else match s.scriptBad l len with
  | some o => .error (0, 0x02, o)
  | none =>
    let d := slice l 0x60 32
    let regs := s.registrations n
    let held := s.imageOf d
    if scriptDigest l ≠ d then .error (7, 0xC4, 0)
    else match regs.find? fun e => held = some e.2 with
    | some e => .ok (e.1, s)
    | none =>
      if s.getF (F.instQuotaTScriptQuota n) ≤ regs.length then .error (7, 0xCC, 0x08)
      else if held.isNone && 4096 < s.storeUsed + ceilDiv len 65536 then .error (7, 0xCC, 0x09)
      else match (List.range 64).find? fun k => !(regs.any fun e => e.1 = k) with
      | none => .error (7, 0xCC, 0x08)
      | some slot =>
        let (i, s) := match held with
          | some i => (i, s)
          | none =>
            let (i, s) := s.addImage d l
            (i, s.mirrorImage d l)
        .ok (slot, (s.setReg_ n slot (some i)).mirrorReg 3 d n slot)

/-! ## Self-test (R578–R580) -/

/-- Segments of a test. -/
def SelfTest.last (t : SelfTest) : Nat := if t.extended then 10 else 6

/-- A test ends with a result code: 0 passed, 1 and 2 aborted, 7 a segment failed, 8 aborted by a mode change or
reset. -/
def endSelfTest (s : State) (result : Nat) : State := match s.pwr.selfTest with
  | none => s
  | some t =>
    let f := t.failed.getD (0, 0)
    let r : SelfTestResult := { extended := t.extended, result := result, segment := f.1, unit := f.2 }
    let s := s.modPwr fun p => { p with selfTest := none, selfTests := (r :: p.selfTests).take 20 }
    if result = 0 then s.endLongOp 5 0 0 else if result = 7 then s.endLongOp 5 0 0x06 else s.endLongOp 5 0 0x07

/-- The mode allows the test (Table 15.14). -/
def selfTestMode (s : State) (extended : Bool) : Bool :=
  if extended then s.inMode .service else s.inMode .ready || s.inMode .active

/-- A mode change that leaves the test's modes aborts it. -/
def selfTestModeCheck (s : State) : State := match s.pwr.selfTest with
  | some t => if s.selfTestMode t.extended then s else s.endSelfTest 8
  | none => s

/-! ## Slates (R124) -/

/-- SLATE_LOAD with ACTIVATE once its order has won. Where a validation or a swap that began after its data arrived
still runs, it ends with Command Sequence Error, as R124 has it for a load that finds BUSY: DESIGN CHOICE (log
entry 163). -/
def runSlateLoad (s : State) (c : Cmd) : State :=
  if s.onF F.sltCtrlLock then (s.noteReject lockReject true).fail c.key (7, 0xCA, rejectDword lockReject)
  else if s.slateBusy then s.sequenceError c.key
  else (s.setShadow (fit slateLen c.sqe.data)).runSlateOrder (some c.key)

/-- A commit over NVMe once its order has won: the slot named, or the staging slot for slot 0 (R558). -/
def runFwCommit (s : State) (c : Cmd) : State :=
  let fs := c.sqe.dw10 % 8
  let action := bits c.sqe.dw10 3 3
  if 2 < fs || (fs = 0 && action = 2) then s.fail c.key (1, 0x06, 0)
  else
    let slot := if fs = 0 then s.stagingSlot.getD (s.getF F.updSlotsActive) else fs - 1
    s.runCommit (some c.key) action slot

end State

/-! ## Rows -/

/-- ABORT (R113–R117): best effort; a fifth outstanding one does not look for its target. -/
def execAbort (key : CmdKey) (s : State) : Host.Outcome State Fault Refusal :=
  match s.executing key 0x08 true with
  | none => done s
  | some c =>
    let others := s.host.cmds.countP fun (x : Cmd) =>
      x.key.fn = key.fn && x.key.sq = 0 && x.sqe.opc = 0x08 && x.seq < c.seq
    if 4 ≤ others then done (s.fail key (1, 0x03, 0))
    else
      let target : CmdKey := { fn := key.fn, sq := c.sqe.dw10 % 65536, cid := c.sqe.dw10 / 65536 }
      match (s.cmd? target).bind s.catchCmd with
      | some s => done ((s.incF F.hifEventCntAbortCaught).endCmd key 0 0 0 0 [])
      | none => done (s.endCmd key 0 0 1 0 [])

/-- FIRMWARE_COMMIT (R558): an order for the firmware. -/
def execFirmwareCommit (key : CmdKey) (s : State) : Host.Outcome State Fault Refusal :=
  match s.executing key 0x10 true with
  | none => done s
  | some c => done (s.orderAdmin c true [.firmware])

/-- FIRMWARE_IMAGE_DOWNLOAD (R558). -/
def execFirmwareImageDownload (key : CmdKey) (s : State) : Host.Outcome State Fault Refusal :=
  match s.executing key 0x11 true with
  | none => done s
  | some c =>
    match s.stageDownload (4 * c.sqe.dw11) (fit (4 * (c.sqe.dw10 + 1)) c.sqe.data) with
    | some s => done (s.endCmd key 0 0 0 0 [])
    | none => done (s.sequenceError key)

/-- DEVICE_SELF_TEST (R578, R580): starts a test, or aborts the one in progress. -/
def execDeviceSelfTest (key : CmdKey) (s : State) : Host.Outcome State Fault Refusal :=
  match s.executing key 0x14 true with
  | none => done s
  | some c =>
    let stc := c.sqe.dw10 % 16
    if stc = 0xF then done ((s.endSelfTest 1).endCmd key 0 0 0 0 [])
    else if s.pwr.selfTest.isSome then done (s.fail key (1, 0x1D, 0))
    else
      let t : SelfTest := { extended := decide (stc = 2), segment := 1, failed := none }
      done (((s.modPwr fun p => { p with selfTest := some t }).startLongOp 5 false).endCmd key 0 0 0 0 [])

/-- SELF_TEST_SEGMENT (R578–R580): the next segment in number order runs; segment 6 is skipped while the spindle
is not AT_SPEED; a failing engine is fenced, every other failure is only reported. -/
def execSelfTestSegment (seg : Nat) (passed : Bool) (unit : Nat) (s : State) : Host.Outcome State Fault Refusal :=
  match s.pwr.selfTest with
  | none => done s
  | some t =>
    if t.segment ≠ seg || !s.selfTestMode t.extended then done s
    else
      let fails := !passed && !(seg = 6 && s.spinState ≠ 5)
      let s := if fails then s.daily src.dev 0x0502 [seg, unit] else s
      let s := if fails && seg = 3 then s.fenceEngine unit else s
      let t := { t with segment := seg + 1, failed := if fails && t.failed.isNone then some (seg, unit) else t.failed }
      let s := (s.modPwr fun p => { p with selfTest := some t }).longOpProgress 5 (10000 * seg / State.SelfTest.last t) 0
      if seg < State.SelfTest.last t then done s
      else done (s.endSelfTest (if t.failed.isSome then 7 else 0))

/-- SLATE_LOAD (R124, R617): LOCK is tested first, then BUSY; with ACTIVATE it is an order, otherwise the shadow
is written and validated. -/
def execSlateLoad (key : CmdKey) (s : State) : Host.Outcome State Fault Refusal :=
  match s.executing key 0xC1 true with
  | none => done s
  | some c =>
    let waits : Bool := match s.slt.job with
      | some j => j.cmd = some key
      | none => false
    if c.ordered || waits then done s
    else if s.onF F.sltCtrlLock then done ((s.noteReject State.lockReject true).fail key (7, 0xCA, State.rejectDword State.lockReject))
    else if s.slateBusy then done (s.sequenceError key)
    else if bit c.sqe.dw11 0 then done (s.orderAdmin c false [.slate])
    else done ((s.setShadow (fit slateLen c.sqe.data)).startSlateJob false (some key) none)

/-- SLATE_READ (R123): an image and its SLATE_ID. -/
def execSlateRead (key : CmdKey) (s : State) : Host.Outcome State Fault Refusal :=
  match s.executing key 0xC2 true with
  | none => done s
  | some c =>
    let img := if bit c.sqe.dw11 0 then s.shadowImage else denseBytes slateLen s.slt.active
    done (s.endCmd key 0 0 (field img 8 4) 0 img)

/-- SCRIPT_REGISTER (R125, R355). -/
def execScriptRegister (key : CmdKey) (s : State) : Host.Outcome State Fault Refusal :=
  match s.executing key 0xC5 true with
  | none => done s
  | some c =>
    match s.registerScript (c.sqe.dw11 % 512) c.sqe.dw10 (fit (min c.sqe.dw10 (2 ^ 20)) c.sqe.data) with
    | .ok (slot, s) => done (s.endCmd key 0 0 slot 0 [])
    | .error st => done (s.fail key st)

/-- SCRIPT_DEREGISTER (R126): takes past decode run on. -/
def execScriptDeregister (key : CmdKey) (s : State) : Host.Outcome State Fault Refusal :=
  match s.executing key 0xC8 true with
  | none => done s
  | some c =>
    let n := c.sqe.dw11 % 512
    let slot := c.sqe.dw10
    if s.instSt n = 0 then done (s.sequenceError key)
    else match (s.registrations n).find? fun e => e.1 = slot with
      | none => done (s.fail key (0, 0x02, 0))
      | some e =>
        let d := match sparseGet (fun _ => none) s.tsk.images e.2 with
          | some (x : Script) => x.digest
          | none => zeros 32
        let s := ((s.setReg_ n slot none).sweepImages).mirrorReg 4 d n slot
        done (s.endCmd key 0 0 0 0 [])

/-- PCIE_CONVENTIONAL_RESET (R85, R134, R580): every controller is reset, commands end without completion,
complete writes stay, generations advance, and a self-test is aborted. The link trains again, and what the host had
programmed into the configuration space beside the virtual functions is at its reset values. -/
def execPcieConventionalReset (s : State) : Host.Outcome State Fault Refusal :=
  let s := (((s.noteReset 3).endSelfTest 2).discardCmds 0).resetCtrl 0 false
  let s := (s.setReg A.hifLinkStatus 0).modHost fun h => { h with pcie := Pcie.reset }
  done (forEach (List.range 512) s fun s n =>
    if s.instEnabled n || s.instSt n = 6 then s.resetInstance n false true
    else if (s.ctrl (n + 1)) = Ctrl.reset then s else s.resetCtrl (n + 1) false)

end Sys2Proof.Machine
end

