-- ==== Sys2Proof/Machine/Pair.lean ====
section
/-! DEFINITION. The continuity pair (chapter 14): link-up, roles and epochs, messages, mirroring,
separation, pair orders, resync and heartbeats, and the commands of that chapter. -/

namespace Sys2Proof.Machine

namespace State

/-! ## Roles and epochs -/

/-- Stores a role (R484): durable in the NVS first; CONFLICT clears when the role changes. -/
def setRole (s : State) (r : Nat) : State :=
  let s := if s.role = r then s else s.setF F.cntStatusConflict 0
  (s.setF F.cntStatusRole r).modCnt fun c => { c with role := r }

/-- Stores a fencing epoch (R484) and records its change (Table 14.9). -/
def setEpoch (s : State) (e : Nat) : State :=
  let old := s.getF F.cntEpochEpoch
  ((s.setF F.cntEpochEpoch e).modCnt fun c => { c with epoch := e }).pairEvent 0x0402 [old, e]

/-- Ends every command that passes and is not yet POSTED with a status, a completion not yet written
included: incomplete buffered writes give their space back and takes stop (R486, R498). -/
def endAll (s : State) (p : Cmd → Bool) (sct sc : Nat) : State :=
  let mine := s.host.cmds.filter fun (c : Cmd) => c.st ≠ .posted && c.st ≠ .discarded && p c
  let s := forEach mine s fun s (c : Cmd) => ((forEach (s.ctxsOf c.key) s cancelTake).releaseBuffer c.key).orphanReads c.key
  let ended := fun (c : Cmd) => { c with st := .completing, sct := sct, sc := sc, dw0 := 0, dw1 := 0, out := [] }
  let mineOf := fun (c : Cmd) => c.st ≠ .posted && c.st ≠ .discarded && p c
  let s := s.modHost fun h => { h with cmds := mapWhere h.cmds mineOf ended }
  forEach ((mine.filter fun (c : Cmd) => c.sqe.opc = 0x0C && c.key.sq = 0).map fun (c : Cmd) => c.key.fn) s fun s fn =>
    s.modCtrl fn fun c => { c with aers := c.aers.filter fun k => !(mine.any fun (m : Cmd) => m.key = k) }

/-- Extents (1 MiB) that a sent message changes (R494). -/
def msgExtents (s : State) (m : OutMsg) : List (Nat × Nat) :=
  if m.type = msgWrite || m.type = msgResyncData then s.extentsOf m.nsid (field m.body 0 8) (field m.body 8 4)
  else if m.type = msgMapDelta && field m.body 0 4 < 4 then s.extentsOf m.nsid (field m.body 4 8) (field m.body 12 4)
  else []

/-- Unacknowledged messages are given up and the extents that they change become dirty (R494). -/
def giveUpOut (s : State) : State :=
  let out := s.cnt.out
  let s := s.modCnt fun c => { c with out := [] }
  forEach (out.flatMap s.msgExtents) s fun s e => s.markDirty e.1 e.2

/-- A resync pass that runs ends without success. -/
def cutResync (s : State) : State :=
  let s := s.forgetReads fun r => r.reader = .resync
  if s.cnt.resync.isSome then (s.modCnt fun c => { c with resync := none, passDue := none }).endLongOp 2 0 0x06
  else s.modCnt fun c => { c with passDue := none }

/-- A HANDOVER that still waits when the mirror path goes down, or the role changes, ends with NOT_ALLOWED: DESIGN CHOICE, the spec does not
say (log entry 181). -/
def orderCut (s : State) : State := match s.cnt.order with
  | some _ => ((s.modCnt fun c => { c with order := none }).setF F.cntOrderStatusBusy 0).setF F.cntOrderStatusResult 3
  | none => s

/-- A principal gives up its role (R498, step 2): the host data path closes and every command not
yet POSTED completes with Namespace Not Ready. What the double has not acknowledged is dirty. -/
def dropPrincipal (s : State) : State :=
  if s.role = rolePrincipal then
    let s := if s.mgt.tf.phase = .order || s.mgt.tf.phase = .lock || s.mgt.tf.phase = .run then s.tfEnd 0 0x82 [] else s
    (((s.closePath).endAll (fun _ => true) 0 0x82).giveUpOut).cutResync.orderCut.modCnt fun c => { c with reads := [], settled := false }
  else s

/-- DIRTY with the own dirty map (R498), at most 514 entries in a message (Table 14.2). -/
def sendDirty (s : State) : State :=
  let l := s.cnt.dirty.map fun d => leBytes 4 (d.1 / 2 ^ 32) ++ leBytes 4 (d.1 % 2 ^ 32)
  if !s.cnt.proven then s
  else forEach (List.range (max 1 (ceilDiv l.length 514))) s fun s i =>
    s.sendMsg msgDirty 0 noTenant 0 ((l.drop (514 * i)).take 514).flatten none 0

/-- Adopts a higher epoch (R498): the device becomes DOUBLE and sends DIRTY with its map. -/
def adoptEpoch (s : State) (e : Nat) : State :=
  (((s.setEpoch e).dropPrincipal).setRole roleDouble).sendDirty

/-- The device becomes PRINCIPAL (R499): tenants that the records show ENABLED, QUIESCING or
QUIESCED pass through RESETTING into ENABLED, each generation advancing by one, and the host data
path opens. A device that is PRINCIPAL already only opens its path (R485). -/
def becomePrincipal (s : State) : State :=
  let s' := s.modCnt fun c => { c with settled := true }
  if s.role = rolePrincipal then s'.openPath
  else
    let s := (s'.setRole rolePrincipal).modCnt fun c => { c with heldWrites := [], waiting := [], journaled := none }
    let s := forEach (s.ten.map (·.1)) s fun s n => if s.instEnabled n then s.resetInstance n false false else s
    s.openPath

/-! ## Separation -/

/-- Ends the writes that wait for mirror acknowledgements and have none left (R489). -/
def endAcked (s : State) : State :=
  forEach (s.host.cmds.filter fun (c : Cmd) => c.st = .executing && c.dataIn
      && !(s.cnt.out.any fun (m : OutMsg) => m.key = some c.key)) s fun s c => s.endCmd c.key 0 0 c.dw0 c.dw1 []

/-- A mirrored write ends with MIRROR_UNAVAILABLE (R491, R492); a take that commits goes on without its
completion. -/
def mirrorFails (s : State) (k : CmdKey) (dw0 : Nat) : State :=
  let hs := s.ctxsOf k
  let dw1 := ((hs.filterMap s.ctx).map takeDw1).foldl max 0
  let s := forEach hs s fun s h => s.modCtx h fun x => { x with silent := true }
  if k = tfKey then s.tfEnd 7 0xCD [] else s.endCmd k 7 0xCD dw0 dw1 []

/-- Reads that wait for the double end as unrecoverable on this device (R500); one of an older generation is discarded
(R138). -/
def failReads (s : State) (p : PairRead → Bool) : State :=
  let mine := s.cnt.reads.filter p
  let s := s.modCnt fun c => { c with reads := c.reads.filter fun r => !p r }
  forEach mine s fun s (r : PairRead) =>
    if s.isStale (fnInst r.key.fn) r.gen then s.staleResult (fnInst r.key.fn) r.gen
    else match s.ctxsOf r.key with
    | [] => s.endCmd r.key 2 0x81 0 0 []
    | h :: _ => match s.ctx h with
      | some x =>
        let port := (x.desc.ins.find? fun (g : TakeRange) => g.kind = 0 && g.nsid = r.nsid && (s.nextPiece x g).1 = r.lba).map (·.port)
        s.inputError h (port.getD 0) r.lba
      | none => s

/-- The mirror path goes down (R491, R492, R494): extents of unacknowledged messages become dirty, and the
waiting writes complete unmirrored, or with MIRROR_UNAVAILABLE where POLICY is REQUIRE. -/
def dropUnacked (s : State) : State :=
  let keys := s.cnt.out.filterMap (·.key)
  let s := if s.role = rolePrincipal then s.giveUpOut else s.modCnt fun c => { c with out := [] }
  let s := s.failReads fun _ => true
  let s := s.orderCut
  if s.onF F.cntCfgPolicy then forEach keys s fun s k => s.mirrorFails k 0 else s.endAcked

/-- Session state of a link that is no longer up. -/
def dropSession (s : State) : State :=
  let s := (s.forgetReads fun r => match r.reader with
    | .pair _ => true
    | _ => false).modCnt fun c =>
    { c with frames := [], unsent := [], resend := 0, serving := [], keys := none, proven := false, helloSent := none, helloSeen := none
             heldWrites := [], nak := false, msgTx := 0, msgRx := 0, txSeq := 0, rxSeq := 0, journaled := none
             ackSent := none, waiting := [], slateParts := [], slateBytes := 0, images := []
             retryDue := some (s.tick + 64 * 1000000000) }
  (s.setF F.cntStatusWidth 0).setF F.cntNegotiatedVersion 0

/-- The pair separates (R493, R496), cause 1 link down, 2 ACK timeout, 3 partner not applying; it
goes to TRAINING at once. Before RESYNC or IN_SYNC the link just trains again. -/
def separate (s : State) (cause : Nat) : State :=
  let s := if s.mirrorUp then
      let s := ((s.setF F.cntStatusPairState pairSeparated).dropUnacked).cutResync
      ((s.incF F.cntCntPairSeparations).daily src.cnt 0x0400 [cause, s.getF F.cntDirtyExtents]).alertPair
    else s
  (s.dropSession).setF F.cntStatusPairState pairTraining

/-- The link goes down (R478). -/
def linkDown (s : State) : State :=
  if s.pairState = pairDown then s else s.separate 1

/-! ## Link-up (R482, R485) -/

/-- The HELLO body of this device (Table 14.5). -/
def helloBody (s : State) (nonce : List Byte) : List Byte :=
  leBytes 2 (s.getF F.cntVersionMinVersion) ++ leBytes 2 (s.getF F.cntVersionMaxVersion)
    ++ leBytes 2 (s.getF F.cntDevnumDevnum) ++ leBytes 1 s.cnt.role
    ++ leBytes 1 s.cnt.hold.toNat ++ leBytes 4 (s.getF F.cntDomainDomain) ++ leBytes 4 s.cnt.epoch
    ++ nonce ++ zeros 32

/-- The LINK key, if LINK_SLOT holds one (R483). -/
def linkKey (s : State) : Option (List Byte) :=
  (s.keySlot (s.getF F.cntCfgLinkSlot)).bind fun k => if k.cls = clsLink then some k.key else none

/-- The highest protocol version inside both ranges (R483). -/
def commonVersion (s : State) (lo hi : Nat) : Option Nat :=
  let v := min hi (s.getF F.cntVersionMaxVersion)
  if max lo (s.getF F.cntVersionMinVersion) ≤ v then some v else none

/-- Negotiation failed; training is retried after 10 s (R483). -/
def negotiationFails (s : State) : State :=
  s.modCnt fun c => { c with retryDue := some (s.tick + 64 * 10000000000) }

/-- The two HELLO bodies in the order of the device numbers, and the own direction byte (R480, R482). -/
def helloPair (s : State) (mine theirs : List Byte) : List Byte × List Byte × Byte :=
  if s.getF F.cntDevnumDevnum < field theirs 4 2 % 1024 then (mine, theirs, 0) else (theirs, mine, 1)

/-- The proof of a CONFIRM: the HMAC under the LINK key over both HELLO bodies and the sender's direction. -/
def linkProof (k lower higher : List Byte) (dir : Byte) : List Byte := hmacOf 0 k (lower ++ higher ++ [dir])

/-- The session key of a direction (R482). -/
def sessionKey (k lower higher : List Byte) (dir : Byte) : List Byte :=
  let label : List Byte := [0x43, 0x4C, 0x2D, 0x53, 0x45, 0x53, 0x53, 0x49, 0x4F, 0x4E]
  hmacOf 0 k (label ++ slice lower 16 16 ++ slice higher 16 16 ++ [dir])

/-- Sends HELLO with a fresh nonce (R482). -/
def sendHello (s : State) : State :=
  let (nonce, s) := s.drbg 16
  let b := s.helloBody nonce
  (s.modCnt fun c => { c with helloSent := some b }).sendClear 0x01 b

/-- Sends CONFIRM once both HELLOs are there and a LINK key exists (R482). -/
def sendConfirm (s : State) : State :=
  match s.cnt.helloSent, s.cnt.helloSeen, s.linkKey with
  | some mine, some theirs, some k =>
    let (lower, higher, dir) := s.helloPair mine theirs
    s.sendClear 0x02 (linkProof k lower higher dir)
  | _, _, _ => s

/-- Some extent is dirty on either side. -/
def anyDirty (s : State) : Bool :=
  !s.cnt.dirty.isEmpty || !s.cnt.peerDirty.isEmpty || s.onF F.cntStatusLogOverflow

/-- The pair is IN_SYNC (R494, R502): the separation log is erased. -/
def enterInSync (s : State) : State :=
  let s := s.modCnt fun c => { c with log := [], resync := none, passDue := none, peerDirty := [] }
  (((s.setF F.cntStatusPairState pairInSync).setF F.cntStatusLogOverflow 0).setF F.cntDirtyExtents 0).setF
    F.cntResyncPctPct 10000

/-- Extents to be copied: the own map ORed with the partner's list, or every extent after an overflow of the
separation log, in ascending order (R494, R501). -/
def resyncSet (s : State) : Sparse Bool :=
  let all := if s.onF F.cntStatusLogOverflow then s.nsids.flatMap fun i => match s.ns i with
      | some n => (List.range (Namespace.extents n)).map fun e => (i, e)
      | none => []
    else []
  (s.cnt.peerDirty ++ all).foldl (fun m e => sparsePut (fun _ => false) m (extKey e.1 e.2) true) s.cnt.dirty

/-- A resync pass starts (R501, R502). -/
def startResync (s : State) : State :=
  let s := s.forgetReads fun r => r.reader = .resync
  let set := s.resyncSet
  let s := s.modCnt fun c =>
    { c with dirty := set, peerDirty := [], passDue := none
             resync := some { total := set.length, copied := 0, refused := [], lock := none, doneSeq := none } }
  let s := (s.setF F.cntStatusPairState pairResync).setF F.cntDirtyExtents set.length
  (s.setF F.cntResyncPctPct 0).startLongOp 2 false

/-- NEGOTIATING leaves to RESYNC or IN_SYNC once the roles are settled and the partner applies
messages (Table 14.8, R493). -/
def settlePair (s : State) (peerRole : Nat) : State :=
  let settled := (s.role = rolePrincipal && peerRole ≠ rolePrincipal) ||
    (s.role = roleDouble && peerRole = rolePrincipal)
  if !settled || s.pairState ≠ pairNegotiating then s
  else
    let s := s.modCnt fun c => { c with settled := true }
    let s := if s.role = rolePrincipal && !s.pwr.pathOpen && !s.inMode .service && !s.inMode .safe
      then s.openPath else s
    if s.cnt.peerHold || s.cnt.hold then s
    else if s.anyDirty then
      if s.role = rolePrincipal then s.startResync else s.setF F.cntStatusPairState pairResync
    else s.enterInSync

/-- A DOUBLE that has dirty extents of its own lists them for the resync (R498, R501). -/
def listDirty (s : State) : State := if s.role = roleDouble && !s.cnt.dirty.isEmpty then s.sendDirty else s

/-- Roles settle at link-up (R485). -/
def settleRoles (s : State) (peerRole peerEpoch : Nat) : State :=
  let e := s.cnt.epoch
  if e < peerEpoch then (s.adoptEpoch peerEpoch).settlePair peerRole
  else if peerEpoch < e then s.settlePair (if s.role = rolePrincipal then roleDouble else peerRole)
  else if s.role = rolePrincipal && peerRole = rolePrincipal then
    (((s.dropPrincipal).setRole roleFenced).setF F.cntStatusConflict 1).pairEvent 0x0403 [e, peerEpoch]
  else if peerRole = rolePrincipal then ((s.setRole roleDouble).listDirty).settlePair peerRole
  else (s.listDirty).settlePair peerRole

/-- The device stops or begins to apply mirrored messages (R493): when it begins again it sends a new HELLO,
and the pair may leave NEGOTIATING. -/
def setHold (s : State) (h : Bool) : State :=
  if s.cnt.hold = h then s
  else
    let s := s.modCnt fun c => { c with hold := h }
    if h || s.pairState < pairNegotiating || s.pairState = pairSeparated then s
    else
      let s := s.sendHello
      match s.cnt.helloSeen with
      | some b => if s.cnt.proven then s.settlePair (field b 6 1) else s
      | none => s

/-! ## Receiving messages (R481) -/

/-- The message that received bytes hold under the session key of the receiving direction; none where the tag
fails. -/
def openMsg (s : State) (w : List Byte) : Option LinkMsg :=
  s.cnt.keys.bind fun k => openSealed k.2 (1 - s.ownDir) w

/-- Cells that a received message needs (R54): SEC for its GCM, and D0 and D1 for its bytes. -/
def recvNeeds (s : State) (w : List Byte) : List CellNeed :=
  need colSec ownMirror (48 + msgLen w) 512 ++ s.dramNeeds ownMirror (Config.bufferPlace 1) (48 + msgLen w) true

/-- The checks of R481 on an opened message; then its epoch: a lower one is answered with an EPOCH message and
dropped, a higher one is adopted first. -/
def checkMsg (s : State) (m : LinkMsg) (type : Nat) (act : State → State) : State :=
  if m.magic ≠ 0x434D || m.type ≠ type || m.version ≠ s.getF F.cntNegotiatedVersion || m.seq ≠ s.cnt.msgRx then s.linkDown
  else
    let s := (s.setF F.cntPeerEpochEpoch m.epoch).modCnt fun c =>
      { c with msgRx := c.msgRx + 1, ackNow := c.ackNow || m.ackNow }
    if m.epoch < s.cnt.epoch then
      s.sendMsg msgEpoch 0 noTenant 0 (leBytes 4 s.cnt.epoch ++ zeros 4) none 0
    else if s.cnt.epoch < m.epoch && m.type ≠ msgEpoch then act (s.adoptEpoch m.epoch)
    else act s

/-- A message arrives (R480, R481): with its cells it is opened and checked. Without session keys nothing passes
(R483). -/
def recvMsg (s : State) (w : List Byte) (type : Nat) (act : LinkMsg → State → State) : Host.Outcome State Fault Refusal :=
  if !s.cnt.proven then done s
  else s.moving (s.recvNeeds w) fun s => done (let s := s.useMasks (ceilDiv (48 + msgLen w) 16); match s.openMsg w with
    | none => (s.setF F.cntStatusAuthFail 1).linkDown
    | some m => s.checkMsg m type (act m))

/-- A mirrored message applied on a double (R486, R487): not applied while the device holds. -/
def applyOn (s : State) (w : List Byte) (type : Nat) (act : LinkMsg → State → State) : Host.Outcome State Fault Refusal :=
  s.recvMsg w type fun m s => if s.role ≠ roleDouble || s.cnt.hold then s else act m s

/-- A message that is an order waits for its window (R486, Table 15.12). -/
def waitOrder (s : State) (m : LinkMsg) (mgmt : Bool) (targets : List Target) : State :=
  let s := s.modCnt fun c => { c with waiting := c.waiting ++ [{ msg := m, ofTake := false, ordered := true }] }
  s.placeOrder (.partnerMsg m.seq) mgmt targets 3 .partner

/-- A mirrored change that the double's own state refuses, with its NVMe status (R480). -/
def mirrorDenied (s : State) (nsid lba count : Nat) (needKey : Bool) : Option Status := match s.ns nsid with
  | none => some (0, 0x0B, 0)
  | some n =>
    if n.size < lba + count then some (0, 0x80, 0)
    else (s.ioModeCheck true).or (if needKey then s.keyDenied nsid else none)

/-- Moves the write pointer of a mirrored zone to an offset in its zone. -/
def setZonePointer (s : State) (nsid lba : Nat) : State := match s.zoneBand nsid (lba / 65536) with
  | some b =>
    if lba % 65536 = 0 then s.zoneReset nsid (lba / 65536)
    else s.modBand b fun x => { x with zwp := lba % 65536, zopen := if x.capacity ≤ lba % 65536 then 0 else max 1 x.zopen }
  | none => s

/-- A complete write in the double's buffer (R487), under the issuing tenant; a zone's write pointer follows. -/
def placeMirrored (s : State) (nsid lba count : Nat) (data : List Byte) (n gen : Nat) : State :=
  let key : CmdKey := { fn := if n < 512 then n + 1 else 0, sq := 0, cid := 0 }
  let s := (s.bufferWrite nsid lba count data key gen).completeWrite key
  match (if s.isZoned nsid then s.zoneAt nsid lba else none) with
  | some b => if (s.band b).zwp < lba % 65536 + count then s.zoneWritten nsid lba (lba % 65536 + count - (s.band b).zwp) else s
  | none => s

/-- Answers a WRITE or RESYNC_DATA message: placed and journaled, or refused. -/
def applyWrite (s : State) (m : LinkMsg) : State :=
  let lba := field m.body 0 8
  let count := field m.body 8 4
  match s.mirrorDenied m.nsid lba count true with
  | some st => s.refuse m (statusWord st.1 st.2.1)
  | none => (s.placeMirrored m.nsid lba count (m.body.drop 16) m.tenant m.gen).journal m

/-- The logical change of a MAP_DELTA (log entry 32). -/
def applyDelta (s : State) (kind nsid lba count : Nat) : Except Status State :=
  if kind < 4 then
    match s.mirrorDenied nsid lba (if s.isZoned nsid then 0 else count) false with
    | some st => .error st
    | none => .ok (
      if kind = 2 then s.zoneReset nsid (lba / 65536)
      else if kind = 3 then s.zoneFinish nsid (lba / 65536)
      else if s.isZoned nsid then match s.zoneAt nsid lba with
        | some b => if lba % 65536 < (s.band b).zwp then s.setZonePointer nsid lba else s
        | none => s
      else if kind = 0 then s.deallocBlocks nsid lba count
      else s.zeroBlocks nsid lba count { fn := 0, sq := 0, cid := 0 } 0)
  else if kind = 4 then
    let block := count / 16 * 512
    let t := if count % 16 = 0 then NsType.flash else if count % 16 = 1 then NsType.tiered else NsType.zoned
    if nsid = 0 || 1024 < nsid || (s.ns nsid).isSome then .error (1, 0x16, 0)
    else if !s.capacityOk t (ceilDiv (lba * block) (2 ^ 20)) then .error (1, 0x15, 0)
    else match (if t = .zoned then s.takeBands (lba / 65536) else some []) with
    | none => .error (1, 0x15, 0)
    | some zones => .ok (s.addNs nsid t block lba zones)
  else if (s.ns nsid).isNone then .error (0, 0x0B, 0)
  else if kind = 5 then .ok ((s.modNs nsid fun n => { n with size := lba }).syncTierCap)
  else if kind = 6 then .ok (s.deleteNs nsid)
  else
    let t := ((s.ns nsid).map (·.type)).getD .flash
    let s := s.wipeNs nsid
    .ok (match formatBlock t count with
      | some b => s.modNs nsid fun n => { n with size := n.size * n.block / b, block := b }
      | none => s)

/-- Answers a change: journaled, or refused with its status. -/
def answer (s : State) (m : LinkMsg) : Except Status State → State
  | .ok s' => s'.journal m
  | .error st => s.refuse m (statusWord st.1 st.2.1)

/-- A part of a script image (R488): it must come at the next expected offset; the whole image must have the
digest that names it. -/
def imagePart (s : State) (d : List Byte) : Except Status State :=
  let digest := slice d 0 32
  let total := field d 32 4
  let off := field d 36 4
  let data := d.drop 40
  let old := (s.cnt.images.find? fun (p : ImageParts) => p.digest = digest).getD { digest := digest, total := total, bytes := [] }
  let rest := s.cnt.images.filter fun (p : ImageParts) => p.digest ≠ digest
  if off ≠ old.bytes.length || total ≠ old.total || total < off + data.length then .error (0, 0x0C, 0)
  else
    let now : ImageParts := { old with bytes := old.bytes ++ data }
    if now.bytes.length < total then .ok (s.modCnt fun c => { c with images := rest ++ [now] })
    else
      let s := s.modCnt fun c => { c with images := rest }
      if scriptDigest now.bytes ≠ digest then .error (7, 0xC4, 0)
      else .ok (if (s.imageOf digest).isSome then s else (s.addImage digest now.bytes).2)

/-- Parts of an image whose digest check fails are discarded (R488). -/
def discardParts (s : State) (d : List Byte) : State :=
  let whole := field d 36 4 + (d.drop 40).length = field d 32 4
  if whole then s.modCnt fun c => { c with images := c.images.filter fun (p : ImageParts) =>
    !(p.digest = slice d 0 32 && p.bytes.length = field d 36 4) } else s

/-- An item of Table 14.14 that is an order: the stored record and state without enabling any host queue, an
attachment, or a script registration. -/
def applyConfigItem (s : State) (item : Nat) (d : List Byte) (n : Nat) : Except Status State :=
  if item = 1 then
    if 512 ≤ n then .error (0, 0x02, 0)
    else
      let st := field d 64 1
      let r := if st = 0 then none else some (parseRecord (slice d 0 64))
      let s := s.modTenant n fun t => { t with record := r }
      let s := match r with
        | some r => s.showRecord n r
        | none => s.clearRecord n
      let s := (s.setF (F.instStatusState n) st).setF (F.instStatusGen n) (field d 66 2)
      .ok (s.settingsChanged none)
  else if item = 2 then
    let fn := if field d 4 2 = noTenant then 0 else field d 4 2 + 1
    if (s.ns (field d 0 4)).isNone then .error (0, 0x0B, 0)
    else if 512 < fn then .error (0, 0x02, 0)
    else .ok (s.setAttached (field d 0 4) fn (bit (field d 6 1) 0))
  else
    let inst := field d 32 2
    let slot := field d 34 1
    if 512 ≤ inst || 64 ≤ slot then .error (0, 0x02, 0)
    else if item = 3 then match s.imageOf (slice d 0 32) with
      | some i => .ok (s.setReg_ inst slot (some i))
      | none => .error (7, 0xCB, 0)
    else if item = 4 then .ok ((s.setReg_ inst slot none).sweepImages)
    else .error (0, 0x02, 0)

/-- Applies a message that is no order (R487). -/
def applyMsg (s : State) (m : LinkMsg) (ofTake : Bool) : State :=
  if m.type = msgWrite then
    if ofTake then (s.modCnt fun c => { c with heldWrites := c.heldWrites ++ [m] }).journal m else s.applyWrite m
  else if m.type = msgResyncData then
    (if s.pairState = pairInSync then s.setF F.cntStatusPairState pairResync else s).applyWrite m
  else if m.type = msgMapDelta then
    s.answer m (s.applyDelta (field m.body 0 4) m.nsid (field m.body 4 8) (field m.body 12 4))
  else if m.type = msgTakeCommit then
    let mine := (s.cnt.heldWrites.filter fun (w : LinkMsg) => w.tenant = m.tenant).take (field m.body 4 4)
    let s := forEach mine s fun s (w : LinkMsg) =>
      s.placeMirrored w.nsid (field w.body 0 8) (field w.body 8 4) (w.body.drop 16) w.tenant w.gen
    (s.modCnt fun c => { c with heldWrites := c.heldWrites.filter fun (w : LinkMsg) => !mine.contains w }).journal m
  else if m.type = msgSlate then
    let off := field m.body 0 4
    let data := (m.body.drop 8).take (field m.body 4 4)
    let put := fun (p : Sparse Byte) (e : Byte × Nat) => sparsePut (fun _ => 0) p (off + e.2) e.1
    let s := s.modCnt fun c => { c with
      slateParts := data.zipIdx.foldl put (if off = 0 then [] else c.slateParts)
      slateBytes := (if off = 0 then 0 else c.slateBytes) + data.length }
    if s.cnt.slateBytes < slateLen then s.journal m else s.waitOrder m false [.slate]
  else if m.type = msgConfig then match s.imagePart (m.body.drop 8) with
    | .ok s' => s'.journal m
    | .error st => (s.discardParts (m.body.drop 8)).refuse m (statusWord st.1 st.2.1)
  else if m.type = msgResyncDone then
    let s := (s.modCnt fun c => { c with dirty := [] }).setF F.cntDirtyExtents 0
    (if s.mirrorUp then s.enterInSync else s).journal m
  else s

/-- A message that is no order is applied at once, or behind the orders that came before it. -/
def takeMsg (s : State) (m : LinkMsg) (ofTake : Bool) : State :=
  if s.cnt.waiting.isEmpty then s.applyMsg m ofTake
  else s.modCnt fun c => { c with waiting := c.waiting ++ [{ msg := m, ofTake := ofTake, ordered := false }] }

/-- An order of the partner has ended: messages that waited behind it are applied. -/
def drainWaiting (s : State) (seq : Nat) : State :=
  let left := s.cnt.waiting.filter fun (w : PairWait) => w.msg.seq ≠ seq
  let ready := left.takeWhile fun (w : PairWait) => !w.ordered
  let s := s.modCnt fun c => { c with waiting := left.dropWhile fun (w : PairWait) => !w.ordered }
  forEach ready s fun s (w : PairWait) => s.applyMsg w.msg w.ofTake

end State

/-! ## Link commands -/

/-- LINK_ENABLE (R484, R486): LINK_EN from 0 to 1 makes the device DOUBLE unless it is PRINCIPAL, and I/O
commands in flight end. -/
def execLinkEnable (path : Path) (value : Word) (s : State) : Host.Outcome State Fault Refusal :=
  let first := !s.lockedAt A.cntCtrl && !s.onF F.cntCtrlLinkEn && F.cntCtrlLinkEn.get value = 1
  done (s.regAction path A.cntCtrl value fun s =>
    if !first then s
    else
      let s := if s.role = rolePrincipal then s
        else ((s.setRole roleDouble).closePath).endAll (fun (c : Cmd) => c.key.sq ≠ 0) 0 0x82
      ((s.modCnt fun c => { c with retryDue := some (s.tick + 64 * 1000000000) }).setF F.cntCtrlLinkEn 1).setF
        F.cntStatusPairState pairTraining)

/-- LINK_DISABLE (R484): LINK_EN from 1 to 0; the epoch is kept. -/
def execLinkDisable (path : Path) (value : Word) (s : State) : Host.Outcome State Fault Refusal :=
  let last := !s.lockedAt A.cntCtrl && s.onF F.cntCtrlLinkEn && F.cntCtrlLinkEn.get value = 0
  done (s.regAction path A.cntCtrl value fun s =>
    if !last then s
    else
      let s := if s.mirrorUp then (s.dropUnacked).cutResync else s
      let s := (s.dropSession).modCnt fun c => { c with retryDue := none, settled := false }
      let s := ((s.setF F.cntCtrlLinkEn 0).setRole roleNone).setF F.cntStatusPairState pairDown
      let s := s.setF F.cntResyncPctPct 10000
      if s.inMode .service || s.inMode .safe || s.pwr.starting.isSome then s else s.openPath)

/-- LINK_RETRAIN (Table 14.13): RETRAIN takes the link down and retrains it. -/
def execLinkRetrain (path : Path) (value : Word) (s : State) : Host.Outcome State Fault Refusal :=
  done (s.regAction path A.cntCtrl value fun s =>
    if F.cntCtrlRetrain.get value = 0 then s else s.linkDown)

/-- LINK_TRAINED (R476, R482, Table 14.4): lanes lock at a width of 1, 2 or 4; HELLO is sent. -/
def execLinkTrained (width : Nat) (s : State) : Host.Outcome State Fault Refusal :=
  if s.pairState ≠ pairTraining || !s.logicOn || !(width = 1 || width = 2 || width = 4) then done s
  else
    let s := (s.setF F.cntStatusWidth width).setF F.cntStatusPairState pairNegotiating
    done ((s.sendHello).modCnt fun c => { c with lastFrameAt := s.tick, retryDue := none })

/-- LINK_TRAIN_RETRY (R483, Table 14.8): failed training is retried after 1 s, failed negotiation
after 10 s. -/
def execLinkTrainRetry (s : State) : Host.Outcome State Fault Refusal :=
  match s.cnt.retryDue with
  | some t =>
    if t ≤ s.tick && (s.pairState = pairTraining || s.pairState = pairNegotiating) then
      done ((s.dropSession).setF F.cntStatusPairState pairTraining)
    else done s
  | none => done s

namespace State

/-- A valid frame acknowledges every data frame before ACK (R478). -/
def frameAck (s : State) (ack : Nat) : State := s.modCnt fun c =>
  let left := if c.frames.any fun (f : LinkFrame) => f.seq = ack then c.frames.dropWhile fun (f : LinkFrame) => f.seq ≠ ack
    else if ack = c.txSeq then [] else c.frames
  { c with lastFrameAt := s.tick, frames := left, resend := min c.resend left.length }

/-- A NAK makes the sender send again, in order, from the frame it names (R478); a frame that has been sent 8 times
takes the link down. -/
def frameNak (s : State) (seq : Nat) : State :=
  let s := s.frameAck seq
  if s.cnt.frames.any fun (f : LinkFrame) => 8 ≤ f.sends then s.linkDown
  else s.modCnt fun c => { c with resend := c.frames.length }

end State

/-- LINK_FRAME_RECEIVE (R477, R478, R493): a frame of Table 14.1. One whose CRC-32C is wrong is not used, and a NAK
follows, as for a data frame out of sequence. -/
def execLinkFrameReceive (hdr : Word) (data : List Byte) (crc : Word) (s : State) : Host.Outcome State Fault Refusal :=
  let kind := bits hdr.toNat 28 4
  let seq := bits hdr.toNat 16 12
  if s.pairState < pairNegotiating || s.pairState = pairSeparated then done s
  else if crc.toNat ≠ crc32c (leBytes 4 hdr.toNat ++ fit 256 data) then
    done ((s.incF F.cntCntLinkCrcErr).modCnt fun c => { c with nak := true })
  else
    let s := s.frameAck (bits hdr.toNat 4 12)
    let s := if kind = 1 then
        if seq = s.cnt.rxSeq then s.modCnt fun c => { c with rxSeq := (c.rxSeq + 1) % 4096, nak := false }
        else s.modCnt fun c => { c with nak := true }
      else if kind = 2 then s.frameNak seq
      else s
    if bit hdr.toNat 0 && s.mirrorUp then
      done ((s.separate 3).modCnt fun c => { c with peerHold := true })
    else done s

/-- LINK_FRAME_TIMEOUT (R478): no valid frame for 100 µs. -/
def execLinkFrameTimeout (s : State) : Host.Outcome State Fault Refusal :=
  if pairNegotiating ≤ s.pairState && s.pairState ≠ pairSeparated && s.since s.cnt.lastFrameAt 100000 then
    done s.linkDown
  else done s

/-- HELLO (R475, R482, R483, R493): the partner's number, domain and versions are checked; the own CONFIRM is
sent. A HELLO of a proven session settles the roles again. It stands outside the MSG_SEQ sequence (log entry 173). -/
def execHello (w : List Byte) (s : State) : Host.Outcome State Fault Refusal :=
  let m := clearMsg w
  if s.pairState < pairNegotiating || s.pairState = pairSeparated then done s
  else if m.magic ≠ 0x434D || m.type ≠ 0x01 then done s.linkDown
  else
    let b := m.body
    let dev := field b 4 2 % 1024
    let own := s.getF F.cntDevnumDevnum
    let s := (s.setF F.cntDevnumPartner dev).setF F.cntPeerEpochEpoch (field b 12 4)
    let s := s.modCnt fun c => { c with helloSeen := some b, peerHold := bit (field b 7 1) 0 }
    if dev ≠ own ^^^ 1 || field b 8 4 ≠ s.getF F.cntDomainDomain then
      done ((s.setF F.cntStatusDomainMismatch 1).negotiationFails)
    else match s.commonVersion (field b 0 2) (field b 2 2) with
      | none => done ((s.setF F.cntStatusVersionMismatch 1).negotiationFails)
      | some v =>
        let s := ((s.setF F.cntStatusDomainMismatch 0).setF F.cntStatusVersionMismatch 0).setF
          F.cntNegotiatedVersion v
        if s.cnt.proven then done (s.settleRoles (field b 6 1) (field b 12 4))
        else if s.linkKey.isNone then done ((s.setF F.cntStatusAuthFail 1).negotiationFails)
        else done s.sendConfirm

/-- CONFIRM (R482, R485): the proof is checked under the LINK key; session keys are formed and roles
settle. -/
def execConfirm (w : List Byte) (s : State) : Host.Outcome State Fault Refusal :=
  let m := clearMsg w
  match s.cnt.helloSent, s.cnt.helloSeen with
  | some mine, some theirs =>
    if s.pairState ≠ pairNegotiating || !s.onF F.cntNegotiatedVersion || s.cnt.proven then done s
    else if m.magic ≠ 0x434D || m.type ≠ 0x02 then done s.linkDown
    else
      let (lower, higher, dir) := s.helloPair mine theirs
      match s.linkKey with
      | none => done ((s.setF F.cntStatusAuthFail 1).negotiationFails)
      | some k =>
        if m.body ≠ State.linkProof k lower higher (1 - dir) then
          done ((s.setF F.cntStatusAuthFail 1).negotiationFails)
        else
          let s := s.modCnt fun c =>
            { c with proven := true, msgTx := 0, msgRx := 0, retryDue := none
                     keys := some (State.sessionKey k lower higher dir, State.sessionKey k lower higher (1 - dir)) }
          done (s.settleRoles (field theirs 6 1) (field theirs 12 4))
  | _, _ => done s

/-! ## Mirror messages on the double (R487, R488) -/

/-- MIRROR_WRITE (R487): a complete write in the double's write buffer; a write of a take's commit
(`ofTake`, log entry 10) is held until its TAKE_COMMIT. -/
def execMirrorWrite (w : List Byte) (ofTake : Bool) (s : State) : Host.Outcome State Fault Refusal :=
  s.applyOn w msgWrite (fun m s => s.takeMsg m ofTake)

/-- MAP_DELTA (R487): the same logical change; a change of a namespace itself is an order. -/
def execMapDelta (w : List Byte) (s : State) : Host.Outcome State Fault Refusal :=
  s.applyOn w msgMapDelta (fun m s =>
    if 4 ≤ field m.body 0 4 then s.waitOrder m false [.ns m.nsid] else s.takeMsg m false)

/-- TAKE_COMMIT (R487): the held writes of the commit are applied together. -/
def execTakeCommit (w : List Byte) (s : State) : Host.Outcome State Fault Refusal :=
  s.applyOn w msgTakeCommit (fun m s => s.takeMsg m false)

/-- SLATE_MESSAGE (R487): a part of a 19,744-byte image; the whole image is activated as an order. -/
def execSlateMessage (w : List Byte) (s : State) : Host.Outcome State Fault Refusal :=
  s.applyOn w msgSlate (fun m s => s.takeMsg m false)

/-- CONFIG (R488): one item of Table 14.14; an order for the instance it changes. -/
def execConfig (w : List Byte) (s : State) : Host.Outcome State Fault Refusal :=
  s.applyOn w msgConfig (fun m s =>
    let item := field m.body 0 1
    let d := m.body.drop 8
    if item = 5 then s.takeMsg m false
    else if item = 2 then s.waitOrder m false [.ns (field d 0 4)]
    else s.waitOrder m false [.inst (if item = 1 then m.tenant else field d 32 2)])

/-- KEY_MESSAGE (R430, R487): loads or erases a slot on the double, as an order for the slot. -/
def execKeyMessage (w : List Byte) (s : State) : Host.Outcome State Fault Refusal :=
  s.applyOn w msgKey (fun m s =>
    let slot := field m.body 0 4
    s.waitOrder m true (.slot slot :: (s.boundNs slot).map .ns))

namespace State

/-- A partner message that has won its window is applied (R486); a failure is answered with
REFUSE. -/
def runPartner (s : State) (seq : Nat) : State :=
  match s.cnt.waiting.find? fun (w : PairWait) => w.msg.seq = seq with
  | none => s
  | some w =>
    let m := w.msg
    let rest := s.cnt.waiting.filter fun (w : PairWait) => w.msg.seq ≠ seq
    let s := s.modCnt fun c => { c with waiting := rest }
    let s :=
      if m.type = msgMapDelta then
        s.answer m (s.applyDelta (field m.body 0 4) m.nsid (field m.body 4 8) (field m.body 12 4))
      else if m.type = msgSlate then
        let img := denseBytes slateLen s.cnt.slateParts
        (s.modCnt fun c => { c with slateParts := [], slateBytes := 0 }).slateFromPartner img m
      else if m.type = msgKey then
        let slot := field m.body 0 4
        let len := field m.body 4 4
        if len = 0 then (s.changeSlot slot none).journal m
        else match s.linkKey.bind fun k => openBlob k (slice m.body 8 len) with
          | some ks => (s.changeSlot slot (some ks)).journal m
          | none => s.refuse m (statusWord 7 0xC4)
      else s.answer m (s.applyConfigItem (field m.body 0 1) (m.body.drop 8) m.tenant)
    s.drainWaiting seq

/-- A partner message that lost its window is answered with REFUSE (R528). -/
def losePartner (s : State) (seq : Nat) : State :=
  match s.cnt.waiting.find? fun (w : PairWait) => w.msg.seq = seq with
  | none => s
  | some w =>
    let rest := s.cnt.waiting.filter fun (w : PairWait) => w.msg.seq ≠ seq
    let s := s.modCnt fun c => { c with waiting := rest }
    let s := if w.msg.type = msgSlate then s.noteOrderResult 1 else s
    (s.refuse w.msg (statusWord 7 0xC6)).drainWaiting seq

/-- A HANDOVER ends once every command is complete and every message acknowledged (Table 14.10). -/
def handoverStep (s : State) : State :=
  match s.cnt.order with
  | some o =>
    if o.op = 2 && s.cnt.out.isEmpty
        && s.host.cmds.all (fun c => c.st = .posted || c.st = .discarded || c.sqe.opc = 0x0C) then
      let s := s.sendMsg msgEpoch 0 noTenant 0 (leBytes 4 o.epoch ++ leBytes 4 1) none 0
      let s := ((s.setEpoch o.epoch).closePath).setRole roleDouble
      ((s.modCnt fun c => { c with order := none, settled := true, reads := [] }).setF F.cntOrderStatusBusy 0).setF
        F.cntOrderStatusResult 0
    else s
  | none => s

end State

/-! ## Acknowledgement (R489–R493) -/

/-- ACK (R489, R502): the messages up to the number given are acknowledged. An acknowledged RESYNC_DONE ends
the pass: the pair is IN_SYNC if no extent is dirty, else the next pass follows in 60 s. -/
def execAck (w : List Byte) (s : State) : Host.Outcome State Fault Refusal :=
  s.recvMsg w msgAck (fun m s =>
    let h := field m.body 0 8
    let s := (s.modCnt fun c => { c with out := c.out.filter fun (o : OutMsg) => h < o.seq, ackAt := s.tick }).endAcked
    let s := match s.cnt.resync with
      | some r =>
        if (r.doneSeq.map fun d => decide (d ≤ h)) ≠ some true then s
        else if s.cnt.dirty.isEmpty then ((s.pairEvent 0x0404 [r.copied]).enterInSync).endLongOp 2 0 0
        else s.modCnt fun c => { c with resync := none, passDue := some (s.tick + 64 * 60000000000) }
      | none => s
    s.handoverStep)

/-- ACK_SEND (R489): at least every 2 µs while journaled messages are unacknowledged, and at once
for ACK_NOW. -/
def execAckSend (s : State) : Host.Outcome State Fault Refusal :=
  match s.cnt.journaled with
  | none => done s
  | some j =>
    if (match s.cnt.ackSent with | some a => a < j | none => true) && s.cnt.proven
        && (s.cnt.ackNow || s.since s.cnt.ackAt 2000) then
      let s := s.sendMsg msgAck 0 noTenant 0 (leBytes 8 j) none 0
      done (s.modCnt fun c => { c with ackSent := some j, ackAt := s.tick, ackNow := false })
    else done s

/-- REFUSE (R488, R491, R496): the extent becomes dirty; the write fails (SYNC) or a deferred write error
is recorded (ASYNC). After the REFUSE of a SCRIPT_REG the image is sent again and the SCRIPT_REG repeated. -/
def execRefuse (w : List Byte) (s : State) : Host.Outcome State Fault Refusal :=
  s.recvMsg w msgRefuse (fun m s =>
    let seq := field m.body 0 8
    let status := field m.body 8 4
    let s := ((s.incF F.cntCntPairRefused).daily src.cnt 0x0405 [seq, status]).alertPair
    match s.cnt.out.find? fun (o : OutMsg) => o.seq = seq with
    | none => s
    | some o =>
      let s := s.modCnt fun c => { c with out := c.out.filter fun (o : OutMsg) => o.seq ≠ seq }
      let s := forEach (s.msgExtents o) s fun s e => s.markDirty e.1 e.2
      let ext := s.msgExtents o
      let s := s.modCnt fun c => { c with resync := c.resync.map fun (r : Resync) => { r with refused := ext ++ r.refused } }
      if o.type = msgSlate then s.setF F.cntStatusPeerReject 1
      else if o.type = msgConfig && field o.body 0 1 = 3 then
        let d := slice o.body 8 32
        match (s.imageOf d).bind fun i => sparseGet (fun _ => none) s.tsk.images i with
        | some (x : Script) => (s.mirrorImage d x.image).mirrorReg 3 d (field o.body 40 2) (field o.body 42 1)
        | none => s
      else if o.type = msgWrite then
        if s.onF F.cntCfgMode then s.deferredWrite o.nsid o.key (field o.body 0 8) (field o.body 8 4) 0x04
        else match o.key with
          | some k => s.mirrorFails k status
          | none => s
      else s)

/-- ACK_TIMEOUT (R493): no ACK for CNT_CFG.ACK_TIMEOUT while the link is up. -/
def execAckTimeout (s : State) : Host.Outcome State Fault Refusal :=
  match s.cnt.out with
  | m :: _ =>
    if s.mirrorUp && s.since (max m.sentAt s.cnt.ackAt) (s.getF F.cntCfgAckTimeout * 1000000) then
      done (s.separate 2)
    else done s
  | [] => done s

/-! ## Epochs, resync and reads through the double -/

/-- EPOCH_MESSAGE (R485, R498): a higher epoch makes the receiver DOUBLE, or with HANDOVER and both dirty
maps empty PRINCIPAL. A pair that still negotiates then has its principal. -/
def execEpochMessage (w : List Byte) (s : State) : Host.Outcome State Fault Refusal :=
  s.recvMsg w msgEpoch (fun m s =>
    let e := field m.body 0 4
    if e ≤ s.cnt.epoch then s
    else if bit (field m.body 4 4) 0 && !s.anyDirty then (s.setEpoch e).becomePrincipal
    else (s.adoptEpoch e).settlePair rolePrincipal)

/-- DIRTY (R501): the double's dirty extents join the set to be copied. -/
def execDirty (w : List Byte) (s : State) : Host.Outcome State Fault Refusal :=
  s.recvMsg w msgDirty (fun m s =>
    let l := (List.range (m.body.length / 8)).map fun i => (field m.body (8 * i) 4, field m.body (8 * i + 4) 4)
    let s := s.modCnt fun c => { c with peerDirty := c.peerDirty ++ l }
    if s.role = rolePrincipal && s.mirrorUp && (!l.isEmpty || (s.pairState = pairResync && s.cnt.resync.isNone)) then
      s.startResync
    else s)

/-- RESYNC_DATA (R501): as WRITE. -/
def execResyncData (w : List Byte) (s : State) : Host.Outcome State Fault Refusal :=
  s.applyOn w msgResyncData (fun m s => s.takeMsg m false)

/-- RESYNC_DONE (R502): the pass is over on the double; its own map is then clean. -/
def execResyncDone (w : List Byte) (s : State) : Host.Outcome State Fault Refusal :=
  s.applyOn w msgResyncDone (fun m s => s.takeMsg m false)

namespace State

/-- A command holds an exclusive range lock in the extent, or waits for one since before (R108, R109, R501). -/
def extentLocked (s : State) (nsid ext : Nat) : Bool := match s.ns nsid with
  | none => false
  | some n =>
    let per := 2 ^ 20 / n.block
    let r : LockRange := { ns := nsid, first := ext * per, count := per, excl := false }
    (s.host.cmds.any fun (c : Cmd) => (c.st = .executing || c.st = .lockWait) && c.ranges.any fun (x : LockRange) =>
        x.excl && rangesMeet x r)
      || ((s.mgt.tf.phase = .lock || s.mgt.tf.phase = .run) && s.mgt.tf.ranges.any fun (x : LockRange) =>
        x.excl && rangesMeet x r)

/-- What the principal sends for a unit: 0 data, 1 zeros, 2 unmapped; the blocks of a zone from its write
pointer on are unmapped. -/
def unitClass (s : State) (nsid unit : Nat) : Nat :=
  if s.isZoned nsid then match s.zoneBand nsid (unit / 65536) with
    | some b => if unit % 65536 < (s.band b).zwp then 0 else 2
    | none => 2
  else if s.unitHeld nsid unit then 0
  else
    let e := s.extent nsid (unit / 256)
    if e.st = .disk || (e.st ≠ .unalloc && s.mapOf nsid unit = mapZero) then 1 else 2

/-- Runs of units of one class other than data: class, first, number. -/
def classRuns (s : State) (nsid : Nat) (units : List Nat) : List (Nat × Nat × Nat) :=
  units.foldr (fun u l =>
    let k := s.unitClass nsid u
    match l with
    | (k', f, n) :: t => if k' = k && k ≠ 0 && f = u + 1 then (k, u, n + 1) :: t else (k, u, 1) :: l
    | [] => [(k, u, 1)]) []

/-- Sends a dirty extent (R501): RESYNC_DATA for each unit that holds data, MAP_DELTA for the other runs. A unit that the
media has lost has no data to send: DESIGN CHOICE, the spec does not say what becomes of it (log entry 182). -/
def sendExtent (s : State) (nsid ext : Nat) (lost : List Nat) : State := match s.ns nsid with
  | none => s
  | some n =>
    let per := 4096 / n.block
    let last := ceilDiv n.size per
    let units := ((List.range 256).map (ext * 256 + ·)).filter fun u => u < last && !lost.contains u
    forEach (s.classRuns nsid units) s fun s (k, u, c) =>
      if k = 0 then
        s.sendMsg msgResyncData nsid noTenant 0 (leBytes 8 (u * per) ++ leBytes 4 per ++ zeros 4 ++ s.unitData nsid u) none u
      else s.sendMsg msgMapDelta nsid noTenant 0
        (leBytes 4 (if k = 1 then 1 else 0) ++ leBytes 8 (u * per) ++ leBytes 4 (c * per)) none u

/-- The extent that the pass copies next: the lowest dirty one that it has not been refused. -/
def nextExtent (s : State) (r : Resync) : Option Nat :=
  (s.cnt.dirty.map (·.1)).find? fun k => !(r.refused.any fun e => extKey e.1 e.2 = k)

end State

namespace State

/-- A unit that the double is to get from the media: the shared lock over the extent is taken and its reads start, flash
reads in MEDIA cells (R501). -/
def lockExtent (s : State) (nsid ext : Nat) (r : Resync) : State := match s.ns nsid with
  | none => s.modCnt fun c => { c with resync := some { r with lock := some (nsid, ext) } }
  | some n =>
    let last := ceilDiv n.size (4096 / n.block)
    let units := ((List.range 256).map (ext * 256 + ·)).filter fun u => u < last && s.unitClass nsid u = 0
    (s.modCnt fun c => { c with resync := some { r with lock := some (nsid, ext) } }).readUnits .resync nsid units ownMedia
      noTenant 0

/-- RESYNC_DONE follows the last extent of a pass. -/
def passEnds (s : State) (r : Resync) : State :=
  if (s.nextExtent r).isSome then s
  else
    let seq := s.cnt.msgTx
    (s.sendMsg msgResyncDone 0 noTenant 0 (leBytes 4 r.copied) none 0).modCnt fun c =>
      { c with resync := some { r with doneSeq := some seq } }

/-- The reads of the locked extent have ended: it is sent, and the lock released. -/
def copyExtent (s : State) (nsid ext : Nat) (r : Resync) : State :=
  let s := (s.sendExtent nsid ext (s.lostUnits .resync 0)).forgetReads fun x => x.reader = .resync
  let r := { r with copied := r.copied + 1, lock := none }
  let s := s.modCnt fun c =>
    { c with dirty := sparsePut (fun _ => false) c.dirty (extKey nsid ext) false, resync := some r }
  let pct := min 10000 (10000 * r.copied / max 1 r.total)
  let blk := ((s.ns nsid).map fun (n : Namespace) => n.block).getD 4096
  let s := ((s.setF F.cntDirtyExtents s.cnt.dirty.length).setF F.cntResyncPctPct pct).setF F.cntResyncNsidNsid nsid
  (s.longOpProgress 2 pct (ext * 2 ^ 20 / blk)).passEnds r

end State

/-- RESYNC_EXTENT (R501, R502): the principal locks the lowest dirty extent and reads it; once no read is under way the
extent is sent. RESYNC_DONE follows the last one. -/
def execResyncExtent (nsid ext : Nat) (s : State) : Host.Outcome State Fault Refusal :=
  if s.role ≠ rolePrincipal || s.pairState ≠ pairResync then done s
  else match s.cnt.resync with
  | none => if s.cnt.passDue.isNone then done s.startResync else done s
  | some r =>
    if r.doneSeq.isSome then done s
    else match r.lock with
    | some (n, e) =>
      if n ≠ nsid || e ≠ ext || s.mediaWaits .resync 0 then done s else done (s.copyExtent nsid ext r)
    | none => match s.nextExtent r with
      | none => done (s.passEnds r)
      | some k => if k ≠ State.extKey nsid ext || s.extentLocked nsid ext then done s else done (s.lockExtent nsid ext r)

/-- RESYNC_PASS_TIMER (R502): the next pass starts 60 s after one with refused extents. -/
def execResyncPassTimer (s : State) : Host.Outcome State Fault Refusal :=
  match s.cnt.passDue with
  | some t => if t ≤ s.tick && s.role = rolePrincipal && s.mirrorUp then done s.startResync else done s
  | none => done s

/-- READ_REQ (R500): the double reads for the principal in MIRROR cells (R54), and answers with READ_DATA once its media
has given or lost every unit. -/
def execReadReq (w : List Byte) (s : State) : Host.Outcome State Fault Refusal :=
  s.applyOn w msgReadReq fun m s =>
    let lba := field m.body 0 8
    let count := field m.body 8 4
    let tag := field m.body 12 4
    let run := s.unitRun m.nsid lba count
    let units := (List.range run.2).map (run.1 + ·)
    let size := ((s.ns m.nsid).map (·.size)).getD 0
    let bad : Option Status :=
      if (s.ns m.nsid).isNone then some (0, 0x0B, 0)
      else if size < lba + count then some (0, 0x80, 0)
      else if (s.keyDenied m.nsid).isSome && units.any (s.unitHeld m.nsid) then some (7, 0xCE, 0)
      else none
    match bad with
    | some st => s.sendMsg msgReadData m.nsid m.tenant m.gen (leBytes 4 tag ++ leBytes 4 (State.statusWord st.1 st.2.1)) none 0
    | none =>
      let r : PairServe := { tag := tag, nsid := m.nsid, lba := lba, count := count, tenant := m.tenant, gen := m.gen }
      ((s.modCnt fun c => { c with serving := c.serving ++ [r] }).readUnits (.pair tag) m.nsid units ownMirror noTenant
        0).servePair tag

/-- READ_DATA (R500, R138): data for an older generation is discarded; else it is supplied under the original command's status rules once every unit of the
read has arrived: a host read completes, and a take's input gets its piece. -/
def execReadData (w : List Byte) (s : State) : Host.Outcome State Fault Refusal :=
  s.recvMsg w msgReadData (fun m s =>
    match s.cnt.reads.find? fun (r : PairRead) => r.tag = field m.body 0 4 with
    | none => s
    | some r =>
      if s.isStale (State.fnInst r.key.fn) r.gen then
        (s.modCnt fun c => { c with reads := c.reads.filter fun (x : PairRead) => x.tag ≠ r.tag }).staleResult
          (State.fnInst r.key.fn) r.gen
      else if field m.body 4 4 ≠ 0 then s.failReads fun (x : PairRead) => x.group = r.group
      else
        let reads := mapWhere s.cnt.reads (fun (x : PairRead) => x.tag = r.tag)
          fun (x : PairRead) => { x with data := some (m.body.drop 8) }
        let mine := reads.filter fun (x : PairRead) => x.group = r.group
        if mine.any fun (x : PairRead) => x.data.isNone then s.modCnt fun c => { c with reads := reads }
        else
          let s := s.modCnt fun c => { c with reads := reads.filter fun (x : PairRead) => x.group ≠ r.group }
          let data := (mine.map fun (x : PairRead) => x.data.getD []).flatten
          let lba := ((mine.head?).map (·.lba)).getD 0
          match s.ctxsOf r.key with
          | [] => s.endCmd r.key 0 0 0 0 data
          | h :: _ => match s.ctx h with
            | none => s
            | some x => match x.desc.ins.find? fun (g : TakeRange) =>
                g.kind = 0 && g.nsid = r.nsid && (s.nextPiece x g).1 = lba with
              | some g => if x.st = .running then s.stagePiece h g (data.take (s.nextPiece x g).2.2) else s
              | none => s)

/-! ## Heartbeats (R495, R496) -/

/-- HEARTBEAT_PULSE (R495): every 1 ms, in every mode; after an overlap with a partner pulse the next
one is delayed by a random 100–400 µs. -/
def execHeartbeatPulse (overlap : Bool) (s : State) : Host.Outcome State Fault Refusal :=
  if s.tick < s.cnt.pulseAt + 64000000 + s.cnt.pulseDelay then done s
  else
    let d := if overlap then 64 * (100000 + s.free % 300001) else 0
    let s := if overlap then s.drew else s
    done (s.modCnt fun c => { c with pulseAt := s.tick, pulseDelay := d })

/-- PARTNER_PULSE (R495): the line was low for `lowNs` while the own driver was released. -/
def execPartnerPulse (lowNs : Nat) (s : State) : Host.Outcome State Fault Refusal :=
  if lowNs < 5000 then done s
  else done ((s.setF F.cntStatusHbPresent 1).modCnt fun c => { c with partnerAt := some s.tick })

/-- HEARTBEAT_LOST (R495, R496): no partner pulse for CNT_HB.TIMEOUT; no role changes. -/
def execHeartbeatLost (s : State) : Host.Outcome State Fault Refusal :=
  match s.cnt.partnerAt with
  | none => done s
  | some t =>
    if s.onF F.cntStatusHbPresent && s.since t (s.getF F.cntHbTimeout * 1000000) then
      done ((((s.setF F.cntStatusHbPresent 0).setF F.cntStatusHbLost 1).daily src.cnt 0x0401
        [(decide (pairNegotiating ≤ s.pairState)).toNat]).alertPair)
    else done s

/-! ## Pair orders (R497) -/

namespace State

/-- A write of CNT_ORDER.OP: an order of the sequencer for the pair role; BUSY drops it. -/
def pairOrder (s : State) (path : Path) (op : Nat) : State :=
  match s.admitWrite path A.cntOrder with
  | (false, s) => s
  | (true, s) =>
    if s.onF F.cntOrderStatusBusy then s.setF F.cntOrderStatusResult 1
    else if s.inMode .safe || s.orderBarred (· ≠ .safe) then s.setF F.cntOrderStatusResult 3
    else (s.setF F.cntOrderStatusBusy 1).placeOrder (.pair op (s.getF F.cntOrderEpochEpoch)) true
      [.pairRole] 3 (pathSide path)

def endPairOrder (s : State) (r : Nat) : State :=
  (s.setF F.cntOrderStatusBusy 0).setF F.cntOrderStatusResult r

/-- A pair order that has won its window runs (Table 14.10, R499); Safe refuses it (Table 15.14). -/
def runPairOrder (s : State) (op epoch : Nat) : State :=
  if s.inMode .safe then s.endPairOrder 3
  else if op = 1 then
    if !s.onF F.cntCtrlLinkEn then s.endPairOrder 3
    else if epoch ≤ s.cnt.epoch then s.endPairOrder 2
    else
      let inSync := s.pairState = pairInSync
      let known := s.cnt.peerDirty.length
      let s := s.setEpoch epoch
      let s := if s.cnt.proven then
          s.sendMsg msgEpoch 0 noTenant 0 (leBytes 4 epoch ++ zeros 4) none 0
        else s
      let s := if inSync then s else s.pairEvent 0x0407 [known]
      let s := s.becomePrincipal
      (if s.cnt.proven then s.settlePair roleDouble else s).endPairOrder 0
  else if op = 2 then
    if s.role ≠ rolePrincipal || s.pairState ≠ pairInSync then s.endPairOrder 3
    else if epoch ≤ s.cnt.epoch then s.endPairOrder 2
    else (s.modCnt fun c => { c with order := some { op := 2, epoch := epoch } }).handoverStep
  else if s.role = rolePrincipal || s.role = roleFenced then
    ((s.dropPrincipal).setRole roleDouble).endPairOrder 0
  else s.endPairOrder 3

end State

/-- PROMOTE (Table 14.10). -/
def execPromote (path : Path) (s : State) : Host.Outcome State Fault Refusal := done (s.pairOrder path 1)

/-- HANDOVER (Table 14.10). -/
def execHandover (path : Path) (s : State) : Host.Outcome State Fault Refusal := done (s.pairOrder path 2)

/-- STEP_DOWN (Table 14.10). -/
def execStepDown (path : Path) (s : State) : Host.Outcome State Fault Refusal := done (s.pairOrder path 3)

end Sys2Proof.Machine
end

