-- ==== Sys2Proof/Machine/Mgmt.lean ====
section
/-! DEFINITION. The local bus and the task file of the always-on domain (R511–R516). -/

namespace Sys2Proof.Machine

/-! ## The local bus (R511–R513) -/

/-- A partner descriptor (Table 15.5), none where a field is illegal. -/
def lbDescOf (l : List Byte) : Option LbDesc :=
  let pid := field l 0 6
  let static := field l 6 1
  let kind := field l 7 1
  let len := field l 9 1
  let period := field l 10 2
  let staticOk := (8 ≤ static && static ≤ 0x77) || (static = 0 && pid ≠ 0)
  if l.length = 16 && staticOk && 1 ≤ kind && kind ≤ 4 && 1 ≤ len && len ≤ 4
      && (period = 0 || (10 ≤ period && period ≤ 60000)) && field l 14 1 < 4 && field l 15 1 = 0 then
    some { pid := pid, static := static, kind := kind, reg := field l 8 1, len := len, period := period,
           limit := signedOf 16 (field l 12 2), below := bit (field l 14 1) 0, required := bit (field l 14 1) 1 }
  else none

namespace State

/-- Takes the partner descriptors of the settings, at most 16: an illegal one is skipped and reported in the
dailies. -/
def loadLbDescs (s : State) (item : List Byte) : State :=
  let l := (List.range (min 16 (item.length / 16))).map fun i => lbDescOf (slice item (16 * i) 16)
  let s := forEach (l.zipIdx.filter fun e => e.1.isNone) s fun s e => s.dailyOpen src.mgt 1 [e.2]
  s.modMgt fun m => { m with lbDescs := l.filterMap id }

/-- The lowest dynamic address from 0x10 upward that no partner uses and no I2C descriptor names. -/
def lbFreeAddr (s : State) : Nat :=
  let used := (s.mgt.lbTable.filterMap fun e => e.2.map fun (x : LbPartner) => x.addr)
    ++ (s.mgt.lbDescs.filter fun (d : LbDesc) => d.pid = 0).map fun (d : LbDesc) => d.static
  ((List.range 0x68).find? fun i => !used.contains (0x10 + i)).getD 0 + 0x10

/-- The lowest free entry of the table. -/
def lbFreeEntry (s : State) : Option Nat := (List.range 16).find? fun p => (s.lbEntry p).isNone

/-- Enters a partner: an I3C one under a new dynamic address, matched to its descriptor by PID; an I2C one
under its static address. An unmatched I3C partner takes KIND 4 and is not polled (R511). -/
def lbJoin (s : State) (pid static : Nat) : State :=
  let d := s.mgt.lbDescs.findIdx? fun (d : LbDesc) => if pid = 0 then d.pid = 0 && d.static = static else d.pid = pid
  match s.lbFreeEntry with
  | none => s
  | some p =>
    s.setLbEntry p (some
      { pid := pid, addr := if pid = 0 then static else s.lbFreeAddr, i2c := decide (pid = 0),
        kind := ((d.bind fun i => s.mgt.lbDescs[i]?).map fun (d : LbDesc) => d.kind).getD 4,
        desc := d, naks := 0, value := 0, lastPoll := s.tick, ctrl := none })

end State

/-- LB_DISCOVERY (R511), after a rise of V3P3_AON or RESCAN: RSTDAA, ENTDAA, then SETDASA for partners with a static
address, then the I2C partners; the table is built anew. Partners that no descriptor names are found by ENTDAA only. -/
def execLbDiscovery (found : List LbFound) (s : State) : Host.Outcome State Fault Refusal :=
  if !(s.onF F.mgtLbCtrlRescan || s.mgt.lbFoundAt.isNone) then done s else
  let s := (s.setF F.mgtLbCtrlRescan 0).modMgt fun m => { m with lbTable := [], lbFoundAt := some s.tick, lbChecked := [] }
  if !s.onF F.mgtLbCtrlEn then done s
  else
    let dasa := fun (f : LbFound) => s.mgt.lbDescs.any fun (d : LbDesc) => d.pid = f.pid && d.static ≠ 0
    let i3c := found.filter fun f => f.pid ≠ 0
    let i2c := found.filter fun f => f.pid = 0 && s.mgt.lbDescs.any fun (d : LbDesc) => d.pid = 0 && d.static = f.static
    done (forEach ((i3c.filter fun f => !dasa f) ++ i3c.filter dasa ++ i2c) s fun s f => s.lbJoin f.pid f.static)

/-- LB_RESCAN (R511): RESCAN reads 1 until discovery has run. -/
def execLbRescan (path : Path) (s : State) : Host.Outcome State Fault Refusal :=
  match s.admitWrite path A.mgtLbCtrl with
  | (false, s) => done s
  | (true, s) => done (s.setF F.mgtLbCtrlRescan 1)

/-- LB_HOT_JOIN (R512): with the table full the request goes unanswered. -/
def execLbHotJoin (pid : Nat) (s : State) : Host.Outcome State Fault Refusal :=
  if !s.onF F.mgtLbCtrlEn || pid = 0 then done s
  else match s.lbFreeEntry with
  | none => done (s.incF F.mgtLbStatusHjIgnored)
  | some _ => done ((s.lbJoin pid 0).alertLbChange)

/-- LB_POLL (R512, R513): a reading beyond the limit raises LB_LIMIT, and HOLDUP_LOW for KIND 1; the third
consecutive NACK removes the partner. -/
def execLbPoll (entry : Nat) (acked : Bool) (reading : Int) (s : State) : Host.Outcome State Fault Refusal :=
  match s.lbEntry entry with
  | none => done s
  | some x => match x.desc.bind fun i => s.mgt.lbDescs[i]? with
    | none => done s
    | some d =>
      if !s.onF F.mgtLbCtrlEn || d.period = 0 || !s.since x.lastPoll (d.period * 1000000) then done s
      else if !acked then
        if 2 ≤ x.naks then done (s.lbLeave entry)
        else done (s.setLbEntry entry (some { x with naks := x.naks + 1, lastPoll := s.tick }))
      else
        let v := signedOf (8 * d.len) (unsignedOf (8 * d.len) reading)
        let s := s.setLbEntry entry (some { x with naks := 0, value := v, lastPoll := s.tick })
        let beyond : Bool := if d.below then v < d.limit else d.limit < v
        if !beyond then done s
        else if d.kind = 1 then done (s.alertLbLimit).alertHoldupLow
        else done s.alertLbLimit

/-- LB_REQUIRED_CHECK (R512): a REQUIRED partner that is absent 1 s after discovery. -/
def execLbRequiredCheck (desc : Nat) (s : State) : Host.Outcome State Fault Refusal :=
  match s.mgt.lbFoundAt, s.mgt.lbDescs[desc]? with
  | some t, some d =>
    if !d.required || s.mgt.lbChecked.contains desc || !s.since t 1000000000 then done s
    else
      let s := s.modMgt fun m => { m with lbChecked := m.lbChecked ++ [desc] }
      if s.mgt.lbTable.any fun e => match e.2 with
          | some (x : LbPartner) => x.desc = some desc
          | none => false
      then done s else done s.alertLbChange
  | _, _ => done s

/-! ## The task file (R514–R516) -/

namespace State

/-- Changes the task file. -/
def modTf (s : State) (g : TaskFile → TaskFile) : State := s.modMgt fun m => { m with tf := g m.tf }

def tfLba (s : State) : Nat := s.getF F.tfLbaLoLbaLo + 2 ^ 32 * s.getF F.tfLbaHiLbaHi

/-- Check 4 for a task-file command (Table 15.14). -/
def tfModeCheck (s : State) (op : Nat) : Option Status :=
  let m := s.mode
  if m = .dormant || m = .standby then some s.modeDenied
  else if (op = 3 || op = 4) && s.orderBarred (fun m => m ≠ .readOnly && m ≠ .safe) then some s.modeDenied
  else if op = 3 || op = 4 || op = 5 then
    if m = .safe then some s.modeDenied
    else if m = .readOnly then if s.getF F.pwrModeCause = 2 then some (7, 0xC1, 5) else some s.modeDenied
    else none
  else none

/-- Decode checks 2, 3, 4 and 6 of a task-file command (R515, R516), and the closed data path of a DOUBLE
(R486). -/
def tfCheck (s : State) (op : Nat) : Option Status :=
  let len := s.getF F.tfLengthBytes
  let count := s.getF F.tfCountBlocks
  let io := 2 ≤ op && op ≤ 5
  let moves := op = 2 || op = 3
  let n := s.ns (s.getF F.tfNsidNsid)
  if op = 0 || 6 < op then some (0, 0x01, 0)
  else if (moves && (65536 < len || (match n with
      | some n => decide (len ≠ count * n.block)
      | none => false))) || (op = 6 && 65536 < len) then some (0, 0x02, 0)
  else if op = 3 && s.getF F.tfReceivedBytes < len then some (7, 0xC5, 0)
  else if io && !s.nsAttachedTo (s.getF F.tfNsidNsid) 0 then some (0, 0x0B, 0)
  else if io && (s.roleClosed || (match n with
      | some n => n.notReady
      | none => false)) then some (0, 0x82, 0)
  else match s.tfModeCheck op with
  | some st => some st
  | none => match n with
    | some n => if io && op ≠ 5 && n.size < s.tfLba + count then some (0, 0x80, 0) else none
    | none => none

/-- GO in IDLE or DONE (R514): the command is decoded; a write waits for the order sequencer, a read for its
range lock. Bytes received beyond LENGTH are discarded (R515). -/
def tfGo (s : State) (path : Path) : State :=
  match s.admitWrite path A.tfCtrl with
  | (false, s) => s
  | (true, s) =>
    if s.getF F.tfStatusState = 1 then s
    else
      let op := s.getF F.tfCmdOp
      let bad := s.tfCheck op
      let extra := op = 3 && s.getF F.tfLengthBytes < s.getF F.tfReceivedBytes
      let s := ((s.setF F.tfStatusState 1).setF F.tfStatusMode 0).setF F.tfStatusSct 0
      let s := ((s.setF F.tfStatusSc 0).setF F.tfReceivedBytes 0).setFIf extra F.tfStatusExtra 1
      let s := (s.modTf fun t => { t with outBuf := [], result := [], sct := 0, sc := 0, mode := 0 }).breakIdle
      match bad with
      | some st => s.tfEnd st.1 st.2.1 []
      | none =>
        let nsid := s.getF F.tfNsidNsid
        let io := 2 ≤ op && op ≤ 4
        let r : LockRange := { ns := nsid, first := s.tfLba, count := s.getF F.tfCountBlocks, excl := op ≠ 2 }
        let s := s.modTf fun t => { t with phase := if op = 3 || op = 4 then .order else .lock
                                           ranges := if io then [r] else [], arrival := s.host.nextArrival }
        if op = 3 || op = 4 then s.placeOrder .taskFile false [.ns nsid] 3 .i3c
        else s.modHost fun h => { h with nextArrival := h.nextArrival + 1 }

/-- A GO write of a row acts where TF_CMD.OP names its command. -/
def tfCommand (s : State) (path : Path) (op : Nat) : State := if s.getF F.tfCmdOp = op then s.tfGo path else s

/-- A task-file order that won its window arrives at the range-lock table. -/
def runTaskFile (s : State) : State :=
  if s.mgt.tf.phase ≠ .order then s
  else (s.modTf fun t => { t with phase := .lock, arrival := s.host.nextArrival }).modHost fun h =>
    { h with nextArrival := h.nextArrival + 1 }

/-- A task-file order that lost its window (R528). -/
def loseTaskFile (s : State) : State := if s.mgt.tf.phase = .order then s.tfEnd 7 0xC6 [] else s

/-- The command's range lock is free: no earlier conflicting command is left, and an entry is free. -/
def tfLockFree (s : State) : Bool :=
  let t := s.mgt.tf
  t.ranges.isEmpty || (s.poolUsed + 1 ≤ s.poolSize
    && !(s.resyncLock.any fun y => t.ranges.any fun x => x.excl && rangesMeet x y)
    && !(s.host.cmds.any fun (c : Cmd) => (c.st = .lockWait || c.st = .executing) && c.arrival < t.arrival
        && c.ranges.any fun x => t.ranges.any fun y => rangesMeet x y && (x.excl || y.excl)))

/-- Writes the task file's data: the checks of any write before data moves, then the buffer, the mirror and the
zone (R42, R432, R492, R582). None where the buffer has no room. -/
def tfWrite (s : State) : Option State :=
  let nsid := s.getF F.tfNsidNsid
  let lba := s.tfLba
  let n := s.getF F.tfCountBlocks
  let q : Sqe := { opc := 0x01, nsid := nsid, cid := 0, fuse := 0, dw2 := 0, dw3 := 0, mptr := 0, psdt := 0, dw10 := lba % 2 ^ 32, dw11 := lba / 2 ^ 32,
                   dw12 := n - 1, dw13 := 0, dw14 := 0, dw15 := 0, prpOk := true, data := s.mgt.tf.inBuf }
  if n = 0 then some (s.tfEnd 0 0 [])
  else match (s.keyDenied nsid).or (s.pairDenied.or ((s.zoneDenied q).or (s.promoteDenied nsid lba n))) with
  | some st => some (s.tfEnd st.1 st.2.1 [])
  | none =>
    if !s.writeRoom nsid lba n then none
    else
      let data := fit (s.getF F.tfLengthBytes) s.mgt.tf.inBuf
      let run := s.unitRun nsid lba n
      let s := ((s.bufferWrite nsid lba n data tfKey 0).completeWrite tfKey).addHeat nsid run.1 run.2 4
      let s := if s.isZoned nsid then s.zoneWritten nsid lba n else s
      let sync := s.mirroring && !s.onF F.cntCfgMode
      let s := s.mirrorData (some tfKey) nsid lba n noTenant 0 data
      if sync then some (s.modTf fun t => { t with phase := .run }) else some (s.tfEnd 0 0 [])

/-- Writes zeros for the task file (R106). -/
def tfZero (s : State) : State :=
  let nsid := s.getF F.tfNsidNsid
  let lba := s.tfLba
  let n := s.getF F.tfCountBlocks
  if n = 0 then s.tfEnd 0 0 []
  else match s.pairDenied with
  | some st => s.tfEnd st.1 st.2.1 []
  | none =>
    if s.isZoned nsid then s.tfEnd 0 0x01 []
    else ((s.zeroBlocks nsid lba n tfKey 0).mirrorDelta 1 nsid lba n).tfEnd 0 0 []

/-- Cells of the task file's data (chapter 15): FIRMWARE traffic. -/
def tfNeeds (s : State) : List CellNeed :=
  let op := s.getF F.tfCmdOp
  let len := if op = 1 then 4096 else s.getF F.tfLengthBytes
  if op = 3 then s.dramNeeds ownFirmware (Config.bufferPlace 0) len true
  else if op = 1 || op = 2 || op = 6 then s.dramNeeds ownFirmware (Config.bufferPlace 2) len false
  else []

/-- The units of a task-file READ. -/
def tfUnits (s : State) : List Nat :=
  let run := s.unitRun (s.getF F.tfNsidNsid) s.tfLba (s.getF F.tfCountBlocks)
  (List.range run.2).map (run.1 + ·)

/-- A task-file READ goes to the media (R179, R432, R582): a missing key ends it, and its reads start. -/
def tfStartRead (s : State) : State :=
  let nsid := s.getF F.tfNsidNsid
  if s.getF F.tfCountBlocks = 0 then s.tfEnd 0 0 []
  else if (s.keyDenied nsid).isSome && s.tfUnits.any (s.unitHeld nsid) then s.tfEnd 7 0xCE []
  else (s.modTf fun t => { t with reading := true }).readUnits .taskFile nsid s.tfUnits ownFirmware noTenant 0

/-- The reads of a task-file READ have ended. -/
def tfEndRead (s : State) : State :=
  let nsid := s.getF F.tfNsidNsid
  let run := s.unitRun nsid s.tfLba (s.getF F.tfCountBlocks)
  if !(s.lostUnits .taskFile 0).isEmpty then s.tfEnd 2 0x81 []
  else (s.addHeat nsid run.1 run.2 4).tfEnd 0 0 (s.readBlocks nsid s.tfLba (s.getF F.tfCountBlocks))

/-- The media access or the data of the command, once its lock is free. -/
def tfPerform (s : State) : State :=
  let op := s.getF F.tfCmdOp
  let nsid := s.getF F.tfNsidNsid
  if op = 1 then match s.identifyData 0 nsid (s.getF F.tfArgArg) 0 0 with
    | .ok l => s.tfEnd 0 0 (fit 4096 l)
    | .error st => s.tfEnd st.1 st.2.1 []
  else if op = 2 then s.tfEndRead
  else if op = 3 then (s.tfWrite).getD s
  else if op = 4 then s.tfZero
  else if op = 5 then s.tfEnd 0 0 []
  else match s.logPage 0 nsid (s.getF F.tfArgArg) with
    | some l => s.tfEnd 0 0 (pageSlice (s.getF F.tfArgArg) l 0 (s.getF F.tfLengthBytes))
    | none => s.tfEnd 1 0x09 []

/-- The task file reaches DONE (R516). -/
def tfFinish (s : State) : State :=
  let t := s.mgt.tf
  let s := ((s.setF F.tfStatusState 2).setF F.tfStatusSct t.sct).setF F.tfStatusSc t.sc
  let s := (s.setF F.tfStatusMode t.mode).modTf fun t =>
    { t with phase := .idle, inBuf := [], outBuf := t.result, result := [], ranges := [], reading := false }
  (s.forgetReads fun r => r.reader = .taskFile).alertTfDone

end State

/-- TF_IDENTIFY (R514). -/
def execTfIdentify (path : Path) (s : State) : Host.Outcome State Fault Refusal := done (s.tfCommand path 1)

/-- TF_READ (R514, R515). -/
def execTfRead (path : Path) (s : State) : Host.Outcome State Fault Refusal := done (s.tfCommand path 2)

/-- TF_WRITE (R514, R515). -/
def execTfWrite (path : Path) (s : State) : Host.Outcome State Fault Refusal := done (s.tfCommand path 3)

/-- TF_WRITE_ZEROES (R514). -/
def execTfWriteZeroes (path : Path) (s : State) : Host.Outcome State Fault Refusal := done (s.tfCommand path 4)

/-- TF_FLUSH (R514). -/
def execTfFlush (path : Path) (s : State) : Host.Outcome State Fault Refusal := done (s.tfCommand path 5)

/-- TF_GET_LOG (R514). -/
def execTfGetLog (path : Path) (s : State) : Host.Outcome State Fault Refusal := done (s.tfCommand path 6)

/-- TF_ABORT (R516): a command that has not begun its media access is caught. -/
def execTfAbort (path : Path) (s : State) : Host.Outcome State Fault Refusal :=
  match s.admitWrite path A.tfCtrl with
  | (false, s) => done s
  | (true, s) =>
    if (s.mgt.tf.phase = .order || s.mgt.tf.phase = .lock) && !s.mgt.tf.reading then done (s.tfEnd 0 0x07 []) else done s

/-- TF_DATA_ACCESS (R514–R516): four bytes of the buffer; the buffer keeps the first 65,536 received. -/
def execTfDataAccess (path : Path) (wr : Option Word) (s : State) : Host.Outcome State Fault Refusal :=
  match s.admitWrite path A.tfData with
  | (false, s) => done s
  | (true, s) => match wr with
    | some v =>
      if s.getF F.tfStatusState = 1 then done (s.setF F.tfStatusDropped 1)
      else done ((s.addF F.tfReceivedBytes 4).modTf fun t => { t with inBuf := (t.inBuf ++ leBytes 4 v.toNat).take 65536 })
    | none =>
      let l := s.mgt.tf.outBuf
      let s := s.busData (field l 0 4)
      if l.isEmpty then done (s.setF F.tfStatusOverread 1)
      else done (s.modTf fun t => { t with outBuf := l.drop 4 })

namespace State

/-- The step of a task-file command that has no more access to make: a mirrored write in SYNC mode waits for the double
(R489), and a final status makes it DONE. -/
def tfSettle (s : State) : State :=
  let acked := !(s.cnt.out.any fun (m : OutMsg) => m.key = some tfKey)
  let s := if s.mgt.tf.phase = .run && acked then s.tfEnd 0 0 [] else s
  if s.mgt.tf.phase = .ended then s.tfFinish else s

end State

/-- TF_COMMAND_DONE (R514, R516): once the lock is free a READ starts its media reads; the command then makes its access
with the cells of its data, and it reaches DONE with its status. -/
def execTfCommandDone (s : State) : Host.Outcome State Fault Refusal :=
  let t := s.mgt.tf
  if t.phase ≠ .lock || !s.tfLockFree then done s.tfSettle
  else if s.getF F.tfCmdOp = 2 && !t.reading then done s.tfStartRead.tfSettle
  else if s.mediaWaits .taskFile 0 then done s
  else s.moving s.tfNeeds fun s => done s.tfPerform.tfSettle

end Sys2Proof.Machine
end

