-- ==== Sys2Proof/Machine/Modes.lean ====
section
/-! DEFINITION. Modes and orders: the mode transitions of Table 15.10, PWRDIS (R518, R623), the idle policy
(R523–R525) and the order sequencer (R526–R529). -/

namespace Sys2Proof.Machine

namespace State

/-! ## Conditions on the machine -/

/-- Commands that a mode entry waits for: those past decode; a held Asynchronous Event Request never ends by
itself. -/
def openCmds (s : State) : List Cmd := s.host.cmds.filter fun (c : Cmd) =>
  c.st ≠ .posted && c.st ≠ .discarded && !(c.sqe.opc = 0x0C && c.key.sq = 0)

/-- A command of an I/O queue, a Take Submit included. -/
def ioCmd (c : Cmd) : Bool := c.key.sq ≠ 0

/-- Handles of the contexts out of FREE. -/
def liveTakes (s : State) : List Nat := (s.tsk.ctxs.filter fun e => match e.2 with
  | some (x : Ctx) => x.st ≠ .free
  | none => false).map (·.1)

/-- A context of a take that has begun its commit. -/
def commits (s : State) (h : Nat) : Bool := match s.ctx h with
  | some x => x.st = .committing
  | none => false

/-- The task file has a command in BUSY. -/
def tfBusy (s : State) : Bool := s.getF F.tfStatusState = 1

/-- The device is idle (R523). -/
def isIdle (s : State) : Bool :=
  (s.host.ctrls.all fun e => e.2.sqs.all fun q => !s.queueFilled e.1 q.1)
    && (s.openCmds.all fun c => c.st = .fetched) && s.liveTakes.isEmpty && !s.tfBusy
    && s.pwr.window.isEmpty && s.cnt.order.isNone && s.pwr.trans.isNone && s.pwr.starting.isNone

/-- Nothing of a command, a take or the task file is left. -/
def drained (s : State) : Bool := s.openCmds.isEmpty && s.liveTakes.isEmpty && !s.tfBusy

/-- Every journal record is durable. -/
def journalDurable (s : State) : Bool := s.ftl.tail.isEmpty && s.ftl.cws.isEmpty && s.ftl.deallocs.isEmpty

/-- The instance is QUIESCED, CONFIGURED or DISABLED. -/
def instQuiet (s : State) (n : Nat) : Bool := s.instSt n = 0 || s.instSt n = 1 || s.instSt n = 5

/-- Every instance that owns memory in rank 1 is quiet (R144). -/
def rank1Quiet (s : State) : Bool := s.configured.all fun n => s.instQuiet n || !s.inRank1 n

/-- Every actuator is PARKED or OFFLINE. -/
def headsParked (s : State) : Bool := [0, 1].all fun a => s.actState a = 0 || s.actState a = 8

/-- The spindle is stopped: STOPPED, COAST or FAULT. -/
def spinStopped (s : State) : Bool := s.spinState = 0 || s.spinState = 8 || s.spinState = 9

/-- The disk cannot come up: no loop table, a spindle FAULT, or no actuator left. -/
def diskGone (s : State) : Bool :=
  !s.onF F.srvStatusTableValid || s.spinState = 9 || [0, 1].all fun a => s.actState a = 8

/-- The disk tier is ready (Table 08.13 step 8), or cannot become so. -/
def diskUp (s : State) : Bool :=
  s.diskGone || (s.spinState = 5 && [0, 1].all fun a => (3 ≤ s.actState a && s.actState a ≤ 5) || s.actState a = 8)

/-- A tiered extent is in state DISK, or a zoned-disk namespace exists (R524, R573). -/
def diskData (s : State) : Bool :=
  !(s.nsidsOf (· = .zoned)).isEmpty || s.ftl.extents.any fun e => e.2.st = .disk

/-! ## The end of a mode order -/

/-- An order written to PWR_MODE_CMD ends: 0 OK, 1 BUSY, 2 NOT_ALLOWED, 3 PREEMPTED, 4 NOT_QUIESCED
(Table 15.15). -/
def endModeOrder (s : State) (reg : Bool) (r : Nat) : State :=
  if reg && s.onF F.pwrModeStatusBusy then (s.setF F.pwrModeStatusBusy 0).setF F.pwrModeStatusResult r else s

/-- The device is in a new mode: what the old mode allowed ends (R310, R580), WP_n follows the mode (Table 05.2), and
a double holds or applies messages (R493). -/
def newMode (s : State) (m : Mode) (cause : Nat) : State :=
  let s := ((s.enterMode m cause).selfTestModeCheck).tuneModeCheck
  let s := s.modFch fun f => { f with wpHigh := s.logicOn && !s.pwr.failing && m ≠ .dormant && m ≠ .standby }
  if s.role = roleDouble then s.setHold (m = .service || m = .safe || m = .standby || m = .dormant) else s

/-! ## Entry to Safe (Table 15.10) -/

/-- A take at entry to Safe: it stops without completion; of a commit, the writes that are complete stay
(R622). -/
def safeTake (s : State) (h : Nat) : State :=
  match s.ctx h with
  | none => s
  | some x =>
    let s := if x.st = .committing then s.modTenant x.tenant fun t => { t with commits := t.commits - 1 }
      else (s.stopTasks h).releaseTake h
    ((s.freeCtx h).releaseBuffer x.key).dropCmd x.key

/-- Takes, commands and long operations end at entry to Safe (Table 15.10, R529, R622). -/
def safeEnds (s : State) : State :=
  let s := s.cutWipes
  let s := forEach s.liveTakes s safeTake
  let s := s.endAll (fun (c : Cmd) => c.st ≠ .completing) 0 0x82
  let s := if s.tfBusy && s.mgt.tf.phase ≠ .ended then s.tfEnd 0 0x82 [] else s
  (s.endVerifyAll 0 0x06).cutResync

/-- What entry to Safe does at once: the path is fenced, all work ends, the buffer is dumped unless a tamper
zeroed it (R442), and the disk goes down. -/
def enterSafe (s : State) (cause : Nat) : State :=
  if !s.logicOn then s.spinTo false
  else
    let s := (s.closePath).safeEnds
    (if cause = 2 then s else s.startDump).spinTo false

/-! ## Starting a transition -/

/-- What the entry rules of the target do at once (Table 15.10). -/
def beginEntry (s : State) (target : Mode) (cause : Nat) : State := match target with
  | .safe => s.enterSafe cause
  | .service => if s.inMode .safe then s.reloadDump else s.closePath
  | .doze => s.spinTo false
  | .ready => if s.inMode .dormant || s.inMode .standby then s else s.spinTo true
  | .readOnly => s.spinTo true
  | .dormant | .standby | .active => s

/-- A mode transition begins: PWR_MODE.CHANGING is 1 (R520). -/
def beginTrans (s : State) (t : Transition) : State :=
  ((s.modPwr fun p => { p with trans := some t, idleSince := none }).setF F.pwrModeChanging 1).beginEntry t.target t.cause

/-- The mode order is allowed from the present mode (Tables 15.10 and 15.15); Dormant and Standby take only
wake orders and Dormant, and the device's own order to Safe (R530). -/
def modeAllowed (s : State) (target : Mode) (leave : Bool) (side : Side) : Bool :=
  let m := s.mode
  let cause := s.getF F.pwrModeCause
  if leave then
    m = .service || (m = .readOnly && (cause = 1 || s.getF F.ftlSpareFloorBlocks < s.sparePool))
  else match target with
  | .dormant => m ≠ .safe
  | .standby => m = .doze || m = .ready || m = .active
  | .doze => m = .ready || m = .active
  | .ready | .active => m = .dormant || m = .standby || m = .doze
  | .readOnly => m = .doze || m = .ready || m = .active
  | .service => m = .doze || m = .ready || m = .active || m = .readOnly ||
      (m = .safe && side = .i3c && (cause = 1 || cause = 2 ||
        (cause = 4 && (List.range 3).all fun i => s.sensorNow i ≤ (sensorTrip i - 10) * 16)))
  | .safe => (m ≠ .dormant && m ≠ .standby) || side = .device

/-- Precedence of a running transition (R527, R529). -/
def Transition.prec (t : Transition) : Nat := if t.leave then 3 else modePrec t.target

/-- A mode order that has won its window meets no running transition (R520, R531). -/
def startMode (s : State) (target : Mode) (leave : Bool) (cause : Nat) (reg : Bool) (side : Side) : State :=
  let target := if target = .active then .ready else target
  if !leave && (s.inMode target || (target = .ready && s.inMode .active)) then s.endModeOrder reg 0
  else if target = .ready && s.pwr.pwrdis then s.endModeOrder reg 2
  else if !s.modeAllowed target leave side then s.endModeOrder reg 2
  else if target = .dormant && !(s.configured.all s.instQuiet) then s.endModeOrder reg 4
  else s.beginTrans { target := target, cause := cause, start := s.tick, side := side, reg := reg, leave := leave,
                      pwrdis := false, idle := false, drained := false }

/-- A mode order that has won its window: it takes over a running transition of lower precedence, and ends
with BUSY during any other (R529). The power-down by PWRDIS yields to Safe alone and goes on after it
(R623). -/
def applyMode (s : State) (target : Mode) (leave : Bool) (cause : Nat) (reg : Bool) (side : Side) : State :=
  let s := s.abandonIdle
  let prec := if leave then 3 else modePrec target
  match s.pwr.trans with
  | some t =>
    if (if t.pwrdis then target = .safe && !leave else decide (prec < Transition.prec t)) then
      let s := (s.endModeOrder t.reg 3).modPwr fun p =>
        { p with trans := none, pwrdisWait := p.pwrdisWait || t.pwrdis }
      (s.setF F.pwrModeChanging (if s.pwr.starting.isSome then 1 else 0)).startMode target leave cause reg side
    else s.endModeOrder reg 1
  | none =>
    if s.pwr.starting.isSome && !(target = .safe && !leave) then s.endModeOrder reg 1
    else s.startMode target leave cause reg side

/-- The power-down to Dormant by PWRDIS begins (Table 15.8); tenants not QUIESCED then get a new generation at
the next start (R570). -/
def beginPowerDown (s : State) : State :=
  let open_ := s.configured.filter fun n => s.instSt n = 3 || s.instSt n = 4
  (s.modPwr fun p => { p with notQuiesced := open_, pwrdisWait := false }).beginTrans
    { target := .dormant, cause := 1, start := s.tick, side := .device, reg := false, leave := false,
      pwrdis := true, idle := false, drained := false }

/-- PWRDIS has won its window (R623): it takes over any transition but one to Safe, which it waits for, and
waits for the end of a start. -/
def applyPowerDown (s : State) : State :=
  let s := s.abandonIdle
  match s.pwr.trans with
  | some t =>
    if t.pwrdis then s
    else if t.target = .safe then s.modPwr fun p => { p with pwrdisWait := true }
    else if s.inMode .dormant && s.pwr.starting.isNone then
      ((s.endModeOrder t.reg 3).modPwr fun p => { p with trans := none }).setF F.pwrModeChanging 0
    else if s.pwr.starting.isSome then s.modPwr fun p => { p with pwrdisWait := true }
    else (s.endModeOrder t.reg 3).beginPowerDown
  | none =>
    if s.pwr.starting.isSome then s.modPwr fun p => { p with pwrdisWait := true }
    else if s.inMode .dormant then s
    else s.beginPowerDown

/-! ## The order sequencer -/

/-- The same mode order (R527). -/
def sameMode (a b : OrderOp) : Bool := match a, b with
  | .mode t l _ _, .mode t' l' _ _ => t = t' && l = l'
  | .powerDown, .powerDown => true
  | _, _ => false

/-- An order of the mode. -/
def OrderOp.isMode : OrderOp → Bool
  | .mode _ _ _ _ => true
  | .powerDown => true
  | _ => false

/-- Two orders of one window contradict (R527). -/
def contradict (a b : Order) : Bool :=
  if OrderOp.isMode a.op || OrderOp.isMode b.op then !sameMode a.op b.op
  else a.targets.any fun t => b.targets.contains t

/-- The orders linked to some of a list by contradiction, directly or through others; `n` bounds the links. -/
def linked (l : List Order) : Nat → List Order → List Order
  | 0, acc => acc
  | n + 1, acc => linked l n (l.filter fun o => acc.contains o || acc.any (contradict o))

/-- Place of a side among orders of one precedence (R527, key 2). -/
def sideRank (mgmt : Bool) : Side → Nat
  | .device => 0
  | .i3c => if mgmt then 1 else 2
  | .nvme => if mgmt then 2 else 1
  | .partner => 3

/-- Place by precedence; PWRDIS yields to Safe alone (R623). -/
def precRank (o : Order) : Nat := if o.op = .powerDown then 1 else 2 * o.prec

/-- Rank of an order in its contention set, as the three keys of R527. -/
def orderRank (l : List Order) (o : Order) : Nat × Nat × Nat :=
  (precRank o, sideRank ((linked l l.length [o]).any (·.mgmt)) o.side, o.arrival)

/-- Comes before, key by key. -/
def rankBefore (a b : Nat × Nat × Nat) : Bool :=
  a.1 < b.1 || (a.1 = b.1 && (a.2.1 < b.2.1 || (a.2.1 = b.2.1 && a.2.2 < b.2.2)))

/-- Places an entry in a ranked list, after its equals. -/
def insertRank {α : Type} (x : (Nat × Nat × Nat) × α) : List ((Nat × Nat × Nat) × α) → List ((Nat × Nat × Nat) × α)
  | [] => [x]
  | y :: t => if rankBefore x.1 y.1 then x :: y :: t else y :: insertRank x t

/-- The orders of a window in rank order. -/
def ranked (l : List Order) : List Order :=
  ((l.map fun o => (orderRank l o, o)).foldl (fun m x => insertRank x m) []).map (·.2)

/-- Takes orders in rank order: winners, and losers with the first winner they contradict (R527). Identical
mode orders merge into the first. -/
def decide_ : List Order → List Order → List (Order × Order) → List Order × List (Order × Order)
  | [], w, l => (w, l)
  | o :: t, w, l =>
    match w.find? (contradict o) with
    | some x => decide_ t w (l ++ [(o, x)])
    | none =>
      if w.any fun x => sameMode x.op o.op then
        let join := fun (x : Order) => match x.op, o.op with
          | .mode g v c r, .mode _ _ _ r' => if sameMode x.op o.op then { x with op := .mode g v c (r || r') } else x
          | _, _ => x
        decide_ t (w.map join) l
      else decide_ t (w ++ [o]) l

/-- Completion dword 0 of PREEMPTED_BY_ORDER: the winner's precedence and side (Table 03.12). -/
def preemptDword (w : Order) : Nat :=
  w.prec + 4 * match w.side with
    | .nvme => 0
    | .i3c => 1
    | .partner => 2
    | .device => 3

/-- A losing order changes nothing and is reported (R528). -/
def loseOrder (s : State) (o w : Order) : State := match o.op with
  | .mode _ _ _ reg => s.endModeOrder reg 3
  | .powerDown => s.modPwr fun p => { p with pwrdisWait := true }
  | .key _ _ _ _ => s.keyResult keyPreempted
  | .firmware _ _ => s.endCommit none updPreempted
  | .pair _ _ => s.endPairOrder 4
  | .nvme key =>
    let slate : Bool := match s.cmd? key with
      | some c => c.sqe.opc = 0xC1
      | none => false
    (if slate then s.noteOrderResult 1 else s).fail key (7, 0xC6, preemptDword w)
  | .slate _ => s.loseSlateOrder
  | .taskFile => s.loseTaskFile
  | .partnerMsg seq => s.losePartner seq

/-- An NVMe command whose order has won runs; one that has ended meanwhile changes nothing. -/
def runNvme (s : State) (key : CmdKey) : State :=
  match s.cmd? key with
  | none => s
  | some c =>
    let o := c.sqe.opc
    if c.st ≠ .executing then s
    else if o = 0x0D then (if c.sqe.dw10 % 16 = 1 then s.runDelete c else s.runCreate c)
    else if o = 0x15 then s.runAttach c
    else if o = 0x80 then s.runFormat c
    else if o = 0x84 then s.runSanitize c
    else if o = 0x10 then s.runFwCommit c
    else if o = 0xC1 then s.runSlateLoad c
    else if o = 0xD0 then s.runConfigure c
    else if o = 0xD1 then s.runRead c
    else if o = 0xD2 then s.runEnable c
    else if o = 0xD3 then s.runDisable c
    else if o = 0xD4 then s.runReset c
    else if o = 0xD5 then s.runRateSet c
    else if o = 0xD6 then s.runQuiesce c
    else s.runResume c

/-- A winning order is applied. -/
def applyOrder (s : State) (o : Order) : State := match o.op with
  | .mode target leave cause reg => s.applyMode target leave cause reg o.side
  | .powerDown => s.applyPowerDown
  | .key op cls wrap slot => s.runKeyCmd o.side op cls wrap slot
  | .firmware action slot => s.runCommit none action slot
  | .pair op epoch => s.runPairOrder op epoch
  | .nvme key => s.runNvme key
  | .slate _ => s.runSlateOrder none
  | .taskFile => s.runTaskFile
  | .partnerMsg seq => s.runPartner seq

/-- Number of the window that a timecode lies in: 1 µs, or one always-on tick while that domain keeps the
timecode (R527). -/
def windowOf (s : State) (t : Nat) : Nat := if s.fab.logicKeeps then t / 64000 else t / 1953125

/-- Places an order in arrival order. -/
def insertArrival (o : Order) : List Order → List Order
  | [] => [o]
  | y :: t => if o.arrival < y.arrival then o :: y :: t else y :: insertArrival o t

/-- The first window that holds orders closes once its time has passed (R527, R528): losers are reported, winners are
applied in arrival order. -/
def closeWindow (s : State) : State :=
  match s.pwr.window with
  | [] => s
  | o :: _ =>
    let k := s.windowOf o.arrival
    if s.windowOf s.tick ≤ k then s else
    let now_ := s.pwr.window.filter fun (x : Order) => s.windowOf x.arrival = k
    let s := s.modPwr fun p => { p with window := p.window.filter fun (x : Order) => s.windowOf x.arrival ≠ k }
    let r := decide_ (ranked now_) [] []
    let s := forEach r.2 s fun s e => s.loseOrder e.1 e.2
    forEach (r.1.foldl (fun l o => insertArrival o l) []) s applyOrder

/-! ## The disk for a mode (R303, R573) -/

/-- Brings the disk one action further toward what the mode asks of it. -/
def diskFollow (s : State) : State := match s.pwr.spin with
  | none => s
  | some true =>
    if s.diskUp then s.modPwr fun p => { p with spin := none }
    else if s.spinState = 0 then s.startSpin
    else if s.spinState = 5 then forEach [0, 1] s fun s a => if s.actState a = 0 then s.loadAct a else s
    else s
  | some false =>
    if s.headsParked then
      if s.spinStopped then s.modPwr fun p => { p with spin := none }
      else if s.spinState ≤ 5 then s.setSpin 6
      else s
    else forEach [0, 1] s fun s a => if s.wedgeRuns a && !(s.diskAct a).gate then s.unloadAct a else s

/-- Data that a command reads may lie on the disk. -/
def onDisk (s : State) (nsid first count : Nat) : Bool := match s.ns nsid with
  | some n => n.type = .zoned || (n.type = .tiered &&
      let u := s.unitRun nsid first count
      (List.range (u.2 / 256 + 2)).any fun i => (s.extent nsid (u.1 / 256 + i)).st = .disk)
  | none => false

/-- Something in Doze calls for the disk (R522, R573): a command in EXECUTING, an input of a running take, a
zoned unit due for its flush, or a demotion. -/
def wantsDisk (s : State) : Bool :=
  let cmds := s.host.cmds.any fun (c : Cmd) =>
    c.st = .executing && c.key.sq ≠ 0 && (c.sqe.opc = 0x02 || c.sqe.opc = 0x0C || c.sqe.opc = 0x79)
      && s.onDisk c.sqe.nsid c.sqe.lba c.sqe.blocks
  let takes := s.liveTakes.any fun h => match s.ctx h with
    | some x => x.st = .running && x.desc.ins.any fun (r : TakeRange) => r.kind = 0 && s.onDisk r.nsid r.addr r.span
    | none => false
  let flush := s.ftl.wb.any fun (e : WbEntry) => e.complete && e.mapped.isNone && s.isZoned e.nsid
    && (s.getF F.ftlWbEff * 64 ≤ 4 * s.ftl.wb.length || s.since e.age 100000000)
  cmds || takes || flush || s.onF F.ftlStatusEvacActive || s.tieredBelow (s.getF F.ftlMigrateCfgLow)

/-- In Doze, need of the disk starts the move to Ready (R522). -/
def dozeWake (s : State) : State :=
  if s.inMode .doze && s.pwr.trans.isNone && s.pwr.starting.isNone && s.wantsDisk && !s.diskGone then
    s.beginTrans { target := .ready, cause := 0, start := s.tick, side := .device, reg := false, leave := false,
                   pwrdis := false, idle := false, drained := false }
  else s

/-- A running transition takes its next step: at entry to Dormant or Standby the disk goes down once the
buffer is empty. -/
def transStep (s : State) : State := match s.pwr.trans with
  | some t =>
    if (t.target = .dormant || t.target = .standby) && s.logicOn && s.drained
        && (s.ftl.wb.isEmpty || s.ftl.dump.isSome) && s.pwr.spin ≠ some false && !(s.headsParked && s.spinStopped) then
      s.spinTo false
    else s
  | none => s

/-! ## One second after a mode entry began (Table 15.10) -/

/-- A take that has not begun its commit is stopped and its Take Submit ends with a status. -/
def cutTake (s : State) (st : Status) (h : Nat) : State := if s.commits h then s else s.endTake h st

/-- The limit of one second ends what is left. -/
def drainLimit (s : State) (t : Transition) : State :=
  let s := s.modPwr fun p => { p with trans := some { t with drained := true } }
  if t.target = .service then
    forEach (s.liveTakes.filter fun h => !s.commits h) s fun s h => match s.ctx h with
      | some x => (s.cancelTake h).fail x.key (0, 0x07, 0)
      | none => s
  else
    let s := forEach s.liveTakes s (cutTake · (0, 0x82, 0) ·)
    let left := s.openCmds.filter fun (c : Cmd) => !((s.ctxsOf c.key).any s.commits) && c.st ≠ .completing
    let s := forEach left s fun s c => s.fail c.key (0, 0x82, 0)
    if s.tfBusy && s.mgt.tf.phase ≠ .ended then s.tfEnd 0 0x82 [] else s

/-! ## The idle policy (R524) -/

/-- The deepest target that fits PWR_WAKE_BUDGET; the flag says that Standby was chosen but prevented. -/
def idleTarget (s : State) (linkOk : Bool) : Mode × Bool :=
  let d := if s.diskData then 15000000 else 0
  let us := s.getF F.pwrWakeBudgetUs
  let shallow := if 2 + d ≤ us then Mode.doze else Mode.ready
  if 30000 + d ≤ us then
    if s.rank1Quiet && s.ftl.wb.isEmpty && s.journalDurable && linkOk then (.standby, false) else (shallow, true)
  else (shallow, false)

/-- An idle transition to a target. -/
def beginIdle (s : State) (m : Mode) : State :=
  s.beginTrans { target := m, cause := 0, start := s.tick, side := .device, reg := false, leave := false,
                 pwrdis := false, idle := true, drained := false }

/-- A write of PWR_MODE_CMD (Table 15.15): with PWRDIS high it changes nothing and reads NOT_ALLOWED (R518);
otherwise the order takes its place in the window (R527). -/
def modeOrder (s : State) (path : Path) (value : Nat) (target : Mode) (leave : Bool) : State :=
  s.regAction path A.pwrModeCmd (BitVec.ofNat 32 value) fun s =>
    if s.pwr.pwrdis then s.setF F.pwrModeStatusResult 2
    else (s.setF F.pwrModeStatusBusy 1).placeOrder (.mode target leave 1 true) true [.mode]
      (if leave then 3 else modePrec target) (pathSide path)

/-- A level on a filtered pin is taken (R517): never below the first time, always from the second on, and
freely between (log entry 183). -/
def pinTaken (s : State) (held never always : Nat) : Bool :=
  always ≤ held || (never ≤ held && bit s.free 0)

/-- The wake that follows a release of PWRDIS begins once the device is in Dormant (R518). -/
def releaseWake (s : State) : State :=
  if !s.pwr.pwrdis && s.inMode .dormant && s.pwr.trans.isNone && s.pwr.starting.isNone then
    s.beginTrans { target := .ready, cause := 1, start := s.tick, side := .device, reg := false, leave := false,
                   pwrdis := false, idle := false, drained := false }
  else s

/-! ## Output pins (R517, Table 15.7) -/

/-- ALERT_N is low: an alert bit enabled in MGT_ALERT_EN is set (R517, R532). -/
def alertPin (s : State) : Bool := s.reg A.mgtAlertStatus &&& s.reg A.mgtAlertEn ≠ 0

/-- There is host or task-file I/O. -/
def ioRuns (s : State) : Bool := s.tfBusy || s.host.cmds.any fun c => ioCmd c && c.st ≠ .posted && c.st ≠ .discarded

/-- ACT_LED is on now. Which part of a period is the lit one, and where periods begin, is open: they begin with the
timecode, lit part first, but for the blink of I/O, which is dark first (log entry 185). -/
def actLed (s : State) : Bool :=
  let ms := s.tick / 64000000
  match s.mode with
  | .dormant | .standby => false
  | .doze | .ready | .active => !(s.ioRuns && ms % 100 < 50)
  | .readOnly => ms % 1000 < 900
  | .service => ms % 1000 < 500
  | .safe => ms % 250 < 125

end State

/-! ## Commands -/

/-- WAKE_N (R517, Table 15.7): a wake order to Ready from Dormant, Standby or Doze; ignored in other modes and
while PWRDIS is high (R518). -/
def execWakeN (heldNs : Nat) (s : State) : Host.Outcome State Fault Refusal :=
  let taken := s.pinTaken heldNs 2000 10000
  let s := s.drew
  let m := s.mode
  if taken && !s.pwr.pwrdis && (m = .dormant || m = .standby || m = .doze) then
    done (s.placeMode .ready false 1 .device)
  else done s

/-- PWRDIS_ASSERT (R518, R623): an orderly power-down is placed in the sequencer. -/
def execPwrdisAssert (heldNs : Nat) (s : State) : Host.Outcome State Fault Refusal :=
  let taken := s.pinTaken heldNs 50000 100000
  let s := s.drew
  if taken && !s.pwr.pwrdis then
    done ((s.modPwr fun p => { p with pwrdis := true }).placeOrder .powerDown true [.mode] 3 .device)
  else done s

/-- PWRDIS_RELEASE (R518): the device starts as from Dormant to Ready, at once or when the power-down has
ended. -/
def execPwrdisRelease (heldNs : Nat) (s : State) : Host.Outcome State Fault Refusal :=
  let taken := s.pinTaken heldNs 50000 100000
  let s := s.drew
  if taken && s.pwr.pwrdis then done ((s.modPwr fun p => { p with pwrdis := false }).releaseWake) else done s

/-- MODE_ORDER_DORMANT (R520): target 0. -/
def execModeOrderDormant (path : Path) (s : State) : Host.Outcome State Fault Refusal :=
  done (s.modeOrder path 0 .dormant false)

/-- MODE_ORDER_STANDBY (R520): target 1. -/
def execModeOrderStandby (path : Path) (s : State) : Host.Outcome State Fault Refusal :=
  done (s.modeOrder path 1 .standby false)

/-- MODE_ORDER_DOZE (R520): target 2. -/
def execModeOrderDoze (path : Path) (s : State) : Host.Outcome State Fault Refusal :=
  done (s.modeOrder path 2 .doze false)

/-- MODE_ORDER_READY (R520): target 3; target 4 acts as 3. -/
def execModeOrderReady (path : Path) (s : State) : Host.Outcome State Fault Refusal :=
  done (s.modeOrder path 3 .ready false)

/-- MODE_ORDER_READ_ONLY (R520): target 5. -/
def execModeOrderReadOnly (path : Path) (s : State) : Host.Outcome State Fault Refusal :=
  done (s.modeOrder path 5 .readOnly false)

/-- MODE_ORDER_SERVICE (R520): target 6. -/
def execModeOrderService (path : Path) (s : State) : Host.Outcome State Fault Refusal :=
  done (s.modeOrder path 6 .service false)

/-- MODE_ORDER_SAFE (R520): target 7. -/
def execModeOrderSafe (path : Path) (s : State) : Host.Outcome State Fault Refusal :=
  done (s.modeOrder path 7 .safe false)

/-- MODE_ORDER_LEAVE (R520): target 8 leaves Read-Only or Service for Ready. -/
def execModeOrderLeave (path : Path) (s : State) : Host.Outcome State Fault Refusal :=
  done (s.modeOrder path 8 .ready true)

/-- SEQUENCER_WINDOW_CLOSE (R527–R529, R623). -/
def execSequencerWindowClose (s : State) : Host.Outcome State Fault Refusal := done s.closeWindow

/-- MODE_DRAIN_TIMEOUT (Table 15.10): one second after the entry to Dormant, Standby or Service began. -/
def execModeDrainTimeout (s : State) : Host.Outcome State Fault Refusal :=
  match s.pwr.trans with
  | some t =>
    if !t.drained && !t.idle && s.since t.start 1000000000
        && (t.target = .dormant || t.target = .standby || t.target = .service) then done (s.drainLimit t)
    else done s
  | none => done s

/-- IDLE_TO_READY (R520): Active for 10 µs without work. -/
def execIdleToReady (s : State) : Host.Outcome State Fault Refusal :=
  match s.pwr.idleSince with
  | some t => if s.inMode .active && s.isIdle && s.since t 10000 then done (s.enterMode .ready 0) else done s
  | none => done s

/-- IDLE_POLICY (R524): PWR_IDLE_ENTRY milliseconds idle in Ready or Active; whether the link reaches L1.2 is
open. -/
def execIdlePolicy (s : State) : Host.Outcome State Fault Refusal :=
  let ms := s.getF F.pwrIdleEntryMs
  match s.pwr.idleSince with
  | some t =>
    if ms = 0 || !(s.inMode .ready || s.inMode .active) || !s.isIdle || !s.since t (ms * 1000000) then done s
    else
      let link := bit s.free 0
      let s := s.drew
      let (m, short) := s.idleTarget link
      let s := (s.setF F.pwrIdleStatusFellShort short.toNat).setF F.pwrIdleStatusTarget m.code
      if m = .ready then done (if s.inMode .active then s.enterMode .ready 0 else s)
      else
        let s := if m = .standby then s.modHost fun h => { h with linkL12 := true } else s
        done (s.beginIdle m)
  | none => done s

end Sys2Proof.Machine
end

