-- ==== Sys2Proof/Machine/Startup.lean ====
section
/-! DEFINITION. Resets and start-up (chapter 17), the restore of the flash translation layer (R218), power-off
of the logic die, and the supplies (R593–R599). -/

namespace Sys2Proof.Machine

/-! ## Registers at a reset (Table 17.2) -/

/-- Words outside the always-on domain that the device keeps in the NVS or derives from what it keeps there:
fences, head conditions, the spare pool's figures, firmware slots, tamper cause, lifecycle and rollback. -/
def nvsWord (a : Nat) : Bool :=
  [A.engFenced, A.ftlSpareFloor, A.ftlTierCap, A.ftlRetired, A.ftlWear, A.ftlRatedPe, A.ftlCkpt, A.secLifecycle,
    A.secRollback, A.updSlotA, A.updSlotB, A.updSlots, A.srvRetract, A.ftlSpare].contains a
    || (a / 0x1000 = 5 && a % 0x100 = 0x10) || a = A.dchHeads 0 || a = A.dchHeads 1

/-- A register of an instance window that shows its state and record. -/
def instWord (a : Nat) : Bool := 0x100000 ≤ a && 0x100 ≤ a % 0x1000 && a % 0x1000 < 0x128

/-- Words that stand through a warm reset and with the logic die off: the always-on blocks, SEC_TAMPER and the
instance windows besides. -/
def keptWord (a : Nat) : Bool := onDriveDie a || nvsWord a || instWord a || a = A.secTamper

/-- A word after a reset of its block: RWS fields stay (R568), every other field returns to its reset value. -/
def resetWord (a : Nat) (w : Word) : Word := match regDesc? a with
  | none => regReset a
  | some r => r.fields.foldl (fun w f =>
      if f.acc = .rws || f.acc = .rwsClear then w else (⟨a, f.lo, f.width⟩ : Field).put w f.reset) w

namespace State

/-- The registers after the logic die was reset or off. -/
def resetRegs (s : State) : State :=
  { s with regs := s.regs.foldl (fun m e =>
      sparsePut regReset m e.1 (if keptWord e.1 then e.2 else resetWord e.1 e.2)) [] }

/-- The registers after a cold reset: what the NVS holds stays. -/
def coldRegs (s : State) : State :=
  { s with regs := s.regs.foldl (fun m e =>
      if nvsWord e.1 || e.1 / 0x1000 = 16 then sparsePut regReset m e.1 e.2 else m) [] }

/-! ## The logic die loses its state -/

/-- Dailies after the ring in DRAM is lost: the copy in the NVS and the records of the dump (R238, R552). -/
def restoreDailies (s : State) : State := s.modFtl fun f =>
  let d := (f.dump.map (·.dailies)).getD []
  let l := f.dailiesSaved ++ d
  { f with dailies := l.drop (l.length - 4096), dailiesNew := d.length }

/-- What is left of a channel's record: its fence, its LUNs, its wear, and a rebuild that has not ended. -/
def Channel.restart (standby : Bool) (c : Channel) : Channel :=
  { c with luns := sparseMap (fun _ => Lun.reset) (fun _ (l : Lun) =>
             { l with queue := [], held := [], shift := [], timeouts := [], resetBad := false }) c.luns
           softHeld := [], loops := [], timeouts := [], failedBack := [], retraining := false, rebuildLeft := 0
           rebuildDone := 0, keptRate := if standby then c.keptRate else none }

/-- The units of the logic die at rest: what is kept lies in the NVS, on the media, or, through Standby, in
rank 0 of DRAM (Tables 17.1, 17.2; R462, R574). -/
def dropUnits (s : State) (standby : Bool) : State :=
  let s := s.modSlt fun x => { Slate.reset with dramCopy := if standby then x.dramCopy else none }
  let s := s.modFch fun f =>
    { f with chans := sparseMap (fun _ => Channel.reset) (fun _ c => Channel.restart standby c) f.chans
             softQueue := [], softBusy := [], recons := [], hints := if standby then f.hints else []
             powerFail := false, wpHigh := false }
  let s := s.modFtl fun f => { f with reads := [], durHi := [] }
  let s := s.modDch fun d =>
    { d with acts := sparseMap (fun _ => DiskAct.reset) (fun _ (x : DiskAct) =>
        { DiskAct.reset with heads := x.heads, useVerify := x.useVerify }) d.acts }
  let s := s.modSrv fun v =>
    let acts := sparseMap (fun _ => ActServo.reset) (fun _ (x : ActServo) => { ActServo.reset with recorded := x.recorded }) v.acts
    { Servo.reset with spinAt := v.spinAt, acts := acts }
  let s := { s with eng := Engines.reset, pmx := Pmx.reset, cmp := Cmp.reset }
  let s := s.modTsk fun t => if standby then { Takes.reset with images := t.images, slots := t.slots, pointer := t.pointer } else Takes.reset
  let s := s.modSec fun x =>
    { Sec.reset with nsKeys := x.nsKeys, swkStored := x.swkStored, stored := x.stored, areaUsed := x.areaUsed
                     compacting := x.compacting, powerCount := x.powerCount }
  let s := s.modMem fun x => if standby then { x with subs := [], rank1Training := false } else Mem.reset
  let s := s.modUpd fun u =>
    { Upd.reset with valid := u.valid, inUse := u.inUse, dirty := u.dirty
                     runningImage := if standby then u.runningImage else [] }
  s.modFab fun f =>
    { f with hiBar0 := 0, hiI3c := 0, hiCore := 0, discards := [], failsDrive := 0, failsLogic := 0, mgtTries := []
             mgtFailed := [], samples := []
             logicKeeps := false, keeper := if f.logicKeeps then f.timecode else f.keeper }

/-- The pair after the logic die's part of it is lost: what the double has not acknowledged is dirty (R494);
role, epoch and separation log stay in the NVS. The dirty map lies in rank 0 of DRAM; where that is lost it is rebuilt
from the log, in which every dirty extent stands. -/
def dropPair (s : State) (standby : Bool) : State :=
  let s := s.linkDown
  s.modCnt fun c =>
    { Cnt.reset with role := c.role, epoch := c.epoch, log := c.log, pulseDelay := c.pulseDelay, nextTag := c.nextTag
                     dirty := if standby then c.dirty
                       else c.log.foldl (fun m e => sparsePut (fun _ => false) m (extKey e.1 e.2) true) [] }

/-- The host interface after the controllers were reset: no command is left. -/
def dropHost (s : State) : State :=
  let s := forEach s.functions s fun s fn => s.resetCtrl fn false
  s.modHost fun h => { h with cmds := [], fwHold := false, lockStall := [], linkL12 := false, bus := .none }

/-- Tenants keep their records; what waited for them is gone. -/
def dropTenants (s : State) : State :=
  { s with ten := sparseMap (fun _ => Tenant.reset) (fun _ (t : Tenant) =>
      { t with newRates := none, staleOps := [], commits := 0, advanceHeld := false, pend := [], disableWait := false,
               staleCount := 0, staleOldest := 0, staleSince := none }) s.ten }

/-- Values that stand in the NVS are shown again: RO_SPARES and BLOCKS_UNUSED, the pair's role, epoch, dirty extents
and the overflow of its log, and what is fenced or offline, without a new event (R584). -/
def showNvs (s : State) (old : State) : State :=
  let s := (s.setF F.ftlStatusRoSpares (old.getF F.ftlStatusRoSpares)).setF F.ftlStatusBlocksUnused
    (old.getF F.ftlStatusBlocksUnused)
  let s := (s.setF F.cntStatusRole s.cnt.role).setF F.cntEpochEpoch s.cnt.epoch
  let s := (s.setF F.cntStatusLogOverflow (old.getF F.cntStatusLogOverflow)).setF F.cntDirtyExtents s.cnt.dirty.length
  let s := forEach ((List.range 16).filter fun c => (s.chan c).fenced) s fun s c => s.setF (F.fchStatusState c) 4
  forEach [0, 1] s fun s a =>
    if (s.servoAct a).recorded then (s.setF (F.srvActStatusState a) 8).setF (F.dchStatusState a) 5 else s

/-- What else is shown again where the always-on domain stands: the spindle, the tenants' buckets, CNT_HB.TIMEOUT, and
an actuator that still retracts. -/
def showKept (s : State) (old : State) : State :=
  let s := s.showNvs old
  let s := (s.setF F.cntHbTimeout (old.getF F.cntHbTimeout)).setF F.srvStatusSpinState (old.getF F.srvStatusSpinState)
  let s := forEach s.configured s fun s n => s.fillBuckets n
  forEach [0, 1] s fun s a =>
    if old.actState a = 7 && old.pwr.failing && !(s.servoAct a).recorded then s.setF (F.srvActStatusState a) 7 else s

/-- The logic die is reset or powered off. -/
def logicReset (s : State) (standby : Bool) : State :=
  let old := s
  let s := s.closePath.endSelfTest 8
  let s := forEach [0, 1, 2, 3, 5] s fun s k => s.endLongOp k 0 0x06
  let s := if standby then s else (s.dropHost).restoreDailies
  let s := (((s.dropPair standby).dropTenants).dropUnits standby).resetRegs
  let s := if s.tfBusy then (s.setF F.tfStatusState 0).modMgt fun m => { m with tf := TaskFile.reset } else s
  let s := (s.modPwr fun p => { p with spin := none, selfTest := none }).showKept old
  let s := if standby then (s.setReg A.memStatus (old.reg A.memStatus)).setReg A.vinDramFree (old.reg A.vinDramFree) else s
  (s.setF F.drvStatusSpliceUp 0).syncAlloc

/-! ## Power-off (Tables 15.8 and 15.10, R599) -/

/-- The device is in Dormant: the dailies are copied (R552), and DRAM and the logic die are off. -/
def powerOff (s : State) (cause : Nat) : State :=
  let s := s.newMode .dormant cause
  let s := s.modFtl fun f => { f with dailiesSaved := f.dailies, dailiesNew := 0, dailiesAt := some s.tick }
  let s := (s.logicReset false).setF F.drvStatusEnCore 0
  s.modPwr fun p => { p with enRet := false, keptDigest := none }

/-- The device is in Standby: rank 1 is shed and switched off where a partner does that, rank 0 refreshes itself, and
the logic die is off (R168, R462, R513, R574). -/
def standbyOff (s : State) (cause : Nat) : State :=
  let s := s.newMode .standby cause
  let s := (s.loseRank 0 1).loseRank 1 1
  let s := forEach [0, 1] s fun s c => forEach [0, 1] s fun s r => s.modRank c r fun x => { x with selfRef := true }
  let s := s.lbRankSwitch false
  let rates := (List.range 16).map fun c => (c, s.getF (F.fchStatusRate c))
  let s := forEach (rates.filter fun e => s.chanOnline e.1) s fun s e => s.modChan e.1 fun x => { x with keptRate := some e.2 }
  let digest := sha384 s.upd.runningImage
  let s := (s.logicReset true).setF F.drvStatusEnCore 0
  let s := s.modHost fun h => { h with linkL12 := true }
  s.modPwr fun p => { p with keptDigest := some digest }

/-! ## The restore of the flash translation layer (R215, R218) -/

/-- A run of units takes one map value. -/
def putRun (m : Sparse Nat) (nsid first n v : Nat) : Sparse Nat :=
  (List.range n).foldl (fun m i => sparsePut (fun _ => mapUnmapped) m (unitKeyOf nsid (first + i)) v) m

/-- Replays one journal record over a map (R214, R215). -/
def applyRec (m : MapCopy) (r : JrnRec) : MapCopy := match r.kind with
  | .mapSet => { m with map := (List.range r.count).foldl (fun t i =>
      sparsePut (fun _ => mapUnmapped) t (unitKeyOf r.ns (r.a + i)) (r.b + i)) m.map }
  | .mapClear => { m with map := putRun m.map r.ns r.a r.count mapUnmapped }
  | .mapZero => { m with map := putRun m.map r.ns r.a r.count mapZero }
  | .extentSet => { m with extents := sparsePut (fun _ => Extent.reset) m.extents (extKey r.ns r.a) (Extent.decode r.b) }
  | _ => m

/-- The map that checkpoint and journal give; units of an extent that is neither FLASH nor MOVING have none. -/
def restoredMap (s : State) (base : MapCopy) (recs : List JrnRec) : MapCopy :=
  let m := recs.foldl applyRec base
  let place := fun (_ : Nat) (e : Extent) => if e.st = .disk then { e with act := (s.bandAct e.band).getD 0 } else e
  let exts := sparseMap (fun _ => Extent.reset) place m.extents
  let onFlash := fun (k : Nat) =>
    let x := sparseGet (fun _ => Extent.reset) exts (extKey (k / 2 ^ 40) (k % 2 ^ 40 / 256))
    x.st = .flash || x.st = .moving
  { map := sparseKeep onFlash m.map, extents := exts }

/-- The checkpoint that a valid root names, with its START_SEQ (R217, R218). -/
def rootCopy (s : State) : Option (Nat × MapCopy) := match s.bestRoot, s.ftl.ckpt with
  | some (pass, start), some c => if pass = s.ftl.ckptPass % 2 ^ 32 then some (start, c) else none
  | _, _ => none

/-- Journal records on the media from START_SEQ on, as far as the chain holds, and the PAGE_SEQ it ends at (R215). -/
def journalFrom (s : State) (start : Nat) : List JrnRec × Option Nat :=
  let (recs, page) := jrnChain s.ftl.jrn none
  match recs with
  | r :: _ => if r.seq ≤ start then (recs.filter fun x => start ≤ x.seq, page) else ([], none)
  | [] => ([], none)

/-- A record that replay does not reach is undone: its superblock is as it was before (R188, R215), and a retired block
is good (log entry 188). -/
def undoRec (s : State) (r : JrnRec) : State :=
  let lane := r.ns
  let seg := r.a
  match r.kind with
  | .sbOpen => s.modSb lane seg fun x => { x with st := .free }
  | .sbClose => s.modSb lane seg fun x => { x with st := .opened }
  | .eraseBegin => s.modSb lane seg fun x => { x with st := if x.chans.isEmpty then .free else .closed }
  | .eraseEnd => s.modSb lane seg fun x => { x with st := .eraseIncomplete }
  | .blockRetire =>
    let id := blockId (r.a % 2 ^ 8) (r.a / 2 ^ 8 % 2 ^ 8) (r.a / 2 ^ 16)
    ((s.modFtl fun f => { f with retiredBlocks := f.retiredBlocks.filter (· ≠ id) }).subF F.ftlRetiredBlocks 1).addF
      F.ftlSpareBlocks 1
  | _ => s

/-- No valid root: every superblock is free, and every block is erased before its first use (R218). -/
def blankFlash (s : State) : State :=
  let s := s.modFtl fun f => { f with sbs := [], media := [], parity := [], jrn := [], ckpt := none, jrnBytes := 0 }
  s.modFch fun f => { f with chans := sparseMap (fun _ => Channel.reset) (fun _ (c : Channel) =>
    { c with eraseFirst := true, erasedSbs := [] }) f.chans }

/-- Valid counts of the superblocks from the map, erase-incomplete ones (R218, steps 4 and 5; R188), and open ones,
which go on with their next whole row. -/
def recountSbs (s : State) : State :=
  let s := s.modFtl fun f =>
    { f with sbs := sparseMap (fun _ => Superblock.reset) (fun _ (x : Superblock) =>
        { x with valid := 0, st := if x.st = .erasing then .eraseIncomplete else x.st }) f.sbs }
  let s := forEach s.ftl.map s fun s e =>
    let lane := e.1 % 2 ^ 40 % 4
    if e.2 < mapZero - 15 then s.modSb lane (s.sbOfSlot lane e.2) fun x => { x with valid := x.valid + 1 } else s
  forEach (List.range 4) s fun s lane => s.countFreeSbs lane

/-- Work of the flash translation layer that was under way is dropped: copies (R220), the rest of stripe rows, and
moves, whose bands are reset where no extent has come to lie in them (R226). -/
def settleFtl (s : State) : State :=
  let moves := s.ftl.moves
  let s := s.modFtl fun f => { f with copies := [], progs := [], rows := [], moves := [], openWait := [] }
  let s := forEach s.ftl.sbs s fun s e =>
    let lane := e.1 / 2 ^ 18
    let seg := e.1 % 2 ^ 18
    if (s.sb lane seg).st = .opened then s.modSb lane seg fun x => { x with next := roundUp x.next (max 1 (s.rowSlots lane seg)) }
    else s
  let moving := s.ftl.extents.filter fun e => e.2.st = .moving
  let s := forEach moving s fun s e => s.setExtent (e.1 / 2 ^ 32) (e.1 % 2 ^ 32) { e.2 with st := .flash }
  forEach moves s fun s m =>
    if (s.liveExtents m.band).isEmpty then s.resetBand m.band else s.modBand m.band fun x => { x with st := .full }

/-- Rebuilds that a restart cut go on (R195). -/
def resumeRebuilds (s : State) : State := forEach (List.range 16) s fun s c =>
  let x := s.chan c
  if x.rebuilding then
    if x.fenced then s.beginRebuild c none else forEach (s.lunsFenced c true) s fun s l => s.beginRebuild c (some l)
  else s.setF (F.fchStatusRebuildPct c) 10000

/-- A dump entry as the buffer takes it: deciphered, and not being flushed unless replay has reached its record. -/
def reloaded (s : State) (last : Nat) (e : WbEntry) : WbEntry :=
  let e := { e with data := s.decUnit e.nsid e.unit e.data }
  match e.mapped with
  | some q => if q ≤ last then e else { e with flushing := false, slot := none, mapped := none }
  | none => { e with flushing := false, slot := none }

/-- Step 11 of Table 17.3 (R218): the checkpoint that the root names, the journal from START_SEQ, and the dump with its
journal tail; what a dump that cannot be replayed should have held, and what it records as lost, leaves deferred write
errors of CAUSE 0x03 (Table 17.4, R461). An entry whose namespace has no key waits for it. -/
def restoreFtl (s : State) : State :=
  let root := s.rootCopy
  let base := (root.map (·.2)).getD { map := [], extents := [] }
  let start := (root.map (·.1)).getD s.ftl.nextSeq
  let (held, page) := if root.isSome then s.journalFrom start else ([], none)
  let durable := held.foldl (fun n (r : JrnRec) => max n r.seq) (start - 1)
  let tail := if root.isSome then ((s.ftl.dump.map (·.tail)).getD []).filter fun r => durable < r.seq else []
  let last := tail.foldl (fun n (r : JrnRec) => max n r.seq) durable
  let cut := s.jrnTail.filter fun r => last < r.seq
  let m := s.restoredMap base (held ++ tail)
  let lost := s.ftl.dumpCut.getD [] ++ (s.ftl.dump.map (·.lost)).getD []
  let entries := (s.ftl.dump.map (·.entries)).getD []
  let opens := fun (e : WbEntry) => (s.nsKey e.nsid).isSome
  let wb := (entries.filter opens).map (s.reloaded (if root.isSome then last else 0))
  let used := m.extents.filterMap fun e => if e.2.st = .flash || e.2.st = .moving then some e.2.chunk else none
  let s := s.modFtl fun f =>
    { f with map := m.map, extents := m.extents, tail := tail, cws := [], nextSeq := last + 1, durable := durable
             pageSeq := page.getD f.pageSeq, jrn := sparseKeep (fun q => q ≤ page.getD f.pageSeq) f.jrn
             wb := wb, dumpWaits := entries.filter fun e => !opens e, replaying := f.dump.isSome
             dump := f.dump.map fun d => { d with lost := [] }
             dumpBad := f.dumpCut.isSome, dumpCut := none, dumping := false, deallocs := [], promos := []
             ckptStart := none, ckptNext := none, ckptPages := 0, ckptAt := s.tick, rootStart := start, chunkFree := []
             freeChunks := (List.range f.nextChunk).filter fun c => !used.contains c }
  let s := if root.isSome then forEach cut.reverse s undoRec else s.blankFlash
  let s := (s.recountSbs.settleFtl).setFIf s.ftl.dump.isSome F.ftlStatusDumpReplayed 1
  let s := if s.role = roleNone then s
    else forEach entries s fun s (e : WbEntry) => s.markDirty e.nsid (e.unit / 256)
  let s := forEach lost s fun s (e : WbEntry) =>
    let k := s.blocksPerUnit e.nsid
    s.deferredWrite e.nsid (some e.key) (e.unit * k) k 3
  ((s.setF F.ftlJrnDurableLoSeqLo (s.ftl.durable % 2 ^ 32)).setF F.ftlStatusState 3).setWbEff.syncWb

/-- Bytes of the firmware areas of Table 13.3, each on a 4 KiB boundary. -/
def firmwareBytes (s : State) : Nat :=
  let mib := 2 ^ 20
  let user := s.extentsOfTypes fun t => t = .flash || t = .tiered
  (256 + 128 + 256 + 1024 + 256) * mib + roundUp (8 * user) 4096 + roundUp (1024 * s.ftl.chunks) 4096

/-- Firmware areas are placed in rank 0 (R452); false where they do not fit. -/
def placeFirmware (s : State) : Bool × State :=
  let need := s.firmwareBytes
  let gran := 2 ^ 26
  let ranks := if s.onF F.memStatusRank1Off then 1 else s.rankCount
  let s := (s.setF F.vinDramFreeFirstG (ceilDiv need gran)).setF F.vinDramFreeLastG (2 * ranks * s.rankBytes / gran - 1)
  if need ≤ 2 * s.rankBytes then (true, s)
  else (false, ((s.setF F.memStatusMapTooLarge 1).setF F.ftlStatusState 0).daily src.dev 0x0501
    [9, (s.reg A.memStatus).toNat])

/-! ## Settings at a start (R562) -/

/-- Writes the register values of item 0x0001, four bytes of address and four of value each (R563; log entry 47).
CODE_RATE and RAIN_GROUP stay as the flash tier was last formatted with them (R197). -/
def applyRwl (s : State) (item : List Byte) : State :=
  let l := (List.range (item.length / 8)).map fun i => (field item (8 * i) 4, field item (8 * i + 4) 4)
  let s := forEach l s fun s e => match regDesc? e.1 with
    | some r => s.setReg e.1 (s.wordAfter r e.1 false false (BitVec.ofNat 32 e.2))
    | none => s
  forEach s.fch.formatCfg s fun s e => (s.setF (F.fchCfgCodeRate e.1) e.2.1).setF (F.fchCfgRainGroup e.1) e.2.2

/-- LOCK of every block whose RWL fields come from the settings (R197, R239, R273, R313, R474, R503); a LOCK of the
slate comes only with SLT_CTRL. -/
def setLocks (s : State) : State :=
  let all := [F.ftlCtrlLock, F.dchCtrlLock 0, F.dchCtrlLock 1, F.srvCtrlLock, F.memCtrlLock, F.cntCtrlLock]
    ++ (List.range 16).map F.fchCtrlLock
  forEach all s fun s f => s.setF f 1

/-- The instances of item 0x0004 (R571): 68 bytes each; one recorded ENABLED waits in CONFIGURED for its
virtual function (log entry 39). A window is lost at a cold reset (R144). -/
def applyInsts (s : State) (item : List Byte) : State :=
  let s := forEach (List.range (item.length / 68)) s fun s i =>
    let l := slice item (68 * i) 68
    let n := field l 2 2
    let r := parseRecord l
    let s := s.setTenant n { Tenant.reset with record := some r, wasEnabled := field l 64 1 = 3 }
    let s := (((s.setF (F.instStatusState n) 1).setF (F.instStatusGen n) 0).showRecord n r).fillBuckets n
    if 0 < r.dramSize then s.loseWindow n else s
  s.syncAlloc

/-- One settings item takes effect; the instances and the idle policy stand through every start but a cold
one. -/
def applyItem (s : State) (cold : Bool) (e : Nat × List Byte) : State :=
  if e.1 = 1 then s.applyRwl e.2
  else if e.1 = 2 then s.loadLbDescs e.2
  else if e.1 = 3 then forEach (List.range 16) s fun s b =>
    s.setF (F.pmxBankOwnerOwner b) ((F.pmxBankOwnerOwner b).get (BitVec.ofNat 32 (field e.2 (4 * b) 4)))
  else if e.1 = 4 then (if cold then s.applyInsts e.2 else s)
  else if e.1 = 5 then
    let s := s.setF F.sltCtrlPersist (field e.2 0 4)
    if cold then (s.setF F.pwrWakeBudgetUs (field e.2 4 4)).setF F.pwrIdleEntryMs (field e.2 8 4) else s
  else s

/-- The settings in use at a start or an activation: the first case of Table 16.10 that applies (R562). -/
def chooseSettings (s : State) (service : Bool) : List (Nat × List Byte) × State :=
  let max_ := s.getF F.updSettingsVerMax
  let min_ := s.getF F.updSettingsVerMin
  let defaults := Config.defaultSettings (sectionBytes s.upd.runningImage 4)
  let items := fun (l : List Byte) => (settingsItems (field l 0x0C 2) (l.drop 32)).getD []
  let (outcome, list, version, s) := match service, s.settingsInUse with
    | true, _ => (3, defaults, max_, s.writeSettings max_ defaults)
    | false, none => (2, defaults, max_, s.writeSettings max_ defaults)
    | false, some (_, l) =>
      let v := field l 2 2
      if v < min_ || max_ < v || !settingsItemsOk l then (2, defaults, max_, s.writeSettings max_ defaults)
      else if v < max_ then
        let t := Config.migrateSettings v (items l)
        (1, t, max_, s.writeSettings max_ t)
      else (0, items l, v, s)
  let s := (s.setF F.updSettingsStatusOutcome outcome).setF F.updSettingsStatusVersion version
  (list, if outcome = 2 then s.daily src.dev 0x0501 [8, (s.reg A.updSettingsStatus).toNat] else s)

/-- Settings at a start take effect (R562, R563). -/
def startSettings (s : State) (cold service : Bool) : State :=
  let (list, s) := s.chooseSettings service
  (forEach list s fun s e => s.applyItem cold e).setLocks.setF F.updServiceReq 0

/-! ## The start-up sequence (Table 17.3) -/

/-- The step of the start in progress that has ended last. -/
def startStep (s : State) (n : Nat) : State :=
  s.modPwr fun p => { p with starting := p.starting.map fun x => { x with step := n } }

/-- The always-on domain raises EN_RET and EN_CORE, releases the logic die and derives the core setpoint from
fuses (R598–R600). -/
def railsUp (s : State) : State :=
  let s := (s.modPwr fun p => { p with enRet := true, logicHeld := false, avsVid := s.free }).drew
  s.setF F.drvStatusEnCore 1

/-- A start begins at step 4. -/
def beginStart (s : State) (kind : StartKind) (wantReady : Bool) : State :=
  let x : StartSeq := { kind := kind, step := 4, wantReady := wantReady, service := false }
  (s.modPwr fun p => { p with starting := some x, idleSince := none }).railsUp

/-- The splice has trained (R25): events held on the drive die are delivered in order. -/
def spliceUp (s : State) : State :=
  let held := s.fab.heldEvents
  let s := ((s.setF F.devSpliceStatusTrained 1).setF F.devSpliceStatusUp 1).setF F.drvStatusSpliceUp 1
  let s := s.modFab fun f =>
    { f with failsDrive := 0, failsLogic := 0, seqDrive := 0, seqLogic := 0, cycleDrive := f.cycleLogic,
             events := f.events ++ f.heldEvents, heldEvents := [] }
  let s := s.modSrv fun x => { x with ticks := 0, tickDue := (s.fab.cycleLogic + 40000) % 2 ^ 32, waiting := [] }
  forEach held s State.takeEvent

/-- A start ends in Safe at the step that fails (R573); a mode order that waits for it ends PREEMPTED (log entry 187). -/
def startFails (s : State) (step cause : Nat) : State :=
  let s := match s.pwr.trans with
    | some t => s.endModeOrder t.reg 3
    | none => s
  let s := s.modPwr fun p => { p with starting := none, trans := none }
  ((s.newMode .safe cause).daily src.dev 0x0504 [cause, step]).setF F.pwrModeChanging 0

/-- Step 5 fails (R25, Table 17.4): the logic die stays in reset. -/
def spliceFails (s : State) : State :=
  let s := (s.setF F.devSpliceStatusLost 1).modPwr fun p => { p with logicHeld := true }
  (s.daily src.dev 0x0501 [5, (s.reg A.devSpliceStatus).toNat]).startFails 5 6

/-- The slot to boot, after TRIAL has been judged (R560): a trial that did not last until its confirmation
goes back to the other slot. -/
def judgeTrial (s : State) : State :=
  if s.nvs.trial && !s.nvs.trialFailed && s.getF F.updSlotsActive = s.nvs.bootNext then
    (s.bootRecord (1 - s.nvs.bootNext) false true).alertFirmware
  else s

/-- Step 7: the image of NEXT, or the other one (R444, R551). With neither, an OPEN device goes on into Service with
its keys disabled; none says that a LOCKED one stops. -/
def bootImage (s : State) : Option State :=
  let boots := fun (n : Nat) => !s.nvs.flagged.contains n && imageOk (s.slotImage n) (s.getF F.secRollbackMinSvn)
  let n := s.nvs.bootNext
  if boots n then some (s.runImage n)
  else if boots (1 - n) then some (s.runImage (1 - n))
  else
    let s := (s.daily src.dev 0x0501 [7, (s.reg A.updSlots).toNat]).alertFirmware
    if s.getF F.secLifecycleState = 1 then none
    else some ((s.setF F.secStatusKeysDisabled 1).modPwr fun p =>
      { p with starting := p.starting.map fun x => { x with service := true } })

/-- Section 2 of the running image goes into every unfenced tenant engine and section 3 into the control engine
(R557): an engine that the section does not load into, or that fails its self-test, is fenced (R377). Bits 0 to 31 of
`bad` name such engines, bit 32 the control engine (log entry 186). -/
def loadMicro (s : State) (bad : Nat) : State :=
  let img := s.upd.runningImage
  let put := fun (s : State) (e kind : Nat) =>
    { s with eng := { s.eng with micro := sparsePut (fun _ => []) s.eng.micro e (sectionBytes img kind) } }
  let es := (List.range 32).filter fun e => !bit (s.getF F.engFencedFenced) e
  let s := forEach es s fun s e =>
    if bit bad e then (s.fenceEngine e).daily src.dev 0x0501 [8, (s.reg A.engFenced).toNat] else put s e 2
  if bit bad 32 then s else put s 32 3

/-- The loop table is loaded once the control engine has its microcode; without either the flash tier serves alone
(R293, R557). -/
def loadLoops (s : State) (bad : Nat) : State :=
  let (ok, s) := if bit bad 32 || s.upd.runningImage.isEmpty then (false, s.setF F.srvStatusTableValid 0) else s.loadServo
  if ok then s
  else
    let s := s.daily src.dev 0x0501 [8, (s.reg A.srvStatus).toNat]
    forEach [0, 1] s fun s a => (s.setF (F.srvActStatusState a) 8).setF (F.dchStatusState a) 5

/-- Step 8: settings, keys, microcode, slate, loop table, zone table and NAND record. -/
def loadStage (s : State) (cold : Bool) (bad : Nat) : State :=
  let service := s.onF F.updServiceReq || s.onF F.secStatusKeysDisabled
  let s := (s.startSettings cold service).modPwr fun p =>
    { p with starting := p.starting.map fun x => { x with service := service } }
  let s := if s.onF F.secStatusKeysDisabled then s else s.secStart
  let s := ((if s.upd.runningImage.isEmpty then s else s.loadMicro bad).startSlate false).setF F.cntCtrlLinkEn (if s.role = roleNone then 0 else 1)
  let s := if s.role = roleNone then s
    else (s.setF F.cntStatusPairState pairTraining).modCnt fun c => { c with retryDue := some (s.tick + 64 * 1000000000) }
  let s := s.loadLoops bad
  let s := ((s.loadZones s.wedges).2).loadNandRec
  if s.nvs.zeroized then (s.modNvs fun x => { x with zeroized := false }).dailyOpen src.nvs 1 [] else s

/-- Steps 6 to 8, from the NVS pass to the loading of the tables (R541, R543, R550). -/
def bootChain (s : State) (bad : Nat) : State :=
  let s := ((s.nvsStartPass).startStep 6).judgeTrial
  match s.bootImage with
  | none => s.startFails 7 8
  | some s =>
    let cold := match s.pwr.starting with
      | some x => x.kind = .cold
      | none => false
    (s.loadStage cold bad).startStep 8

/-- Step 5 ends well, and the chain runs on. -/
def runStart (s : State) (bad : Nat) : State := (((s.setF F.pwrModeChanging 1).spliceUp).startStep 5).bootChain bad

/-- Instances at the start of the logic die (R144, R570): windows are lost with DRAM; a fill starts again; a
warm reset takes the others through RESETTING. -/
def startInstances (s : State) (warm : Bool) : State :=
  forEach s.configured s fun s n =>
    let st := s.instSt n
    let size : Nat := ((s.tenant n).record.map (fun (r : InstRec) => r.dramSize)).getD 0
    let s := if 0 < size then s.loseWindow n else s
    if st = 2 then s.modTenant n fun t => { t with fillAtStart := true }
    else if warm && s.instEnabled n then (s.setF (F.instStatusState n) 6).advanceGen n
    else if s.pwr.notQuiesced.contains n then s.advanceGen n
    else s

/-- The logic die restarts as at a warm reset (R569, R595). -/
def warmRestart (s : State) : State :=
  let s := s.logicReset false
  let s := s.modPwr fun p =>
    { p with resetting := none, failing := false, trans := none, pwrdisWait := false, window := [], notQuiesced := [] }
  let s := ((s.setF F.pwrModeMode 0).setF F.pwrModeCause 0).setF F.pwrModeStatusBusy 0
  ((s.startInstances true).beginStart .warm false)

/-- The logic die starts from Dormant (R572). -/
def dormantStart (s : State) (wantReady : Bool) : State :=
  let kind : StartKind := if s.pwr.notQuiesced.isEmpty then .logicDormant else .logicPwrdis
  let s := ((s.startInstances false).noteReset 2).modPwr fun p => { p with notQuiesced := [] }
  s.beginStart kind wantReady

/-- The reset steps of R569 that wait: once dump and unload have ended the spindle brakes and the logic die is
held; with NRESET high it restarts. -/
def resetStep (s : State) : State := match s.pwr.resetting with
  | none => s
  | some _ =>
    if s.ftl.dumping || !s.headsParked then s
    else
      let s := if s.spinStopped || s.spinState = 7 then s else s.setSpin 7
      let s := s.modPwr fun p => { p with logicHeld := true }
      if s.pwr.nreset then s else s.warmRestart

/-! ## The end of a start (Table 17.3, steps 9 to 13) -/

/-- Steps 9 and 10 are done and the role is settled (R485). -/
def startReady (s : State) : Bool :=
  s.getF F.memStatusCh0State = 2 && s.getF F.memStatusCh1State = 2
    && ((List.range 16).all fun c => s.chanOnline c || (s.chan c).fenced)
    && !(s.role = rolePrincipal && s.onF F.cntCtrlLinkEn && !s.cnt.settled)

/-- Instances that the reset took into RESETTING enter ENABLED when the path opens (R570). -/
def endResets (s : State) : State :=
  if !s.pwr.pathOpen then s
  else forEach (s.configured.filter fun n => s.instSt n = 6) s fun s n =>
    let gone := (s.tenant n).removing
    let s := s.modTenant n fun t => { t with removing := false }
    if gone then s.setInstState n .configured else s.enterEnabled n

/-- The transition ends: its order reads OK, and a power-down that waited begins (R623). -/
def endTrans (s : State) : State :=
  let s := match s.pwr.trans with
    | some t => s.endModeOrder t.reg 0
    | none => s
  let s := (s.modPwr fun p => { p with trans := none }).setF F.pwrModeChanging 0
  if s.pwr.pwrdisWait then s.beginPowerDown else s

/-- Safe is entered (R520): the dailies record it, and starts that fail by firmware are counted; the third
gives NEXT to the other slot (R589). -/
def safeReached (s : State) (cause : Nat) : State :=
  let s := (s.newMode .safe cause).daily src.dev 0x0504 [cause, 0]
  let s := s.modFch fun f => { f with powerFail := false }
  let early := match s.pwr.step12At with
    | some t => !s.since t 600000000000
    | none => false
  if cause = 5 && early then
    let n := s.pwr.faultStarts + 1
    let other := 1 - s.getF F.updSlotsActive
    let s := s.modPwr fun p => { p with faultStarts := n, step12At := none }
    if n = 3 && imageOk (s.slotImage other) (s.getF F.secRollbackMinSvn) then s.bootRecord other false true else s
  else s

/-- Read-Only is entered again at a start while the spare pool stays below 1% of the raw blocks (R233); RO_SPARES does
not outlast a pool that is not (log entry 192). -/
def readOnlyAgain (s : State) : State :=
  if !s.onF F.ftlStatusRoSpares then s
  else if s.sparePool * 100 < s.ftl.rawBlocks then s.placeMode .readOnly false 2 .device
  else s.setF F.ftlStatusRoSpares 0

/-- Step 12 with no failure: the host data path opens and the mode is Doze, or Service where it was asked for
(R573). The move to Ready goes on where the disk is needed or Ready was named. -/
def stepTwelve (s : State) (x : StartSeq) : State :=
  let s := s.modPwr fun p => { p with starting := none, step12At := some s.tick }
  let wake : Bool := match s.pwr.trans with
    | some t => t.target = .ready
    | none => false
  if x.service then
    (s.newMode .service (if s.onF F.secStatusKeysDisabled then 2 else 1)).endTrans
  else
    let cause := ((s.pwr.trans.map (·.cause)).getD 0)
    let s := ((if s.roleClosed then s else s.openPath.endResets).newMode .doze cause).readOnlyAgain
    if s.pwr.pwrdis || s.pwr.pwrdisWait then
      let s := match s.pwr.trans with
        | some t => s.endModeOrder t.reg 3
        | none => s
      s.beginPowerDown
    else
      if wake then s.spinTo true
      else
        if s.diskData && !s.diskGone then
          s.beginTrans { target := .ready, cause := 0, start := s.tick, side := .device, reg := false, leave := false,
                         pwrdis := false, idle := false, drained := false }
        else s.setF F.pwrModeChanging 0

/-- The end of a start, or its end in Safe where Safe was ordered meanwhile. -/
def finishStart (s : State) (x : StartSeq) : State :=
  let toSafe := match s.pwr.trans with
    | some t => if t.target = .safe then some t.cause else none
    | none => none
  let s := if x.kind = .logicStandby then (((s.recountSbs.settleFtl).setF F.ftlStatusState 3).setWbEff).syncWb
    else match s.placeFirmware with
      | (true, s) => s.restoreFtl
      | (false, s) => s
  let s := s.resumeRebuilds.shutSbs
  match toSafe with
  | some cause => ((s.modPwr fun p => { p with starting := none, step12At := some s.tick }).safeReached cause).endTrans
  | none => s.stepTwelve x

/-- A Safe order of the device itself met the start: Safe is entered at the failing step (R573), but a start
after a tamper runs to its end first (R520). -/
def startCut (s : State) (x : StartSeq) : Bool := match s.pwr.trans with
  | some t => t.target = .safe && 5 ≤ x.step && t.cause ≠ 2
  | none => false

/-! ## The end of a mode transition (Table 15.10) -/

/-- The entry rules of the target are met. -/
def entryMet (s : State) (t : Transition) : Bool := match t.target with
  | .safe => s.logicOn && !s.ftl.dumping && s.headsParked
  | .ready => 2 ≤ s.getF F.pwrModeMode && (t.leave || s.diskUp)
  | .readOnly => true
  | .doze => s.headsParked && s.spinStopped
  | .service => s.ftl.wb.isEmpty && !(s.openCmds.any ioCmd) && s.liveTakes.isEmpty
  | .dormant => !s.logicOn ||
      (s.drained && (s.ftl.dump.isSome || (s.ftl.wb.isEmpty && s.journalDurable)) && s.headsParked && s.spinStopped)
  | .standby | .active => false

/-- The new mode is entered. -/
def enterTarget (s : State) (t : Transition) : State :=
  match t.target with
  | .safe => (s.safeReached t.cause).endTrans
  | .dormant => ((s.powerOff t.cause).endTrans).releaseWake
  | .ready =>
    let s := s.newMode .ready t.cause
    let s := if t.leave then (if s.roleClosed then s else s.openPath).spinTo true else s
    (s.setFIf t.leave F.ftlStatusRoSpares 0).endTrans
  | .service => ((s.closePath).newMode .service t.cause).endTrans
  | m => (s.newMode m t.cause).endTrans

/-- A transition or start ends where its conditions hold. -/
def transitionDone (s : State) : State :=
  match s.pwr.starting with
  | some x =>
    if s.startCut x then
      let cause := (s.pwr.trans.map (·.cause)).getD 5
      (s.modPwr fun p => { p with starting := none }).safeReached cause |>.endTrans
    else if 8 ≤ x.step && s.startReady then s.finishStart x
    else s
  | none =>
    let s := s.transStep
    match s.pwr.trans with
    | some t => if s.entryMet t then s.enterTarget t else s
    | none => s

end State

/-! ## Commands -/

/-- MODE_TRANSITION_DONE (R520, R573, R589): the entry rules are met and PWR_MODE shows the new mode. -/
def execModeTransitionDone (s : State) : Host.Outcome State Fault Refusal := done s.transitionDone

/-- STANDBY_ENTRY_DONE (R144, R209, R462, R513): with the buffer empty, the disk down, every instance that owns
rank-1 memory quiet and no command or take in flight, rank 1 is shed and the logic die powers off. -/
def execStandbyEntryDone (s : State) : Host.Outcome State Fault Refusal :=
  let s := s.transStep
  match s.pwr.trans with
  | some t =>
    if t.target = .standby && s.drained && s.rank1Quiet && s.ftl.wb.isEmpty && s.journalDurable && s.headsParked
        && s.spinStopped then
      done ((s.standbyOff t.cause).endTrans)
    else done s
  | none => done s

/-- SPLICE_TRAINED (R25): once since the last reset; a start that waits for it runs its steps 5 to 8, in which the
engines of `bad` do not take their microcode (R557). -/
def execSpliceTrained (bad : Nat) (s : State) : Host.Outcome State Fault Refusal :=
  match s.pwr.starting with
  | some x => if x.step = 4 && !s.pwr.nreset then done (s.runStart bad) else done s
  | none => if s.onF F.devSpliceStatusTrained || !s.logicOn then done s else done s.spliceUp

/-- LOGIC_START (R572): the logic die powers up for a wake from Dormant, or a start goes on from step 4; `bad` as in
SPLICE_TRAINED. -/
def execLogicStart (spliceTrains : Bool) (bad : Nat) (s : State) : Host.Outcome State Fault Refusal :=
  let go := fun (s : State) => if spliceTrains then s.runStart bad else s.spliceFails
  if s.pwr.nreset || s.pwr.failing || s.pwr.resetting.isSome then done s
  else match s.pwr.starting, s.pwr.trans with
  | some x, _ => if x.step = 4 then done (go s) else done s
  | none, some t =>
    if s.inMode .dormant && (t.target = .ready || t.target = .safe) then done (go (s.dormantStart (t.target = .ready)))
    else if s.inMode .standby && t.target = .safe then
      done (go ((s.modPwr fun p => { p with keptDigest := none }).dormantStart false))
    else done s
  | none, none => done s

/-- FIRMWARE_ACTIVATION (R559): the management core pair is reset, the new image runs, its settings are loaded or
migrated, the hold ends and the commit completes. Nothing else of the device is reset; values of the settings take
effect at the next start (R563). -/
def execFirmwareActivation (s : State) : Host.Outcome State Fault Refusal :=
  match s.upd.commit with
  | none => done s
  | some c =>
    let s := (((s.noteReset 5).runImage c.slot).chooseSettings false).2
    done ((s.modHost fun h => { h with fwHold := false }).endCommit c.key updOk)

/-- STANDBY_EXIT (R168, R463, R557, R574): the logic die is restored from rank 0 once the image kept there has the
digest that the always-on domain keeps; where it has not, or rank 0 fails its retraining, the start goes on as from
Dormant. `bad` as in SPLICE_TRAINED. -/
def execStandbyExit (rank0Ok : Bool) (bad : Nat) (s : State) : Host.Outcome State Fault Refusal :=
  let wake : Bool := match s.pwr.trans with
    | some t => t.target = .ready
    | none => false
  if !s.inMode .standby || !wake || s.pwr.starting.isSome || s.pwr.nreset || s.pwr.failing then done s
  else if rank0Ok && s.pwr.keptDigest = some (sha384 s.upd.runningImage) then
    let s := ((s.noteReset 2).beginStart .logicStandby true).spliceUp
    let s := s.modHost fun h => { h with linkL12 := false }
    let s := ((s.setF F.memStatusCh0State 2).setF F.memStatusCh1State 2).modMem fun x =>
      { x with rank1Training := 1 < s.rankCount }
    let s := if 1 < s.rankCount then s.lbRankSwitch true else s
    let s := forEach [0, 1] s fun s c => s.modRank c 0 fun r => { r with selfRef := false }
    let s := forEach (s.configured.filter s.inRank1) s fun s n => s.loseWindow n
    let s := (((s.useImage (s.getF F.updSlotsActive) s.upd.runningImage).secStart).loadMicro bad).startSlate true
    let s := (s.startSettings false false).setF F.cntCtrlLinkEn (if s.role = roleNone then 0 else 1)
    let s := ((s.loadLoops bad).loadZones s.wedges).2
    done (s.loadNandRec.startStep 8)
  else
    let s := (s.modPwr fun p => { p with keptDigest := none }).modMem fun _ => Mem.reset
    let s := (((s.dropHost).restoreDailies).modTsk fun _ => Takes.reset).modSlt fun x => { x with dramCopy := none }
    let cold := fun (_ : Nat) (c : Channel) => { c with keptRate := none }
    let s := s.modFch fun f => { f with hints := [], chans := sparseMap (fun _ => Channel.reset) cold f.chans }
    let s := s.modHost fun h => { h with linkL12 := false }
    done (((s.setReg A.memStatus (regReset A.memStatus)).dormantStart true).runStart bad)

/-- COLD_RESET (R26, R29, R567, R571, R572, R577): V3P3_AON rises. What the NVS and the media hold stays; all
else is at its reset value, and the start waits for the splice. -/
def execColdReset (lfPresent : Bool) (s : State) : Host.Outcome State Fault Refusal :=
  let old := s
  let s := s.cutDump.modFtl fun f => { f with temps := f.tempsSaved }
  let s := ((((s.dropHost).restoreDailies).dropPair false).dropUnits false).coldRegs
  let s := { s with mgt := Mgmt.reset, ten := [], pwr := Power.reset
                    fab := { Fabric.reset with lfRc := !lfPresent } }
  let s := s.modHost fun h => { h with vfEnable := false, numVfs := 0 }
  let s := s.modNvs fun x => { x with op := none, unlockAt := none, armedAt := none, owner := none, readWaits := none }
  let s := s.modSec fun x => { x with powerCount := x.powerCount + 1 }
  let s := s.showNvs old
  done (s.railsUp.noteReset 0)

/-- NRESET_ASSERT (R569): the path is fenced, the dump and the unload start; in Dormant and Standby the logic die
is held at once. -/
def execNresetAssert (heldNs : Nat) (s : State) : Host.Outcome State Fault Refusal :=
  let taken := s.pinTaken heldNs 1000 10000
  let s := s.drew
  if !taken then done s
  else
    let s := s.modPwr fun p => { p with nreset := true }
    if s.pwr.resetting.isSome || s.pwr.failing then done s
    else
      let s := s.noteReset 1
      let on := s.logicOn
      let s := s.modPwr fun p => { p with resetting := some { dumped := false, unloadAt := s.tick }, spin := none }
      if !on then done s.resetStep
      else
        done ((forEach [0, 1] s.startDump fun s a => s.unloadAct a).resetStep)

/-- NRESET_RELEASE (R569): the logic die restarts if dump and unload have ended. -/
def execNresetRelease (s : State) : Host.Outcome State Fault Refusal :=
  if !s.pwr.nreset then done s
  else done ((s.modPwr fun p => { p with nreset := false }).resetStep)

/-- UNLOAD_TIMEOUT (R569): heads not on the ramp 0.5 s after the reset's unload started are retracted. -/
def execUnloadTimeout (act : Nat) (s : State) : Host.Outcome State Fault Refusal :=
  match s.pwr.resetting with
  | some r =>
    if 2 ≤ act || s.actState act ≠ 6 || !s.since r.unloadAt 500000000 then done s
    else
      done (s.retractAct act)
  | none => done s

/-- A supply reading lies below a threshold that is somewhere between two bounds, in mV. -/
def State.below (s : State) (mv always never : Nat) : Bool := mv < always || (mv < never && bit s.free 0)

/-- POWER_FAIL_EVENT (R229, R307, R552, R594, R595): V12 falls below 10.0 to 10.5 V: the heads retract, HOLD_GATE
turns the switch off, and the dump starts. -/
def execPowerFailEvent (mv : Nat) (s : State) : Host.Outcome State Fault Refusal :=
  let low := s.below mv 10000 10500
  let s := s.drew
  if !low then done s
  else
    let s := ((s.setF F.drvV12Mv mv).setF F.drvStatusPwrFail 1).setF F.drvStatusHoldOn 0
    let s := ((s.setF F.drvFaultPowerFail 1).incF F.drvEventsPowerFail).alertPowerFail
    let s := ((s.emergencyRetract 1).nvsPowerFail).modPwr fun p => { p with failing := true, v12UpSince := none, spin := none }
    let s := forEach [0, 1] s fun s a => s.dropReads a
    done (if s.logicOn then s.startDump else s)

/-- V12_RISE (R594): V12 passes 10.5 to 10.7 V and HOLD_GATE turns the switch on. -/
def execV12Rise (mv : Nat) (s : State) : Host.Outcome State Fault Refusal :=
  let low := s.below mv 10500 10700
  let s := s.drew
  if low then done s
  else
    let s := ((s.setF F.drvV12Mv mv).setF F.drvStatusPwrFail 0).setF F.drvStatusHoldOn 1
    done (s.modPwr fun p => { p with v12UpSince := some s.tick })

/-- HOLD_SWITCH_OFF (R594): V12 is more than 100 mV below VHOLD. -/
def execHoldSwitchOff (mv : Nat) (s : State) : Host.Outcome State Fault Refusal :=
  done ((s.setF F.drvV12Mv mv).setF F.drvStatusHoldOn 0)

/-- VHOLD_UNDERVOLTAGE (R596, R599): below 7.8 to 8.2 V the rails are released; a dump in progress stays
incomplete, and the contents of DRAM are lost. -/
def execVholdUndervoltage (mv : Nat) (s : State) : Host.Outcome State Fault Refusal :=
  let low := s.below mv 7800 8200
  let s := s.drew
  if !low then done s
  else
    let s := ((s.setF F.drvVholdMv mv).setF F.drvFaultVholdUv 1).setF F.drvStatusEnCore 0
    let s := s.cutDump.closePath.modMem fun _ => Mem.reset
    done (s.modPwr fun p => { p with enRet := false, logicHeld := true, keptDigest := none })

/-- POWER_RETURN_RESTART (R595): with the dump durable and V12 up for 100 ms the logic die restarts as at a warm
reset; in Dormant and Standby nothing was lost, unless the retention rails were. -/
def execPowerReturnRestart (s : State) : Host.Outcome State Fault Refusal :=
  match s.pwr.v12UpSince with
  | some t =>
    if !s.pwr.failing || s.ftl.dumping || s.pwr.resetting.isSome || !s.since t 100000000 then done s
    else if (s.inMode .dormant || s.inMode .standby) && s.pwr.starting.isNone && !s.pwr.logicHeld then
      done ((s.modPwr fun p => { p with failing := false }).modNvs fun x => { x with stopped := false })
    else done (s.warmRestart.noteReset 1)
  | none => done s

/-- HEATER_FAULT (R314): the drive die turns the actuator's heater off until its next LOAD. -/
def execHeaterFault (act : Nat) (s : State) : Host.Outcome State Fault Refusal :=
  if 2 ≤ act then done s
  else
    let s := s.setF (if act = 0 then F.drvFaultHtr0 else F.drvFaultHtr1) 1
    let s := s.modFab fun f => { f with outputs := sparsePut (fun _ => 0) f.outputs (3 * act + 2) 0 }
    done (s.modServoAct act fun x => { x with heaterOff := true })

end Sys2Proof.Machine
end

