-- ==== Sys2Proof/Machine/RegRead.lean ====
section
/-! DEFINITION. What a register reads as (R8, R9, R31, R33–R36): fields that the state of a unit determines,
windows that a selector register points at, the controller registers and MSI-X tables of Tables 03.17 and 04.7,
and reads that have an effect. -/

namespace Sys2Proof.Machine

/-- A register word with fields replaced. -/
def withFields (w : Word) (l : List (Field × Nat)) : Word := l.foldl (fun w (f : Field × Nat) => f.1.put w f.2) w

/-- The state a meaning answers. -/
def nextOf (o : Host.Outcome State Fault Refusal) (s : State) : State := match o with
  | .next t => t
  | _ => s

/-- The 64 bytes of a context record (Table 10.9; AREA: log entry 48). -/
def Ctx.bytes (x : Ctx) (h : Nat) : List Byte :=
  leBytes 2 x.tenant ++ leBytes 2 x.gen ++ leBytes 1 x.st.code ++ leBytes 1 x.cluster ++ leBytes 1 x.total
    ++ leBytes 1 x.done ++ leBytes 6 x.budgetLeft ++ leBytes 1 x.restarts ++ leBytes 1 x.reason
    ++ leBytes 8 x.retired ++ leBytes 8 x.retiredAll ++ leBytes 2 x.script ++ leBytes 2 (x.tasks.headD 0)
    ++ leBytes 2 x.key.sq ++ leBytes 2 x.key.cid ++ leBytes 1 x.sharedBase ++ leBytes 1 x.sharedSize
    ++ leBytes 1 x.faultTask ++ leBytes 1 0 ++ leBytes 4 (Config.takeAreaPage h) ++ leBytes 4 x.faultPc
    ++ leBytes 4 x.faultAddr ++ leBytes 4 x.result ++ zeros 4

def BandSt.code : BandSt → Nat
  | .empty => 0 | .opened => 1 | .full => 2 | .clockBad => 3 | .retired => 4 | .unusable => 5

/-- ENG_E_STATE.STATE (Table 09.14). The switch of R158 is part of the dispatch here, so 3 is not seen. -/
def engineState (s : State) (e : Nat) : Nat :=
  let x := s.proc e
  if bit (s.getF F.engFencedFenced) e then 4
  else if !x.running then 0
  else match x.stall with
    | none => 1
    | some (.tend _) => 1
    | some _ => 2

/-- The longest run of consecutive free units. -/
def longestRun : List Bool → Nat → Nat → Nat
  | [], run, best => max run best
  | true :: t, run, best => longestRun t (run + 1) best
  | false :: t, run, best => longestRun t 0 (max run best)

/-- A mask of the numbers below `n` that pass. -/
def bitMask (n : Nat) (p : Nat → Bool) : Nat := ((List.range n).filter p).foldl (fun m i => m + 2 ^ i) 0

/-- Bits of CC that NVMe defines (log entry 25): EN, CSS, MPS, AMS, SHN, IOSQES, IOCQES and CRIME; the others are
reserved (R8). -/
def ccMask : Nat := 0x01FFFFF1

/-- The fast clocks of Table 01.3. -/
inductive FastClock where
  | fabric | engine | management | control
  | adc (a : Nat)
  | onfi | ddr | pcie | continuity
deriving DecidableEq, Repr

/-- The states of a clock (R27): O, G with idle consumers, R. -/
inductive ClockSt where
  | stopped | gated | running
deriving DecidableEq, Repr

/-- Table 01.3 for the modes in which the logic die runs; `gated` stands for G. A start still shows the mode it
leaves. -/
def FastClock.entry (c : FastClock) (mode : Nat) : ClockSt := match c with
  | .fabric => if mode = 3 then .gated else .running
  | .engine => if mode = 4 then .running else .gated
  | .adc _ => if mode ≤ 2 then .stopped else if mode = 4 then .running else .gated
  | .onfi => if mode = 3 then .gated else .running
  | _ => .running

namespace State

/-! ## Fields that the state determines -/

/-- The consumers of a clock have work (R27, Table 01.3): the slate's columns, an engine with a task, a disk channel
with an access, a LUN with an operation. -/
def clockWanted (s : State) : FastClock → Bool
  | .fabric => !s.slt.gated
  | .engine => s.eng.procs.any fun e => isEngine e.1 && e.2.running
  | .adc a => !(s.diskAct a).reads.isEmpty || !(s.diskAct a).writes.isEmpty || (s.diskAct a).verify.isSome
  | .onfi => s.fch.chans.any fun c => c.2.luns.any fun l => !l.2.queue.isEmpty
  | _ => true

/-- The state of a fast clock (R27, R28): its entry of Table 01.3 in the mode, with G read as gated while the
consumers are idle. During a start the PLLs have locked (R573). -/
def clockState (s : State) (c : FastClock) : ClockSt :=
  if !s.logicOn then .stopped
  else match c.entry (s.getF F.pwrModeMode) with
    | .gated => if s.clockWanted c then .running else .gated
    | e => e

/-- DEV (Tables 01.3, 01.7–01.9). -/
def devFields (s : State) (path : Path) (a : Nat) : List (Field × Nat) :=
  if a = A.devTimecodeHi then
    [(F.devTimecodeHiTimeHi, match path with
      | .i3c => s.fab.hiI3c
      | .core => s.fab.hiCore
      | _ => s.fab.hiBar0)]
  else if a = A.devClkStatus then
    let lock := fun (c : FastClock) => (s.clockState c != .stopped).toNat
    [(F.devClkStatusLfSrc, s.fab.lfRc.toNat), (F.devClkStatusCntLock, lock .continuity),
     (F.devClkStatusPcieLock, lock .pcie), (F.devClkStatusDdrLock, lock .ddr), (F.devClkStatusOnfiLock, lock .onfi),
     (F.devClkStatusAdc1Lock, lock (.adc 1)), (F.devClkStatusAdc0Lock, lock (.adc 0)),
     (F.devClkStatusCtlLock, lock .control), (F.devClkStatusEngLock, lock .engine),
     (F.devClkStatusFabLock, lock .fabric)]
  else if a = A.devSpliceStatus then [(F.devSpliceStatusCycleLo, s.fab.cycleLogic)]
  else []

/-- HIF (Tables 03.14, 03.15): a link that has trained reads L1 substate while it rests in L1.2. -/
def hifFields (s : State) (a : Nat) : List (Field × Nat) :=
  if a = A.hifLinkStatus then
    if s.host.linkL12 && s.getF F.hifLinkStatusLtssmState = 3 then [(F.hifLinkStatusLtssmState, 6)] else []
  else if a = A.hifLockStatus then [(F.hifLockStatusInUse, s.locksInUse)]
  else []

/-- SLT: the BUILD_TAG of the active image, which Table 02.15 gives two addresses. -/
def sltWord (s : State) (a : Nat) : Option Nat :=
  let tag := fun (o : Nat) => leNat ((List.range 4).map fun i => sparseGet (fun _ => 0) s.slt.active (o + i))
  if a = 0x201C then some (tag 0x20) else if a = 0x2028 then some (tag 0x24) else none

/-- VIN (Table 04.11) and the use registers of an instance (Table 04.10). -/
def vinFields (s : State) (a : Nat) : List (Field × Nat) :=
  if a = A.vinEnabled then
    [(F.vinEnabledMask, bitMask 32 fun i => s.instEnabled (32 * s.getF F.vinEnabledSelSel + i))]
  else if 0x100000 ≤ a && a % 0x1000 = 0x134 then
    let n := a / 0x1000 - 0x100
    [(F.instUseBLocks n, s.poolHeld (n + 1))]
  else []

/-- FTL (Table 06.13; R213, R232). -/
def ftlFields (s : State) (path : Path) (a : Nat) : List (Field × Nat) :=
  if a = A.ftlSpare then [(F.ftlSpareBlocks, s.sparePool)]
  else if a = A.ftlJrnDurableHi then
    [(F.ftlJrnDurableHiSeqHi, sparseGet (fun _ => 0) s.ftl.durHi (pathNum path))]
  else []

/-- DCH band window (Table 07.14). -/
def dchFields (s : State) (a : Nat) : List (Field × Nat) :=
  let n := (a - 0x7000) / 0x400
  let b := s.getF (F.dchBandSelBand n)
  let x := s.band b
  let on : Bool := s.bandAct b = some n
  let val := fun (v : Nat) => if on then v else 0
  if a = A.dchBandInfo n then
    [(F.dchBandInfoState n, if on then x.st.code else 7), (F.dchBandInfoVwp n, val x.vwp)]
  else if a = A.dchBandSpare n then
    [(F.dchBandSpareSkip n, val x.skip.length), (F.dchBandSpareReloc n, val x.reloc.length),
     (F.dchBandSpareCapacity n, val x.capacity)]
  else if a = A.dchBandStamp n then [(F.dchBandStampStamp n, val x.stamp)]
  else []

/-- SRV loop window and flag summary (Table 08.17). -/
def srvFields (s : State) (a : Nat) : List (Field × Nat) :=
  let i := s.getF F.srvLoopSelLoop
  let r := s.loop i
  let any := fun (base n : Nat) => bitMask n fun k => decide ((s.loop (base + k)).sticky ≠ 0)
  if a = A.srvLoopFlags then [(F.srvLoopFlagsFlags, if i < 48 then r.sticky else 0)]
  else if a = A.srvLoopVal then
    if i < 48 then [(F.srvLoopValError, unsignedOf 16 r.ePrev), (F.srvLoopValOutput, unsignedOf 16 r.outSel)] else []
  else if a = A.srvFlagSumLo then [(F.srvFlagSumLoAny, any 0 32)]
  else if a = A.srvFlagSumHi then [(F.srvFlagSumHiAny, any 32 16)]
  else []

/-- A word of a loop record (R313). -/
def loopWord (s : State) (a : Nat) : Nat :=
  field (s.loop ((a - 0x8400) / 0x40)).bytes ((a - 0x8400) % 0x40) 4

/-- ENG (Table 09.14). -/
def engFields (s : State) (a : Nat) : List (Field × Nat) :=
  let e := (a - 0x9100) / 0x20
  if 0x9100 ≤ a && e < 32 && a = A.engEState e then
    let x := s.proc e
    let run := fun (v : Nat) => if x.running then v else 0
    [(F.engEStateState e, engineState s e), (F.engEStateInstance e, run x.tenant), (F.engEStateContext e, run x.ctx)]
  else []

/-- TSK (Tables 10.13, 10.14). -/
def tskFields (s : State) (a : Nat) : List (Field × Nat) :=
  let c := (a - 0xA100) / 0x20
  let ready := fun (p : Nat) => (s.readyList c p).length
  if a = A.tskStore then
    [(F.tskStoreImages, s.tsk.images.length), (F.tskStoreFree, 4096 - s.storeUsed)]
  else if 0xA040 ≤ a && a < 0xA080 then
    let w := (a - 0xA040) / 4
    let h := s.getF F.tskCtxSelHandle
    [(F.tskCtxDataWord w, match s.ctx h with
      | some x => field (x.bytes h) (4 * w) 4
      | none => 0)]
  else if a < 0xA100 || 4 ≤ c then []
  else if a = A.tskCReady01 c then [(F.tskCReady01Level1 c, ready 1), (F.tskCReady01Level0 c, ready 0)]
  else if a = A.tskCReady23 c then [(F.tskCReady23Level3 c, ready 3), (F.tskCReady23Level2 c, ready 2)]
  else if a = A.tskCDelay c then [(F.tskCDelayCount c, (s.delayList c).length)]
  else if a = A.tskCOverflow c then [(F.tskCOverflowCount c, (s.chainList c).length)]
  else if a = A.tskCShared c then
    [(F.tskCSharedLargest c, longestRun ((List.range 64).map (s.sharedFree c)) 0 0),
     (F.tskCSharedFree c, s.sharedUnits c)]
  else []

/-- PMX (Table 11.13). -/
def pmxFields (s : State) (a : Nat) : List (Field × Nat) :=
  if a = A.pmxStatus then
    [(F.pmxStatusMoverBusy, s.pmx.mover.isSome.toNat),
     (F.pmxStatusMoverBank, match s.pmx.mover with
      | some m => m.bank
      | none => 0),
     (F.pmxStatusScanBusy, bitMask 8 fun u => s.pmx.jobs.any fun (j : AccJob) => j.unit = some u)]
  else if a = A.pmxStore then
    let held := s.pagesHeld
    [(F.pmxStoreTenantFree, 1536 - held.countP (512 ≤ ·)), (F.pmxStoreSystemFree, 512 - held.countP (· < 512))]
  else if 0xB040 ≤ a && a < 0xB080 then
    let b := (a - 0xB040) / 4
    [(F.pmxBankOwnerValid b, s.pmx.search.countP fun e => e.1 / 4096 = b && e.2.valid)]
  else []

/-- CMP (Table 11.14): a lane compresses (operation 1) or decompresses. -/
def cmpFields (s : State) (a : Nat) : List (Field × Nat) :=
  if a = A.cmpStatus then
    let lane := fun (l : Nat) => match s.cmp.jobs.find? fun (j : AccJob) => j.unit = some l with
      | some j => if j.op = 1 then 1 else 2
      | none => 0
    [(F.cmpStatusWaiting, min 255 (s.cmp.jobs.countP fun (j : AccJob) => j.unit.isNone)),
     (F.cmpStatusLane, lane 0 + 4 * lane 1 + 16 * lane 2 + 64 * lane 3)]
  else []

/-- SEC slot and namespace windows (Table 12.13). -/
def secFields (s : State) (a : Nat) : List (Field × Nat) :=
  let k := s.getF F.secSlotSelSlot
  if a = A.secSlotInfo then
    match s.keySlot k with
    | some x => [(F.secSlotInfoFull, 1), (F.secSlotInfoClass, x.cls), (F.secSlotInfoBound, (!(s.boundNs k).isEmpty).toNat),
                 (F.secSlotInfoKeyLen, x.key.length)]
    | none => []
  else if a = A.secSlotLabel then
    match s.keySlot k with
    | some x => [(F.secSlotLabelLabel, x.label)]
    | none => []
  else if a = A.secNsKey then
    match s.nsKeySlot (s.getF F.secNsSelNsid) with
    | some k => [(F.secNsKeyBound, 1), (F.secNsKeySlot, k)]
    | none => []
  else []

/-- MEM_FILL (R464) and CNT (Table 14.13). -/
def memCntFields (s : State) (path : Path) (a : Nat) : List (Field × Nat) :=
  if a = A.memFill then [(F.memFillLeft, s.blocksLeft)]
  else if a = A.cntLag then [(F.cntLagLag, (s.lagBytes + 2 ^ 20 - 1) / 2 ^ 20)]
  else if a = A.cntResyncLbaLo then [(F.cntResyncLbaLoLbaLo, (s.longOp 2).pos)]
  else if a = A.cntResyncLbaHi then [(F.cntResyncLbaHiLbaHi, sparseGet (fun _ => 0) s.cnt.lbaHi (pathNum path))]
  else []

/-- MGT: the partner table and the long-operation window (Tables 15.16, 15.17). -/
def mgtFields (s : State) (path : Path) (a : Nat) : List (Field × Nat) :=
  let p := (a - 0x12140) / 16
  let kind := s.getF F.mgtOpSelKind
  let x := if kind < 6 then s.longOp kind else LongOp.reset
  if a = A.mgtLbStatus then [(F.mgtLbStatusPresent, bitMask 16 fun p => (s.lbEntry p).isSome)]
  else if 0x12140 ≤ a && a < 0x12240 then
    match s.lbEntry p with
    | none => []
    | some e =>
      if a = A.mgtLbPidLo p then [(F.mgtLbPidLoPid p, e.pid)]
      else if a = A.mgtLbEntry p then
        [(F.mgtLbEntryPidHi p, e.pid / 2 ^ 32), (F.mgtLbEntryKind p, e.kind), (F.mgtLbEntryI2c p, e.i2c.toNat),
         (F.mgtLbEntryAddr p, e.addr)]
      else if a = A.mgtLbValue p then [(F.mgtLbValueValue p, unsignedOf 32 e.value)]
      else [(F.mgtLbPidTopPidTop p, e.pid / 2 ^ 40)]
  else if a = A.mgtOpInfo then
    [(F.mgtOpInfoState, x.state), (F.mgtOpInfoPosBand, x.posBand.toNat), (F.mgtOpInfoPct, x.pct)]
  else if a = A.mgtOpPosLo then [(F.mgtOpPosLoPosLo, x.pos)]
  else if a = A.mgtOpPosHi then [(F.mgtOpPosHiPosHi, sparseGet (fun _ => 0) s.mgt.posHi (pathNum path))]
  else if a = A.mgtOpEnd then [(F.mgtOpEndSct, x.sct), (F.mgtOpEndSc, x.sc)]
  else []

/-- DRV_STATUS.BOOST_OK: VBST within Table 18.10. -/
def drvFields (s : State) (a : Nat) : List (Field × Nat) :=
  if a = A.drvStatus then
    let mv := s.getF F.drvVbstMv
    [(F.drvStatusBoostOk, (34900 ≤ mv && mv ≤ 37100 : Bool).toNat)]
  else []

/-- The fields of a register that the state determines. -/
def derivedFields (s : State) (path : Path) (a : Nat) : List (Field × Nat) :=
  if 0x100000 ≤ a then s.vinFields a
  else if 0x20000 ≤ a then s.drvFields a
  else match a / 0x1000 with
    | 0 => s.devFields path a
    | 3 => s.hifFields a
    | 4 => s.vinFields a
    | 6 => s.ftlFields path a
    | 7 => s.dchFields a
    | 8 => s.srvFields a
    | 9 => s.engFields a
    | 10 => s.tskFields a
    | 11 => s.pmxFields a
    | 12 => s.cmpFields a
    | 13 => s.secFields a
    | 14 => s.memCntFields path a
    | 15 => s.memCntFields path a
    | 18 => s.mgtFields path a
    | _ => []

/-! ## Controller registers and MSI-X tables -/

/-- The function and the place of a controller register or MSI-X word (Tables 03.17, 04.7); MSI-X offsets are
given as in an instance window. The physical function's registers stand at 0x400000 on its BAR0 (log entry 25). -/
def ctrlPlace (path : Path) (a : Nat) : Option (Nat × Nat) :=
  if 0x100000 ≤ a && a < 0x300000 then
    let off := a % 0x1000
    if off < 0x40 || (0xC00 ≤ off && off < 0xE04) then some (a / 0x1000 - 0xFF, off) else none
  else if path = .bar0 && 0x400000 ≤ a && a < 0x404000 then
    let off := a - 0x400000
    if off < 0x40 then some (0, off)
    else if 0x3000 ≤ off && off < 0x3200 then some (0, off - 0x3000 + 0xC00)
    else if 0x3800 ≤ off && off < 0x3804 then some (0, 0xE00) else none
  else none

/-- A word of the controller registers or the MSI-X table of a function. -/
def ctrlRead (s : State) (fn off : Nat) : Nat :=
  let c := s.ctrl fn
  let mqes := if fn = 0 then 4095 else ((s.tenant (fn - 1)).record.map (fun (r : InstRec) => r.queueEntries - 1)).getD 0
  if 0xE00 ≤ off then bitMask 32 fun v => (sparseGet (fun _ => MsixEntry.reset) c.msix v).pend
  else if 0xC00 ≤ off then
    let v := (off - 0xC00) / 16
    let e := sparseGet (fun _ => MsixEntry.reset) c.msix v
    if s.vectorsOf fn ≤ v then 0
    else match off % 16 / 4 with
      | 0 => e.addr % 2 ^ 32
      | 1 => e.addr / 2 ^ 32
      | 2 => e.data
      | _ => e.masked.toNat
  else match off with
    | 0x00 => mqes + 2 ^ 16 + 12 * 2 ^ 24
    -- DSTRD, NSSRS, MPSMIN (R88), PMRS, CMBS (R101) and NSSS read 0
    | 0x04 => bits (Config.capHigh fn) 27 2 * 2 ^ 27 + bits (Config.capHigh fn) 20 4 * 2 ^ 20 + bits (Config.capHigh fn) 5 11 * 32
    | 0x08 => 0x20000
    | 0x0C => c.intMask
    | 0x10 => c.intMask
    | 0x14 => c.cc
    | 0x1C => c.rdy.toNat + c.shst * 4 + s.host.fwHold.toNat * 32
    | 0x24 => c.aqa
    | 0x28 => c.asq % 2 ^ 32
    | 0x2C => c.asq / 2 ^ 32
    | 0x30 => c.acq % 2 ^ 32
    | 0x34 => c.acq / 2 ^ 32
    | _ => 0

/-- One half of a 64-bit value replaced. -/
def putHalf (old : Nat) (high : Bool) (v : Nat) : Nat :=
  if high then v * 2 ^ 32 + old % 2 ^ 32 else old / 2 ^ 32 * 2 ^ 32 + v

/-- A write of a controller register or MSI-X word but for CC.EN, which has commands of its own. An unmasked
vector with its bit pending is sent. A shutdown that CC.SHN asks for is complete at once, since the write buffer is
protected (R205; log entry 25). -/
def ctrlWrite (s : State) (fn off : Nat) (v : Nat) : State :=
  if 0xE00 ≤ off then s
  else if 0xC00 ≤ off then
    let n := (off - 0xC00) / 16
    if s.vectorsOf fn ≤ n then s
    else
      let e := sparseGet (fun _ => MsixEntry.reset) (s.ctrl fn).msix n
      let e := match off % 16 / 4 with
        | 0 => { e with addr := putHalf e.addr false (v / 4 * 4) }
        | 1 => { e with addr := putHalf e.addr true v }
        | 2 => { e with data := v }
        | _ => { e with masked := bit v 0 }
      let send := e.pend && !e.masked
      let e := if send then { e with pend := false } else e
      s.modCtrl fn fun c =>
        { c with msix := sparsePut (fun _ => MsixEntry.reset) c.msix n e, irqs := if send then c.irqs ++ [n] else c.irqs }
  else s.modCtrl fn fun c => match off with
    | 0x0C => { c with intMask := c.intMask ||| v }
    | 0x10 => { c with intMask := c.intMask - (c.intMask &&& v) }
    | 0x14 => { c with cc := (v &&& ccMask) / 2 * 2 + c.cc % 2, shst := if bits v 14 2 = 0 then c.shst else 2 }
    | 0x24 => { c with aqa := v &&& 0x0FFF0FFF }
    | 0x28 => { c with asq := putHalf c.asq false (v / 4096 * 4096) }
    | 0x2C => { c with asq := putHalf c.asq true v }
    | 0x30 => { c with acq := putHalf c.acq false (v / 4096 * 4096) }
    | 0x34 => { c with acq := putHalf c.acq true v }
    | _ => c

/-! ## Reads -/

/-- A read that an access path may make now (R34, R35). -/
def admitRead (s : State) (path : Path) (a : Nat) : Bool :=
  if !s.logicOn then path = .i3c && onDriveDie a
  else if path = .vf then
    0x100000 ≤ a && a < 0x300000 && s.host.vfEnable && (a - 0x100000) / 0x1000 < s.host.numVfs
  else true

/-- The registers whose read is a command of its own (R31, R72, R213, R514, Tables 12.13, 16.12). -/
def readCommand (s : State) (path : Path) (a : Nat) : Option State :=
  if a = A.devTimecodeLo then some (nextOf (execTimecodeLoRead path s) s)
  else if a = A.ftlJrnDurableLo then some (nextOf (execJrnDurableLoRead path s) s)
  else if a = A.sltShadowData then some (nextOf (execShadowDataAccess path none s) s)
  else if a = A.secBlobData then some (nextOf (execBlobDataAccess path none s) s)
  else if a = A.updSetData then some (nextOf (execSetDataAccess path none s) s)
  else if a = A.tfData then some (nextOf (execTfDataAccess path none s) s)
  else none

/-- The upper half of a position is latched for its path by a read of the lower half (R31). -/
def latchHalf (s : State) (path : Path) (a : Nat) : State :=
  if a = A.mgtOpPosLo then
    let kind := s.getF F.mgtOpSelKind
    let x := if kind < 6 then s.longOp kind else LongOp.reset
    s.modMgt fun m => { m with posHi := sparsePut (fun _ => 0) m.posHi (pathNum path) (x.pos / 2 ^ 32) }
  else if a = A.cntResyncLbaLo then
    s.modCnt fun c => { c with lbaHi := sparsePut (fun _ => 0) c.lbaHi (pathNum path) ((s.longOp 2).pos / 2 ^ 32) }
  else s

/-- A 32-bit read: the value, and the state after latching and clearing. The power estimate is a free value. -/
def busRead (s : State) (path : Path) (a : Nat) : Nat × State :=
  if !s.admitRead path a then (0, s)
  else if crossesSplice path a && !s.onF F.devSpliceStatusUp then
    (0xFFFFFFFF, s.setF F.devSpliceStatusMgtFail 1)
  else if crossesSplice path a && s.fab.mgtFailed.contains path then (0xFFFFFFFF, s.mgtFailureTold path)
  else match ctrlPlace path a with
  | some (fn, off) => (s.ctrlRead fn off, s)
  | none => match s.readCommand path a with
    | some t => (match t.host.bus with
        | .data v => v
        | _ => 0, t)
    | none => match s.sltWord a with
      | some v => (v, s)
      | none =>
        if 0x8400 ≤ a && a < 0x9000 then (s.loopWord a, s)
        else if a = A.pwrEstimate then (s.free % 2 ^ 32, s.drew)
        else ((withFields (s.reg a) (s.derivedFields path a)).toNat, (s.latchHalf path a).clearOnRead a)

end State

end Sys2Proof.Machine
end

