-- ==== Sys2Proof/Machine/RegBus.lean ====
section
/-! DEFINITION. A 32-bit register write by an agent that names an address only (I3C frames, stores of the
management core pair): the plain fields first, then the actions of the word, then LOCK (R11, R36). -/

namespace Sys2Proof.Machine
namespace State

/-- A write of the flags of the selected loop (Table 08.17): 1 clears. -/
def clearLoopFlags (s : State) (v : Nat) : State :=
  let i := s.getF F.srvLoopSelLoop
  if 48 ≤ i then s
  else s.modLoop i fun r => { r with sticky := r.sticky &&& (255 - v % 256) }

/-- A write to the fields of an address that have no command of their own (R10). -/
def plainWrite (s : State) (path : Path) (a : Nat) (v : Word) : State :=
  match ctrlPlace path a with
  | some (fn, off) => match s.admitWrite path a with
    | (true, s) => s.ctrlWrite fn off v.toNat
    | (false, s) => s
  | none =>
    if a = A.srvLoopFlags then match s.admitWrite path a with
      | (true, s) => s.clearLoopFlags v.toNat
      | (false, s) => s
    else
      let s := s.regWrite path a v
      if a = A.mgtAlertStatus then
        s.modMgt fun m => { m with ibiPending := m.ibiPending.filter fun b => s.onF ⟨a, b, 1⟩ }
      else s

end State

/-- REGISTER_WRITE (R10, R34): a write to fields without a command of their own. A cleared alert bit
withdraws its in-band interrupt (R533). -/
def execRegisterWrite (path : Path) (addr : Nat) (value : Word) (s : State) :
    Host.Outcome State Fault Refusal :=
  done (s.plainWrite path addr value)

/-- What one action of a register write does. -/
abbrev Action := State → Host.Outcome State Fault Refusal

/-- Actions named by the bits of a word that are set. -/
def whenBits (l : List (Bool × Action)) : List Action :=
  l.filterMap fun (e : Bool × Action) => if e.1 then some e.2 else none

/-- The mode order that PWR_MODE_CMD.TARGET names; 9–15 are dropped (Table 15.15). -/
def modeActions (path : Path) (t : Nat) : List Action := match t with
  | 0 => [execModeOrderDormant path]
  | 1 => [execModeOrderStandby path]
  | 2 => [execModeOrderDoze path]
  | 3 => [execModeOrderReady path]
  | 4 => [execModeOrderReady path]
  | 5 => [execModeOrderReadOnly path]
  | 6 => [execModeOrderService path]
  | 7 => [execModeOrderSafe path]
  | 8 => [execModeOrderLeave path]
  | _ => []

/-- The actuator command that SRV_ACT_CMD.OP names; any other sets CMD_DROPPED (R300). -/
def actActions (path : Path) (act : Nat) (v : Word) : List Action :=
  let head := (F.srvActCmdHead act).get v
  let track := (F.srvActCmdTrack act).get v
  match (F.srvActCmdOp act).get v with
  | 1 => [execLoad act path]
  | 2 => [execUnload act path]
  | 3 => [execSeekRead act head track path]
  | 4 => [execSeekWrite act head track path]
  | 5 => [execClearOffline act path]
  | _ => [fun s => done (s.actCommand path act v.toNat (fun _ => false) fun s => s)]

/-- NVS_CMD.OP (Table 16.2), SEC_KEY_CMD.OP (Table 12.3), UPD_CTRL.CMD, CNT_ORDER.OP (Table 14.10). -/
def nvsActions (path : Path) (op : Nat) : List Action := match op with
  | 1 => [execNvsRead path]
  | 2 => [execNvsProgram path]
  | 3 => [execNvsErase path]
  | 4 => [execNvsSuspend path]
  | 5 => [execNvsResume path]
  | 6 => [execNvsBlankCheck path]
  | _ => []
def keyActions (path : Path) (v : Word) : List Action := match F.secKeyCmdOp.get v with
  | 1 => [execKeyLoad path v]
  | 2 => [execKeyGenerate path v]
  | 3 => [execKeyExport path v]
  | 4 => [execKeyErase path v]
  | _ => []
def updActions (path : Path) (v : Word) : List Action := match F.updCtrlCmd.get v with
  | 1 => [execUpdCommit path v]
  | 2 => [execUpdDiscard path v]
  | 3 => [execSettingsSave path v]
  | _ => []
def pairActions (path : Path) (op : Nat) : List Action := match op with
  | 1 => [execPromote path]
  | 2 => [execHandover path]
  | 3 => [execStepDown path]
  | _ => []

/-- The actions of a write to a block of the first 64 KiB but FCH, DCH and SRV. The answers of a preamp
are the environment's: a free value stands for each. -/
def blockActions (path : Path) (a : Nat) (v : Word) : List Action :=
  if a = A.devSpliceStatus then whenBits [(bit v.toNat 2, execSpliceLostClear path)]
  else if a = A.pwrModeCmd then modeActions path (F.pwrModeCmdTarget.get v)
  else if a = A.sltCtrl then whenBits [(bit v.toNat 0 || bit v.toNat 1, execSlateSwap path v)]
  else if a = A.sltShadowData then [execShadowDataAccess path (some v)]
  else if a = A.ftlCtrl then whenBits [(bit v.toNat 0, execCkptNow path v)]
  else if a = A.engFenced then
    ((List.range 32).filter (bit v.toNat)).map fun e => execEngineFence e true
  else if a = A.engUnfence then [execEngineUnfence path v]
  else if 0xB040 ≤ a && a < 0xB080 then [execBankOwnerWrite path ((a - 0xB040) / 4) v]
  else if a = A.cmpInject then [execCmpInject path v]
  else if a = A.secKeyCmd then keyActions path v
  else if a = A.secBlobData then [execBlobDataAccess path (some v)]
  else if a = A.secNsKey then [execNsKeyBind path v]
  else if a = A.secLifecycle then [execLifecycleLock path v]
  else if a = A.memCtrl then whenBits [(F.memCtrlRetrain.get v != 0, execMemRetrain path v)]
  else if a = A.memHealCtrl then [execHeal path v]
  else if a = A.memFlipCtrl then [execFlipArm path v]
  else if a = A.cntCtrl then
    whenBits [(bit v.toNat 0, execLinkEnable path v), (!bit v.toNat 0, execLinkDisable path v),
              (bit v.toNat 1, execLinkRetrain path v)]
  else if a = A.cntOrder then pairActions path (F.cntOrderOp.get v)
  else []

/-- FCH_CTRL.RETRAIN (R170): it reads 1 until the retrain ends; a channel that is fenced takes none. -/
def State.askRetrain (s : State) (ch : Nat) : State :=
  (s.setF (F.fchCtrlRetrain ch) (!(s.chan ch).fenced).toNat).beginRetrain ch

/-- FCH_CTRL and FCH_LUN_FENCE of a channel (Tables 05.10, 05.13). -/
def fchActions (path : Path) (a : Nat) (v : Word) : List Action :=
  let ch := (a - 0x5000) / 0x100
  if a = A.fchCtrl ch then
    whenBits [(bit v.toNat 1, execChannelFence ch true), (bit v.toNat 2, fun s => done (s.askRetrain ch)),
              (bit v.toNat 3, execClearFence ch path)]
  else if a = A.fchLunFence ch then
    ((List.range 32).filter (bit v.toNat)).map fun l => execLunFence ch l true false
  else []

/-- A free value for each head (Table 07.1). -/
def freeChecks (s : State) : List Nat := (List.range 10).map fun i => Config.freeValue (s.freeCtr + 1 + i)

/-- DCH_CTRL and DCH_VERIFY_CTRL of an actuator (Tables 07.11, 07.16). -/
def dchActions (path : Path) (a : Nat) (v : Word) : List Action :=
  let act := (a - 0x7000) / 0x400
  if a = A.dchCtrl act then
    whenBits [(bit v.toNat 1, fun s => execPreampFrame act path (s.free % 256) s.drew),
              (bit v.toNat 2, fun s => execPreampRescan act path (s.free % 65536) (freeChecks s)
                { s with freeCtr := s.freeCtr + 11 })]
  else if a = A.dchVerifyCtrl act then
    whenBits [(bit v.toNat 31, execBandVerifyGo act path v), (bit v.toNat 30, execBandVerifyAbort act path)]
  else []

/-- The SRV block (Table 08.17). -/
def srvActions (path : Path) (a : Nat) (v : Word) : List Action :=
  if a = A.srvCtrl then whenBits [(bit v.toNat 2, execLoopTableCheck path v), (bit v.toNat 1, execClearFlags path v)]
  else if a = A.srvSpin then [execSpinStart path v, execSpinStop path v]
  else if a = A.srvActCmd 0 then actActions path 0 v
  else if a = A.srvActCmd 1 then actActions path 1 v
  else if a = A.srvTuneCtrl then [execTuneStart path v, execTuneAbort path v]
  else if 0x8400 ≤ a && a < 0x9000 then [execLoopRecordWrite path a v]
  else []

/-- NVS, UPD and MGT (Tables 16.11, 16.12, 15.16). -/
def highActions (path : Path) (a : Nat) (v : Word) : List Action :=
  if a = A.nvsUnlock then [execNvsUnlock path v]
  else if a = A.nvsCmd then nvsActions path (F.nvsCmdOp.get v)
  else if a = A.updCtrl then updActions path v
  else if a = A.updData then [execUpdData path v]
  else if a = A.updSetData then [execSetDataAccess path (some v)]
  else if a = A.tfCtrl then
    whenBits [(bit v.toNat 0, fun s => done (s.tfGo path)), (bit v.toNat 1, execTfAbort path)]
  else if a = A.tfData then [execTfDataAccess path (some v)]
  else if a = A.mgtLbCtrl then whenBits [(bit v.toNat 1, execLbRescan path)]
  else []

/-- CC.EN of a controller (R134, R135): a change of the bit is a command of its own. -/
def ctrlActions (s : State) (fn off : Nat) (v : Word) : List Action :=
  let on := bit (s.ctrl fn).cc 0
  if off ≠ 0x14 || on = bit v.toNat 0 then []
  else if !on then [execCcEnSet fn v.toNat]
  else if fn = 0 then [fun s => done ((s.discardCmds 0).resetCtrl 0 true)]
  else [execCcEnClear (fn - 1)]

/-- The actions of a register write. -/
def writeActions (s : State) (path : Path) (a : Nat) (v : Word) : List Action := match State.ctrlPlace path a with
  | some (fn, off) => ctrlActions s fn off v
  | none =>
    if 0x20000 ≤ a then []
    else if 0x10000 ≤ a then highActions path a v
    else if a / 0x1000 = 5 then fchActions path a v
    else if a / 0x1000 = 7 then dchActions path a v
    else if a / 0x1000 = 8 then srvActions path a v
    else blockActions path a v

namespace State

/-- A word without the LOCK bit of its register. -/
def withoutLock (a : Nat) (v : Word) : Word := match lockField a with
  | some f => if f.addr = a then f.put v 0 else v
  | none => v

/-- A 32-bit write to an address of the management space (R10, R11, R36): the fields and the actions of the word
first, as if it did not set LOCK, then LOCK. -/
def busWrite (s : State) (path : Path) (a : Nat) (v : Word) : State :=
  match s.admitWrite path a with
  | (false, s) => s
  | (true, _) =>
    let u := withoutLock a v
    let acts := writeActions s path a u
    let s := acts.foldl (fun s (f : Action) => nextOf (f s) s) (s.plainWrite path a u)
    match lockField a with
    | some f => if f.addr = a && f.get v = 1 then s.setF f 1 else s
    | none => s

end State

/-- BLOCK_LOCK (R11): the other fields of the word take their values and the actions it requests are accepted as if
LOCK were clear, then LOCK is set. A word without LOCK is a plain write. -/
def execBlockLock (path : Path) (addr : Nat) (value : Word) (s : State) :
    Host.Outcome State Fault Refusal :=
  done (match lockField addr with
    | some f =>
      if f.addr = addr && f.get value = 1 then s.busWrite path addr value
      else s.regWrite path addr value
    | none => s.regWrite path addr value)

end Sys2Proof.Machine
end

