-- ==== Sys2Proof/Machine/I3c.lean ====
section
/-! DEFINITION. The I3C target (R504–R510, R533): common command codes, addresses, hot-join, request and response
frames, in-band interrupts. In HDR-DDR the bus carries frames only, so a CCC has no effect there. A direct CCC
is sent to the dynamic address and finds no target without one. -/

namespace Sys2Proof.Machine
namespace State

/-! ## Addresses and events -/

def hasAddress (s : State) : Bool := s.onF F.mgtI3cStatusDaValid

/-- The target takes a dynamic address. -/
def takeAddress (s : State) (da : Nat) : State :=
  ((s.setF F.mgtI3cStatusDynAddr da).setF F.mgtI3cStatusDaValid 1).modMgt fun m => { m with hjDue := none }

/-- The target has no dynamic address; its next hot-join is due in 1 s (R506). -/
def dropAddress (s : State) : State :=
  ((s.setF F.mgtI3cStatusDynAddr 0).setF F.mgtI3cStatusDaValid 0).modMgt fun m =>
    { m with hjDue := some (s.tick + 64 * 1000000000) }

/-- A CCC that the target sees. -/
def ccc (s : State) (act : State → State) : Host.Outcome State Fault Refusal :=
  if s.mgt.hdr then done s else done (act s)

/-- A direct GET: its bytes, or none where no address is held. -/
def cccGet (s : State) (l : List Byte) : Host.Outcome State Fault Refusal :=
  s.ccc fun s => s.modMgt fun m => { m with lastRead := if s.hasAddress then l else [] }

/-- Alert bits pending and enabled, at most 15 (Table 15.2; which enable: log entry 51). -/
def pendingAlerts (s : State) : Nat :=
  let w := (s.reg A.mgtAlertStatus).toNat &&& s.getF F.mgtAlertEnEn
  min 15 ((List.range 32).countP (bit w))

/-- The provisional ID (Table 15.1). -/
def provisionalId (s : State) : Nat :=
  Config.manufacturer % 2 ^ 15 * 2 ^ 33 + 0x9632 * 2 ^ 16 + s.mgt.devnum % 1024

end State

/-- ENEC, DISEC (R505). -/
def execEnec (int hj : Bool) (s : State) : Host.Outcome State Fault Refusal :=
  s.ccc fun s => (s.setFIf int F.mgtI3cStatusIntEn 1).setFIf hj F.mgtI3cStatusHjEn 1

def execDisec (int hj : Bool) (s : State) : Host.Outcome State Fault Refusal :=
  s.ccc fun s => (s.setFIf int F.mgtI3cStatusIntEn 0).setFIf hj F.mgtI3cStatusHjEn 0

/-- RSTDAA (R505, R506). -/
def execRstdaa (s : State) : Host.Outcome State Fault Refusal :=
  s.ccc fun s => s.dropAddress

/-- ENTDAA (R505, R507): a target without an address takes one; I2C_ONLY ignores it. -/
def execEntdaa (da : Nat) (s : State) : Host.Outcome State Fault Refusal :=
  s.ccc fun s => if s.hasAddress || s.onF F.mgtI3cCfgI2cOnly then s else s.takeAddress da

/-- SETMWL, SETMRL (Table 15.2). -/
def execSetmwl (len : Nat) (s : State) : Host.Outcome State Fault Refusal :=
  s.ccc fun s => if 12 ≤ len && len ≤ 265 then s.modMgt fun m => { m with mwl := len } else s

def execSetmrl (len : Nat) (s : State) : Host.Outcome State Fault Refusal :=
  s.ccc fun s => if 8 ≤ len && len ≤ 261 then s.modMgt fun m => { m with mrl := len } else s

/-- ENTHDR0 (R504). -/
def execEnthdr0 (s : State) : Host.Outcome State Fault Refusal :=
  done (s.modMgt fun m => { m with hdr := true })

/-- HDR_EXIT_PATTERN (R504). -/
def execHdrExitPattern (s : State) : Host.Outcome State Fault Refusal :=
  done (s.modMgt fun m => { m with hdr := false })

/-- RSTACT (Table 15.2): action 0x01 resets the target logic only; 0x00 does nothing; others are NACKed. -/
def execRstact (action : Nat) (s : State) : Host.Outcome State Fault Refusal :=
  s.ccc fun s =>
    if action = 0 then s.modMgt fun m => { m with rstAct := 0 }
    else if action = 1 then
      let s := ((s.dropAddress).setF F.mgtI3cStatusIntEn 1).setF F.mgtI3cStatusHjEn 1
      let s := s.modMgt fun m =>
        { m with mwl := 265, mrl := 261, hdr := false, protoErr := false, response := none, lastRead := [], rstAct := 1 }
      s.noteReset 6
    else s

/-- SETDASA (Table 15.2): from STATIC_ADDR, without an address yet. -/
def execSetdasa (stat da : Nat) (s : State) : Host.Outcome State Fault Refusal :=
  s.ccc fun s => if s.hasAddress || stat ≠ s.getF F.mgtI3cCfgStaticAddr then s else s.takeAddress da

/-- SETNEWDA (Table 15.2). -/
def execSetnewda (da : Nat) (s : State) : Host.Outcome State Fault Refusal :=
  s.ccc fun s => if s.hasAddress then s.takeAddress da else s

/-- GETMWL, GETMRL (Table 15.2): most significant byte first; the interrupt payload is 4 bytes. -/
def execGetmwl (s : State) : Host.Outcome State Fault Refusal := s.cccGet (beBytes 2 s.mgt.mwl)
def execGetmrl (s : State) : Host.Outcome State Fault Refusal := s.cccGet (beBytes 2 s.mgt.mrl ++ leBytes 1 4)

/-- GETPID, GETBCR, GETDCR (Table 15.1). -/
def execGetpid (s : State) : Host.Outcome State Fault Refusal := s.cccGet (beBytes 6 s.provisionalId)
def execGetbcr (s : State) : Host.Outcome State Fault Refusal := s.cccGet (leBytes 1 0x26)
def execGetdcr (s : State) : Host.Outcome State Fault Refusal := s.cccGet (leBytes 1 0x00)

/-- GETSTATUS (Table 15.2): the protocol error is read and forgotten. -/
def execGetstatus (s : State) : Host.Outcome State Fault Refusal :=
  let word := s.pendingAlerts + 32 * s.mgt.protoErr.toNat
  s.ccc fun s =>
    if s.hasAddress then s.modMgt fun m => { m with lastRead := beBytes 2 word, protoErr := false }
    else s.modMgt fun m => { m with lastRead := [] }

/-- GETMXDS (Table 15.2): no limit in either direction and no read turnaround. -/
def execGetmxds (s : State) : Host.Outcome State Fault Refusal := s.cccGet (beBytes 2 0)

/-- GETCAPS (Table 15.2): HDR-DDR only. -/
def execGetcaps (s : State) : Host.Outcome State Fault Refusal :=
  s.cccGet (leBytes 1 1 ++ leBytes 1 (Config.getCaps 1) ++ leBytes 1 (Config.getCaps 2))

/-- HOT_JOIN (R506, R507). -/
def execHotJoin (s : State) : Host.Outcome State Fault Refusal :=
  match s.mgt.hjDue with
  | none => done s
  | some t =>
    if s.hasAddress || s.onF F.mgtI3cCfgI2cOnly || !s.onF F.mgtI3cStatusHjEn || s.tick < t then done s
    else done (s.modMgt fun m => { m with hotJoins := m.hotJoins + 1, hjDue := some (s.tick + 64 * 1000000000) })

/-! ## Frames (R508, R509) -/

/-- STATUS of a response (Table 15.4). -/
def frameOk : Nat := 0
def frameLogicOff : Nat := 1
def frameBadCrc : Nat := 2
def frameBadFrame : Nat := 3
def frameAccessFail : Nat := 4
def frameNoRequest : Nat := 5

/-- A response frame (Table 15.4). -/
def responseFrame (status tag : Nat) (count : Nat) (data : List Word) : List Byte :=
  let l := leBytes 1 status ++ leBytes 1 tag ++ leBytes 2 count ++ data.flatMap fun w => leBytes 4 w.toNat
  l ++ [crc8 l]

/-- The bytes of a request frame but its CRC (Table 15.3). -/
def requestBytes (op tag count addr : Nat) (data : List Word) : List Byte :=
  leBytes 1 op ++ leBytes 1 tag ++ leBytes 2 count ++ leBytes 4 addr ++ data.flatMap fun w => leBytes 4 w.toNat

namespace State

/-- What stops a frame at a word: the logic die is off (R35), or the splice does not carry the access (R23). -/
def frameStop (s : State) (a : Nat) : Option Nat :=
  if onDriveDie a then none
  else if !s.logicOn then some frameLogicOff
  else if !s.onF F.devSpliceStatusUp || s.fab.mgtFailed.contains .i3c then some frameAccessFail
  else none

/-- The state once a frame has stopped: the failed access has been answered (R23). -/
def frameStopped (s : State) (e : Nat) : State :=
  if e = frameAccessFail then (s.setF F.devSpliceStatusMgtFail 1).mgtFailureTold .i3c else s

/-- Reads `n` words in frame order: the status, the words read, and the state. -/
def frameRead (s : State) (a step : Nat) : Nat → List Word → Nat × List Word × State
  | 0, l => (frameOk, l, s)
  | n + 1, l => match s.frameStop a with
    | some e => (e, l, s.frameStopped e)
    | none =>
      let (v, s) := s.busRead .i3c a
      frameRead s (a + step) step n (l ++ [BitVec.ofNat 32 v])

/-- Writes words in frame order: the status, the number of words written, and the state. -/
def frameWrite (s : State) (a step : Nat) : List Word → Nat → Nat × Nat × State
  | [], k => (frameOk, k, s)
  | w :: t, k => match s.frameStop a with
    | some e => (e, k, s.frameStopped e)
    | none => frameWrite (s.busWrite .i3c a w) (a + step) step t (k + 1)

/-- The response replaces one that was held (R509). -/
def respond (s : State) (l : List Byte) : State := s.modMgt fun m => { m with response := some l }

/-- A request that does nothing (R509). -/
def badRequest (s : State) (status tag : Nat) : State :=
  (s.incF F.mgtCntFrameErr).respond (responseFrame status tag 0 [])

/-- The fields of a request are legal: COUNT 1–64, a word-aligned management address, and a frame that fits the
stored write length. -/
def requestLegal (s : State) (count addr len : Nat) : Bool :=
  1 ≤ count && count ≤ 64 && addr % 4 = 0 && addr < 0x400000 && len + 1 ≤ s.mgt.mwl

/-- A READ or READ_SAME request; `step` is the distance of its words. -/
def readRequest (s : State) (op step tag count addr : Nat) (crc : Byte) : State :=
  let l := requestBytes op tag count addr []
  if crc8 l ≠ crc then s.badRequest frameBadCrc tag
  else if !s.requestLegal count addr l.length then s.badRequest frameBadFrame tag
  else
    let (st, ws, s) := s.frameRead addr step count []
    s.respond (responseFrame st tag ws.length ws)

/-- A WRITE or WRITE_SAME request. -/
def writeRequest (s : State) (op step tag count addr : Nat) (data : List Word) (crc : Byte) : State :=
  let l := requestBytes op tag count addr data
  if crc8 l ≠ crc then s.badRequest frameBadCrc tag
  else if !s.requestLegal count addr l.length || data.length ≠ count then s.badRequest frameBadFrame tag
  else
    let (st, k, s) := s.frameWrite addr step data 0
    s.respond (responseFrame st tag k [])

end State

/-- I3C_WRITE, I3C_READ, I3C_WRITE_SAME, I3C_READ_SAME (R508, R509). -/
def execI3cWrite (tag count addr : Nat) (data : List Word) (crc : Byte) (s : State) :
    Host.Outcome State Fault Refusal := done (s.writeRequest 1 4 tag count addr data crc)

def execI3cRead (tag count addr : Nat) (crc : Byte) (s : State) : Host.Outcome State Fault Refusal :=
  done (s.readRequest 2 4 tag count addr crc)

def execI3cWriteSame (tag count addr : Nat) (data : List Word) (crc : Byte) (s : State) :
    Host.Outcome State Fault Refusal := done (s.writeRequest 3 0 tag count addr data crc)

def execI3cReadSame (tag count addr : Nat) (crc : Byte) (s : State) : Host.Outcome State Fault Refusal :=
  done (s.readRequest 4 0 tag count addr crc)

/-- I3C_RESPONSE_READ (R509): the held response, or NO_REQUEST; a read ends at the stored read length. -/
def execI3cResponseRead (s : State) : Host.Outcome State Fault Refusal :=
  let l := s.mgt.response.getD (responseFrame frameNoRequest 0 0 [])
  done (s.modMgt fun m => { m with lastRead := l.take m.mrl, response := none })

/-- IBI_RAISE (R533): the lowest pending bit, with its byte and four of payload; a NACK is retried after 1 ms. -/
def execIbiRaise (accepted : Bool) (s : State) : Host.Outcome State Fault Refusal :=
  let due := (List.range 32).find? fun b => s.mgt.ibiPending.contains b && s.onF ⟨A.mgtAlertStatus, b, 1⟩
  match due with
  | none => done s
  | some b =>
    if !s.onF F.mgtI3cStatusIntEn || !s.hasAddress || s.onF F.mgtI3cCfgI2cOnly || s.mgt.hdr
        || s.tick < s.mgt.ibiRetryAt then done s
    else if accepted then
      let l := leBytes 1 (0x80 + b) ++ leBytes 4 (s.reg A.mgtAlertStatus).toNat
      done ((s.incF F.mgtCntIbi).modMgt fun m =>
        { m with ibiPending := m.ibiPending.filter (· ≠ b), lastRead := l })
    else done (s.modMgt fun m => { m with ibiRetryAt := s.tick + 64 * 1000000 })

end Sys2Proof.Machine
end

