-- ==== Sys2Proof/Machine/Druot.lean ====
section
/-! DEFINITION. The Druot instructions (chapter 09). A command is the issue of its instruction by processor `p`
(0–31 the tenant engines, 0x3E and 0x3F the management cores) with the 24 bits of the word below class and
minor; whether the word stands at pc in the code is the sender's concern (log entry 53). Where the processor does
not run, or is stalled, nothing issues. -/

namespace Sys2Proof.Machine

/-! ## Fields of a word (Table 09.6) -/

def fieldD (f : BitVec 24) : Nat := (f.extractLsb' 19 5).toNat
def fieldA (f : BitVec 24) : Nat := (f.extractLsb' 14 5).toNat
def fieldB (f : BitVec 24) : Nat := (f.extractLsb' 9 5).toNat
def fieldFn (f : BitVec 24) : Nat := (f.extractLsb' 0 9).toNat
def imm14 (f : BitVec 24) : BitVec 14 := f.extractLsb' 0 14
def imm19 (f : BitVec 24) : BitVec 19 := f.extractLsb' 0 19

/-- Immediates as 32-bit words. -/
def sext14 (f : BitVec 24) : Word := (imm14 f).signExtend 32
def zext14 (f : BitVec 24) : Word := (imm14 f).setWidth 32
/-- 4 × sext(off19). -/
def branchOff (f : BitVec 24) : Word := (imm19 f).signExtend 32 * 4
/-- imm19 << 13. -/
def upper19 (f : BitVec 24) : Word := (imm19 f).setWidth 32 <<< 13

/-- The unused fields of an R form are zero, and an I form's shift amount is below 32 (R327, Table 09.7). -/
def usesAB (f : BitVec 24) : Bool := fieldFn f = 0
def usesA (f : BitVec 24) : Bool := fieldB f = 0 && fieldFn f = 0
def shiftLegal (f : BitVec 24) : Bool := (imm14 f).toNat < 32

/-! ## Values (Table 09.7, R329) -/

def boolWord (b : Bool) : Word := if b then 1 else 0

def clz32 (w : Word) : Word := if w = 0 then 32 else BitVec.ofNat 32 (31 - Nat.log2 w.toNat)
def popc32 (w : Word) : Word := BitVec.ofNat 32 ((List.range 32).countP fun i => w.getLsbD i)

def mulHigh (a b : Word) : Word := BitVec.ofInt 32 (a.toInt * b.toInt / 2 ^ 32)
def mulHighU (a b : Word) : Word := BitVec.ofNat 32 (a.toNat * b.toNat / 2 ^ 32)

/-- A division by zero writes all ones, remainders included. -/
def divS (a b : Word) : Word := if b = 0 then 0xFFFFFFFF else BitVec.sdiv a b
def divU (a b : Word) : Word := if b = 0 then 0xFFFFFFFF else a / b
def remS (a b : Word) : Word := if b = 0 then 0xFFFFFFFF else BitVec.srem a b
def remU (a b : Word) : Word := if b = 0 then 0xFFFFFFFF else a % b

namespace State

/-! ## Issue and traps (R318, R328, R330, R346, R347) -/

/-- The instruction at pc issues: the lowest trap cause it meets, or its effect. `legal` says that its unused
fields are zero, `profile` is the one that introduced it, `priv` that it is M-only, and `target` the target of a
taken branch or jump. -/
def issue (s : State) (p profile : Nat) (legal priv : Bool) (target : Option Word) (effect : State → State) : State :=
  let x := s.proc p
  if !s.procRuns p || x.stall.isSome then s
  else if x.textLen ≤ x.pc.toNat then s.trap p trapFetch x.pc.toNat false
  else if !legal || x.profile < profile then s.trap p trapIllegal 0 false
  else if priv && isEngine p then s.trap p trapPriv 0 false
  else match target with
  | some t =>
    if t.toNat % 4 ≠ 0 || x.textLen ≤ t.toNat then s.trap p trapFetch t.toNat false
    else if isEngine p && x.grant = 0 then s.trap p trapBudget 0 false
    else effect s
  | none => if isEngine p && x.grant = 0 then s.trap p trapBudget 0 false else effect s

/-- A result is written and the next instruction follows. -/
def writeNext (s : State) (p d : Nat) (v : Word) : State := (s.setG p d v).nextInstr p (s.pcNext p)

/-- R form over two registers. -/
def rForm (s : State) (p profile : Nat) (f : BitVec 24) (op : Word → Word → Word) : State :=
  s.issue p profile (usesAB f) false none fun s =>
    s.writeNext p (fieldD f) (op (s.gReg p (fieldA f)) (s.gReg p (fieldB f)))

/-- R form over one register. -/
def rUnary (s : State) (p profile : Nat) (f : BitVec 24) (op : Word → Word) : State :=
  s.issue p profile (usesA f) false none fun s => s.writeNext p (fieldD f) (op (s.gReg p (fieldA f)))

/-- I form over a register and an immediate. -/
def iForm (s : State) (p : Nat) (f : BitVec 24) (legal : Bool) (op : Word → Word) : State :=
  s.issue p 0x0100 legal false none fun s => s.writeNext p (fieldD f) (op (s.gReg p (fieldA f)))

/-! ## Loads and stores (R320–R325, R331, R337, R340–R342, R620) -/

/-- The data address of a load or store. -/
def dataAddr (s : State) (p : Nat) (f : BitVec 24) : Nat := (s.gReg p (fieldA f) + sext14 f).toNat

/-- A load of memory ends: its bytes, or a BUS trap. -/
def loaded (s : State) (p d a n : Nat) (sext : Bool) (l : Option (List Byte)) : State := match l with
  | some l => s.writeNext p d (extend n sext (leNat l))
  | none => s.trap p trapBus a true

/-- A word of a port page but DATA (Tables 09.2, 09.3). -/
def inPortWord (s : State) (p port off : Nat) : Nat := match s.procCtx p with
  | none => 0
  | some c => match c.inRange port with
    | none => 0
    | some r =>
      if off < 8 then min (c.portHeld r) 0xFFFFFFFF
      else if off < 12 then inPortStatus c port r
      else c.consumedAt port % 2 ^ 32

def outPortWord (s : State) (p port off : Nat) : Nat := match s.procCtx p with
  | none => 0
  | some c => match c.outRange port with
    | none => 0
    | some r =>
      if off < 8 then c.portSpace r
      else if off < 12 then 1 + 2 * (s.portFull (s.proc p).ctx r).toNat
      else c.producedAt port % 2 ^ 32

/-- A word of a doorbell page (Table 09.4), or of the digest window on page 3 (Table 12.8). -/
def slotWord (s : State) (p page off : Nat) : Nat × State :=
  if page = 3 && 0x800 ≤ off && off < 0x900 then s.readDigest p ((off - 0x800) / 0x40) (off % 0x40)
  else if 0x100 ≤ off then (0, s)
  else
    let d := (s.proc p).slot page (off / 0x40)
    (match off % 0x40 with
      | 0x00 => d.desc
      | 0x08 => d.state * 2 ^ 30 + d.refused.toNat * 2 ^ 16 + d.code
      | 0x0C => d.result
      | 0x10 => d.result2
      | _ => 0, s)

/-- A load of `n` bytes at a data address. -/
def loadFrom (s : State) (p d a n : Nat) (sext : Bool) : State :=
  match s.accessAt p a n false with
  | .error c => s.trap p c a false
  | .ok pl => match pl with
    | .loc off => let (l, s) := s.mergeLoad p false off n; s.loaded p d a n sext l
    | .shared off => let (l, s) := s.mergeLoad p true off n; s.loaded p d a n sext l
    | .dram da => let (l, s) := s.dramRead da n; s.loaded p d a n sext l
    | .inPort port off =>
      if 4 ≤ off then s.writeNext p d (BitVec.ofNat 32 (s.inPortWord p port off))
      else if s.popReady p port n then s.finishPop p d port n sext
      else s.modProc p fun x => { x with stall := some (.pop d port n sext) }
    | .outPort port off => s.writeNext p d (BitVec.ofNat 32 (s.outPortWord p port off))
    | .slot page off => let (v, s) := s.slotWord p page off; s.writeNext p d (BitVec.ofNat 32 v)
    | .mgmt ma => let (v, s) := s.busRead .core ma; s.writeNext p d (BitVec.ofNat 32 v)

/-- A store into a doorbell page: DESC, or RING. -/
def slotStore (s : State) (p page off v : Nat) : State :=
  if 0x100 ≤ off then s
  else
    let slot := off / 0x40
    if off % 0x40 = 0 then s.modProc p fun x => x.setSlot page slot { x.slot page slot with desc := v }
    else if off % 0x40 = 4 then s.ring p page slot v
    else s

/-- A store of the `n` low bytes of a value at a data address. -/
def storeTo (s : State) (p a n v : Nat) : State :=
  match s.accessAt p a n true with
  | .error c => s.trap p c a false
  | .ok pl =>
    let next := fun (t : State) => t.nextInstr p (s.pcNext p)
    match pl with
    | .loc off => next (s.mergeStore p false off (leBytes n v))
    | .shared off => next (s.mergeStore p true off (leBytes n v))
    | .dram da => next (s.dramWrite da (leBytes n v))
    | .inPort _ _ => s.trap p trapStream a false
    | .outPort port off =>
      if 4 ≤ off then next s
      else if s.pushReady p port then s.finishPush p port n v
      else s.modProc p fun x => { x with stall := some (.push port n v) }
    | .slot page off => next (s.slotStore p page off v)
    | .mgmt ma => next (s.busWrite .core ma (BitVec.ofNat 32 v))

/-- Cells of a load or store that issues: D0 and D1 of the owner for the DRAM window and for the stage of a port, none
for the rest (R54, R366). -/
def accessNeeds (s : State) (p a n : Nat) (wr : Bool) : List CellNeed :=
  if !s.procRuns p || (s.proc p).stall.isSome then []
  else match s.accessAt p a n wr with
  | .ok (.dram da) => s.dramNeeds (s.procOwner p) da n wr
  | .ok (.inPort port off) => if off < 4 && s.popReady p port n then s.popNeeds p port n else []
  | .ok (.outPort port off) => if wr && off < 4 && s.pushReady p port then s.pushNeeds p port n else []
  | _ => []

def loadForm (s : State) (p : Nat) (f : BitVec 24) (n : Nat) (sext : Bool) : Host.Outcome State Fault Refusal :=
  s.moving (s.accessNeeds p (s.dataAddr p f) n false) fun s =>
    done (s.issue p 0x0100 true false none fun s => s.loadFrom p (fieldD f) (s.dataAddr p f) n sext)

def storeForm (s : State) (p : Nat) (f : BitVec 24) (n : Nat) : Host.Outcome State Fault Refusal :=
  s.moving (s.accessNeeds p (s.dataAddr p f) n true) fun s =>
    done (s.issue p 0x0100 true false none fun s =>
      s.storeTo p (s.dataAddr p f) n ((s.gReg p (fieldD f)).toNat % 2 ^ (8 * n)))

/-! ## Branches (R330) -/

/-- A branch that may be taken; its offset counts from its own address. -/
def branch (s : State) (p : Nat) (f : BitVec 24) (taken : Bool) : State :=
  let t := (s.proc p).pc + branchOff f
  s.issue p 0x0100 true false (if taken then some t else none) fun s =>
    s.nextInstr p (if taken then t else s.pcNext p)

/-! ## System registers (R351, Table 09.11) -/

/-- Engine cycles since dispatch or reset. -/
def cycles (s : State) (p : Nat) : Nat := (s.tick - (s.proc p).since) / 32

/-- A system register that T may read. -/
def sysT (s : State) (p n : Nat) : Option Nat :=
  let x := s.proc p
  let t := fun (v : Nat) => if isEngine p then v else 0
  match n with
  | 0x000 => some (s.cycles p % 2 ^ 32)
  | 0x001 => some x.cycleHi
  | 0x002 => some (x.retired % 2 ^ 32)
  | 0x003 => some x.retiredHi
  | 0x004 => some (t x.grant)
  | 0x006 => some p
  | 0x007 => some (t x.ctx)
  | 0x008 => some (t x.tenant)
  | 0x009 => some x.profile
  | 0x00A => some (s.now % 2 ^ 32)
  | 0x00B => some x.timeHi
  | _ => none

/-- An M-only system register. -/
def sysM (s : State) (p n : Nat) : Option Nat :=
  let x := s.proc p
  let r := sparseGet (fun _ => MpuRegion.reset) x.mpu ((n - 0x110) / 2)
  if 0x110 ≤ n && n < 0x130 then some (if n % 2 = 0 then r.base else r.limit)
  else match n with
  | 0x100 => some x.epc.toNat
  | 0x101 => some x.cause.toNat
  | 0x102 => some x.badaddr.toNat
  | 0x103 => some x.status.toNat
  | 0x104 => some x.tvec.toNat
  | 0x140 => some x.winBase
  | 0x141 => some x.winSize
  | _ => none

/-- A read of a _LO register latches the upper half. -/
def latchSys (s : State) (p n : Nat) : State := match n with
  | 0x000 => s.modProc p fun x => { x with cycleHi := s.cycles p / 2 ^ 32 % 2 ^ 32 }
  | 0x002 => s.modProc p fun x => { x with retiredHi := x.retired / 2 ^ 32 % 2 ^ 32 }
  | 0x00A => s.modProc p fun x => { x with timeHi := s.now / 2 ^ 32 % 2 ^ 32 }
  | _ => s

/-- MTSR of an M-only register; read-only registers ignore it. -/
def setSys (s : State) (p n : Nat) (v : Word) : State :=
  if 0x110 ≤ n && n < 0x130 then
    let i := (n - 0x110) / 2
    s.modProc p fun x =>
      let r := sparseGet (fun _ => MpuRegion.reset) x.mpu i
      let r := if n % 2 = 0 then { r with base := (v &&& 0xFFFFFF00).toNat } else { r with limit := (v &&& 0xFFFFFF83).toNat }
      { x with mpu := sparsePut (fun _ => MpuRegion.reset) x.mpu i r }
  else match n with
  | 0x100 => s.modProc p fun x => { x with epc := v }
  | 0x101 => s.modProc p fun x => { x with cause := v }
  | 0x102 => s.modProc p fun x => { x with badaddr := v }
  | 0x103 => s.modProc p fun x => { x with status := v &&& 3 }
  | 0x104 => s.modProc p fun x => { x with tvec := v }
  | 0x140 => s.modProc p fun x => { x with winBase := v.toNat % 1024 }
  | 0x141 => if 32 < v.toNat % 64 then s else s.modProc p fun x => { x with winSize := v.toNat % 64 }
  | _ => s

end State

/-! ## Rows: arithmetic and logic -/

/-- Class 0, over two registers (Table 09.7). -/
def execAdd (p : Nat) (f : BitVec 24) (s : State) : Host.Outcome State Fault Refusal := done (s.rForm p 0x0100 f (· + ·))
def execSub (p : Nat) (f : BitVec 24) (s : State) : Host.Outcome State Fault Refusal := done (s.rForm p 0x0100 f (· - ·))
def execAnd (p : Nat) (f : BitVec 24) (s : State) : Host.Outcome State Fault Refusal := done (s.rForm p 0x0100 f (· &&& ·))
def execOr (p : Nat) (f : BitVec 24) (s : State) : Host.Outcome State Fault Refusal := done (s.rForm p 0x0100 f (· ||| ·))
def execXor (p : Nat) (f : BitVec 24) (s : State) : Host.Outcome State Fault Refusal := done (s.rForm p 0x0100 f (· ^^^ ·))
def execSll (p : Nat) (f : BitVec 24) (s : State) : Host.Outcome State Fault Refusal :=
  done (s.rForm p 0x0100 f fun a b => a <<< (b.toNat % 32))
def execSrl (p : Nat) (f : BitVec 24) (s : State) : Host.Outcome State Fault Refusal :=
  done (s.rForm p 0x0100 f fun a b => a >>> (b.toNat % 32))
def execSra (p : Nat) (f : BitVec 24) (s : State) : Host.Outcome State Fault Refusal :=
  done (s.rForm p 0x0100 f fun a b => a.sshiftRight (b.toNat % 32))
def execSeq (p : Nat) (f : BitVec 24) (s : State) : Host.Outcome State Fault Refusal :=
  done (s.rForm p 0x0100 f fun a b => boolWord (a == b))
def execSne (p : Nat) (f : BitVec 24) (s : State) : Host.Outcome State Fault Refusal :=
  done (s.rForm p 0x0100 f fun a b => boolWord (a != b))
def execSlt (p : Nat) (f : BitVec 24) (s : State) : Host.Outcome State Fault Refusal :=
  done (s.rForm p 0x0100 f fun a b => boolWord (a.slt b))
def execSltu (p : Nat) (f : BitVec 24) (s : State) : Host.Outcome State Fault Refusal :=
  done (s.rForm p 0x0100 f fun a b => boolWord (a.ult b))
def execMin (p : Nat) (f : BitVec 24) (s : State) : Host.Outcome State Fault Refusal :=
  done (s.rForm p 0x0101 f fun a b => if b.slt a then b else a)
def execMax (p : Nat) (f : BitVec 24) (s : State) : Host.Outcome State Fault Refusal :=
  done (s.rForm p 0x0101 f fun a b => if a.slt b then b else a)
def execMinu (p : Nat) (f : BitVec 24) (s : State) : Host.Outcome State Fault Refusal :=
  done (s.rForm p 0x0101 f fun a b => if b.ult a then b else a)
def execMaxu (p : Nat) (f : BitVec 24) (s : State) : Host.Outcome State Fault Refusal :=
  done (s.rForm p 0x0101 f fun a b => if a.ult b then b else a)
def execClz (p : Nat) (f : BitVec 24) (s : State) : Host.Outcome State Fault Refusal := done (s.rUnary p 0x0101 f clz32)
def execPopc (p : Nat) (f : BitVec 24) (s : State) : Host.Outcome State Fault Refusal := done (s.rUnary p 0x0101 f popc32)

/-- Class 1, over a register and an immediate. -/
def execAddi (p : Nat) (f : BitVec 24) (s : State) : Host.Outcome State Fault Refusal :=
  done (s.iForm p f true (· + sext14 f))
def execAndi (p : Nat) (f : BitVec 24) (s : State) : Host.Outcome State Fault Refusal :=
  done (s.iForm p f true (· &&& zext14 f))
def execOri (p : Nat) (f : BitVec 24) (s : State) : Host.Outcome State Fault Refusal :=
  done (s.iForm p f true (· ||| zext14 f))
def execXori (p : Nat) (f : BitVec 24) (s : State) : Host.Outcome State Fault Refusal :=
  done (s.iForm p f true (· ^^^ zext14 f))
def execSlli (p : Nat) (f : BitVec 24) (s : State) : Host.Outcome State Fault Refusal :=
  done (s.iForm p f (shiftLegal f) (· <<< (imm14 f).toNat))
def execSrli (p : Nat) (f : BitVec 24) (s : State) : Host.Outcome State Fault Refusal :=
  done (s.iForm p f (shiftLegal f) (· >>> (imm14 f).toNat))
def execSrai (p : Nat) (f : BitVec 24) (s : State) : Host.Outcome State Fault Refusal :=
  done (s.iForm p f (shiftLegal f) fun a => a.sshiftRight (imm14 f).toNat)
def execSeqi (p : Nat) (f : BitVec 24) (s : State) : Host.Outcome State Fault Refusal :=
  done (s.iForm p f true fun a => boolWord (a == sext14 f))
def execSnei (p : Nat) (f : BitVec 24) (s : State) : Host.Outcome State Fault Refusal :=
  done (s.iForm p f true fun a => boolWord (a != sext14 f))
def execSlti (p : Nat) (f : BitVec 24) (s : State) : Host.Outcome State Fault Refusal :=
  done (s.iForm p f true fun a => boolWord (a.slt (sext14 f)))
def execSltiu (p : Nat) (f : BitVec 24) (s : State) : Host.Outcome State Fault Refusal :=
  done (s.iForm p f true fun a => boolWord (a.ult (sext14 f)))

/-- Class 6, multiplication and division (R329). -/
def execMul (p : Nat) (f : BitVec 24) (s : State) : Host.Outcome State Fault Refusal := done (s.rForm p 0x0100 f (· * ·))
def execMulh (p : Nat) (f : BitVec 24) (s : State) : Host.Outcome State Fault Refusal := done (s.rForm p 0x0100 f mulHigh)
def execMulhu (p : Nat) (f : BitVec 24) (s : State) : Host.Outcome State Fault Refusal := done (s.rForm p 0x0100 f mulHighU)
def execDiv (p : Nat) (f : BitVec 24) (s : State) : Host.Outcome State Fault Refusal := done (s.rForm p 0x0100 f divS)
def execDivu (p : Nat) (f : BitVec 24) (s : State) : Host.Outcome State Fault Refusal := done (s.rForm p 0x0100 f divU)
def execRem (p : Nat) (f : BitVec 24) (s : State) : Host.Outcome State Fault Refusal := done (s.rForm p 0x0100 f remS)
def execRemu (p : Nat) (f : BitVec 24) (s : State) : Host.Outcome State Fault Refusal := done (s.rForm p 0x0100 f remU)

/-! ## Rows: loads and stores -/

def execLb (p : Nat) (f : BitVec 24) (s : State) : Host.Outcome State Fault Refusal := s.loadForm p f 1 true
def execLh (p : Nat) (f : BitVec 24) (s : State) : Host.Outcome State Fault Refusal := s.loadForm p f 2 true
def execLw (p : Nat) (f : BitVec 24) (s : State) : Host.Outcome State Fault Refusal := s.loadForm p f 4 true
def execLbu (p : Nat) (f : BitVec 24) (s : State) : Host.Outcome State Fault Refusal := s.loadForm p f 1 false
def execLhu (p : Nat) (f : BitVec 24) (s : State) : Host.Outcome State Fault Refusal := s.loadForm p f 2 false
def execSb (p : Nat) (f : BitVec 24) (s : State) : Host.Outcome State Fault Refusal := s.storeForm p f 1
def execSh (p : Nat) (f : BitVec 24) (s : State) : Host.Outcome State Fault Refusal := s.storeForm p f 2
def execSw (p : Nat) (f : BitVec 24) (s : State) : Host.Outcome State Fault Refusal := s.storeForm p f 4

/-! ## Rows: branches, jumps and upper immediates -/

def execBeqz (p : Nat) (f : BitVec 24) (s : State) : Host.Outcome State Fault Refusal :=
  done (s.branch p f (s.gReg p (fieldD f) == 0))
def execBnez (p : Nat) (f : BitVec 24) (s : State) : Host.Outcome State Fault Refusal :=
  done (s.branch p f (s.gReg p (fieldD f) != 0))

/-- JAL: the link register is the t field. -/
def execJal (p : Nat) (f : BitVec 24) (s : State) : Host.Outcome State Fault Refusal :=
  let t := (s.proc p).pc + branchOff f
  done (s.issue p 0x0100 true false (some t) fun s => (s.setG p (fieldD f) (s.pcNext p)).nextInstr p t)

def execJalr (p : Nat) (f : BitVec 24) (s : State) : Host.Outcome State Fault Refusal :=
  let t := s.gReg p (fieldA f) + sext14 f
  done (s.issue p 0x0100 true false (some t) fun s => (s.setG p (fieldD f) (s.pcNext p)).nextInstr p t)

def execLui (p : Nat) (f : BitVec 24) (s : State) : Host.Outcome State Fault Refusal :=
  done (s.issue p 0x0100 true false none fun s => s.writeNext p (fieldD f) (upper19 f))

def execAuipc (p : Nat) (f : BitVec 24) (s : State) : Host.Outcome State Fault Refusal :=
  done (s.issue p 0x0102 true false none fun s => s.writeNext p (fieldD f) ((s.proc p).pc + upper19 f))

/-! ## Rows: class 7 -/

/-- FENCE (R332, R344): with SRAM among its kinds the merge buffers drain. Window, port and doorbell accesses are
performed in order here, so the other kinds have nothing to wait for. -/
def execFence (p : Nat) (f : BitVec 24) (s : State) : Host.Outcome State Fault Refusal :=
  let fn := fieldFn f
  done (s.issue p 0x0100 (fieldD f = 0 && fieldA f = 0 && fieldB f = 0 && fn < 8) false none fun s =>
    let pc := s.pcNext p
    (s.when (fn = 0 || bit fn 0) fun s => s.drainAll p).nextInstr p pc)

/-- TEND (R333): the stores drain, and the task ends once no slot is BUSY (TASK_END). ILLEGAL at M. -/
def execTend (p : Nat) (f : BitVec 24) (s : State) : Host.Outcome State Fault Refusal :=
  done (s.issue p 0x0100 (fieldD f = 0 && fieldB f = 0 && fieldFn f = 0 && isEngine p) false none fun s =>
    let r := (s.gReg p (fieldA f)).toNat
    ((s.drainAll p).retire p).modProc p fun x => { x with stall := some (.tend r) })

/-- TRAP (R336): it retires, and traps with cause SOFTWARE. -/
def execTrap (p : Nat) (f : BitVec 24) (s : State) : Host.Outcome State Fault Refusal :=
  done (s.issue p 0x0100 (fieldD f = 0 && fieldA f = 0) false none fun s =>
    (s.retire p).trap p trapSoftware (imm14 f).toNat false)

/-- WFE (R334): 0 in ga means 2^24 cycles. -/
def execWfe (p : Nat) (f : BitVec 24) (s : State) : Host.Outcome State Fault Refusal :=
  done (s.issue p 0x0102 (usesA f) false none fun s =>
    let n := (s.gReg p (fieldA f)).toNat
    let until_ := s.tick + 32 * (if n = 0 then 2 ^ 24 else n)
    if (s.proc p).events % 4 ≠ 0 then s.finishWfe p (fieldD f) until_
    else s.modProc p fun x => { x with stall := some (.wfe (fieldD f) until_) })

/-- MFSR (R351): an unlisted number is ILLEGAL; an M-only one traps with PRIV at T. -/
def execMfsr (p : Nat) (f : BitVec 24) (s : State) : Host.Outcome State Fault Refusal :=
  let n := (imm14 f).toNat
  let t := s.sysT p n
  let m := s.sysM p n
  done (s.issue p 0x0100 (fieldA f = 0 && (t.isSome || m.isSome)) m.isSome none fun s =>
    (s.latchSys p n).writeNext p (fieldD f) (BitVec.ofNat 32 ((t.or m).getD 0)))

/-- MTSR (R351). -/
def execMtsr (p : Nat) (f : BitVec 24) (s : State) : Host.Outcome State Fault Refusal :=
  let n := (imm14 f).toNat
  done (s.issue p 0x0100 (fieldD f = 0 && ((s.sysT p n).isSome || (s.sysM p n).isSome)) true none fun s =>
    (s.setSys p n (s.gReg p (fieldA f))).nextInstr p (s.pcNext p))

/-- ERET (R350). -/
def execEret (p : Nat) (f : BitVec 24) (s : State) : Host.Outcome State Fault Refusal :=
  done (s.issue p 0x0100 (f = 0) true none fun s =>
    let pc := (s.proc p).epc
    (s.modProc p fun x => { x with status := x.status &&& 0xFFFFFFFE }).nextInstr p pc)

end Sys2Proof.Machine
end

