-- ==== Sys2Proof/Machine/Dispatch.lean ====
section
/-! DEFINITION. The dispatcher: one arm per command, each one direct call of the command's own
meaning. -/

namespace Sys2Proof.Machine

/-- The effect of a command on everything but the queue. -/
def exec (i : Instr) (s : State) : Host.Outcome State Fault Refusal :=
  match i with
  | .registerWrite path addr value => Sys2Proof.Machine.execRegisterWrite path addr value s
  | .blockLock path addr value => Sys2Proof.Machine.execBlockLock path addr value s
  | .spliceWordArrive dir pos chk w => Sys2Proof.Machine.execSpliceWordArrive dir pos chk w s
  | .applyStampMatch out => Sys2Proof.Machine.execApplyStampMatch out s
  | .discardedCommandLimit out => Sys2Proof.Machine.execDiscardedCommandLimit out s
  | .spliceLost => Sys2Proof.Machine.execSpliceLost s
  | .spliceTrained bad => Sys2Proof.Machine.execSpliceTrained bad s
  | .rcOscillatorTrim => Sys2Proof.Machine.execRcOscillatorTrim s
  | .timecodeHandover toLogic count => Sys2Proof.Machine.execTimecodeHandover toLogic count s
  | .timecodeLoRead path => Sys2Proof.Machine.execTimecodeLoRead path s
  | .delayListTick => Sys2Proof.Machine.execDelayListTick s
  | .vfBar0Unclaimed vf off wr => Sys2Proof.Machine.execVfBar0Unclaimed vf off wr s
  | .spliceLostClear path => Sys2Proof.Machine.execSpliceLostClear path s
  | .cellDecision col cell uncorr => Sys2Proof.Machine.execCellDecision col cell uncorr s
  | .slateHeal => Sys2Proof.Machine.execSlateHeal s
  | .fabricClockGate => Sys2Proof.Machine.execFabricClockGate s
  | .fabricClockUngate owner col => Sys2Proof.Machine.execFabricClockUngate owner col s
  | .slateSwap path value => Sys2Proof.Machine.execSlateSwap path value s
  | .slateValidate path value => Sys2Proof.Machine.execSlateValidate path value s
  | .slateLock path value => Sys2Proof.Machine.execSlateLock path value s
  | .shadowDataAccess path wr => Sys2Proof.Machine.execShadowDataAccess path wr s
  | .validationDone => Sys2Proof.Machine.execValidationDone s
  | .swapBoundary => Sys2Proof.Machine.execSwapBoundary s
  | .pcieConventionalReset => Sys2Proof.Machine.execPcieConventionalReset s
  | .functionLevelReset n => Sys2Proof.Machine.execFunctionLevelReset n s
  | .sqTailDoorbell fn y tail => Sys2Proof.Machine.execSqTailDoorbell fn y tail s
  | .cqHeadDoorbell fn y head => Sys2Proof.Machine.execCqHeadDoorbell fn y head s
  | .commandFetch fn sq sqe => Sys2Proof.Machine.execCommandFetch fn sq sqe s
  | .commandAdmit key => Sys2Proof.Machine.execCommandAdmit key s
  | .rangeLockGrant key => Sys2Proof.Machine.execRangeLockGrant key s
  | .completionPost key => Sys2Proof.Machine.execCompletionPost key s
  | .deleteIoSubmissionQueue key => Sys2Proof.Machine.execDeleteIoSubmissionQueue key s
  | .createIoSubmissionQueue key => Sys2Proof.Machine.execCreateIoSubmissionQueue key s
  | .getLogPage key => Sys2Proof.Machine.execGetLogPage key s
  | .deleteIoCompletionQueue key => Sys2Proof.Machine.execDeleteIoCompletionQueue key s
  | .createIoCompletionQueue key => Sys2Proof.Machine.execCreateIoCompletionQueue key s
  | .identify key => Sys2Proof.Machine.execIdentify key s
  | .abort key => Sys2Proof.Machine.execAbort key s
  | .setFeatures key => Sys2Proof.Machine.execSetFeatures key s
  | .getFeatures key => Sys2Proof.Machine.execGetFeatures key s
  | .asynchronousEventRequest key => Sys2Proof.Machine.execAsynchronousEventRequest key s
  | .namespaceManagement key => Sys2Proof.Machine.execNamespaceManagement key s
  | .firmwareCommit key => Sys2Proof.Machine.execFirmwareCommit key s
  | .firmwareImageDownload key => Sys2Proof.Machine.execFirmwareImageDownload key s
  | .deviceSelfTest key => Sys2Proof.Machine.execDeviceSelfTest key s
  | .selfTestSegment seg passed unit => Sys2Proof.Machine.execSelfTestSegment seg passed unit s
  | .namespaceAttachment key => Sys2Proof.Machine.execNamespaceAttachment key s
  | .formatNvm key => Sys2Proof.Machine.execFormatNvm key s
  | .sanitize key => Sys2Proof.Machine.execSanitize key s
  | .slateLoad key => Sys2Proof.Machine.execSlateLoad key s
  | .slateRead key => Sys2Proof.Machine.execSlateRead key s
  | .scriptRegister key => Sys2Proof.Machine.execScriptRegister key s
  | .scriptDeregister key => Sys2Proof.Machine.execScriptDeregister key s
  | .instanceConfigure key => Sys2Proof.Machine.execInstanceConfigure key s
  | .instanceRead key => Sys2Proof.Machine.execInstanceRead key s
  | .instanceEnable key => Sys2Proof.Machine.execInstanceEnable key s
  | .instanceDisable key => Sys2Proof.Machine.execInstanceDisable key s
  | .instanceReset key => Sys2Proof.Machine.execInstanceReset key s
  | .rateSet key => Sys2Proof.Machine.execRateSet key s
  | .instanceQuiesce key => Sys2Proof.Machine.execInstanceQuiesce key s
  | .instanceResume key => Sys2Proof.Machine.execInstanceResume key s
  | .flush key => Sys2Proof.Machine.execFlush key s
  | .write key fetch => Sys2Proof.Machine.execWrite key fetch s
  | .read key delivered => Sys2Proof.Machine.execRead key delivered s
  | .writeZeroes key => Sys2Proof.Machine.execWriteZeroes key s
  | .datasetManagement key => Sys2Proof.Machine.execDatasetManagement key s
  | .verify key => Sys2Proof.Machine.execVerify key s
  | .zoneManagementSend key => Sys2Proof.Machine.execZoneManagementSend key s
  | .zoneManagementReceive key => Sys2Proof.Machine.execZoneManagementReceive key s
  | .zoneAppend key fetch => Sys2Proof.Machine.execZoneAppend key fetch s
  | .takeSubmit key => Sys2Proof.Machine.execTakeSubmit key s
  | .takeStatus key => Sys2Proof.Machine.execTakeStatus key s
  | .takeCancel key => Sys2Proof.Machine.execTakeCancel key s
  | .ccEnClear n => Sys2Proof.Machine.execCcEnClear n s
  | .ccEnSet fn cc => Sys2Proof.Machine.execCcEnSet fn cc s
  | .vfEnableClear => Sys2Proof.Machine.execVfEnableClear s
  | .numvfsLower num => Sys2Proof.Machine.execNumvfsLower num s
  | .resettingEnd n => Sys2Proof.Machine.execResettingEnd n s
  | .windowFillDone n => Sys2Proof.Machine.execWindowFillDone n s
  | .quiesceDone n => Sys2Proof.Machine.execQuiesceDone n s
  | .staleResultDiscard n gen => Sys2Proof.Machine.execStaleResultDiscard n gen s
  | .staleGenerationRecord n => Sys2Proof.Machine.execStaleGenerationRecord n s
  | .takePieceCharge ctx port most => Sys2Proof.Machine.execTakePieceCharge ctx port most s
  | .channelBringUp ch targets fails => Sys2Proof.Machine.execChannelBringUp ch targets fails s
  | .channelStandbyRestore ch ok => Sys2Proof.Machine.execChannelStandbyRestore ch ok s
  | .channelRetrain ch fails => Sys2Proof.Machine.execChannelRetrain ch fails s
  | .flashStatusPoll ch lun busy fail => Sys2Proof.Machine.execFlashStatusPoll ch lun busy fail s
  | .flashOperationTimeout ch lun resetOk => Sys2Proof.Machine.execFlashOperationTimeout ch lun resetOk s
  | .hardDecodeDone ch lun syndromeZero crcOk => Sys2Proof.Machine.execHardDecodeDone ch lun syndromeZero crcOk s
  | .softDecodeDone slot syndromeZero crcOk => Sys2Proof.Machine.execSoftDecodeDone slot syndromeZero crcOk s
  | .programFail ch lun => Sys2Proof.Machine.execProgramFail ch lun s
  | .eraseFail ch lun => Sys2Proof.Machine.execEraseFail ch lun s
  | .programLoopSample ch lun loops => Sys2Proof.Machine.execProgramLoopSample ch lun loops s
  | .flashSuspend ch lun => Sys2Proof.Machine.execFlashSuspend ch lun s
  | .suspendHoldExpire ch lun => Sys2Proof.Machine.execSuspendHoldExpire ch lun s
  | .lunFence ch lun written idFails => Sys2Proof.Machine.execLunFence ch lun written idFails s
  | .channelFence ch written => Sys2Proof.Machine.execChannelFence ch written s
  | .clearFence ch path => Sys2Proof.Machine.execClearFence ch path s
  | .rebuildComplete ch => Sys2Proof.Machine.execRebuildComplete ch s
  | .writeBufferFillDone key => Sys2Proof.Machine.execWriteBufferFillDone key s
  | .bufferSpaceFreed key fetch => Sys2Proof.Machine.execBufferSpaceFreed key fetch s
  | .flushStart nsid unit => Sys2Proof.Machine.execFlushStart nsid unit s
  | .rowPadTimeout stream lane => Sys2Proof.Machine.execRowPadTimeout stream lane s
  | .superblockOpenTimeout lane => Sys2Proof.Machine.execSuperblockOpenTimeout lane s
  | .journalCodewordWrite => Sys2Proof.Machine.execJournalCodewordWrite s
  | .journalDurable pageSeq => Sys2Proof.Machine.execJournalDurable pageSeq s
  | .jrnDurableLoRead path => Sys2Proof.Machine.execJrnDurableLoRead path s
  | .checkpointStart => Sys2Proof.Machine.execCheckpointStart s
  | .ckptNow path value => Sys2Proof.Machine.execCkptNow path value s
  | .checkpointComplete => Sys2Proof.Machine.execCheckpointComplete s
  | .gcCollect lane => Sys2Proof.Machine.execGcCollect lane s
  | .gcCopyCommit nsid unit src => Sys2Proof.Machine.execGcCopyCommit nsid unit src s
  | .superblockErase lane seg => Sys2Proof.Machine.execSuperblockErase lane seg s
  | .deallocateApply => Sys2Proof.Machine.execDeallocateApply s
  | .heatEpoch => Sys2Proof.Machine.execHeatEpoch s
  | .demotionStart => Sys2Proof.Machine.execDemotionStart s
  | .extentDemoted nsid ext => Sys2Proof.Machine.execExtentDemoted nsid ext s
  | .promotion nsid ext => Sys2Proof.Machine.execPromotion nsid ext s
  | .bandCompaction act band => Sys2Proof.Machine.execBandCompaction act band s
  | .powerFailEvent mv => Sys2Proof.Machine.execPowerFailEvent mv s
  | .dumpDurable => Sys2Proof.Machine.execDumpDurable s
  | .evacuationStart => Sys2Proof.Machine.execEvacuationStart s
  | .readOnlyOrder => Sys2Proof.Machine.execReadOnlyOrder s
  | .sensorSample logic drive hda => Sys2Proof.Machine.execSensorSample logic drive hda s
  | .tempHistoryBin => Sys2Proof.Machine.execTempHistoryBin s
  | .tempHistorySave => Sys2Proof.Machine.execTempHistorySave s
  | .dailiesCopy => Sys2Proof.Machine.execDailiesCopy s
  | .preampFrame act path rdata => Sys2Proof.Machine.execPreampFrame act path rdata s
  | .preampFault act => Sys2Proof.Machine.execPreampFault act s
  | .preampDiscovery act ident checks => Sys2Proof.Machine.execPreampDiscovery act ident checks s
  | .preampRescan act path ident checks => Sys2Proof.Machine.execPreampRescan act path ident checks s
  | .clockLock act => Sys2Proof.Machine.execClockLock act s
  | .clockLoss act => Sys2Proof.Machine.execClockLoss act s
  | .servoWedge act wedge sync id crossings => Sys2Proof.Machine.execServoWedge act wedge sync id crossings s
  | .servoLost act => Sys2Proof.Machine.execServoLost act s
  | .sectorReadQueue act band unit for_ => Sys2Proof.Machine.execSectorReadQueue act band unit for_ s
  | .sectorCaptureDone act window => Sys2Proof.Machine.execSectorCaptureDone act window s
  | .sectorDecodeDone act recovery syndromeZero crcOk => Sys2Proof.Machine.execSectorDecodeDone act recovery syndromeZero crcOk s
  | .sectorWriteQueue act band nsid unit => Sys2Proof.Machine.execSectorWriteQueue act band nsid unit s
  | .slotWriteEnd act => Sys2Proof.Machine.execSlotWriteEnd act s
  | .writeCut act => Sys2Proof.Machine.execWriteCut act s
  | .verifyResult act pos window converged iters bits equal => Sys2Proof.Machine.execVerifyResult act pos window converged iters bits equal s
  | .bandVerifyGo act path value => Sys2Proof.Machine.execBandVerifyGo act path value s
  | .bandVerifyTrack act reads => Sys2Proof.Machine.execBandVerifyTrack act reads s
  | .bandVerifyAbort act path => Sys2Proof.Machine.execBandVerifyAbort act path s
  | .wedgeListRun act => Sys2Proof.Machine.execWedgeListRun act s
  | .controlTick => Sys2Proof.Machine.execControlTick s
  | .loopTableCheck path value => Sys2Proof.Machine.execLoopTableCheck path value s
  | .clearFlags path value => Sys2Proof.Machine.execClearFlags path value s
  | .loopRecordWrite path addr value => Sys2Proof.Machine.execLoopRecordWrite path addr value s
  | .load act path => Sys2Proof.Machine.execLoad act path s
  | .unload act path => Sys2Proof.Machine.execUnload act path s
  | .seekRead act head track path => Sys2Proof.Machine.execSeekRead act head track path s
  | .seekWrite act head track path => Sys2Proof.Machine.execSeekWrite act head track path s
  | .clearOffline act path => Sys2Proof.Machine.execClearOffline act path s
  | .servoFieldsSeen act => Sys2Proof.Machine.execServoFieldsSeen act s
  | .loadTimeout act => Sys2Proof.Machine.execLoadTimeout act s
  | .acquireDone act => Sys2Proof.Machine.execAcquireDone act s
  | .seekEnd act => Sys2Proof.Machine.execSeekEnd act s
  | .settleDone act => Sys2Proof.Machine.execSettleDone act s
  | .settleTimeout act => Sys2Proof.Machine.execSettleTimeout act s
  | .headsOnRamp act => Sys2Proof.Machine.execHeadsOnRamp act s
  | .actuatorOffline act fault => Sys2Proof.Machine.execActuatorOffline act fault s
  | .spinStart path value => Sys2Proof.Machine.execSpinStart path value s
  | .spinStop path value => Sys2Proof.Machine.execSpinStop path value s
  | .alignDone => Sys2Proof.Machine.execAlignDone s
  | .rampDone rpm => Sys2Proof.Machine.execRampDone rpm s
  | .spindleHandoverDone crossings => Sys2Proof.Machine.execSpindleHandoverDone crossings s
  | .spindleHandoverTimeout => Sys2Proof.Machine.execSpindleHandoverTimeout s
  | .atSpeed rpms => Sys2Proof.Machine.execAtSpeed rpms s
  | .speedDrop rpm => Sys2Proof.Machine.execSpeedDrop rpm s
  | .speedLowUnload rpm => Sys2Proof.Machine.execSpeedLowUnload rpm s
  | .brakeEnter rpm => Sys2Proof.Machine.execBrakeEnter rpm s
  | .spindleStopped => Sys2Proof.Machine.execSpindleStopped s
  | .spindleFault gateDriver overCurrent => Sys2Proof.Machine.execSpindleFault gateDriver overCurrent s
  | .targetRpmWrite path value => Sys2Proof.Machine.execTargetRpmWrite path value s
  | .emergencyRetract cause => Sys2Proof.Machine.execEmergencyRetract cause s
  | .retractParkHoldEnd act => Sys2Proof.Machine.execRetractParkHoldEnd act s
  | .tuneStart path value => Sys2Proof.Machine.execTuneStart path value s
  | .tuneAbort path value => Sys2Proof.Machine.execTuneAbort path value s
  | .tuneEnd => Sys2Proof.Machine.execTuneEnd s
  | .add p f => Sys2Proof.Machine.execAdd p f s
  | .sub p f => Sys2Proof.Machine.execSub p f s
  | .and p f => Sys2Proof.Machine.execAnd p f s
  | .or p f => Sys2Proof.Machine.execOr p f s
  | .xor p f => Sys2Proof.Machine.execXor p f s
  | .sll p f => Sys2Proof.Machine.execSll p f s
  | .srl p f => Sys2Proof.Machine.execSrl p f s
  | .sra p f => Sys2Proof.Machine.execSra p f s
  | .seq p f => Sys2Proof.Machine.execSeq p f s
  | .sne p f => Sys2Proof.Machine.execSne p f s
  | .slt p f => Sys2Proof.Machine.execSlt p f s
  | .sltu p f => Sys2Proof.Machine.execSltu p f s
  | .min p f => Sys2Proof.Machine.execMin p f s
  | .max p f => Sys2Proof.Machine.execMax p f s
  | .minu p f => Sys2Proof.Machine.execMinu p f s
  | .maxu p f => Sys2Proof.Machine.execMaxu p f s
  | .clz p f => Sys2Proof.Machine.execClz p f s
  | .popc p f => Sys2Proof.Machine.execPopc p f s
  | .addi p f => Sys2Proof.Machine.execAddi p f s
  | .andi p f => Sys2Proof.Machine.execAndi p f s
  | .ori p f => Sys2Proof.Machine.execOri p f s
  | .xori p f => Sys2Proof.Machine.execXori p f s
  | .slli p f => Sys2Proof.Machine.execSlli p f s
  | .srli p f => Sys2Proof.Machine.execSrli p f s
  | .srai p f => Sys2Proof.Machine.execSrai p f s
  | .seqi p f => Sys2Proof.Machine.execSeqi p f s
  | .snei p f => Sys2Proof.Machine.execSnei p f s
  | .slti p f => Sys2Proof.Machine.execSlti p f s
  | .sltiu p f => Sys2Proof.Machine.execSltiu p f s
  | .lb p f => Sys2Proof.Machine.execLb p f s
  | .lh p f => Sys2Proof.Machine.execLh p f s
  | .lw p f => Sys2Proof.Machine.execLw p f s
  | .lbu p f => Sys2Proof.Machine.execLbu p f s
  | .lhu p f => Sys2Proof.Machine.execLhu p f s
  | .sb p f => Sys2Proof.Machine.execSb p f s
  | .sh p f => Sys2Proof.Machine.execSh p f s
  | .sw p f => Sys2Proof.Machine.execSw p f s
  | .beqz p f => Sys2Proof.Machine.execBeqz p f s
  | .bnez p f => Sys2Proof.Machine.execBnez p f s
  | .jal p f => Sys2Proof.Machine.execJal p f s
  | .jalr p f => Sys2Proof.Machine.execJalr p f s
  | .lui p f => Sys2Proof.Machine.execLui p f s
  | .auipc p f => Sys2Proof.Machine.execAuipc p f s
  | .mul p f => Sys2Proof.Machine.execMul p f s
  | .mulh p f => Sys2Proof.Machine.execMulh p f s
  | .mulhu p f => Sys2Proof.Machine.execMulhu p f s
  | .div p f => Sys2Proof.Machine.execDiv p f s
  | .divu p f => Sys2Proof.Machine.execDivu p f s
  | .rem p f => Sys2Proof.Machine.execRem p f s
  | .remu p f => Sys2Proof.Machine.execRemu p f s
  | .fence p f => Sys2Proof.Machine.execFence p f s
  | .tend p f => Sys2Proof.Machine.execTend p f s
  | .trap p f => Sys2Proof.Machine.execTrap p f s
  | .wfe p f => Sys2Proof.Machine.execWfe p f s
  | .mfsr p f => Sys2Proof.Machine.execMfsr p f s
  | .mtsr p f => Sys2Proof.Machine.execMtsr p f s
  | .eret p f => Sys2Proof.Machine.execEret p f s
  | .wfeWake p => Sys2Proof.Machine.execWfeWake p s
  | .portPopResume p => Sys2Proof.Machine.execPortPopResume p s
  | .portPushResume p => Sys2Proof.Machine.execPortPushResume p s
  | .doorbellRing p page slot len => Sys2Proof.Machine.execDoorbellRing p page slot len s
  | .budgetGrant p => Sys2Proof.Machine.execBudgetGrant p s
  | .mergeEntryDrain p entry => Sys2Proof.Machine.execMergeEntryDrain p entry s
  | .icacheFill p parityErrors => Sys2Proof.Machine.execIcacheFill p parityErrors s
  | .engineFence e written => Sys2Proof.Machine.execEngineFence e written s
  | .engineUnfence path value => Sys2Proof.Machine.execEngineUnfence path value s
  | .engineAckTimeout e => Sys2Proof.Machine.execEngineAckTimeout e s
  | .takeDescriptorFetched key fetched => Sys2Proof.Machine.execTakeDescriptorFetched key fetched s
  | .takePrepare ctx => Sys2Proof.Machine.execTakePrepare ctx s
  | .takeClusterPlaced ctx => Sys2Proof.Machine.execTakeClusterPlaced ctx s
  | .stagePieceRead ctx port => Sys2Proof.Machine.execStagePieceRead ctx port s
  | .taskDispatch cluster n => Sys2Proof.Machine.execTaskDispatch cluster n s
  | .taskEnd p => Sys2Proof.Machine.execTaskEnd p s
  | .taskDelayWake => Sys2Proof.Machine.execTaskDelayWake s
  | .overflowDrain cluster prio => Sys2Proof.Machine.execOverflowDrain cluster prio s
  | .takeRestart ctx => Sys2Proof.Machine.execTakeRestart ctx s
  | .takeFaultEnd ctx => Sys2Proof.Machine.execTakeFaultEnd ctx s
  | .takeCommitEnd ctx => Sys2Proof.Machine.execTakeCommitEnd ctx s
  | .jobUnitAssign page => Sys2Proof.Machine.execJobUnitAssign page s
  | .scan p slot => Sys2Proof.Machine.execScan p slot s
  | .install p slot => Sys2Proof.Machine.execInstall p slot s
  | .uninstall p slot => Sys2Proof.Machine.execUninstall p slot s
  | .lookup p slot => Sys2Proof.Machine.execLookup p slot s
  | .assocWrite p slot => Sys2Proof.Machine.execAssocWrite p slot s
  | .insert p slot => Sys2Proof.Machine.execInsert p slot s
  | .delete p slot => Sys2Proof.Machine.execDelete p slot s
  | .moverStep => Sys2Proof.Machine.execMoverStep s
  | .scanEnd p slot => Sys2Proof.Machine.execScanEnd p slot s
  | .compress p slot => Sys2Proof.Machine.execCompress p slot s
  | .decompress p slot => Sys2Proof.Machine.execDecompress p slot s
  | .compressBlockVerified p slot equal => Sys2Proof.Machine.execCompressBlockVerified p slot equal s
  | .jobComplete p page slot => Sys2Proof.Machine.execJobComplete p page slot s
  | .bankOwnerWrite path bank value => Sys2Proof.Machine.execBankOwnerWrite path bank value s
  | .cmpInject path value => Sys2Proof.Machine.execCmpInject path value s
  | .keyLoad path value => Sys2Proof.Machine.execKeyLoad path value s
  | .keyGenerate path value => Sys2Proof.Machine.execKeyGenerate path value s
  | .keyExport path value => Sys2Proof.Machine.execKeyExport path value s
  | .keyErase path value => Sys2Proof.Machine.execKeyErase path value s
  | .keyCommandDone => Sys2Proof.Machine.execKeyCommandDone s
  | .keyAreaCompact => Sys2Proof.Machine.execKeyAreaCompact s
  | .blobDataAccess path wr => Sys2Proof.Machine.execBlobDataAccess path wr s
  | .nsKeyBind path value => Sys2Proof.Machine.execNsKeyBind path value s
  | .drbgReseed healthFails ok => Sys2Proof.Machine.execDrbgReseed healthFails ok s
  | .entropyFail => Sys2Proof.Machine.execEntropyFail s
  | .gcmEncrypt p slot => Sys2Proof.Machine.execGcmEncrypt p slot s
  | .gcmDecrypt p slot => Sys2Proof.Machine.execGcmDecrypt p slot s
  | .xtsEncrypt p slot => Sys2Proof.Machine.execXtsEncrypt p slot s
  | .xtsDecrypt p slot => Sys2Proof.Machine.execXtsDecrypt p slot s
  | .aesPieceEnd p slot => Sys2Proof.Machine.execAesPieceEnd p slot s
  | .hash p slot => Sys2Proof.Machine.execHash p slot s
  | .hmac p slot => Sys2Proof.Machine.execHmac p slot s
  | .digestYield => Sys2Proof.Machine.execDigestYield s
  | .digestResume => Sys2Proof.Machine.execDigestResume s
  | .digestReadBusy p slot => Sys2Proof.Machine.execDigestReadBusy p slot s
  | .tamperAlarm cause => Sys2Proof.Machine.execTamperAlarm cause s
  | .lifecycleLock path value => Sys2Proof.Machine.execLifecycleLock path value s
  | .dramTraining ch fails rank1Ok => Sys2Proof.Machine.execDramTraining ch fails rank1Ok s
  | .zqCalibration ch => Sys2Proof.Machine.execZqCalibration ch s
  | .dqsTracking ch => Sys2Proof.Machine.execDqsTracking ch s
  | .mr4Poll ch rank hot => Sys2Proof.Machine.execMr4Poll ch rank hot s
  | .refresh ch rank => Sys2Proof.Machine.execRefresh ch rank s
  | .rowIdlePrecharge sub bank => Sys2Proof.Machine.execRowIdlePrecharge sub bank s
  | .dramCommandIssue sub => Sys2Proof.Machine.execDramCommandIssue sub s
  | .rhReseed sub => Sys2Proof.Machine.execRhReseed sub s
  | .caParityAlert sub retrainOk => Sys2Proof.Machine.execCaParityAlert sub retrainOk s
  | .rank1Trained ok => Sys2Proof.Machine.execRank1Trained ok s
  | .fillBlock ch => Sys2Proof.Machine.execFillBlock ch s
  | .patrolScrub => Sys2Proof.Machine.execPatrolScrub s
  | .sramScrub => Sys2Proof.Machine.execSramScrub s
  | .heal path value => Sys2Proof.Machine.execHeal path value s
  | .flipArm path value => Sys2Proof.Machine.execFlipArm path value s
  | .memRetrain path value => Sys2Proof.Machine.execMemRetrain path value s
  | .linkEnable path value => Sys2Proof.Machine.execLinkEnable path value s
  | .linkDisable path value => Sys2Proof.Machine.execLinkDisable path value s
  | .linkRetrain path value => Sys2Proof.Machine.execLinkRetrain path value s
  | .linkTrained width => Sys2Proof.Machine.execLinkTrained width s
  | .linkTrainRetry => Sys2Proof.Machine.execLinkTrainRetry s
  | .linkFrameReceive hdr data crc => Sys2Proof.Machine.execLinkFrameReceive hdr data crc s
  | .linkFrameTimeout => Sys2Proof.Machine.execLinkFrameTimeout s
  | .hello w => Sys2Proof.Machine.execHello w s
  | .confirm w => Sys2Proof.Machine.execConfirm w s
  | .mirrorWrite w ofTake => Sys2Proof.Machine.execMirrorWrite w ofTake s
  | .mapDelta w => Sys2Proof.Machine.execMapDelta w s
  | .takeCommit w => Sys2Proof.Machine.execTakeCommit w s
  | .slateMessage w => Sys2Proof.Machine.execSlateMessage w s
  | .config w => Sys2Proof.Machine.execConfig w s
  | .keyMessage w => Sys2Proof.Machine.execKeyMessage w s
  | .ack w => Sys2Proof.Machine.execAck w s
  | .ackSend => Sys2Proof.Machine.execAckSend s
  | .refuse w => Sys2Proof.Machine.execRefuse w s
  | .epochMessage w => Sys2Proof.Machine.execEpochMessage w s
  | .dirty w => Sys2Proof.Machine.execDirty w s
  | .resyncData w => Sys2Proof.Machine.execResyncData w s
  | .resyncDone w => Sys2Proof.Machine.execResyncDone w s
  | .readReq w => Sys2Proof.Machine.execReadReq w s
  | .readData w => Sys2Proof.Machine.execReadData w s
  | .ackTimeout => Sys2Proof.Machine.execAckTimeout s
  | .resyncExtent nsid ext => Sys2Proof.Machine.execResyncExtent nsid ext s
  | .resyncPassTimer => Sys2Proof.Machine.execResyncPassTimer s
  | .heartbeatPulse overlap => Sys2Proof.Machine.execHeartbeatPulse overlap s
  | .partnerPulse lowNs => Sys2Proof.Machine.execPartnerPulse lowNs s
  | .heartbeatLost => Sys2Proof.Machine.execHeartbeatLost s
  | .promote path => Sys2Proof.Machine.execPromote path s
  | .handover path => Sys2Proof.Machine.execHandover path s
  | .stepDown path => Sys2Proof.Machine.execStepDown path s
  | .enec int hj => Sys2Proof.Machine.execEnec int hj s
  | .disec int hj => Sys2Proof.Machine.execDisec int hj s
  | .rstdaa => Sys2Proof.Machine.execRstdaa s
  | .entdaa da => Sys2Proof.Machine.execEntdaa da s
  | .setmwl len => Sys2Proof.Machine.execSetmwl len s
  | .setmrl len => Sys2Proof.Machine.execSetmrl len s
  | .enthdr0 => Sys2Proof.Machine.execEnthdr0 s
  | .rstact action => Sys2Proof.Machine.execRstact action s
  | .setdasa stat da => Sys2Proof.Machine.execSetdasa stat da s
  | .setnewda da => Sys2Proof.Machine.execSetnewda da s
  | .getmwl => Sys2Proof.Machine.execGetmwl s
  | .getmrl => Sys2Proof.Machine.execGetmrl s
  | .getpid => Sys2Proof.Machine.execGetpid s
  | .getbcr => Sys2Proof.Machine.execGetbcr s
  | .getdcr => Sys2Proof.Machine.execGetdcr s
  | .getstatus => Sys2Proof.Machine.execGetstatus s
  | .getmxds => Sys2Proof.Machine.execGetmxds s
  | .getcaps => Sys2Proof.Machine.execGetcaps s
  | .hotJoin => Sys2Proof.Machine.execHotJoin s
  | .i3cWrite tag count addr data crc => Sys2Proof.Machine.execI3cWrite tag count addr data crc s
  | .i3cRead tag count addr crc => Sys2Proof.Machine.execI3cRead tag count addr crc s
  | .i3cWriteSame tag count addr data crc => Sys2Proof.Machine.execI3cWriteSame tag count addr data crc s
  | .i3cReadSame tag count addr crc => Sys2Proof.Machine.execI3cReadSame tag count addr crc s
  | .i3cResponseRead => Sys2Proof.Machine.execI3cResponseRead s
  | .ibiRaise accepted => Sys2Proof.Machine.execIbiRaise accepted s
  | .lbDiscovery found => Sys2Proof.Machine.execLbDiscovery found s
  | .lbRescan path => Sys2Proof.Machine.execLbRescan path s
  | .lbHotJoin pid => Sys2Proof.Machine.execLbHotJoin pid s
  | .lbPoll entry acked reading => Sys2Proof.Machine.execLbPoll entry acked reading s
  | .lbRequiredCheck desc => Sys2Proof.Machine.execLbRequiredCheck desc s
  | .tfIdentify path => Sys2Proof.Machine.execTfIdentify path s
  | .tfRead path => Sys2Proof.Machine.execTfRead path s
  | .tfWrite path => Sys2Proof.Machine.execTfWrite path s
  | .tfWriteZeroes path => Sys2Proof.Machine.execTfWriteZeroes path s
  | .tfFlush path => Sys2Proof.Machine.execTfFlush path s
  | .tfGetLog path => Sys2Proof.Machine.execTfGetLog path s
  | .tfAbort path => Sys2Proof.Machine.execTfAbort path s
  | .tfDataAccess path wr => Sys2Proof.Machine.execTfDataAccess path wr s
  | .tfCommandDone => Sys2Proof.Machine.execTfCommandDone s
  | .nresetAssert heldNs => Sys2Proof.Machine.execNresetAssert heldNs s
  | .nresetRelease => Sys2Proof.Machine.execNresetRelease s
  | .wakeN heldNs => Sys2Proof.Machine.execWakeN heldNs s
  | .pwrdisAssert heldNs => Sys2Proof.Machine.execPwrdisAssert heldNs s
  | .pwrdisRelease heldNs => Sys2Proof.Machine.execPwrdisRelease heldNs s
  | .modeOrderDormant path => Sys2Proof.Machine.execModeOrderDormant path s
  | .modeOrderStandby path => Sys2Proof.Machine.execModeOrderStandby path s
  | .modeOrderDoze path => Sys2Proof.Machine.execModeOrderDoze path s
  | .modeOrderReady path => Sys2Proof.Machine.execModeOrderReady path s
  | .modeOrderReadOnly path => Sys2Proof.Machine.execModeOrderReadOnly path s
  | .modeOrderService path => Sys2Proof.Machine.execModeOrderService path s
  | .modeOrderSafe path => Sys2Proof.Machine.execModeOrderSafe path s
  | .modeOrderLeave path => Sys2Proof.Machine.execModeOrderLeave path s
  | .sequencerWindowClose => Sys2Proof.Machine.execSequencerWindowClose s
  | .modeDrainTimeout => Sys2Proof.Machine.execModeDrainTimeout s
  | .modeTransitionDone => Sys2Proof.Machine.execModeTransitionDone s
  | .standbyEntryDone => Sys2Proof.Machine.execStandbyEntryDone s
  | .idleToReady => Sys2Proof.Machine.execIdleToReady s
  | .idlePolicy => Sys2Proof.Machine.execIdlePolicy s
  | .nvsUnlock path value => Sys2Proof.Machine.execNvsUnlock path value s
  | .nvsArmedExpire => Sys2Proof.Machine.execNvsArmedExpire s
  | .nvsRead path => Sys2Proof.Machine.execNvsRead path s
  | .nvsProgram path => Sys2Proof.Machine.execNvsProgram path s
  | .nvsErase path => Sys2Proof.Machine.execNvsErase path s
  | .nvsSuspend path => Sys2Proof.Machine.execNvsSuspend path s
  | .nvsResume path => Sys2Proof.Machine.execNvsResume path s
  | .nvsBlankCheck path => Sys2Proof.Machine.execNvsBlankCheck path s
  | .nvsOperationDone pass pulses => Sys2Proof.Machine.execNvsOperationDone pass pulses s
  | .nvsAutoResume => Sys2Proof.Machine.execNvsAutoResume s
  | .gapMove => Sys2Proof.Machine.execGapMove s
  | .updData path value => Sys2Proof.Machine.execUpdData path value s
  | .updCommit path value => Sys2Proof.Machine.execUpdCommit path value s
  | .updDiscard path value => Sys2Proof.Machine.execUpdDiscard path value s
  | .settingsSave path value => Sys2Proof.Machine.execSettingsSave path value s
  | .setDataAccess path wr => Sys2Proof.Machine.execSetDataAccess path wr s
  | .stagingOwnerTimeout => Sys2Proof.Machine.execStagingOwnerTimeout s
  | .firmwareActivation => Sys2Proof.Machine.execFirmwareActivation s
  | .trialConfirm => Sys2Proof.Machine.execTrialConfirm s
  | .settingsUpdate => Sys2Proof.Machine.execSettingsUpdate s
  | .coldReset lfPresent => Sys2Proof.Machine.execColdReset lfPresent s
  | .logicStart spliceTrains bad => Sys2Proof.Machine.execLogicStart spliceTrains bad s
  | .standbyExit rank0Ok bad => Sys2Proof.Machine.execStandbyExit rank0Ok bad s
  | .powerReturnRestart => Sys2Proof.Machine.execPowerReturnRestart s
  | .v12Rise mv => Sys2Proof.Machine.execV12Rise mv s
  | .holdSwitchOff mv => Sys2Proof.Machine.execHoldSwitchOff mv s
  | .vholdUndervoltage mv => Sys2Proof.Machine.execVholdUndervoltage mv s
  | .unloadTimeout act => Sys2Proof.Machine.execUnloadTimeout act s
  | .alertNRise sub => Sys2Proof.Machine.execAlertNRise sub s
  | .heaterFault act => Sys2Proof.Machine.execHeaterFault act s
  | .slotBit0 act => Sys2Proof.Machine.execSlotBit0 act s
  | .captureWindowOpen act => Sys2Proof.Machine.execCaptureWindowOpen act s
  | .vfEnableSet num => Sys2Proof.Machine.execVfEnableSet num s
  | .pfFunctionLevelReset => Sys2Proof.Machine.execPfFunctionLevelReset s
  | .hdrExitPattern => Sys2Proof.Machine.execHdrExitPattern s

end Sys2Proof.Machine
end

