-- ==== Sys2Proof/Machine/Idle.lean ====
section
/-! DEFINITION. What the block does of itself while no command waits (log entry 60): one cycle of the clock that
keeps the timecode passes (R29), with it the splice cycle counts (R21) and the slate's frames (R43), and the
device's own sequences take their next step: old merge-buffer entries drain, unreadable key slots are
reloaded, the disk follows the mode, a transition or a reset goes on, a
suspend of the NVS that was held takes effect, and idleness begins or ends. -/

namespace Sys2Proof.Machine

namespace State

/-- One cycle of the keeping clock in 1/64 ns: 40/64 ns of the fabric clock, or 30,517 37/64 ns of the 32.768 kHz
clock (R29). -/
def clockStep (s : State) : Nat := if s.fab.logicKeeps then 40 else 30517 * 64 + 37

/-- The timecode after `d` more sixty-fourths of a nanosecond: the keeper counts on, and the published value
holds until the keeper has passed it (R29, R30). -/
def passTime (s : State) (d : Nat) : State :=
  s.modFab fun f => { f with keeper := f.keeper + d, timecode := max f.timecode (f.keeper + d) }

/-- The control clock of 400 MHz runs wherever the logic die is powered (R27), and both dies count its cycles
(R21). -/
def passControl (s : State) (d : Nat) : State :=
  if s.logicOn then
    s.modFab fun f =>
      let n := (f.cyclePart + d) / 160
      { f with cycleLogic := (f.cycleLogic + n) % 2 ^ 32, cycleDrive := (f.cycleDrive + n) % 2 ^ 32, cyclePart := (f.cyclePart + d) % 160 }
  else s

/-- Frames of 16,384 fabric cycles follow one another while the slate runs, and SLT_FRAME counts them (R43,
R51). A swap that is due happens before the first cycle of its frame has passed (R71). -/
def passFrames (s : State) (d : Nat) : State :=
  if s.logicOn && s.columnsRun then
    let s := s.swapSlate
    let n := s.slt.frameCycle + d / 40
    let s := if n / 16 = s.slt.frameCycle / 16 then s else s.joinFresh
    (s.setF F.sltFrameFrame ((s.getF F.sltFrameFrame + n / 16384) % 2 ^ 32)).modSlt fun x =>
      { x with frameCycle := n % 16384 }
  else s

/-- The start of a stretch of idleness is kept, and its end clears it (R520, R523). -/
def noteIdle (s : State) : State :=
  if s.isIdle then
    if s.pwr.idleSince.isSome then s else s.modPwr fun p => { p with idleSince := some s.tick }
  else s.modPwr fun p => { p with idleSince := none }

/-- Ten minutes after step 12 without an entry to Safe, the starts that failed by firmware are forgotten
(R589). -/
def forgetFaultStarts (s : State) : State := match s.pwr.step12At with
  | some t => if s.since t 600000000000 then s.modPwr fun p => { p with faultStarts := 0, step12At := none } else s
  | none => s

/-- Where the fabric PLL has locked or stopped, the tick edge of the handover has come: the count goes on with the
keeper that Table 01.3 names (R29, R30). -/
def followKeeper (s : State) : State := s.modFab fun f => { f with logicKeeps := s.logicOn }

/-- From step 5 of a start on the PCIe link trains (R575): it is in L0, at the width, rate and mode that it negotiates
(log entries 50 and 180). -/
def linkStep (s : State) : State :=
  let up : Bool := s.logicOn && match s.pwr.starting with
    | some x => decide (5 ≤ x.step)
    | none => true
  if !up || s.getF F.hifLinkStatusLtssmState ≠ 0 then s
  else
    let s := (s.setF F.hifLinkStatusLtssmState 3).setF F.hifLinkStatusFlit Config.linkFlit.toNat
    (s.setF F.hifLinkStatusWidth (2 ^ (Config.linkWidth % 3))).setF F.hifLinkStatusRate (1 + Config.linkRate % 6)

/-- One step of the block with no command waiting. -/
def idleStep (s : State) : State :=
  let s := s.followKeeper
  let d := s.clockStep
  let s := ((s.passTime d).passControl d).passFrames d
  let s := s.drainOld.reloadSlots.linkStep.suspendDue.dumpStep.handoverStep
  let s := s.diskFollow.transStep.resetStep
  let s := s.dozeWake.releaseWake
  s.forgetFaultStarts.noteIdle

end State

end Sys2Proof.Machine
end

