-- ==== Sys2Proof/WellFormed.lean ====
section
/-! DEFINITION. Which commands are well formed: every number that names a unit names one the spec gives the
block, and every field of an entry or a message fits its width. Values that a rule itself judges (addresses,
opcodes, tags of data) are not judged here. -/

namespace Sys2Proof

/-! ## The numbers of the units -/

/-- Superframe positions (R20), drive-die outputs (Table 01.2). -/
def isPosition (n : Nat) : Bool := n < 16
def isOutput (n : Nat) : Bool := n < 8

/-- Columns of the slate, and the cells of a column (Table 02.1). -/
def isColumn (c : Nat) : Bool := c < 28
def isCell (c k : Nat) : Bool :=
  if c ≤ 1 || c = 18 || c = 19 || c = 24 || c = 26 then k < 1024
  else if c ≤ 17 then k < 128
  else if c ≤ 23 then k < 64
  else k < 512

/-- Slate owner codes that are not reserved (Table 00.4). -/
def isOwner (o : Nat) : Bool := o < 512 || (0x3F0 ≤ o && o ≤ 0x3F3) || o = 0x3FF

/-- Virtual instances 0–511 (R12), functions (0 the physical function), take contexts (chapter 10). -/
def isTenant (n : Nat) : Bool := n < 512
def isFunction (n : Nat) : Bool := n ≤ 512
def isContext (n : Nat) : Bool := n < 262144

/-- Flash channels 0–15 and LUNs 0–31 of one (R161), soft decoders, lanes and streams of the superblocks. -/
def isChannel (n : Nat) : Bool := n < 16
def isLun (n : Nat) : Bool := n < 32
def isSoft (n : Nat) : Bool := n < 4
def isLane (n : Nat) : Bool := n < 4
def isStream (n : Nat) : Bool := n < 4

/-- Actuators, and heads of one (chapter 07). -/
def isAct (n : Nat) : Bool := n < 2
def isHead (n : Nat) : Bool := n < 10

/-- Tenant engines 0–31, the management cores 0x3E and 0x3F, clusters, doorbell pages and their slots, stream
ports, merge-buffer entries, dispatch priorities (chapter 09, chapter 10). -/
def isEngineNo (n : Nat) : Bool := n < 32
def isProc (n : Nat) : Bool := n < 32 || n = 0x3E || n = 0x3F
def isCluster (n : Nat) : Bool := n < 4
def isPage (n : Nat) : Bool := n < 4
def isSlot (n : Nat) : Bool := n < 4
def isPort (n : Nat) : Bool := n < 8
def isMergeEntry (n : Nat) : Bool := n < 16
def isPriority (n : Nat) : Bool := n < 4

/-- DRAM channels, subchannels and ranks (chapter 13), banks of the associative store (chapter 11). -/
def isDramChannel (n : Nat) : Bool := n < 2
def isSubchannel (n : Nat) : Bool := n < 4
def isRank (n : Nat) : Bool := n < 2
def isBank (n : Nat) : Bool := n < 16

/-- I3C addresses of seven bits, bytes of a frame, entries of the local-bus table (chapter 15). -/
def isI3c (n : Nat) : Bool := n < 128
def isByte (n : Nat) : Bool := n < 256
def isLbEntry (n : Nat) : Bool := n < 16

/-! ## Entries and messages -/

/-- A command's name: a function, a queue and an identifier of 16 bits each. -/
def CmdKey.wf (k : CmdKey) : Bool := isFunction k.fn && k.sq < 65536 && k.cid < 65536

/-- The fields of a submission entry fit their widths. -/
def Sqe.wf (q : Sqe) : Bool :=
  q.opc < 256 && q.nsid < 2 ^ 32 && q.cid < 65536 && q.fuse < 4 && q.psdt < 4 && q.dw2 < 2 ^ 32 && q.dw3 < 2 ^ 32
    && q.mptr < 2 ^ 64 && q.dw10 < 2 ^ 32 && q.dw11 < 2 ^ 32 && q.dw12 < 2 ^ 32 && q.dw13 < 2 ^ 32 && q.dw14 < 2 ^ 32 && q.dw15 < 2 ^ 32

/-- A message has a header of 32 bytes, a body whose length fits 16 bits, and a tag of 16 bytes; a frame carries 256
bytes of messages (Tables 14.1 and 14.2). -/
def isMessage (w : List Byte) : Bool := w.length < 48 + 65536
def isFrameData (d : List Byte) : Bool := d.length ≤ 256

/-- The microcode targets of a start: the tenant engines and the control engine (R557). -/
def isSections (n : Nat) : Bool := n < 2 ^ 33

/-! ## The check -/

/-- A command is well formed. -/
def WellFormed (i : Instr) : Bool :=
  match i with
  | .registerWrite _ _ _ => true
  | .blockLock _ _ _ => true
  | .spliceWordArrive _ pos _ _ => isPosition pos
  | .applyStampMatch out => isOutput out
  | .discardedCommandLimit out => isOutput out
  | .spliceLost => true
  | .spliceTrained bad => isSections bad
  | .rcOscillatorTrim => true
  | .timecodeHandover _ _ => true
  | .timecodeLoRead _ => true
  | .delayListTick => true
  | .vfBar0Unclaimed _ _ _ => true
  | .spliceLostClear _ => true
  | .cellDecision col cell _ => isColumn col && isCell col cell
  | .slateHeal => true
  | .fabricClockGate => true
  | .fabricClockUngate owner col => isOwner owner && isColumn col
  | .slateSwap _ _ => true
  | .slateValidate _ _ => true
  | .slateLock _ _ => true
  | .shadowDataAccess _ _ => true
  | .validationDone => true
  | .swapBoundary => true
  | .pcieConventionalReset => true
  | .functionLevelReset n => isTenant n
  | .sqTailDoorbell fn _ _ => isFunction fn
  | .cqHeadDoorbell fn _ _ => isFunction fn
  | .commandFetch fn _ sqe => isFunction fn && sqe.wf
  | .commandAdmit key => key.wf
  | .rangeLockGrant key => key.wf
  | .completionPost key => key.wf
  | .deleteIoSubmissionQueue key => key.wf
  | .createIoSubmissionQueue key => key.wf
  | .getLogPage key => key.wf
  | .deleteIoCompletionQueue key => key.wf
  | .createIoCompletionQueue key => key.wf
  | .identify key => key.wf
  | .abort key => key.wf
  | .setFeatures key => key.wf
  | .getFeatures key => key.wf
  | .asynchronousEventRequest key => key.wf
  | .namespaceManagement key => key.wf
  | .firmwareCommit key => key.wf
  | .firmwareImageDownload key => key.wf
  | .deviceSelfTest key => key.wf
  | .selfTestSegment _ _ _ => true
  | .namespaceAttachment key => key.wf
  | .formatNvm key => key.wf
  | .sanitize key => key.wf
  | .slateLoad key => key.wf
  | .slateRead key => key.wf
  | .scriptRegister key => key.wf
  | .scriptDeregister key => key.wf
  | .instanceConfigure key => key.wf
  | .instanceRead key => key.wf
  | .instanceEnable key => key.wf
  | .instanceDisable key => key.wf
  | .instanceReset key => key.wf
  | .rateSet key => key.wf
  | .instanceQuiesce key => key.wf
  | .instanceResume key => key.wf
  | .flush key => key.wf
  | .write key _ => key.wf
  | .read key _ => key.wf
  | .writeZeroes key => key.wf
  | .datasetManagement key => key.wf
  | .verify key => key.wf
  | .zoneManagementSend key => key.wf
  | .zoneManagementReceive key => key.wf
  | .zoneAppend key _ => key.wf
  | .takeSubmit key => key.wf
  | .takeStatus key => key.wf
  | .takeCancel key => key.wf
  | .ccEnClear n => isTenant n
  | .ccEnSet fn _ => isFunction fn
  | .vfEnableClear => true
  | .numvfsLower _ => true
  | .resettingEnd n => isTenant n
  | .windowFillDone n => isTenant n
  | .quiesceDone n => isTenant n
  | .staleResultDiscard n _ => isTenant n
  | .staleGenerationRecord n => isTenant n
  | .takePieceCharge ctx port _ => isContext ctx && port.all isPort
  | .channelBringUp ch _ _ => isChannel ch
  | .channelStandbyRestore ch _ => isChannel ch
  | .channelRetrain ch _ => isChannel ch
  | .flashStatusPoll ch lun _ _ => isChannel ch && isLun lun
  | .flashOperationTimeout ch lun _ => isChannel ch && isLun lun
  | .hardDecodeDone ch lun _ _ => isChannel ch && isLun lun
  | .softDecodeDone slot _ _ => isSoft slot
  | .programFail ch lun => isChannel ch && isLun lun
  | .eraseFail ch lun => isChannel ch && isLun lun
  | .programLoopSample ch lun _ => isChannel ch && isLun lun
  | .flashSuspend ch lun => isChannel ch && isLun lun
  | .suspendHoldExpire ch lun => isChannel ch && isLun lun
  | .lunFence ch lun _ _ => isChannel ch && isLun lun
  | .channelFence ch _ => isChannel ch
  | .clearFence ch _ => isChannel ch
  | .rebuildComplete ch => isChannel ch
  | .writeBufferFillDone key => key.wf
  | .bufferSpaceFreed key _ => key.wf
  | .flushStart _ _ => true
  | .rowPadTimeout stream lane => isStream stream && isLane lane
  | .superblockOpenTimeout lane => isLane lane
  | .journalCodewordWrite => true
  | .journalDurable _ => true
  | .jrnDurableLoRead _ => true
  | .checkpointStart => true
  | .ckptNow _ _ => true
  | .checkpointComplete => true
  | .gcCollect lane => isLane lane
  | .gcCopyCommit _ _ _ => true
  | .superblockErase lane _ => isLane lane
  | .deallocateApply => true
  | .heatEpoch => true
  | .demotionStart => true
  | .extentDemoted _ _ => true
  | .promotion _ _ => true
  | .bandCompaction act _ => isAct act
  | .powerFailEvent _ => true
  | .dumpDurable => true
  | .evacuationStart => true
  | .readOnlyOrder => true
  | .sensorSample _ _ _ => true
  | .tempHistoryBin => true
  | .tempHistorySave => true
  | .dailiesCopy => true
  | .preampFrame act _ _ => isAct act
  | .preampFault act => isAct act
  | .preampDiscovery act _ _ => isAct act
  | .preampRescan act _ _ _ => isAct act
  | .clockLock act => isAct act
  | .clockLoss act => isAct act
  | .servoWedge act _ _ _ _ => isAct act
  | .servoLost act => isAct act
  | .sectorReadQueue act _ _ _ => isAct act
  | .sectorCaptureDone act _ => isAct act
  | .sectorDecodeDone act _ _ _ => isAct act
  | .sectorWriteQueue act _ _ _ => isAct act
  | .slotWriteEnd act => isAct act
  | .writeCut act => isAct act
  | .verifyResult act _ _ _ _ _ _ => isAct act
  | .bandVerifyGo act _ _ => isAct act
  | .bandVerifyTrack act _ => isAct act
  | .bandVerifyAbort act _ => isAct act
  | .wedgeListRun act => isAct act
  | .controlTick => true
  | .loopTableCheck _ _ => true
  | .clearFlags _ _ => true
  | .loopRecordWrite _ _ _ => true
  | .load act _ => isAct act
  | .unload act _ => isAct act
  | .seekRead act head _ _ => isAct act && isHead head
  | .seekWrite act head _ _ => isAct act && isHead head
  | .clearOffline act _ => isAct act
  | .servoFieldsSeen act => isAct act
  | .loadTimeout act => isAct act
  | .acquireDone act => isAct act
  | .seekEnd act => isAct act
  | .settleDone act => isAct act
  | .settleTimeout act => isAct act
  | .headsOnRamp act => isAct act
  | .actuatorOffline act _ => isAct act
  | .spinStart _ _ => true
  | .spinStop _ _ => true
  | .alignDone => true
  | .rampDone _ => true
  | .spindleHandoverDone _ => true
  | .spindleHandoverTimeout => true
  | .atSpeed _ => true
  | .speedDrop _ => true
  | .speedLowUnload _ => true
  | .brakeEnter _ => true
  | .spindleStopped => true
  | .spindleFault _ _ => true
  | .targetRpmWrite _ _ => true
  | .emergencyRetract _ => true
  | .retractParkHoldEnd act => isAct act
  | .tuneStart _ _ => true
  | .tuneAbort _ _ => true
  | .tuneEnd => true
  | .add p _ => isProc p
  | .sub p _ => isProc p
  | .and p _ => isProc p
  | .or p _ => isProc p
  | .xor p _ => isProc p
  | .sll p _ => isProc p
  | .srl p _ => isProc p
  | .sra p _ => isProc p
  | .seq p _ => isProc p
  | .sne p _ => isProc p
  | .slt p _ => isProc p
  | .sltu p _ => isProc p
  | .min p _ => isProc p
  | .max p _ => isProc p
  | .minu p _ => isProc p
  | .maxu p _ => isProc p
  | .clz p _ => isProc p
  | .popc p _ => isProc p
  | .addi p _ => isProc p
  | .andi p _ => isProc p
  | .ori p _ => isProc p
  | .xori p _ => isProc p
  | .slli p _ => isProc p
  | .srli p _ => isProc p
  | .srai p _ => isProc p
  | .seqi p _ => isProc p
  | .snei p _ => isProc p
  | .slti p _ => isProc p
  | .sltiu p _ => isProc p
  | .lb p _ => isProc p
  | .lh p _ => isProc p
  | .lw p _ => isProc p
  | .lbu p _ => isProc p
  | .lhu p _ => isProc p
  | .sb p _ => isProc p
  | .sh p _ => isProc p
  | .sw p _ => isProc p
  | .beqz p _ => isProc p
  | .bnez p _ => isProc p
  | .jal p _ => isProc p
  | .jalr p _ => isProc p
  | .lui p _ => isProc p
  | .auipc p _ => isProc p
  | .mul p _ => isProc p
  | .mulh p _ => isProc p
  | .mulhu p _ => isProc p
  | .div p _ => isProc p
  | .divu p _ => isProc p
  | .rem p _ => isProc p
  | .remu p _ => isProc p
  | .fence p _ => isProc p
  | .tend p _ => isProc p
  | .trap p _ => isProc p
  | .wfe p _ => isProc p
  | .mfsr p _ => isProc p
  | .mtsr p _ => isProc p
  | .eret p _ => isProc p
  | .wfeWake p => isProc p
  | .portPopResume p => isProc p
  | .portPushResume p => isProc p
  | .doorbellRing p page slot _ => isProc p && isPage page && isSlot slot
  | .budgetGrant p => isProc p
  | .mergeEntryDrain p entry => isProc p && isMergeEntry entry
  | .icacheFill p _ => isProc p
  | .engineFence e _ => isEngineNo e
  | .engineUnfence _ _ => true
  | .engineAckTimeout e => isEngineNo e
  | .takeDescriptorFetched key _ => key.wf
  | .takePrepare ctx => isContext ctx
  | .takeClusterPlaced ctx => isContext ctx
  | .stagePieceRead ctx port => isContext ctx && isPort port
  | .taskDispatch cluster _ => isCluster cluster
  | .taskEnd p => isProc p
  | .taskDelayWake => true
  | .overflowDrain cluster prio => isCluster cluster && isPriority prio
  | .takeRestart ctx => isContext ctx
  | .takeFaultEnd ctx => isContext ctx
  | .takeCommitEnd ctx => isContext ctx
  | .jobUnitAssign page => isPage page
  | .scan p slot => isProc p && isSlot slot
  | .install p slot => isProc p && isSlot slot
  | .uninstall p slot => isProc p && isSlot slot
  | .lookup p slot => isProc p && isSlot slot
  | .assocWrite p slot => isProc p && isSlot slot
  | .insert p slot => isProc p && isSlot slot
  | .delete p slot => isProc p && isSlot slot
  | .moverStep => true
  | .scanEnd p slot => isProc p && isSlot slot
  | .compress p slot => isProc p && isSlot slot
  | .decompress p slot => isProc p && isSlot slot
  | .compressBlockVerified p slot _ => isProc p && isSlot slot
  | .jobComplete p page slot => isProc p && isPage page && isSlot slot
  | .bankOwnerWrite _ bank _ => isBank bank
  | .cmpInject _ _ => true
  | .keyLoad _ _ => true
  | .keyGenerate _ _ => true
  | .keyExport _ _ => true
  | .keyErase _ _ => true
  | .keyCommandDone => true
  | .keyAreaCompact => true
  | .blobDataAccess _ _ => true
  | .nsKeyBind _ _ => true
  | .drbgReseed _ _ => true
  | .entropyFail => true
  | .gcmEncrypt p slot => isProc p && isSlot slot
  | .gcmDecrypt p slot => isProc p && isSlot slot
  | .xtsEncrypt p slot => isProc p && isSlot slot
  | .xtsDecrypt p slot => isProc p && isSlot slot
  | .aesPieceEnd p slot => isProc p && isSlot slot
  | .hash p slot => isProc p && isSlot slot
  | .hmac p slot => isProc p && isSlot slot
  | .digestYield => true
  | .digestResume => true
  | .digestReadBusy p slot => isProc p && isSlot slot
  | .tamperAlarm _ => true
  | .lifecycleLock _ _ => true
  | .dramTraining ch _ _ => isDramChannel ch
  | .zqCalibration ch => isDramChannel ch
  | .dqsTracking ch => isDramChannel ch
  | .mr4Poll ch rank _ => isDramChannel ch && isRank rank
  | .refresh ch rank => isDramChannel ch && isRank rank
  | .rowIdlePrecharge sub _ => isSubchannel sub
  | .dramCommandIssue sub => isSubchannel sub
  | .rhReseed sub => isSubchannel sub
  | .caParityAlert sub _ => isSubchannel sub
  | .rank1Trained _ => true
  | .fillBlock ch => isDramChannel ch
  | .patrolScrub => true
  | .sramScrub => true
  | .heal _ _ => true
  | .flipArm _ _ => true
  | .memRetrain _ _ => true
  | .linkEnable _ _ => true
  | .linkDisable _ _ => true
  | .linkRetrain _ _ => true
  | .linkTrained _ => true
  | .linkTrainRetry => true
  | .linkFrameReceive _ data _ => isFrameData data
  | .linkFrameTimeout => true
  | .hello w => isMessage w
  | .confirm w => isMessage w
  | .mirrorWrite w _ => isMessage w
  | .mapDelta w => isMessage w
  | .takeCommit w => isMessage w
  | .slateMessage w => isMessage w
  | .config w => isMessage w
  | .keyMessage w => isMessage w
  | .ack w => isMessage w
  | .ackSend => true
  | .refuse w => isMessage w
  | .epochMessage w => isMessage w
  | .dirty w => isMessage w
  | .resyncData w => isMessage w
  | .resyncDone w => isMessage w
  | .readReq w => isMessage w
  | .readData w => isMessage w
  | .ackTimeout => true
  | .resyncExtent _ _ => true
  | .resyncPassTimer => true
  | .heartbeatPulse _ => true
  | .partnerPulse _ => true
  | .heartbeatLost => true
  | .promote _ => true
  | .handover _ => true
  | .stepDown _ => true
  | .enec _ _ => true
  | .disec _ _ => true
  | .rstdaa => true
  | .entdaa da => isI3c da
  | .setmwl _ => true
  | .setmrl _ => true
  | .enthdr0 => true
  | .rstact _ => true
  | .setdasa stat da => isI3c stat && isI3c da
  | .setnewda da => isI3c da
  | .getmwl => true
  | .getmrl => true
  | .getpid => true
  | .getbcr => true
  | .getdcr => true
  | .getstatus => true
  | .getmxds => true
  | .getcaps => true
  | .hotJoin => true
  | .i3cWrite tag count _ _ _ => isByte tag && isByte count
  | .i3cRead tag count _ _ => isByte tag && isByte count
  | .i3cWriteSame tag count _ _ _ => isByte tag && isByte count
  | .i3cReadSame tag count _ _ => isByte tag && isByte count
  | .i3cResponseRead => true
  | .ibiRaise _ => true
  | .lbDiscovery _ => true
  | .lbRescan _ => true
  | .lbHotJoin _ => true
  | .lbPoll entry _ _ => isLbEntry entry
  | .lbRequiredCheck _ => true
  | .tfIdentify _ => true
  | .tfRead _ => true
  | .tfWrite _ => true
  | .tfWriteZeroes _ => true
  | .tfFlush _ => true
  | .tfGetLog _ => true
  | .tfAbort _ => true
  | .tfDataAccess _ _ => true
  | .tfCommandDone => true
  | .nresetAssert _ => true
  | .nresetRelease => true
  | .wakeN _ => true
  | .pwrdisAssert _ => true
  | .pwrdisRelease _ => true
  | .modeOrderDormant _ => true
  | .modeOrderStandby _ => true
  | .modeOrderDoze _ => true
  | .modeOrderReady _ => true
  | .modeOrderReadOnly _ => true
  | .modeOrderService _ => true
  | .modeOrderSafe _ => true
  | .modeOrderLeave _ => true
  | .sequencerWindowClose => true
  | .modeDrainTimeout => true
  | .modeTransitionDone => true
  | .standbyEntryDone => true
  | .idleToReady => true
  | .idlePolicy => true
  | .nvsUnlock _ _ => true
  | .nvsArmedExpire => true
  | .nvsRead _ => true
  | .nvsProgram _ => true
  | .nvsErase _ => true
  | .nvsSuspend _ => true
  | .nvsResume _ => true
  | .nvsBlankCheck _ => true
  | .nvsOperationDone _ _ => true
  | .nvsAutoResume => true
  | .gapMove => true
  | .updData _ _ => true
  | .updCommit _ _ => true
  | .updDiscard _ _ => true
  | .settingsSave _ _ => true
  | .setDataAccess _ _ => true
  | .stagingOwnerTimeout => true
  | .firmwareActivation => true
  | .trialConfirm => true
  | .settingsUpdate => true
  | .coldReset _ => true
  | .logicStart _ bad => isSections bad
  | .standbyExit _ bad => isSections bad
  | .powerReturnRestart => true
  | .v12Rise _ => true
  | .holdSwitchOff _ => true
  | .vholdUndervoltage _ => true
  | .unloadTimeout act => isAct act
  | .alertNRise sub => isSubchannel sub
  | .heaterFault act => isAct act
  | .slotBit0 act => isAct act
  | .captureWindowOpen act => isAct act
  | .vfEnableSet _ => true
  | .pfFunctionLevelReset => true
  | .hdrExitPattern => true

end Sys2Proof
end

