-- ==== Sys2Proof/Safety.lean ====
section
/-! DEFINITION. What counts as a safe run, and the words in which claims speak of one step: completing, keeping
the registers, and the canonical form of the register table. -/

namespace Sys2Proof.Machine

/-- A step neither faults nor is refused. -/
def StepSafe (s : State) : Prop := ∃ t, step s = .next t

/-- The command completes at `s` in a next state that meets `P`. -/
def Completes (i : Instr) (s : State) (P : State → Prop) : Prop := ∃ t, exec i s = .next t ∧ P t

/-- Every stored register but those at the addresses listed holds its value. -/
def RegsKept (l : List Nat) (s t : State) : Prop := ∀ a, a ∉ l → t.reg a = s.reg a

/-- The stored registers stand in the canonical form of a sparse table: addresses rising, none listed at its
reset value. -/
abbrev State.regsWf (s : State) : Prop := Sparse.wf regReset s.regs = true

/-- A register write by this path takes place now (R34, R35, R37). -/
abbrev State.admits (s : State) (path : Path) (a : Nat) : Prop := s.admitWrite path a = (true, s)

/-- The command of a key has ended with a status and dword 0; its completion entry waits (Table 03.3). -/
def State.EndedWith (s : State) (key : CmdKey) (sct sc dw0 : Nat) : Prop :=
  ∃ c, s.cmd? key = some c ∧ c.st = .completing ∧ c.sct = sct ∧ c.sc = sc ∧ c.dw0 = dw0

/-- No error mask stands on any memory, and none is armed (R466, R472): reads of memory report nothing. -/
def State.noErrors (s : State) : Prop := s.mem.masks = [] ∧ s.onF F.memFlipCtrlArm = false

/-! ## Messages of the partner (chapter 14) -/

/-- Bytes of the partner open as `m` at once: the session is proven, the cells that opening takes are granted, and the
tag passes under the session key (R480, R481). -/
abbrev State.Opens (s : State) (w : List Byte) (m : LinkMsg) : Prop :=
  s.cnt.proven = true ∧ s.canDraw (s.recvNeeds w) = true ∧ s.openMsg w = some m

/-- The state in which received bytes are opened: their cells spent, their AES blocks counted (R54, R419). -/
def State.opened (s : State) (w : List Byte) : State := (s.spend (s.recvNeeds w)).useMasks (ceilDiv (48 + msgLen w) 16)

/-! ## Processors (chapter 09) -/

/-- Processor `p` can issue an instruction of a profile at its pc: it runs, nothing stalls it, pc lies in the code
space, its script declares the profile, and an engine has grant left (R318, R328, R346). -/
abbrev State.Issues (s : State) (p profile : Nat) : Prop :=
  s.procRuns p = true ∧ (s.proc p).stall = none ∧ (s.proc p).pc.toNat < (s.proc p).textLen
  ∧ profile ≤ (s.proc p).profile ∧ (isEngine p = true → 0 < (s.proc p).grant)
  ∧ Sparse.wf (fun _ => Proc.reset) s.eng.procs = true ∧ Sparse.wf (fun _ => (0 : Word)) (s.proc p).regs = true

/-- `t` is `s` after processor `p` has retired an instruction that wrote `v` to register `d` (g0 discards it) and
went on at `pc`: the instruction is counted and uses one of the grant, and nothing else has changed. -/
def State.Retires (s t : State) (p d : Nat) (v pc : Word) : Prop :=
  t.proc p = { s.proc p with
    regs := (t.proc p).regs, pc := pc, retired := (s.proc p).retired + 1,
    grant := if isEngine p then (s.proc p).grant - 1 else (s.proc p).grant,
    stall := if isEngine p ∧ (s.proc p).grant ≤ 1 then some .grant else none }
  ∧ (∀ r, t.gReg p r = if r = d ∧ r ≠ 0 then v else s.gReg p r)
  ∧ (∀ q, q ≠ p → t.proc q = s.proc q)
  ∧ t = { s with regs := t.regs, eng := { s.eng with procs := t.eng.procs } } ∧ RegsKept [A.engERetired p] s t

/-- A place in SRAM or DRAM, as against a port, a doorbell slot or a management register. -/
def Place.isMemory : Place → Bool
  | .loc _ | .shared _ | .dram _ => true
  | .inPort .. | .outPort .. | .slot .. | .mgmt _ => false

/-- A load of memory as the processor sees it: SRAM through its merge buffer, or DRAM (R340). -/
def State.memLoad (s : State) (p : Nat) (pl : Place) (n : Nat) : Option (List Byte) × State := match pl with
  | .loc off => s.mergeLoad p false off n
  | .shared off => s.mergeLoad p true off n
  | .dram a => s.dramRead a n
  | _ => (none, s)

/-- A store to memory as the processor makes it: SRAM through its merge buffer, or DRAM. -/
def State.memStore (s : State) (p : Nat) (pl : Place) (l : List Byte) : State := match pl with
  | .loc off => s.mergeStore p false off l
  | .shared off => s.mergeStore p true off l
  | .dram a => s.dramWrite a l
  | _ => s

/-! ## Accelerator jobs (R386) -/

/-- A job whose piece moves nothing takes it at once; one whose piece moves data takes it in its owner's cells, and
posts a request where it does not have them. `needs` gives the cells from the job before and after the piece. -/
def State.PieceRuns (s : State) (i : Instr) (page p slot : Nat) (needs : AccJob → AccJob → List CellNeed)
    (piece : State → State) : Prop :=
  ∀ j k : AccJob, s.job? page p slot = some j → (piece s).job? page p slot = some k →
    let cells := State.joinNeeds (needs j k)
    let still : Prop := k.pos = j.pos ∧ k.produced = j.produced ∧ k.eos = j.eos
    (still ∨ cells = [] → exec i s = .next (piece s)) ∧
    (¬ still → s.canDraw cells = true → exec i s = .next (piece (s.spend cells))) ∧
    (¬ still → s.canDraw cells = false → exec i s = .next { s with slt := (s.postCells cells).slt })

/-! ## Device DRAM (R454–R456, R464) -/

/-- The DRAM holds no error and its write queues are in order: no error mask stands and none is armed; the queued
writes of a subchannel are of different bursts and orders, each a whole burst wide, of that subchannel and of a
filled block; an unfilled block holds no byte; and the tables stand in their canonical form. -/
def State.dramOk (s : State) : Prop :=
  s.noErrors
  ∧ (∀ i, ((s.subch i).writes.map (·.burst)).Nodup ∧ ((s.subch i).writes.map (·.order)).Nodup
      ∧ ∀ r ∈ (s.subch i).writes, r.bytes.length = 64 ∧ s.burstSub r.burst = i ∧ r.order < (s.subch i).nextOrder
        ∧ s.isFilled (r.burst * 64) = true)
  ∧ (∀ b, s.isFilled (b * 64) = false → ∀ j < 64, sparseGet (fun _ => (0 : Byte)) s.mem.dram (b * 64 + j) = 0)
  ∧ Sparse.wf (fun _ => (0 : Byte)) s.mem.dram = true ∧ Sparse.wf (fun _ => false) s.mem.filled = true
  ∧ Sparse.wf (fun _ => Subchannel.reset) s.mem.subs = true

end Sys2Proof.Machine
end

