-- ==== Sys2Proof/Certificates/Slice0/Obligations.lean ====
section
/-! DEFINITION. The statements for the provers: what each command, and the machine, does by the numbered rules. -/

open Sys2Proof Sys2Proof.Machine

/-! ## The queue, reset, and register accesses (chapters 00 and 01) -/

/-- A step with a command at the front of the queue runs exactly that command, with the rest of the queue left
waiting. The model's own choices in it: log entries 2 and 60. -/
def Obligations.StepRunsFrontCommand : Prop :=
  ∀ (c : Instr) (rest : List Instr) (s : State), s.pending = c :: rest →
    step s = exec c { s with pending := rest }

/-- Every command answers a next state, whatever the state: no ordinary operand ends a run. The model's own choices in
it: log entries 2, 157 and 158. -/
def Obligations.EveryCommandAnswersNextState : Prop :=
  ∀ (c : Instr) (s : State), ∃ t, exec c s = .next t

/-- Reset: every register holds the reset value of its table, the timecode is zero (R29), the mode register reads
Dormant, nothing waits, and no tenant, command or take exists. The model's own choices in it: log entry 3. -/
def Obligations.ResetState : Prop :=
  (∀ a, State.reset.reg a = regReset a) ∧ State.reset.fab.timecode = 0 ∧ State.reset.mode = .dormant
    ∧ State.reset.pending = [] ∧ State.reset.ten = [] ∧ State.reset.host.cmds = [] ∧ State.reset.host.nss = []
    ∧ (∀ h, State.reset.ctx h = none) ∧ State.reset.regsWf

/-- A register write sets each field of the word as Table 00.3 states for its access code, ignores the values that the
field's own description excludes (a CODE_RATE whose codewords a page has no room for among them, R173), and changes
nothing else (R8, R10). Fields with a command of their own are left to it. -/
def Obligations.RegisterWriteSetsFieldsByAccessCode : Prop :=
  ∀ (path : Path) (a : Nat) (v : Word) (s : State) (r : RegDesc),
    s.regsWf → State.ctrlPlace path a = none → a ≠ A.srvLoopFlags → a ≠ A.mgtAlertStatus → s.admits path a →
    regDesc? a = some r →
    let noRoom := fun (a lo v : Nat) => a / 0x1000 = 5 && a = A.fchCfg ((a - 0x5000) / 0x100) && lo = 4
      && s.fch.geom.any fun g => g.pageSize / cwLength v < g.dataArea / 4096
    Completes (.registerWrite path a v) s fun t =>
      t = { s with regs := t.regs } ∧ RegsKept [a] s t ∧
      ∀ f ∈ r.fields, let p : Field := ⟨a, f.lo, f.width⟩
        let old := s.getF p
        let new := p.get v
        t.getF p =
          if f.own || fieldIgnores a f.lo new v || noRoom a f.lo new then old
          else match f.acc with
            | .ro | .rc | .wo => old
            | .rw | .rws => new
            | .w1c => old &&& (2 ^ f.width - 1 - new)
            | .w1s => old ||| new
            | .rwsClear => if s.inMode .service then old &&& (2 ^ f.width - 1 - new) else old
            | .rwl => if s.lockedAt a then old else new

/-- Register accesses that reach nothing, and the register commands: a write where no register is defined (R9, R33),
or to the logic die while it is off (R35), changes nothing; setting LOCK lets an RWL field of the same word take its
value first (R11); a read of DEV_TIMECODE_LO latches the upper half for its own path alone (R31); an access to a
virtual function that does not exist is answered Unsupported Request (R34). The model's own choices in it: log entries
25 and 152. -/
def Obligations.RegisterAccesses : Prop :=
  (∀ (path : Path) (a : Nat) (v : Word) (s : State), State.ctrlPlace path a = none → a ≠ A.srvLoopFlags →
     a ≠ A.mgtAlertStatus → s.admits path a → regDesc? a = none → exec (.registerWrite path a v) s = .next s) ∧
  (∀ (path : Path) (a : Nat) (v : Word) (s : State), s.logicOn = false → onDriveDie a = false →
     exec (.registerWrite path a v) s = .next s) ∧
  ((∀ (path : Path) (a : Nat) (v : Word) (s : State) (r : RegDesc) (f : Field), s.regsWf → s.admits path a →
     State.ctrlPlace path a = none → regDesc? a = some r → lockField a = some f → f.addr = a → f.get v = 1 →
     writeActions s path a (State.withoutLock a v) = [] →
     Completes (.blockLock path a v) s fun t =>
       t = { s with regs := t.regs } ∧ RegsKept [a] s t ∧ t.getF f = 1 ∧
       ∀ g ∈ r.fields, g.acc = .rwl → g.own = false → s.getF f = 0 → fieldIgnores a g.lo ((⟨a, g.lo, g.width⟩ : Field).get v) v = false →
         (g.lo + g.width ≤ f.lo ∨ f.lo + f.width ≤ g.lo) →
         t.getF ⟨a, g.lo, g.width⟩ = (⟨a, g.lo, g.width⟩ : Field).get v) ∧
   (∀ (path : Path) (s : State), s.logicOn = true → path ≠ .vf →
     Completes (.timecodeLoRead path) s fun t =>
       t = { s with host := { s.host with bus := .data (s.now % 2 ^ 32) }, fab := t.fab } ∧
       let hi := s.now / 2 ^ 32 % 2 ^ 32
       t.fab = { s.fab with
         hiBar0 := if path = .bar0 then hi else s.fab.hiBar0
         hiI3c := if path = .i3c then hi else s.fab.hiI3c
         hiCore := if path = .core then hi else s.fab.hiCore }) ∧
   (∀ s : State, exec (.timecodeLoRead .vf) s = .next s) ∧
   (∀ (vf off : Nat) (s : State), s.vfExists vf = true → 0x1800 ≤ off →
     exec (.vfBar0Unclaimed vf off false) s = .next { s with host := { s.host with bus := .data 0 } }) ∧
   (∀ (vf off : Nat) (wr : Bool) (s : State), s.vfExists vf = false →
     exec (.vfBar0Unclaimed vf off wr) s = .next { s with host := { s.host with bus := .unsupported } }))

/-! ## The splice and the timecode (chapter 01) -/

/-- A write of 1 to DEV_SPLICE_STATUS.LOST outside Service mode leaves LOST as it is, whether it comes as the clearing
command or as a plain register write (R39). -/
def Obligations.SpliceLostKeptOutsideService : Prop :=
  ∀ (path : Path) (s : State), s.regsWf → s.inMode .service = false →
    Completes (.spliceLostClear path) s (fun t => t.getF F.devSpliceStatusLost = s.getF F.devSpliceStatusLost) ∧
    ∀ v : Word, Completes (.registerWrite path A.devSpliceStatus v) s
      fun t => t.getF F.devSpliceStatusLost = s.getF F.devSpliceStatusLost

/-- The splice (R20–R24, R26, R30, R39, R306): a motion command in time is held for its stamp, one whose stamp has
passed is applied on arrival and counted, an uncorrectable word is counted and changes no output, and a held command
is applied on its stamp; four discarded commands of one output, or eight failed link checks, start the emergency
retract, which cuts the drivers and unloads the heads; the oscillator is trimmed, the timecode is handed over without
going back, and LOST is cleared in Service mode. The model's own choices in it: log entries 19, 21, 49, 121, 159 and
160. -/
def Obligations.SpliceTakesEffect : Prop :=
  (∀ (s : State) (cause : Nat), s.regsWf → cause < 256 →
     let loaded := fun a => a < 2 ∧ 1 ≤ s.actState a ∧ s.actState a ≤ 6
     let t := s.emergencyRetract cause
     (s.onF F.drvStatusRetract = true → t = s) ∧
     (s.onF F.drvStatusRetract = false →
       t.getF F.srvRetractCause = cause ∧ t.getF F.srvRetractCount = min (s.getF F.srvRetractCount + 1) 0xFFFF
       ∧ t.getF F.drvEventsRetract = min (s.getF F.drvEventsRetract + 1) 0xFFFF
       ∧ (t.onF F.drvStatusRetract = true ↔ loaded 0 ∨ loaded 1)
       ∧ t.onF F.drvStatusHtrEn = false ∧ t.onF F.drvStatusSpinEn = false
       ∧ t.fab.held = [] ∧ (∀ o ∈ [1, 2, 4, 5, 6], sparseGet (fun _ => 0) t.fab.outputs o = 0)
       ∧ t.getF F.srvStatusSpinState =
           (if s.getF F.srvStatusSpinState = 0 ∨ s.getF F.srvStatusSpinState = 9 then s.getF F.srvStatusSpinState else 8)
       ∧ (∀ a, loaded a → t.actState a = 7)
       ∧ t = { s with regs := t.regs, fab := t.fab, host := t.host, ftl := t.ftl, dch := t.dch, srv := t.srv, mgt := t.mgt })) ∧
  ((∀ (pos stamp value : Nat) (s : State), pos < 7 →
     s.onF F.devSpliceStatusUp = true → s.onF F.drvStatusRetract = false →
     (stamp + 65536 - s.fab.cycleDrive % 65536) % 65536 ≤ 32767 →
     exec (.spliceWordArrive .toDrive pos .clean (.command stamp value)) s = .next { s with fab := { s.fab with
       discards := sparsePut (fun _ => 0) s.fab.discards pos 0
       held := sparsePut (fun _ => []) s.fab.held pos (s.heldCmds pos ++ [{ stamp := stamp % 65536, value := value }]) } }) ∧
   (∀ (pos stamp value : Nat) (s : State), pos < 7 → s.regsWf →
     s.onF F.devSpliceStatusUp = true → s.onF F.drvStatusRetract = false →
     32767 < (stamp + 65536 - s.fab.cycleDrive % 65536) % 65536 →
     Completes (.spliceWordArrive .toDrive pos .clean (.command stamp value)) s fun t =>
       t.fab.outputs = sparsePut (fun _ => 0) s.fab.outputs pos value
       ∧ t.getF F.devSpliceErrLateApply = min (s.getF F.devSpliceErrLateApply + 1) 0xFF
       ∧ t = { s with fab := t.fab, regs := t.regs, srv := { s.srv with loops := t.srv.loops } }) ∧
   (∀ (pos stamp value : Nat) (s : State), pos ≤ 7 → s.onF F.devSpliceStatusUp = false →
     exec (.spliceWordArrive .toDrive pos .clean (.command stamp value)) s = .next { s with fab := { s.fab with
       discards := sparsePut (fun _ => 0) s.fab.discards pos 0 } }) ∧
   (∀ (dir : SpliceDir) (pos : Nat) (w : SpliceWord) (s : State), wordFits w dir pos = true → s.regsWf →
     Completes (.spliceWordArrive dir pos .uncorrectable w) s fun t =>
       t.getF F.devSpliceErrUncorrected = min (s.getF F.devSpliceErrUncorrected + 1) 0xFF
       ∧ t.fab.outputs = s.fab.outputs ∧ t.fab.held = s.fab.held
       ∧ (pos = 15 → if dir = .toDrive then t.fab.failsDrive = s.fab.failsDrive + 1
           else t.fab.failsLogic = s.fab.failsLogic + 1)
       ∧ t = { s with fab := t.fab, regs := t.regs, srv := { s.srv with badInputs := t.srv.badInputs } }) ∧
   (∀ (count : Nat) (s : State), (count + 24) % 2 ^ 32 = s.fab.cycleDrive →
     exec (.spliceWordArrive .toDrive 15 .clean (.link s.fab.seqDrive count)) s = .next { s with fab := { s.fab with
       failsDrive := 0, seqDrive := (s.fab.seqDrive + 1) % 2 ^ 32 } }) ∧
   (∀ (count : Nat) (s : State), (count + 24) % 2 ^ 32 = s.fab.cycleLogic →
     exec (.spliceWordArrive .toLogic 15 .clean (.link s.fab.seqLogic count)) s = .next { s with fab := { s.fab with
       failsLogic := 0, seqLogic := (s.fab.seqLogic + 1) % 2 ^ 32 } }) ∧
   (∀ (seq count : Nat) (s : State), seq ≠ s.fab.seqDrive ∨ (count + 24) % 2 ^ 32 ≠ s.fab.cycleDrive →
     exec (.spliceWordArrive .toDrive 15 .clean (.link seq count)) s = .next { s with fab := { s.fab with
       failsDrive := s.fab.failsDrive + 1, seqDrive := (seq + 1) % 2 ^ 32 } }) ∧
   (∀ (dir : SpliceDir) (w : SpliceWord) (s : State), w = .idle ∨ w = .ack → wordFits w dir 14 = true →
     s.regsWf → Completes (.spliceWordArrive dir 14 .corrected w) s fun t =>
       t = { s with fab := { s.fab with events := if w = .ack then s.fab.events.drop 1 else s.fab.events }, regs := t.regs }
       ∧ t.getF F.devSpliceErrCorrected = min (s.getF F.devSpliceErrCorrected + 1) 0xFFFF
       ∧ RegsKept [A.devSpliceErr] s t) ∧
   (∀ (e : DriveEvent) (s : State),
     exec (.spliceWordArrive .toLogic 14 .clean (.event e)) s =
       .next { s with fab := { s.fab with
         events := if s.onF F.devSpliceStatusUp then s.fab.events ++ [e] else s.fab.events
         heldEvents := if s.onF F.devSpliceStatusUp then s.fab.heldEvents else s.fab.heldEvents ++ [e] } })) ∧
  ((∀ (out : Nat) (h : HeldOutput) (l : List HeldOutput) (s : State), s.heldCmds out = h :: l →
     (s.fab.cycleDrive % 65536 + 65536 - h.stamp) % 65536 ≤ 32767 →
     exec (.applyStampMatch out) s = .next { s with fab := { s.fab with
       outputs := sparsePut (fun _ => 0) s.fab.outputs out h.value
       held := sparsePut (fun _ => []) s.fab.held out l } }) ∧
   (∀ (out : Nat) (s : State), 4 ≤ sparseGet (fun _ => 0) s.fab.discards out →
     exec (.discardedCommandLimit out) s = .next (({ s with fab := { s.fab with
       discards := sparsePut (fun _ => 0) s.fab.discards out 0 } } : State).emergencyRetract 3)) ∧
   (∀ s : State, s.regsWf → 8 ≤ s.fab.failsDrive ∨ 8 ≤ s.fab.failsLogic → s.onF F.devSpliceStatusUp = true →
     s.onF F.drvStatusRetract = false → s.inMode .safe = false →
     Completes .spliceLost s fun t =>
       t.onF F.devSpliceStatusLost = true ∧ t.onF F.devSpliceStatusUp = false
       ∧ t.onF F.drvStatusSpliceUp = false ∧ t.getF F.srvRetractCause = 2
       ∧ (∀ a, a < 2 → 1 ≤ s.actState a → s.actState a ≤ 6 → t.actState a = 7)
       ∧ (∃ d ∈ t.ftl.dailies, d.source = src.dev ∧ d.reason = 0x0100)
       ∧ (∃ o ∈ t.pwr.window, o.op = .mode .safe false 6 false ∧ o.side = .device)
       ∧ t = { s with regs := t.regs, fab := t.fab, host := t.host, ftl := t.ftl, dch := t.dch, srv := t.srv,
                      mgt := t.mgt, pwr := t.pwr }) ∧
   (∀ s : State, s.fab.lfRc = true → s.logicOn = true → (∀ t0, s.fab.rcTrimAt = some t0 → t0 + 64000000000 ≤ s.fab.timecode) →
     exec .rcOscillatorTrim s = .next { s with fab := { s.fab with rcTrimAt := some s.fab.timecode } }) ∧
   (∀ (toLogic : Bool) (count : Nat) (s : State), s.fab.logicKeeps ≠ toLogic → s.logicOn = toLogic →
     exec (.timecodeHandover toLogic count) s = .next { s with fab := { s.fab with
       logicKeeps := toLogic, keeper := count, timecode := max s.fab.timecode count } }) ∧
   (∀ (path : Path) (s : State), s.regsWf → s.inMode .service = true → s.admits path A.devSpliceStatus →
     Completes (.spliceLostClear path) s fun t =>
       t = { s with regs := t.regs } ∧ RegsKept [A.devSpliceStatus] s t
       ∧ t.onF F.devSpliceStatusLost = false ∧ t.getF F.devSpliceStatusMgtFail = s.getF F.devSpliceStatusMgtFail))

/-! ## The slate (chapter 02) -/

/-- A rejected slate never becomes active (R69): at the end of a validation whose checks fail, the active copy, the
rings and all traffic stay, REJECTED and the reason stand in the registers, the dailies hold the record, a Slate Load
or Slate swap that waited ends with SLATE_REJECTED, and with the job gone no swap boundary takes it. -/
def Obligations.RejectedSlateNeverBecomesActive : Prop :=
  (∀ (s : State) (j : SlateJob) (r : Nat × Nat × Nat), s.regsWf → s.slt.job = some j → j.partner = none →
    s.onF F.sltStatusBusy = true → s.rejectOf s.shadowImage = some r → r.1 < 256 →
    Completes .validationDone s fun t =>
      t.slt = { s.slt with job := none }
      ∧ t.onF F.sltStatusRejected = true ∧ t.getF F.sltStatusRejectReason = r.1 ∧ t.onF F.sltStatusBusy = false
      ∧ RegsKept [A.sltCtrl, A.sltStatus, A.sltRejectInfo] s t
      ∧ (∃ d ∈ t.ftl.dailies, d.source = src.slt ∧ d.reason = 0x00CA ∧ d.detail = [r.1, r.2.1, r.2.2])
      ∧ t.host = (match j.cmd with
          | some k => (s.endCmd k 7 0xCA (State.rejectDword r) 0 []).host
          | none => s.host)
      ∧ t = { s with regs := t.regs, slt := t.slt, ftl := t.ftl, host := t.host }) ∧
  (∀ s : State, s.slt.job = none → exec .swapBoundary s = .next s)

/-- Validation and swap (R71, R73, R75): a validation that passes ends, and for a swap sets the boundary to the next
frame, or the one after where the decision window of slot 0 has begun; at the boundary the copies change places, the
new image is the DRAM copy, the rings restart at instance 0, and the frame of the swap is recorded. The model's own
choices in it: log entries 1, 112, 151, 162 and 163. -/
def Obligations.SlatesAreValidatedAndSwapped : Prop :=
  (∀ (s : State) (j : SlateJob), s.regsWf → s.slt.job = some j → s.onF F.sltStatusBusy = true →
     s.rejectOf s.shadowImage = none →
     Completes .validationDone s fun t =>
       t.onF F.sltStatusBusy = false ∧ t.slt.active = s.slt.active ∧ t.slt.shadow = s.slt.shadow
       ∧ t.getF F.sltStatusSwapPending = (if j.swap then 1 else s.getF F.sltStatusSwapPending)
       ∧ t.slt.swapDue = (if j.swap then
           some ((s.getF F.sltFrameFrame + if 1023 * 16 + 12 ≤ s.slt.frameCycle then 2 else 1) % 2 ^ 32)
           else s.slt.swapDue)
       ∧ t.slt.job = (if j.swap then some j else none)
       ∧ RegsKept [A.sltCtrl, A.sltStatus] s t
       ∧ t = { s with regs := t.regs, slt := t.slt, host := t.host }) ∧
  ((∀ (s : State) (j : SlateJob), s.regsWf → s.slt.job = some j → s.slt.swapDue = some (s.getF F.sltFrameFrame) →
     s.slt.frameCycle = 0 → s.onF F.sltStatusSwapPending = true → s.columnsRun = true →
     Completes .swapBoundary s fun t =>
       t.slt = { s.slt with active := s.slt.shadow, shadow := s.slt.active, dramCopy := some s.slt.shadow, job := none,
                            swapDue := none, badCells := [], bank := 1 - s.slt.bank, ringsNew := false
                            posted := t.slt.posted, fresh := t.slt.fresh }
       ∧ t.onF F.sltStatusSwapPending = false ∧ t.onF F.sltCtrlSwap = false
       ∧ t.getF F.sltSwapFrameSwapFrame = s.getF F.sltFrameFrame ∧ t.onF F.sltStatusDefaultActive = false
       ∧ (s.slt.ringsNew = false → ∀ c < 28, t.getF (F.sltColPtrPtr c) = 0)
       ∧ (s.onF F.sltCtrlPersist = false → t.nvs = s.nvs)
       ∧ t = { s with regs := t.regs, slt := t.slt, host := t.host, cnt := t.cnt, nvs := t.nvs, sec := t.sec,
                      freeCtr := t.freeCtr }) ∧
   (∀ s : State, s.slt.frameCycle ≠ 0 ∨ s.slt.swapDue ≠ some (s.getF F.sltFrameFrame) →
     exec .swapBoundary s = .next s))

/-- The other slate commands: healing from the DRAM copy (R79), gating and ungating of the fabric clock (R51), SWAP
and VALIDATE requests and LOCK (R71, R72, R74, R617), the shadow window, whose word pointer moves on at every access
(R72); and a cell decision (R56): a present owner with work in its own cell takes it and the column counts it, and
nothing but the registers, the list of bad cells and the channel served is touched. The model's own choices in it: log
entries 44, 112, 156, 161, 163 and 191. -/
def Obligations.SlateAndCellCommandsComplete : Prop :=
  ((∀ (s : State) (img : Sparse Byte), s.slt.dramCopy = some img → s.slt.running = true → s.slt.frameCycle = 0 →
     s.noErrors → exec .slateHeal s = .next { s with slt := { s.slt with active := img, badCells := [] } }) ∧
   (∀ s : State, s.inMode .ready = true → s.slt.running = true → s.slt.gated = false → s.dataWork = false →
     Completes .fabricClockGate s fun t =>
       t = { s with regs := t.regs, slt := { s.slt with gated := true, frameCycle := 0, decided := [] } }
       ∧ RegsKept [A.sltFrame] s t ∧ (s.slt.frameCycle = 0 → t.regs = s.regs)) ∧
   (∀ (owner col : Nat) (s : State), s.slt.gated = true → (s.joinFresh.colWork col).contains owner = true →
     exec (.fabricClockUngate owner col) s = .next { s with slt := { s.joinFresh.slt with gated := false, frameCycle := 0 } }) ∧
   (∀ (path : Path) (v : Word) (s : State), s.regsWf → s.admits path A.sltCtrl → s.onF F.sltCtrlLock = false →
     s.slateBusy = false → s.inMode .safe = false → s.logicOn = true → s.orderBarred (· ≠ .safe) = false →
     F.sltCtrlSwap.get v = 1 → F.sltCtrlLock.get v = 0 →
     Completes (.slateSwap path v) s fun t =>
       t.onF F.sltCtrlSwap = true ∧ t.getF F.sltCtrlPersist = F.sltCtrlPersist.get v ∧ t.slt = s.slt
       ∧ (∃ o ∈ t.pwr.window, o.op = .slate true ∧ o.side = pathSide path)
       ∧ t = { s with regs := t.regs, host := t.host, pwr := t.pwr }) ∧
   (∀ (path : Path) (v : Word) (s : State), s.regsWf → s.admits path A.sltCtrl → s.onF F.sltCtrlLock = false →
     s.slateBusy = false → F.sltCtrlSwap.get v = 0 → F.sltCtrlValidate.get v = 1 →
     Completes (.slateValidate path v) s fun t =>
       t.onF F.sltStatusBusy = true ∧ t.onF F.sltCtrlValidate = true
       ∧ t.slt = { s.slt with job := some { swap := false, cmd := none, partner := none } }
       ∧ t = { s with regs := t.regs, slt := t.slt } ∧ RegsKept [A.sltCtrl, A.sltStatus] s t) ∧
   (∀ (path : Path) (v : Word) (s : State), s.regsWf → s.admits path A.sltCtrl →
     F.sltCtrlSwap.get v = 0 → F.sltCtrlValidate.get v = 0 → F.sltCtrlLock.get v = 1 →
     Completes (.slateLock path v) s fun t =>
       t.onF F.sltCtrlLock = true
       ∧ t.getF F.sltCtrlPersist = (if s.onF F.sltCtrlLock then s.getF F.sltCtrlPersist else F.sltCtrlPersist.get v)
       ∧ t = { s with regs := t.regs } ∧ RegsKept [A.sltCtrl] s t) ∧
   (∀ (path : Path) (s : State), s.admits path A.sltShadowData → s.noErrors →
     let w := s.getF F.sltShadowAddrWord
     exec (.shadowDataAccess path none) s = .next (({ s with host := { s.host with bus := .data (leNat
       ((List.range 4).map fun i => sparseGet (fun _ => 0) s.slt.shadow (4 * w + i))) } } : State).setF
         F.sltShadowAddrWord ((w + 1) % 2 ^ 13))) ∧
   (∀ (path : Path) (v : Word) (s : State), s.regsWf → s.admits path A.sltShadowData → s.onF F.sltCtrlLock = false →
     s.slateBusy = false → s.noErrors →
     Completes (.shadowDataAccess path (some v)) s fun t =>
       t.getF F.sltShadowAddrWord = (s.getF F.sltShadowAddrWord + 1) % 2 ^ 13
       ∧ t.slt = { s.slt with shadow := t.slt.shadow } 
       ∧ t = { s with regs := t.regs, slt := t.slt, mem := { s.mem with valid := t.mem.valid } }
       ∧ RegsKept [A.sltShadowAddr] s t
       ∧ (Sparse.wf (fun _ => 0) s.slt.shadow = true →
           ∀ a, sparseGet (fun _ => 0) t.slt.shadow a =
             if 4 * s.getF F.sltShadowAddrWord ≤ a ∧ a < 4 * s.getF F.sltShadowAddrWord + 4
             then BitVec.ofNat 8 (v.toNat / 256 ^ (a % 4)) else sparseGet (fun _ => 0) s.slt.shadow a))) ∧
  (let due := fun (s : State) (col k : Nat) => s.columnsRun = true ∧ col < 28 ∧ k < colCells col
     ∧ inWindow s.slt.frameCycle = true ∧ (s.slt.frameCycle / 16 + 1) % 1024 = k * colStride col
     ∧ s.slt.decided.contains col = false
   let word := fun (s : State) (col k : Nat) => leNat [sparseGet (fun _ => 0) s.slt.active (0x320 + 2 * (colFirst col + k)),
       sparseGet (fun _ => 0) s.slt.active (0x321 + 2 * (colFirst col + k))]
   (∀ (col k : Nat) (work : List Nat) (s : State), s.regsWf → s.columnsRun = true → col < 28 → k < colCells col →
     s.noErrors → s.swapWindow = false → cellOwner (word s col k) ≠ ownSpare →
     s.ownerPresent (cellOwner (word s col k)) = true → work.contains (cellOwner (word s col k)) = true →
     s.decideCell col k work false = (some (cellOwner (word s col k)), s.incF (F.sltColOwnedOwned col))) ∧
   (∀ (col k n : Nat) (wr : Bool) (s : State), due s col k → s.regsWf → s.noErrors → s.swapWindow = false →
     s.ftl.dumping = false → cellOwner (word s col k) ≠ ownSpare →
     s.ownerPresent (cellOwner (word s col k)) = true →
     s.postedOf col = [cellKey col (cellOwner (word s col k)) wr] →
     Sparse.wf (fun _ => 0) s.slt.posted = true → Sparse.wf (fun _ => 0) s.slt.granted = true →
     sparseGet (fun _ => 0) s.slt.posted (cellKey col (cellOwner (word s col k)) wr) = n + 1 →
     Completes (.cellDecision col k false) s fun t =>
       sparseGet (fun _ => 0) t.slt.posted (cellKey col (cellOwner (word s col k)) wr) = n
       ∧ sparseGet (fun _ => 0) t.slt.granted (cellKey col (cellOwner (word s col k)) wr) =
           sparseGet (fun _ => 0) s.slt.granted (cellKey col (cellOwner (word s col k)) wr) + 1
       ∧ t.slt = { s.slt with posted := t.slt.posted, granted := t.slt.granted, decided := col :: s.slt.decided }
       ∧ t = { (s.incF (F.sltColOwnedOwned col)) with slt := t.slt }) ∧
   (∀ (col k : Nat) (s : State), due s col k → s.postedOf col = [] → col < 2 ∨ (20 ≤ col ∧ col ≠ 27) →
     Completes (.cellDecision col k true) s fun t =>
       colFirst col + k ∈ t.slt.badCells ∧ t = { s with regs := t.regs, slt := t.slt, mem := t.mem, ftl := t.ftl }) ∧
   (∀ (col k : Nat) (uncorr : Bool) (s : State), inWindow s.slt.frameCycle = false →
     exec (.cellDecision col k uncorr) s = .next s))

/-! ## Queues and the life of a command (chapter 03) -/

/-- The end of a command (Table 03.3, R94): every command of the key that has not ended becomes COMPLETING with the
status, dwords and data given and everything else stays; once its queue has room and nothing holds it, its entry
carries its status and the command is gone. The model's own choices in it: log entries 27 and 161. -/
def Obligations.CommandsEndAndArePosted : Prop :=
  (∀ (s : State) (key : CmdKey) (sct sc dw0 dw1 : Nat) (out : List Byte),
     let t := s.endCmd key sct sc dw0 dw1 out
     t = { s with host := { s.host with cmds := t.host.cmds } }
     ∧ t.host.cmds.length = s.host.cmds.length
     ∧ ∀ (i : Nat) (c : Cmd), s.host.cmds[i]? = some c →
         t.host.cmds[i]? = some (if c.key = key ∧ c.st ≠ .posted ∧ c.st ≠ .discarded ∧ c.st ≠ .completing
           then { c with st := .completing, sct := sct, sc := sc, dw0 := dw0, dw1 := dw1, out := out } else c)) ∧
  (∀ (key : CmdKey) (c : Cmd) (n : Nat) (q : Sq) (w : Cq) (s : State),
     Sparse.wf (fun _ => Ctrl.reset) s.host.ctrls = true → Sparse.wf (fun _ => none) (s.ctrl key.fn).cqs = true →
     s.cmd? key = some c → c.st = .completing → s.host.fwHold = false → s.hostUp = true →
     s.waitsCaught c = false → s.cqOf key.fn key.sq = some (n, q) → 0 < s.cqRoom key.fn n →
     sparseGet (fun _ => none) (s.ctrl key.fn).cqs n = some w → s.canDraw (s.postNeeds c) = true →
     Completes (.completionPost key) s fun t =>
       t = { s with regs := t.regs, host := t.host, ftl := t.ftl, tsk := t.tsk, pmx := t.pmx
                    slt := (s.spend (s.postNeeds c)).slt }
       ∧ t.cmd? key = none
       ∧ ∃ v, sparseGet (fun _ => none) (t.ctrl key.fn).cqs n = some v
           ∧ v.entries = w.entries ++ [{ sq := key.sq, cid := key.cid, sqHead := q.head, sct := c.sct, sc := c.sc,
                                         dw0 := c.dw0, dw1 := c.dw1, phase := w.phase, data := c.out }]
           ∧ v.tail = (w.tail + 1) % max 1 w.size)

/-- Doorbells and fetching (R91, R93, R94): a valid tail or head is taken by its queue, and an invalid one, or one of
a queue that is not created, leaves every queue and raises Invalid Doorbell Write Value; the entry that the arbiter
picks becomes a command of its function, the queue's head moves on, and the command is decoded. The model's own
choices in it: log entries 24, 27, 62, 122 and 161. -/
def Obligations.DoorbellsAndFetch : Prop :=
  ((∀ (fn y tail : Nat) (q : Sq) (s : State), doorbellOk s fn y = true →
     sparseGet (fun _ => none) (s.ctrl fn).sqs y = some q → tail < q.size → s.pwr.trans = none →
     s.inMode .ready = false →
     exec (.sqTailDoorbell fn y tail) s = .next ((s.modCtrl fn fun c =>
       { c with sqs := sparsePut (fun _ => none) c.sqs y (some { q with tail := tail }) }).modPwr
         fun p => { p with idleSince := none })) ∧
   (∀ (fn y tail : Nat) (s : State), doorbellOk s fn y = true →
     (∀ q, sparseGet (fun _ => none) (s.ctrl fn).sqs y = some q → q.size ≤ tail) →
     exec (.sqTailDoorbell fn y tail) s = .next (s.raiseEvent fn 0 0x01 0x01)) ∧
   (∀ (fn y head : Nat) (q : Cq) (s : State), doorbellOk s fn y = true →
     sparseGet (fun _ => none) (s.ctrl fn).cqs y = some q → head < q.size →
     (head + q.size - q.head) % q.size ≤ q.entries.length →
     exec (.cqHeadDoorbell fn y head) s = .next (s.modCtrl fn fun c => { c with
       cqs := sparsePut (fun _ => none) c.cqs y
         (some { q with head := head, entries := q.entries.drop ((head + q.size - q.head) % q.size) }) })) ∧
   (∀ (fn y head : Nat) (s : State), doorbellOk s fn y = true →
     (∀ q, sparseGet (fun _ => none) (s.ctrl fn).cqs y = some q → q.size ≤ head) →
     exec (.cqHeadDoorbell fn y head) s = .next (s.raiseEvent fn 0 0x01 0x01))) ∧
  (∀ (fn sq : Nat) (e : Sqe) (q : Sq) (s : State), s.inMode .ready = false → s.pwr.trans = none →
     Sparse.wf (fun _ => Ctrl.reset) s.host.ctrls = true → Sparse.wf (fun _ => none) (s.ctrl fn).sqs = true →
     s.arbiterPick fn = some sq → s.cmd? { fn := fn, sq := sq, cid := e.cid } = none →
     sparseGet (fun _ => none) (s.ctrl fn).sqs sq = some q →
     let cell : List CellNeed := [{ col := colHdr, owner := fnTraffic fn, count := 1 }]
     (s.canDraw cell = true → ∃ u : State,
       exec (.commandFetch fn sq e) s = .next (u.decodeCmd { fn := fn, sq := sq, cid := e.cid } e)
       ∧ u = { s with pwr := { s.pwr with idleSince := none }, host := u.host, slt := (s.spend cell).slt }
       ∧ u.host = { s.host with
           ctrls := u.host.ctrls, nextSeq := s.host.nextSeq + 1
           cmds := s.host.cmds ++ [s.newCmd { fn := fn, sq := sq, cid := e.cid } e] }
       ∧ sparseGet (fun _ => none) (u.ctrl fn).sqs sq = some { q with head := (q.head + 1) % max 1 q.size }
       ∧ (∀ j, j ≠ fn → u.ctrl j = s.ctrl j)) ∧
     (s.canDraw cell = false → exec (.commandFetch fn sq e) s = .next { s with slt := (s.postCells cell).slt }))

/-- Decode, admission and locks (R94, R96, R108, R109, R150): the first check that fails ends the command with its
status; an admin command that passes executes, and an I/O command waits for admission with its lock ranges; admitted,
it executes at once without ranges and otherwise waits for its entries, and it executes holding them all once no
earlier conflict is left. The model's own choices in it: log entries 24, 27, 38, 123, 129, 154 and 176. -/
def Obligations.DecodeAdmissionAndLocks : Prop :=
  (∀ (key : CmdKey) (q : Sqe) (c : Cmd) (s : State), s.cmd? key = some c → c.st = .fetched →
     (key.sq = 0 ∨ q.opc ≠ 0x81) →
     let t := s.decodeCmd key q
     match (if key.sq = 0 then s.adminDecode key.fn q else s.ioDecode key.fn q) with
     | some st => t.EndedWith key st.1 st.2.1 st.2.2 ∧ t = { s with regs := t.regs, host := t.host, ftl := t.ftl }
     | none => t = { s with regs := t.regs, host := t.host } ∧
         ∃ d, t.cmd? key = some d ∧ d.sqe = c.sqe ∧ d.charged = c.charged
           ∧ d.st = (if key.sq = 0 then .executing else .admitWait)
           ∧ (key.sq ≠ 0 → d.ranges = State.lockRanges q)) ∧
  ((∀ (key : CmdKey) (c : Cmd) (s : State), s.cmd? key = some c → c.st = .admitWait → s.admitOk c = true →
     c.sqe.opc ≠ 0x81 → c.sqe.opc ≠ 0x02 → c.sqe.opc ≠ 0x0C →
     Completes (.commandAdmit key) s fun t =>
       t = { s with regs := t.regs, host := t.host }
       ∧ t.host.nextArrival = s.host.nextArrival + 1
       ∧ ∃ d, t.cmd? key = some d ∧ d.arrival = s.host.nextArrival
           ∧ d.st = (if c.ranges = [] then .executing else .lockWait)) ∧
   (∀ (key : CmdKey) (c : Cmd) (s : State), s.cmd? key = some c → c.st = .lockWait → c.held = false →
     s.canTake c = true → s.tfConflicts { c with held := true, reserved := s.reservedFree c } = false →
     s.earlierConflicts { c with held := true, reserved := s.reservedFree c } = [] →
     c.sqe.opc ≠ 0x81 → c.sqe.opc ≠ 0x02 → c.sqe.opc ≠ 0x0C →
     Completes (.rangeLockGrant key) s fun t =>
       t = { s with regs := t.regs, host := t.host } ∧ RegsKept [A.hifLockStatus, F.hifEventCntLockStall.addr] s t
       ∧ ∃ d, t.cmd? key = some d ∧ d.st = .executing ∧ d.held = true ∧ d.ranges = c.ranges))

/-- Queues and features (R90, R93, R101, R103, R130): a created queue is empty with the size asked for, and a size
below 2 or above the limit is Invalid Queue Size; a deleted queue is gone; Arbitration, Coalescing, Write Atomicity
and Asynchronous Event Configuration are set and read back as written, Number of Queues is granted up to the quota, an
identifier outside Table 03.7 is Invalid Field in Command, and a fifth outstanding event request exceeds its limit.
The model's own choices in it: log entries 27, 130, 131 and 134. -/
def Obligations.QueueAndFeatureCommandsComplete : Prop :=
  ((∀ (key : CmdKey) (c : Cmd) (s : State), Sparse.wf (fun _ => Ctrl.reset) s.host.ctrls = true →
     s.executing key 0x05 true = some c → let id := c.sqe.dw10 % 65536; let size := c.sqe.dw10 / 65536 + 1
     let x := s.ctrl key.fn
     s.queueIdOk key.fn id x.numCq (decide (s.pfPairs ≤ x.cqs.countP (·.1 ≠ 0))) = true →
     sparseGet (fun _ => none) x.cqs id = none → (bit c.sqe.dw11 1 = true → c.sqe.dw11 / 65536 < s.vectorsOf key.fn) →
     Completes (.createIoCompletionQueue key) s fun t =>
       if size < 2 ∨ s.queueMax key.fn < size then t.EndedWith key 1 0x02 0 ∧ (t.ctrl key.fn).cqs = x.cqs
       else t.EndedWith key 0 0 0 ∧ t = { s with regs := t.regs, host := t.host }
         ∧ (t.ctrl key.fn).cqs = sparsePut (fun _ => none) x.cqs id
             (some { size := size, head := 0, tail := 0, phase := true, vector := c.sqe.dw11 / 65536,
                     ien := bit c.sqe.dw11 1, base := leNat c.sqe.data, entries := [] })) ∧
   (∀ (key : CmdKey) (c : Cmd) (s : State), Sparse.wf (fun _ => Ctrl.reset) s.host.ctrls = true →
     s.executing key 0x01 true = some c → let id := c.sqe.dw10 % 65536; let size := c.sqe.dw10 / 65536 + 1
     let x := s.ctrl key.fn; let cq := c.sqe.dw11 / 65536
     s.queueIdOk key.fn id x.numSq (decide (s.pfPairs ≤ x.sqs.countP (·.1 ≠ 0))) = true →
     sparseGet (fun _ => none) x.sqs id = none → cq ≠ 0 → sparseGet (fun _ => none) x.cqs cq ≠ none →
     Completes (.createIoSubmissionQueue key) s fun t =>
       if size < 2 ∨ s.queueMax key.fn < size then t.EndedWith key 1 0x02 0 ∧ (t.ctrl key.fn).sqs = x.sqs
       else t.EndedWith key 0 0 0 ∧ t = { s with regs := t.regs, host := t.host }
         ∧ (t.ctrl key.fn).sqs = sparsePut (fun _ => none) x.sqs id
             (some { size := size, head := 0, tail := 0, cq := cq, base := leNat c.sqe.data })) ∧
   (∀ (key : CmdKey) (c : Cmd) (q : Sq) (s : State), Sparse.wf (fun _ => Ctrl.reset) s.host.ctrls = true →
     s.executing key 0x00 true = some c → c.sqe.dw10 % 65536 ≠ 0 →
     sparseGet (fun _ => none) (s.ctrl key.fn).sqs (c.sqe.dw10 % 65536) = some q →
     (∀ x ∈ s.host.cmds, x.key.fn = key.fn → x.key.sq ≠ c.sqe.dw10 % 65536) →
     Completes (.deleteIoSubmissionQueue key) s fun t =>
       t.EndedWith key 0 0 0 ∧ t = { s with regs := t.regs, host := t.host }
       ∧ (t.ctrl key.fn).sqs = sparsePut (fun _ => none) (s.ctrl key.fn).sqs (c.sqe.dw10 % 65536) none) ∧
   (∀ (key : CmdKey) (c : Cmd) (s : State), Sparse.wf (fun _ => Ctrl.reset) s.host.ctrls = true →
     s.executing key 0x04 true = some c → c.sqe.dw10 % 65536 ≠ 0 →
     sparseGet (fun _ => none) (s.ctrl key.fn).cqs (c.sqe.dw10 % 65536) ≠ none →
     Completes (.deleteIoCompletionQueue key) s fun t =>
       if ∃ e ∈ (s.ctrl key.fn).sqs, ∃ q : Sq, e.2 = some q ∧ q.cq = c.sqe.dw10 % 65536
       then t.EndedWith key 1 0x0C 0 ∧ (t.ctrl key.fn).cqs = (s.ctrl key.fn).cqs
       else t.EndedWith key 0 0 0 ∧ t = { s with regs := t.regs, host := t.host }
         ∧ (t.ctrl key.fn).cqs = sparsePut (fun _ => none) (s.ctrl key.fn).cqs (c.sqe.dw10 % 65536) none)) ∧
  ((∀ (key : CmdKey) (c : Cmd) (s : State), Sparse.wf (fun _ => Ctrl.reset) s.host.ctrls = true →
     s.executing key 0x09 true = some c → bit c.sqe.dw10 31 = false →
     let fid := c.sqe.dw10 % 256; let v := c.sqe.dw11; let x := s.ctrl key.fn
     Completes (.setFeatures key) s fun t =>
       t = { s with regs := t.regs, host := t.host, ftl := t.ftl }
       ∧ (fid = 0x01 → t.EndedWith key 0 0 0 ∧ t.ctrl key.fn = { x with arb := v % 8 })
       ∧ (fid = 0x08 → t.EndedWith key 0 0 0 ∧ t.ctrl key.fn = { x with coalesce := v % 65536 })
       ∧ (fid = 0x0A → t.EndedWith key 0 0 0 ∧ t.ctrl key.fn = { x with atomic := v % 2 })
       ∧ (fid = 0x0B → t.EndedWith key 0 0 0 ∧ t.ctrl key.fn = { x with evCfg := v })
       ∧ (fid = 0x07 → v % 65536 ≠ 0xFFFF → v / 65536 ≠ 0xFFFF → (∀ e ∈ x.sqs, e.1 = 0) → (∀ e ∈ x.cqs, e.1 = 0) →
           let q := s.queueQuota key.fn
           let sq := min (v % 65536 + 1) q
           let cq := min (v / 65536 + 1) q
           t.EndedWith key 0 0 (sq - 1 + 65536 * (cq - 1))
           ∧ t.ctrl key.fn = { x with numSq := some sq, numCq := some cq })
       ∧ (fid ∉ [0x01, 0x02, 0x04, 0x07, 0x08, 0x09, 0x0A, 0x0B] → t.EndedWith key 0 0x02 0 ∧ t.ctrl key.fn = x)) ∧
   (∀ (key : CmdKey) (c : Cmd) (s : State), s.executing key 0x09 true = some c → bit c.sqe.dw10 31 = true →
     Completes (.setFeatures key) s fun t =>
       t = { s with regs := t.regs, host := t.host, ftl := t.ftl } ∧ t.host.ctrls = s.host.ctrls
       ∧ (if c.sqe.dw10 % 256 ∈ [0x01, 0x02, 0x04, 0x07, 0x08, 0x09, 0x0A, 0x0B] then t.EndedWith key 1 0x0D 0
          else t.EndedWith key 0 0x02 0)) ∧
   (∀ (key : CmdKey) (c : Cmd) (s : State), s.executing key 0x0A true = some c →
     let fid := c.sqe.dw10 % 256; let x := s.ctrl key.fn; let q := s.queueQuota key.fn
     Completes (.getFeatures key) s fun t =>
       (fid = 0x01 → t.EndedWith key 0 0 x.arb) ∧ (fid = 0x08 → t.EndedWith key 0 0 x.coalesce)
       ∧ (fid = 0x0A → t.EndedWith key 0 0 x.atomic) ∧ (fid = 0x0B → t.EndedWith key 0 0 x.evCfg)
       ∧ (fid = 0x07 → t.EndedWith key 0 0 (x.numSq.getD q - 1 + 65536 * (x.numCq.getD q - 1)))
       ∧ (fid ∉ [0x01, 0x02, 0x04, 0x07, 0x08, 0x09, 0x0A, 0x0B] → t.EndedWith key 0 0x02 0)
       ∧ t.host.ctrls = s.host.ctrls ∧ t = { s with regs := t.regs, host := t.host, ftl := t.ftl }) ∧
   (∀ (key : CmdKey) (c : Cmd) (s : State), Sparse.wf (fun _ => Ctrl.reset) s.host.ctrls = true →
     s.executing key 0x0C true = some c → (s.ctrl key.fn).aers.contains key = false →
     Completes (.asynchronousEventRequest key) s fun t =>
       if 4 ≤ (s.ctrl key.fn).aers.length then t.EndedWith key 1 0x05 0 ∧ (t.ctrl key.fn) = s.ctrl key.fn
       else (s.ctrl key.fn).events = [] → t = s.modCtrl key.fn fun x => { x with aers := x.aers ++ [key] }))

/-! ## Admin commands (chapters 03, 06 and 16) -/

/-- Orders (R99, R204, R432, R523, R526, R527, R558): an order takes its place at the end of the window that is open
and ends idleness; Firmware Commit, Namespace Management, Namespace Attachment, Format NVM and Sanitize each place one
with their targets on the NVMe side, once, and wait for its outcome. The model's own choices in it: log entries 45, 55
and 62. -/
def Obligations.AdminOrdersEnterTheWindow : Prop :=
  (∀ (s : State) (op : OrderOp) (mgmt : Bool) (targets : List Target) (prec : Nat) (side : Side),
     (∀ x, s.pwr.trans = some x → x.idle = false) →
     s.placeOrder op mgmt targets prec side = { s with pwr := { s.pwr with
       idleSince := none
       window := s.pwr.window ++ [{ op := op, mgmt := mgmt, targets := targets, prec := prec, side := side,
                                    arrival := s.fab.timecode }] } }) ∧
  (let placed := fun (s t : State) (key : CmdKey) (mgmt : Bool) (targets : List Target) =>
     t = { s with pwr := { s.pwr with idleSince := none, window := t.pwr.window },
                  host := { s.host with cmds := t.host.cmds } }
     ∧ t.pwr.window = s.pwr.window ++ [{ op := .nvme key, mgmt := mgmt, targets := targets, prec := 3, side := .nvme,
                                         arrival := s.fab.timecode }]
     ∧ ∃ d, t.cmd? key = some d ∧ d.ordered = true ∧ d.st = .executing
   let fresh := fun (s : State) (key : CmdKey) (opc : Nat) (c : Cmd) =>
     s.executing key opc true = some c ∧ c.ordered = false ∧ c.won = false ∧ ∀ x, s.pwr.trans = some x → x.idle = false
   (∀ (key : CmdKey) (c : Cmd) (s : State), fresh s key 0x10 c →
     Completes (.firmwareCommit key) s fun t => placed s t key true [.firmware]) ∧
   (∀ (key : CmdKey) (c : Cmd) (s : State), fresh s key 0x0D c →
     Completes (.namespaceManagement key) s fun t => placed s t key false
       (if c.sqe.dw10 % 16 = 0 then [] else if c.sqe.nsid = 0xFFFFFFFF then s.nsids.map .ns else [.ns c.sqe.nsid])) ∧
   (∀ (key : CmdKey) (c : Cmd) (s : State), fresh s key 0x15 c →
     Completes (.namespaceAttachment key) s fun t => placed s t key false [.ns c.sqe.nsid]) ∧
   (∀ (key : CmdKey) (c : Cmd) (s : State), fresh s key 0x80 c →
     Completes (.formatNvm key) s fun t => placed s t key false ((s.formatCovers c.sqe).map .ns)) ∧
   (∀ (key : CmdKey) (c : Cmd) (s : State), fresh s key 0x84 c →
     Completes (.sanitize key) s fun t => placed s t key false ((s.formatCovers c.sqe).map .ns)))

/-- Long and caught commands (R97, R113, R115, R117, R432, R529): a Format NVM or Sanitize that has won and started
ends with success, no unit it covers left in the buffer and its namespaces ready; a fifth outstanding Abort exceeds
its limit, a target that is not there is reported not caught, and a caught command ends with Command Abort Requested.
The model's own choices in it: log entries 1 and 45. -/
def Obligations.FormatSanitizeAndAbortEnd : Prop :=
  (∀ (key : CmdKey) (c : Cmd) (s : State), c.won = true → (∀ fn, key ∉ (s.ctrl fn).aers) →
     Sparse.wf (fun _ => Ctrl.reset) s.host.ctrls = true → Sparse.wf (fun _ => none) s.host.nss = true →
     (s.executing key 0x80 true = some c →
       Completes (.formatNvm key) s fun t =>
         t.EndedWith key 0 0 0
         ∧ (∀ e ∈ t.ftl.wb, e.nsid ∉ s.formatCovers c.sqe)
         ∧ (∀ i ∈ s.formatCovers c.sqe, ∀ n, t.ns i = some n → n.notReady = false)
         ∧ t = { s with regs := t.regs, slt := t.slt, host := t.host, fch := t.fch, ftl := t.ftl, dch := t.dch,
                        sec := t.sec, mem := t.mem, cnt := t.cnt, mgt := t.mgt, nvs := t.nvs, pwr := t.pwr,
                        freeCtr := t.freeCtr }) ∧
     (s.executing key 0x84 true = some c →
       Completes (.sanitize key) s fun t =>
         t.EndedWith key 0 0 0
         ∧ (c.sqe.dw10 % 8 ≠ 4 → t.ftl.wb = [])
         ∧ (∀ i n, t.ns i = some n → n.notReady = false)
         ∧ t = { s with regs := t.regs, slt := t.slt, host := t.host, fch := t.fch, ftl := t.ftl, dch := t.dch,
                        sec := t.sec, mem := t.mem, cnt := t.cnt, mgt := t.mgt, nvs := t.nvs, pwr := t.pwr,
                        freeCtr := t.freeCtr })) ∧
  (∀ (key : CmdKey) (c : Cmd) (s : State), s.executing key 0x08 true = some c →
     let others := s.host.cmds.countP fun (x : Cmd) =>
       x.key.fn = key.fn && x.key.sq = 0 && x.sqe.opc = 0x08 && x.seq < c.seq
     let target : CmdKey := { fn := key.fn, sq := c.sqe.dw10 % 65536, cid := c.sqe.dw10 / 65536 }
     Completes (.abort key) s fun t =>
       (4 ≤ others → t.EndedWith key 1 0x03 0)
       ∧ (others < 4 → s.cmd? target = none → t = s.endCmd key 0 0 1 0 [])
       ∧ (others < 4 → ∀ d, s.cmd? target = some d → target ≠ key → (d.st = .admitWait ∨ d.st = .lockWait) →
           d.sqe.opc ≠ 0x81 → s.ctxsOf target = [] → t.EndedWith key 0 0 0 ∧ t.EndedWith target 0 0x07 0
             ∧ t = { s with regs := t.regs, host := t.host, ftl := t.ftl })
       ∧ (others < 4 → ∀ d, s.cmd? target = some d → s.catchCmd d = none → t.EndedWith key 0 0 1
           ∧ t = { s with host := t.host }))

/-- Image download, self-test, slate and script commands, log pages and Identify (R101, R102, R123–R126, R355, R558,
R578–R580). The model's own choices in it: log entries 1, 27, 41, 44, 70, 104, 163 and 178. -/
def Obligations.AdminCommandsComplete : Prop :=
  (∀ (key : CmdKey) (c : Cmd) (u s : State), s.executing key 0x11 true = some c →
    s.stageDownload (4 * c.sqe.dw11) (fit (4 * (c.sqe.dw10 + 1)) c.sqe.data) = some u →
    Completes (.firmwareImageDownload key) s fun t =>
      t.EndedWith key 0 0 0 ∧ t.nvs = u.nvs ∧ t.upd = u.upd
      ∧ t = { s with regs := t.regs, host := t.host, nvs := t.nvs, upd := t.upd }) ∧
  (∀ (key : CmdKey) (c : Cmd) (s : State), s.executing key 0x14 true = some c → c.sqe.dw10 % 16 ≠ 0xF →
    Completes (.deviceSelfTest key) s fun t =>
      if s.pwr.selfTest.isSome then t.EndedWith key 1 0x1D 0 ∧ t.pwr = s.pwr
      else t.EndedWith key 0 0 0
        ∧ t.pwr.selfTest = some { extended := decide (c.sqe.dw10 % 16 = 2), segment := 1, failed := none }
        ∧ (Sparse.wf (fun _ => LongOp.reset) s.pwr.longOps = true → (t.longOp 5).state = 1)
        ∧ t = { s with host := t.host, pwr := t.pwr }) ∧
  (∀ (key : CmdKey) (c : Cmd) (x : SelfTest) (s : State), s.executing key 0x14 true = some c →
    c.sqe.dw10 % 16 = 0xF → s.pwr.selfTest = some x →
    Completes (.deviceSelfTest key) s fun t =>
      t.EndedWith key 0 0 0 ∧ t.pwr.selfTest = none ∧ (t.pwr.selfTests.map (·.result)).head? = some 1) ∧
  (∀ (seg unit : Nat) (x : SelfTest) (s : State), s.pwr.selfTest = some x → x.segment = seg →
    s.selfTestMode x.extended = true →
    Completes (.selfTestSegment seg true unit) s fun t =>
      t = { s with regs := t.regs, mgt := t.mgt, pwr := t.pwr } ∧
      if seg < State.SelfTest.last x then t.pwr.selfTest = some { x with segment := seg + 1 }
      else t.pwr.selfTest = none
        ∧ (t.pwr.selfTests.map (·.result)).head? = some (if x.failed.isSome then 7 else 0)) ∧
  (∀ (key : CmdKey) (c : Cmd) (s : State), s.executing key 0xC1 true = some c → c.ordered = false → s.slt.job = none →
    s.slateBusy = false → bit c.sqe.dw11 0 = false → s.noErrors →
    Completes (.slateLoad key) s fun t =>
      if s.onF F.sltCtrlLock then t.EndedWith key 7 0xCA (State.rejectDword State.lockReject) ∧ t.slt = s.slt
      else t.slt.active = s.slt.active ∧ t.slt.job = some { swap := false, cmd := some key, partner := none }
        ∧ t.slt.shadow = sparseBytes (fit slateLen c.sqe.data ++ (denseBytes 32768 s.slt.shadow).drop slateLen)
        ∧ t = { s with regs := t.regs, slt := t.slt } ∧ RegsKept [A.sltCtrl, A.sltStatus] s t) ∧
  (∀ (key : CmdKey) (c : Cmd) (s : State), s.executing key 0xC2 true = some c →
    let img := if bit c.sqe.dw11 0 then s.shadowImage else denseBytes slateLen s.slt.active
    exec (.slateRead key) s = .next (s.endCmd key 0 0 (field img 8 4) 0 img)) ∧
  (∀ (key : CmdKey) (c : Cmd) (s : State), s.executing key 0xC5 true = some c →
    Completes (.scriptRegister key) s fun t =>
      match s.registerScript (c.sqe.dw11 % 512) c.sqe.dw10 (fit (min c.sqe.dw10 (2 ^ 20)) c.sqe.data) with
      | .ok (slot, u) => t.EndedWith key 0 0 slot ∧ t.tsk = u.tsk
          ∧ t = { s with regs := t.regs, slt := t.slt, host := t.host, ftl := t.ftl, tsk := t.tsk, sec := t.sec,
                         cnt := t.cnt, freeCtr := t.freeCtr }
      | .error st => t.EndedWith key st.1 st.2.1 st.2.2 ∧ t.tsk = s.tsk) ∧
  (∀ (key : CmdKey) (c : Cmd) (e : Nat × Nat) (s : State), s.executing key 0xC8 true = some c →
    s.instSt (c.sqe.dw11 % 512) ≠ 0 → ((s.registrations (c.sqe.dw11 % 512)).find? fun e => e.1 = c.sqe.dw10) = some e →
    Completes (.scriptDeregister key) s fun t =>
      t.EndedWith key 0 0 0 ∧ t.tsk.ctxs = s.tsk.ctxs
      ∧ t.tsk.slots = sparsePut (fun _ => none) s.tsk.slots (64 * (c.sqe.dw11 % 512) + c.sqe.dw10) none
      ∧ t = { s with regs := t.regs, slt := t.slt, host := t.host, tsk := t.tsk, sec := t.sec, cnt := t.cnt,
                     freeCtr := t.freeCtr }) ∧
  (∀ (key : CmdKey) (c : Cmd) (l : List Byte) (s : State), s.executing key 0x02 true = some c →
    s.logPage key.fn c.sqe.nsid (c.sqe.dw10 % 256) = some l → bit c.sqe.dw10 15 = true →
    let off := c.sqe.dw12 + 2 ^ 32 * c.sqe.dw13
    off % 4 = 0 → off < l.length →
    Completes (.getLogPage key) s fun t =>
      t.host = (s.endCmd key 0 0 0 0 (State.pageSlice (c.sqe.dw10 % 256) l off
        ((c.sqe.dw10 / 65536 + 65536 * (c.sqe.dw11 % 65536) + 1) * 4))).host
      ∧ t = { s with host := t.host, freeCtr := t.freeCtr }) ∧
  (∀ (key : CmdKey) (c : Cmd) (l : List Byte) (s : State), s.executing key 0x06 true = some c →
    s.identifyData key.fn c.sqe.nsid (c.sqe.dw10 % 256) (c.sqe.dw10 / 65536) (c.sqe.dw11 / 2 ^ 24) = .ok l →
    exec (.identify key) s = .next (s.endCmd key 0 0 0 0 l)) ∧
  (∀ (s : State), Sparse.wf (fun _ => Ctrl.reset) s.host.ctrls = true →
    Completes .pcieConventionalReset s fun t =>
      t.pwr.selfTest = none ∧ (∀ c ∈ t.host.cmds, c.key.fn ≠ 0)
      ∧ (t.ctrl 0).cc = 0 ∧ (t.ctrl 0).rdy = false ∧ (t.ctrl 0).sqs = [] ∧ (t.ctrl 0).cqs = []
      ∧ t.host.pcie = Pcie.reset ∧ t.reg A.hifLinkStatus = 0
      ∧ t = { s with regs := t.regs, slt := t.slt, host := t.host, ten := t.ten, fch := t.fch, ftl := t.ftl, dch := t.dch,
                     eng := t.eng, tsk := t.tsk, pmx := t.pmx, cmp := t.cmp, sec := t.sec, mem := t.mem,
                     cnt := t.cnt, mgt := t.mgt, upd := t.upd, pwr := t.pwr, freeCtr := t.freeCtr })

/-! ## Tenancy (chapter 04) -/

/-- The instance commands (Table 04.3, R142–R148, R152, R526–R528): each places one order on its instance; an order
that stands alone when its window closes wins and is applied; a winning one takes the instance from the state it
requires to the next, and is a Command Sequence Error in any other. The model's own choices in it: log entries 54,
102, 103 and 179. -/
def Obligations.InstanceCommandsTakeEffect : Prop :=
  (let placed := fun (i : Instr) (opc : Nat) (key : CmdKey) => ∀ (c : Cmd) (s : State),
     s.executing key opc true = some c → c.ordered = false → (∀ x, s.pwr.trans = some x → x.idle = false) →
     Completes i s fun t =>
       t = { s with pwr := { s.pwr with idleSince := none, window := s.pwr.window ++
               [{ op := .nvme key, mgmt := false, targets := [.inst (c.sqe.dw10 % 512)], prec := 3, side := .nvme,
                  arrival := s.fab.timecode }] },
                    host := { s.host with cmds := t.host.cmds } }
       ∧ ∃ d, t.cmd? key = some d ∧ d.ordered = true ∧ d.st = .executing
   ∀ key : CmdKey,
     placed (.instanceConfigure key) 0xD0 key ∧ placed (.instanceRead key) 0xD1 key
     ∧ placed (.instanceEnable key) 0xD2 key ∧ placed (.instanceDisable key) 0xD3 key
     ∧ placed (.instanceReset key) 0xD4 key ∧ placed (.rateSet key) 0xD5 key
     ∧ placed (.instanceQuiesce key) 0xD6 key ∧ placed (.instanceResume key) 0xD7 key) ∧
  (∀ (s : State) (o : Order), s.pwr.window = [o] → s.windowOf o.arrival < s.windowOf s.tick →
     exec .sequencerWindowClose s = .next (({ s with pwr := { s.pwr with window := [] } } : State).applyOrder o)) ∧
  (∀ (key : CmdKey) (c : Cmd) (s : State), s.regsWf → Sparse.wf (fun _ => Tenant.reset) s.ten = true →
     s.cmd? key = some c → c.st = .executing →
     let n := c.sqe.dw10 % 512
     let st := s.instSt n
     let t := s.runNvme key
     (c.sqe.opc = 0xD0 → st ≤ 1 → s.recordBad n (fit 64 c.sqe.data) = none →
       s.poolBad n (parseRecord (fit 64 c.sqe.data)) = none →
         t.instSt n = 1 ∧ (t.tenant n).record = some (parseRecord (fit 64 c.sqe.data)) ∧ t.upd.dirty = true) ∧
     (c.sqe.opc = 0xD0 → 1 < st → t.EndedWith key 0 0x0C 0 ∧ t.ten = s.ten) ∧
     (c.sqe.opc = 0xD1 → t.EndedWith key 0 0 (st + 2 ^ 16 * s.getF (F.instStatusGen n)) ∧ t = { s with host := t.host }) ∧
     (c.sqe.opc = 0xD2 → if st = 1 ∧ s.vfExists n = true then t.instSt n = 2 ∧ key ∈ (t.tenant n).pend
       else t.EndedWith key 0 0x0C 0 ∧ t.ten = s.ten) ∧
     (c.sqe.opc = 0xD3 → st = 0 → t.EndedWith key 0 0x0C 0 ∧ t.ten = s.ten) ∧
     (c.sqe.opc = 0xD3 → st = 1 → t.instSt n = 0 ∧ (t.tenant n).record = none) ∧
     (c.sqe.opc = 0xD3 → st = 2 → t.instSt n = 2 ∧ (t.tenant n).disableWait = true ∧ key ∈ (t.tenant n).pend) ∧
     (c.sqe.opc = 0xD4 → st < 3 → t.EndedWith key 0 0x0C 0 ∧ t.ten = s.ten) ∧
     (c.sqe.opc = 0xD5 → st ≠ 0 → firstFail (rateTests c.sqe.dw11 c.sqe.dw12 c.sqe.dw13 c.sqe.dw14) = none →
       (t.tenant n).newRates = some (c.sqe.dw11, c.sqe.dw12, c.sqe.dw13, c.sqe.dw14) ∧ t.instSt n = st) ∧
     (c.sqe.opc = 0xD6 → if st = 3 then t.instSt n = 4 ∧ key ∈ (t.tenant n).pend
       else t.EndedWith key 0 0x0C 0 ∧ t.ten = s.ten) ∧
     (c.sqe.opc = 0xD7 → if st = 5 then t.instSt n = 3 else t.EndedWith key 0 0x0C 0 ∧ t.ten = s.ten))

/-- Resets and events of instances (R32, R82, R134–R143, R564): a reset function's commands end without an entry, its
controller returns to its reset values, and an enabled instance enters RESETTING with its generation advanced unless
an operation of the next generation is outstanding; ticks, stale results and their record, the ends of RESETTING, of
the window fill and of quiescing, and the settings copy. The model's own choices in it: log entries 1, 39, 103, 104,
105 and 106. -/
def Obligations.ResetsAndTenancyEventsComplete : Prop :=
  ((∀ (n : Nat) (s : State), n < 512 → s.regsWf → Sparse.wf (fun _ => Ctrl.reset) s.host.ctrls = true →
     Sparse.wf (fun _ => Tenant.reset) s.ten = true → s.vfExists n = true → s.instEnabled n = true →
     let after := fun t : State =>
       t.instSt n = 6 ∧ (∀ c ∈ t.host.cmds, c.key.fn ≠ n + 1) ∧ (t.ctrl (n + 1)).rdy = false
       ∧ (t.ctrl (n + 1)).sqs = [] ∧ (t.ctrl (n + 1)).cqs = []
       ∧ t.getF (F.instStatusGen n) = (if s.oldestStale n = some ((s.getF (F.instStatusGen n) + 1) % 65536)
           then s.getF (F.instStatusGen n) else (s.getF (F.instStatusGen n) + 1) % 65536)
       ∧ t = { s with regs := t.regs, slt := t.slt, host := t.host, ten := t.ten, fch := t.fch, ftl := t.ftl,
                      dch := t.dch, eng := t.eng, tsk := t.tsk, pmx := t.pmx, cmp := t.cmp, sec := t.sec,
                      mem := t.mem, cnt := t.cnt, upd := t.upd, freeCtr := t.freeCtr }
     Completes (.functionLevelReset n) s after ∧
     (bit (s.ctrl (n + 1)).cc 0 = true → Completes (.ccEnClear n) s after)) ∧
   (∀ s : State, Sparse.wf (fun _ => Ctrl.reset) s.host.ctrls = true →
     Completes .pfFunctionLevelReset s fun t =>
       (∀ c ∈ t.host.cmds, c.key.fn ≠ 0) ∧ (t.ctrl 0).cc = 0 ∧ (t.ctrl 0).rdy = false ∧ (t.ctrl 0).sqs = []
       ∧ (t.ctrl 0).aqa = 0 ∧ (t.ctrl 0).errors = (s.ctrl 0).errors
       ∧ t = { s with regs := t.regs, host := t.host, fch := t.fch, ftl := t.ftl, dch := t.dch, tsk := t.tsk, cnt := t.cnt }) ∧
   (∀ (fn cc : Nat) (s : State), Sparse.wf (fun _ => Ctrl.reset) s.host.ctrls = true → s.hostUp = true →
     (s.ctrl fn).rdy = false → (fn ≠ 0 → s.vfExists (fn - 1) = true) →
     Completes (.ccEnSet fn cc) s fun t =>
       t = { s with host := { s.host with ctrls := t.host.ctrls } } ∧ bit (t.ctrl fn).cc 0 = true
       ∧ (if fn = 0 ∨ s.instEnabled (fn - 1) = true then (t.ctrl fn).rdy = true ∧ (t.ctrl fn).enHeld = false
          else (t.ctrl fn).rdy = false ∧ (t.ctrl fn).enHeld = true)) ∧
   (∀ (num : Nat) (s : State), num ≤ Config.totalVfs → (s.host.vfEnable = true → s.host.numVfs ≤ num) →
     Completes (.vfEnableSet num) s fun t =>
       t.host.vfEnable = true ∧ t.host.numVfs = num
       ∧ t = { s with regs := t.regs, slt := t.slt, host := { s.host with vfEnable := true, numVfs := num }
                      ten := t.ten, sec := t.sec, cnt := t.cnt, freeCtr := t.freeCtr }) ∧
   (∀ s : State, Completes .vfEnableClear s fun t =>
       t.host.vfEnable = false
       ∧ t = { s with regs := t.regs, slt := t.slt, host := t.host, ten := t.ten, fch := t.fch, ftl := t.ftl,
                      dch := t.dch, eng := t.eng, tsk := t.tsk, pmx := t.pmx, cmp := t.cmp, sec := t.sec,
                      mem := t.mem, cnt := t.cnt, upd := t.upd, freeCtr := t.freeCtr }) ∧
   (∀ (num : Nat) (s : State), num < s.host.numVfs →
     Completes (.numvfsLower num) s fun t =>
       t.host.numVfs = num
       ∧ t = { s with regs := t.regs, slt := t.slt, host := t.host, ten := t.ten, fch := t.fch, ftl := t.ftl,
                      dch := t.dch, eng := t.eng, tsk := t.tsk, pmx := t.pmx, cmp := t.cmp, sec := t.sec,
                      mem := t.mem, cnt := t.cnt, upd := t.upd, freeCtr := t.freeCtr })) ∧
  ((∀ s : State, s.regsWf → s.fab.logicKeeps = true → s.fab.tickMark < s.now / 1000 →
     Completes .delayListTick s fun t =>
       t.fab = { s.fab with tickMark := s.now / 1000 }
       ∧ t.getF F.tskTickCount = (s.getF F.tskTickCount + (s.now / 1000 - s.fab.tickMark)) % 2 ^ 32
       ∧ t = { s with regs := t.regs, fab := t.fab, ten := t.ten, tsk := t.tsk }) ∧
   (∀ (n gen : Nat) (s : State), n < 512 → s.regsWf → Sparse.wf (fun _ => Tenant.reset) s.ten = true →
     gen ∈ (s.tenant n).staleOps →
     Completes (.staleResultDiscard n gen) s fun t =>
       (t.tenant n).staleOps = (s.tenant n).staleOps.erase gen ∧ (t.tenant n).staleCount = (s.tenant n).staleCount + 1
       ∧ t.getF (F.instStaleCount n) = (if s.instSt n = 0 then s.getF (F.instStaleCount n)
           else (s.getF (F.instStaleCount n) + 1) % 2 ^ 32)
       ∧ t.getF F.vinStaleTotalCount = (s.getF F.vinStaleTotalCount + 1) % 2 ^ 32
       ∧ t = { s with regs := t.regs, ten := t.ten } ∧ (∀ j, j ≠ n → t.tenant j = s.tenant j)) ∧
   (∀ (n t0 : Nat) (s : State), Sparse.wf (fun _ => Tenant.reset) s.ten = true → (s.tenant n).staleSince = some t0 →
     t0 + 64000000 ≤ s.fab.timecode →
     Completes (.staleGenerationRecord n) s fun t =>
       (t.tenant n).staleCount = 0 ∧ (t.tenant n).staleSince = none
       ∧ (∃ d ∈ t.ftl.dailies, d.source = src.vin ∧ d.reason = 0xC7 ∧ d.tenant = n
           ∧ d.detail = [(s.tenant n).staleCount, (s.tenant n).staleOldest])
       ∧ t = { s with ten := t.ten, ftl := { s.ftl with dailies := t.ftl.dailies, dailiesNew := s.ftl.dailiesNew + 1 } }) ∧
   (∀ (n : Nat) (s : State), n < 512 → s.regsWf → s.instSt n = 6 → s.resetEnds n = true →
     Completes (.resettingEnd n) s fun t =>
       t.instSt n = (if (s.tenant n).removing then 1 else 3)
       ∧ t.getF (F.instStatusGen n) = (if (s.tenant n).advanceHeld then (s.getF (F.instStatusGen n) + 1) % 65536
           else s.getF (F.instStatusGen n))
       ∧ ((s.tenant n).eraseDue = false → t.mem = s.mem)
       ∧ t = { s with regs := t.regs, slt := t.slt, host := t.host, ten := t.ten, sec := t.sec, mem := t.mem,
                      cnt := t.cnt, freeCtr := t.freeCtr }) ∧
   (∀ (n : Nat) (s : State), n < 512 → s.regsWf → s.instSt n = 2 →
     ((s.tenant n).fillAtStart = true → s.pwr.pathOpen = true) →
     Completes (.windowFillDone n) s fun t =>
       t.instSt n = (if (s.tenant n).disableWait then 1 else 3)
       ∧ (∀ e ∈ t.mem.dram, ¬ ((s.tenantWindow n).1 ≤ e.1 ∧ e.1 < (s.tenantWindow n).1 + (s.tenantWindow n).2))
       ∧ t = { s with regs := t.regs, slt := t.slt, host := t.host, ten := t.ten, sec := t.sec, mem := t.mem,
                      cnt := t.cnt, upd := t.upd, freeCtr := t.freeCtr }) ∧
   (∀ (n : Nat) (s : State), n < 512 → s.regsWf → s.instSt n = 4 → 
     (∀ c ∈ s.host.cmds, c.key.fn = n + 1 → c.key ∈ (s.ctrl (n + 1)).aers) → (s.tenant n).commits = 0 →
     Completes (.quiesceDone n) s fun t =>
       t.instSt n = 5 ∧ t = { s with regs := t.regs, slt := t.slt, host := t.host, ten := t.ten, sec := t.sec,
                                     cnt := t.cnt, freeCtr := t.freeCtr }) ∧
   (∀ s : State, s.upd.dirty = true → s.logicOn = true →
     Completes .settingsUpdate s fun t =>
       t.upd.dirty = false ∧ t.upd.waiting = []
       ∧ t = { s with regs := t.regs, host := t.host, nvs := t.nvs, upd := t.upd }))

/-! ## I/O commands (chapter 03) -/

/-- Flush and writes (R42, R105, R205, R207, R432, R492): a Flush ends once no earlier write of its queue to its
namespace is left, and waits otherwise; a write that passes its checks and finds room enters the buffer, and one that
does not ends with its status; the last unit of its data completes it, a Zone Append with its first LBA. The model's
own choices in it: log entries 27, 33, 35, 36, 124 and 161. -/
def Obligations.WritesEnterTheBufferAndComplete : Prop :=
  (∀ (key : CmdKey) (c : Cmd) (s : State), s.executing key 0x00 false = some c →
     let waits := ∃ x ∈ s.host.cmds, x.key.fn = key.fn ∧ x.key.sq = key.sq ∧ x.seq < c.seq ∧ x.st ≠ .completing
       ∧ (c.sqe.nsid = 0xFFFFFFFF ∨ x.sqe.nsid = c.sqe.nsid)
       ∧ (x.sqe.opc = 0x01 ∨ x.sqe.opc = 0x08 ∨ x.sqe.opc = 0x7D)
     (waits → exec (.flush key) s = .next s) ∧ (¬ waits → exec (.flush key) s = .next (s.endCmd key 0 0 0 0 []))) ∧
  (let denied := fun (s : State) (q : Sqe) => (s.keyDenied q.nsid).or (s.pairDenied.or ((s.zoneDenied q).or
     (s.promoteDenied q.nsid (s.writeLba q) q.blocks)))
   let roomy := fun (s : State) (q : Sqe) => denied s q = none ∧ s.writeRoom q.nsid (s.writeLba q) q.blocks = true
   let starts := fun (i : FetchEnd → Instr) (key : CmdKey) (c : Cmd) (s : State) =>
     (roomy s c.sqe → s.canDraw (s.writeNeeds c) = true → ∀ n, s.ns c.sqe.nsid = some n →
       0 < n.block → n.block ≤ 4096 →
       Completes (i .ok) s fun t =>
         (∃ e ∈ t.ftl.wb, e.key = key ∧ e.nsid = c.sqe.nsid ∧ e.complete = false
             ∧ e.unit = s.writeLba c.sqe / (4096 / n.block) ∧ e.gen = c.gen)
         ∧ (∀ e ∈ s.ftl.wb, e ∈ t.ftl.wb)
         ∧ t = { s with regs := t.regs, slt := (s.spend (s.writeNeeds c)).slt, ftl := t.ftl }) ∧
     (∀ st, denied s c.sqe = some st → ∀ e, Completes (i e) s fun t => t.EndedWith key st.1 st.2.1 st.2.2
       ∧ t = { s with regs := t.regs, host := t.host, ftl := t.ftl }) ∧
     (roomy s c.sqe → ∀ e, e ≠ .ok → Completes (i e) s fun t =>
       t.EndedWith key 0 0x04 0 ∧ t.host.pcie.aer = s.host.pcie.aer ++ [(key.fn, e)] ∧ (∀ e ∈ t.ftl.wb, e ∈ s.ftl.wb)
       ∧ t = { s with regs := t.regs, host := t.host, ftl := t.ftl })
   ∀ (key : CmdKey) (c : Cmd) (s : State), s.noErrors → s.writeStarted c = false →
     (s.executing key 0x01 false = some c → starts (.write key) key c s ∧ starts (.bufferSpaceFreed key) key c s) ∧
     (s.executing key 0x7D false = some c → starts (.zoneAppend key) key c s ∧ starts (.bufferSpaceFreed key) key c s)) ∧
  (∀ (key : CmdKey) (c : Cmd) (s : State),
     s.executing key 0x01 false = some c ∨ (s.executing key 0x01 false = none ∧ s.executing key 0x7D false = some c) →
     (∃ e ∈ s.ftl.wb, e.key = key ∧ e.complete = false) → (∀ fn, key ∉ (s.ctrl fn).aers) → s.role = roleNone →
     Completes (.writeBufferFillDone key) s fun t =>
       (∀ e ∈ t.ftl.wb, e.key = key → e.complete = true)
       ∧ t.EndedWith key 0 0 (if c.sqe.opc = 0x7D then s.writeLba c.sqe % 2 ^ 32 else 0)
       ∧ t = { s with regs := t.regs, host := t.host, ftl := t.ftl, dch := t.dch, mem := t.mem, cnt := t.cnt })

/-- Reads, zeros and deallocation (R106, R108, R110, R112, R179, R203, R222, R261, R432): whole data ends a Read with
its blocks and a Verify with success, erased keys answer KEY_ERASED and undelivered data Data Transfer Error; Write
Zeroes with room takes its whole units out of the buffer; Dataset Management with Deallocate queues each range's whole
units and without it changes nothing. The model's own choices in it: log entries 1, 32, 34, 36, 125 and 161. -/
def Obligations.ReadsAndDeallocations : Prop :=
  (∀ (key : CmdKey) (c : Cmd) (s : State), s.noErrors → s.readWaits c = false →
     let erased := fun t : State => t.EndedWith key 7 0xCE 0 ∧ t = { s with regs := t.regs, host := t.host, ftl := t.ftl }
     (s.executing key 0x02 false = some c →
       (s.readDenied c = true → ∀ ok, Completes (.read key ok) s erased) ∧
       (s.readDenied c = false → s.canDraw (s.readNeeds c) = true →
         Completes (.read key true) s (fun t =>
           t.host = (s.endCmd key 0 0 0 0 (s.readBlocks c.sqe.nsid c.sqe.lba c.sqe.blocks)).host
           ∧ t = { s with slt := (s.spend (s.readNeeds c)).slt, host := t.host, ftl := t.ftl }) ∧
         Completes (.read key false) s fun t => t.EndedWith key 0 0x04 0
           ∧ t = { s with regs := t.regs, slt := (s.spend (s.readNeeds c)).slt, host := t.host, ftl := t.ftl }) ∧
       (s.readDenied c = false → s.canDraw (s.readNeeds c) = false → ∀ ok,
         exec (.read key ok) s = .next { s with slt := (s.postCells (s.readNeeds c)).slt })) ∧
     (s.executing key 0x0C false = some c →
       (s.readDenied c = true → Completes (.verify key) s erased) ∧
       (s.readDenied c = false → Completes (.verify key) s fun t =>
         t.host = (s.endCmd key 0 0 0 0 []).host ∧ t = { s with host := t.host, ftl := t.ftl }))) ∧
  ((∀ (key : CmdKey) (c : Cmd) (s : State), s.executing key 0x08 false = some c → s.noErrors → (∀ fn, key ∉ (s.ctrl fn).aers) →
     (∀ e ∈ s.ftl.wb, e.key ≠ key) →
     Completes (.writeZeroes key) s fun t =>
       t = { s with regs := t.regs, slt := t.slt, host := t.host, ftl := t.ftl, sec := t.sec, cnt := t.cnt
                    mgt := t.mgt, freeCtr := t.freeCtr }
       ∧ (∀ st, ((s.keyDenied c.sqe.nsid).or (s.pairDenied.or (s.promoteDenied c.sqe.nsid c.sqe.lba c.sqe.blocks))) = some st →
           t.EndedWith key st.1 st.2.1 st.2.2)
       ∧ (((s.keyDenied c.sqe.nsid).or (s.pairDenied.or (s.promoteDenied c.sqe.nsid c.sqe.lba c.sqe.blocks))) = none →
           if s.wbRoom 2 then t.EndedWith key 0 0 0
             ∧ (∀ u, let w := s.wholeUnits c.sqe.nsid c.sqe.lba c.sqe.blocks
                 w.1 ≤ u → u < w.1 + w.2 → t.wbFind c.sqe.nsid u = none)
           else t = s)) ∧
   (∀ (key : CmdKey) (c : Cmd) (s : State), s.executing key 0x09 false = some c →
     Completes (.datasetManagement key) s fun t =>
       (c.sqe.deallocates = false → t = s.endCmd key 0 0 0 0 [])
       ∧ (c.sqe.deallocates = true → ∀ st, s.pairDenied = some st → t.EndedWith key st.1 st.2.1 st.2.2)
       ∧ (c.sqe.deallocates = true → s.pairDenied = none → t.EndedWith key 0 0 0
           ∧ (∀ d ∈ s.ftl.deallocs, d ∈ t.ftl.deallocs)
           ∧ ∀ r ∈ c.sqe.dsmRanges, let w := s.wholeUnits c.sqe.nsid r.1 r.2
               w.2 ≠ 0 → ∃ d ∈ t.ftl.deallocs, d.nsid = c.sqe.nsid ∧ d.first = w.1 ∧ d.count = w.2)
       ∧ t = { s with regs := t.regs, slt := t.slt, host := t.host, ftl := t.ftl, sec := t.sec, cnt := t.cnt
                      mgt := t.mgt, freeCtr := t.freeCtr }))

/-- Zone Management (R107, R270): a send to one zone that the zone's state permits does its action and ends with
success, and one that it does not permit ends with the status that refuses it; Select All ends with success; a receive
returns a header and the descriptors of the zones asked for, in a list of the length asked for; an unknown action, an
LBA that is no zone's start or an unknown report is Invalid Field in Command at decode. The model's own choices in it:
log entries 1, 27, 37, 85, 123, 125 and 126. -/
def Obligations.ZoneManagement : Prop :=
  (∀ (key : CmdKey) (c : Cmd) (s : State), s.executing key 0x79 false = some c → (∀ fn, key ∉ (s.ctrl fn).aers) →
    let act := c.sqe.dw13 % 256
    Completes (.zoneManagementSend key) s fun t =>
      t = { s with regs := t.regs, slt := t.slt, host := t.host, ftl := t.ftl, dch := t.dch, sec := t.sec, cnt := t.cnt
                   mgt := t.mgt, freeCtr := t.freeCtr }
      ∧ (∀ st, s.pairDenied = some st → t.EndedWith key st.1 st.2.1 st.2.2 ∧ t.dch = s.dch)
      ∧ (bit c.sqe.dw13 8 = false → s.pairDenied = none →
          match s.zoneActionDenied c.sqe.nsid (c.sqe.lba / 65536) act with
          | none => t.EndedWith key 0 0 0 ∧ t.dch = (s.zoneAction c.sqe.nsid (c.sqe.lba / 65536) act).dch
          | some st => t.EndedWith key st.1 st.2.1 st.2.2 ∧ t.dch = s.dch)
      ∧ (bit c.sqe.dw13 8 = true → s.pairDenied = none → t.EndedWith key 0 0 0)) ∧
  (∀ (key : CmdKey) (c : Cmd) (s : State), s.executing key 0x7A false = some c →
    Completes (.zoneManagementReceive key) s fun t => ∃ out, t = s.endCmd key 0 0 0 0 out
      ∧ out.length = (c.sqe.dw12 + 1) * 4
      ∧ (bit c.sqe.dw13 16 = false → 8 ≤ (c.sqe.dw12 + 1) * 4 →
          out.take 8 = leBytes 8 ((s.zonesWith c.sqe.nsid (State.zoneReported (c.sqe.dw13 / 256 % 256))).filter
            (c.sqe.lba / 65536 ≤ ·)).length)) ∧
  (∀ (fn : Nat) (q : Sqe) (n : Namespace) (s : State), s.roleClosed = false → q.opc = 0x79 ∨ q.opc = 0x7A →
    s.ns q.nsid = some n → n.type = .zoned → q.zoneFieldsOk = false → s.ioDecode fn q = some (0, 0x02, 0))

/-! ## Takes (chapter 10) -/

/-- Take Submit and placement (R359, R363, R367, R432, R492, R586, R621): a submit that passes decode fetches its
descriptor, the first failing check ends it with its status, and one that passes waits for admission with its locks; a
take in PREPARING runs on the cluster that serves it with the most free shared SRAM, waits where none has room, and
faults where every cluster it names is gone or its key is erased. The model's own choices in it: log entries 24, 38,
99, 123 and 161. -/
def Obligations.TakesAreSubmittedAndPlaced : Prop :=
  ((∀ (key : CmdKey) (c : Cmd) (s : State), s.cmd? key = some c → c.st = .fetched → c.fetching = false →
     c.sqe.opc = 0x81 → key.sq ≠ 0 →
     Completes (.takeSubmit key) s fun t =>
       t = { s with regs := t.regs, host := t.host, ftl := t.ftl } ∧
       match s.ioDecode key.fn c.sqe with
       | some st => t.EndedWith key st.1 st.2.1 st.2.2
       | none => if s.onF F.memStatusRank1Off && s.inRank1 (State.fnTenant key.fn) then t.EndedWith key 0 0x06 0
           else ∃ d, t.cmd? key = some d ∧ d = { c with fetching := true }) ∧
   (∀ (key : CmdKey) (c : Cmd) (s : State), s.cmd? key = some c → c.st = .fetched → c.fetching = true →
     Completes (.takeDescriptorFetched key false) s fun t =>
       t = { s with regs := t.regs, host := t.host, ftl := t.ftl } ∧ t.EndedWith key 0 0x04 0) ∧
   (∀ (key : CmdKey) (c : Cmd) (s : State), s.cmd? key = some c → c.st = .fetched → c.fetching = true →
     let cells := State.need colHdr (fnTraffic key.fn) c.sqe.dw10 256
     (s.canDraw cells = true → Completes (.takeDescriptorFetched key true) s fun t =>
       t = { s with regs := t.regs, slt := (s.spend cells).slt, host := t.host, ftl := t.ftl } ∧
       match s.takeChecks key.fn c.sqe.dw10 c.sqe.data with
         | some (st, dw1) => t = (s.spend cells).endCmd key st.1 st.2.1 st.2.2 dw1 []
         | none => ∃ d, t.cmd? key = some d ∧ d.st = .admitWait ∧ d.ranges = (parseDesc c.sqe.data).locks
             ∧ d.image = (s.scriptOf (State.fnTenant key.fn) (parseDesc c.sqe.data).digest).map (·.1)) ∧
     (s.canDraw cells = false → exec (.takeDescriptorFetched key true) s = .next { s with slt := (s.postCells cells).slt }))) ∧
  (∀ (h : Nat) (x : Ctx) (s : State), Sparse.wf (fun _ => none) s.tsk.ctxs = true → s.ctx h = some x →
     x.st = .preparing →
     s.canDraw (s.dramNeeds x.tenant (Config.bufferPlace 6)
       (((sparseGet (fun _ => none) s.tsk.images x.script).map Script.consts).getD []).length false) = true →
     let named := (List.range 4).filter fun c => bit x.desc.clusters c && s.clusterRuns c
     let after := fun t : State =>
       t = { s with regs := t.regs, slt := t.slt, host := t.host, ftl := t.ftl, eng := t.eng, tsk := t.tsk,
                    pmx := t.pmx, cmp := t.cmp, sec := t.sec, mem := t.mem } ∧
       (s.takeKeyGone x.desc = true → ∃ y, t.ctx h = some y ∧ y.st = .faulting ∧ y.cancelled = true) ∧
       (s.takeKeyGone x.desc = false → ((x.desc.nsRanges.any (·.1)) && s.mirrorRequired) = false →
         (named = [] → ∃ y, t.ctx h = some y ∧ y.st = .faulting ∧ y.reason = 0x23)
         ∧ (∀ c ∈ named, (s.sharedRun c (x.desc.shared / 65536)).isSome = true → s.olderWaits x c = false →
             (∀ d ∈ named, (s.sharedRun d (x.desc.shared / 65536)).isSome = true → s.olderWaits x d = false →
               d ≠ c → s.sharedUnits d < s.sharedUnits c) →
             ∃ y, t.ctx h = some y ∧ y.st = .running ∧ y.cluster = c
               ∧ y.sharedSize = x.desc.shared / 65536 ∧ some y.sharedBase = s.sharedRun c (x.desc.shared / 65536))
         ∧ (named ≠ [] → (∀ c ∈ named, s.sharedRun c (x.desc.shared / 65536) = none) →
             ∃ y, t.ctx h = some y ∧ y.st = .preparing ∧ y.waiting = some (x.waiting.getD s.tsk.nextWait)))
     (x.waiting = none → Completes (.takePrepare h) s after) ∧
     (x.waiting ≠ none → Completes (.takeClusterPlaced h) s after))

/-- Tasks (R333, R368–R371): a ready task starts on the engine chosen with its argument and handle in g1 and g2 and a
grant of at most 65,536 units from the take's budget; a task ends with its result, and the last one of a take starts
its commit, while a result with bit 31 set faults it with reason 0x20; delayed tasks whose time has come are woken in
list order; the chain drains into a ready list with room. The model's own choices in it: log entries 38, 146 and 161.
-/
def Obligations.TaskScheduling : Prop :=
  (∀ (cluster n i p : Nat) (u : TaskEntry) (x : Ctx) (s : State), cluster < 4 → s.pickTask cluster n = some i →
    s.pickEngine cluster n = some p → s.task i = some u → s.ctx u.ctx = some x →
    s.noErrors → s.canDraw [{ col := colEngine cluster, owner := n, count := 1 }] = true →
    Sparse.wf (fun _ => none) s.tsk.ctxs = true → Sparse.wf (fun _ => none) s.tsk.tasks = true →
    Sparse.wf (fun _ => Proc.reset) s.eng.procs = true →
    Completes (.taskDispatch cluster n) s fun t =>
      (t.proc p).running = true ∧ (t.proc p).ctx = u.ctx ∧ (t.proc p).task = u.index ∧ (t.proc p).tenant = n
      ∧ (t.proc p).grant = min x.budgetLeft 65536 ∧ (t.proc p).stall = none
      ∧ sparseGet (fun _ => 0) (t.proc p).regs 1 = BitVec.ofNat 32 u.arg
      ∧ sparseGet (fun _ => 0) (t.proc p).regs 2 = BitVec.ofNat 32 u.ctx
      ∧ (∃ v, t.task i = some v ∧ v.st = .running ∧ v.engine = p)
      ∧ (∃ y, t.ctx u.ctx = some y ∧ y.budgetLeft = x.budgetLeft - min x.budgetLeft 65536)
      ∧ t = { s with regs := t.regs, slt := (s.spend [{ col := colEngine cluster, owner := n, count := 1 }]).slt,
                     eng := t.eng, tsk := t.tsk, mem := t.mem }) ∧
  (∀ (p r i : Nat) (c : Ctx) (u : TaskEntry) (s : State), isEngine p = true → (s.proc p).running = true →
    (s.proc p).stall = some (.tend r) → (s.proc p).anyBusy = false →
    Sparse.wf (fun _ => none) s.tsk.ctxs = true → Sparse.wf (fun _ => none) s.tsk.tasks = true →
    Sparse.wf (fun _ => Proc.reset) s.eng.procs = true →
    s.ctx (s.proc p).ctx = some c → c.st = .running → c.tasks[(s.proc p).task]? = some i → s.task i = some u →
    Completes (.taskEnd p) s fun t =>
      (t.proc p).running = false
      ∧ (bit r 31 = true → ∃ y, t.ctx (s.proc p).ctx = some y ∧ y.st = .faulting ∧ y.reason = 0x20)
      ∧ (bit r 31 = false → ∃ y, t.ctx (s.proc p).ctx = some y ∧ y.done = c.done + 1
          ∧ y.st = (if c.done + 1 = c.total then .committing else .running))
      ∧ t = { s with regs := t.regs, ten := t.ten, ftl := t.ftl, eng := t.eng, tsk := t.tsk, pmx := t.pmx,
                     cmp := t.cmp, sec := t.sec, mem := t.mem }) ∧
  (∀ s : State, Completes .taskDelayWake s fun t =>
      t = { s with tsk := { s.tsk with ready := t.tsk.ready, delay := t.tsk.delay, chain := t.tsk.chain, tasks := t.tsk.tasks } }
      ∧ ∀ (c i : Nat) (u : TaskEntry), c < 4 → Sparse.wf (fun _ => none) s.tsk.tasks = true → s.delayList c = [i] →
          (∀ d < 4, d ≠ c → s.delayList d = []) → s.task i = some u → s.wakeIn u.wake ≤ 0 →
          ∃ v, t.task i = some v ∧ (v.st = .ready ∨ v.st = .overflow)) ∧
  (∀ (cluster prio i : Nat) (u : TaskEntry) (s : State), (s.readyList cluster prio).length < 8192 →
    ((s.chainList cluster).find? fun j => s.taskPrio j = prio) = some i → s.task i = some u →
    Sparse.wf (fun _ => none) s.tsk.tasks = true →
    Completes (.overflowDrain cluster prio) s fun t =>
      t = { s with tsk := { s.tsk with ready := t.tsk.ready, chain := t.tsk.chain, tasks := t.tsk.tasks } }
      ∧ t.task i = some { u with st := .ready })

/-- Data and ends of takes (R151, R364, R365, R375–R383, R432): a piece is charged to the tenant's bytes only while
its level is above zero, and an input that the media serves enters the stage ring; a restart rewinds the take and the
fourth faults it, a fault ends its Take Submit with TAKE_FAULT, a commit with nothing left ends it with success, and
status and cancel answer for handles of their own tenant only. The model's own choices in it: log entries 1, 90, 93,
100, 107, 154 and 161. -/
def Obligations.TakeDataAndEndings : Prop :=
  ((∀ (h port most lba count n : Nat) (x : Ctx) (r : TakeRange) (s : State), s.regsWf →
     Sparse.wf (fun _ => none) s.tsk.ctxs = true → s.ctx h = some x → x.inRange port = some r →
     s.nextPiece x r = (lba, count, n) → x.st = .running → r.kind = 0 → n ≠ 0 →
     sparseGet (fun _ => 0) x.issued port = 0 → x.stagedAt port + n ≤ x.consumedAt port + 2 ^ 21 →
     s.keyDenied r.nsid = none →
     let limited := s.getF (F.instByteRateRate x.tenant) ≠ 0
     let run := s.unitRun r.nsid lba count
     (limited → s.byteLevel x.tenant ≤ 0 → exec (.takePieceCharge h (some port) most) s = .next s) ∧
     ((limited → 0 < s.byteLevel x.tenant) → n ≤ 2 ^ 20 ∧
       ∃ u : State, exec (.takePieceCharge h (some port) most) s
           = .next (u.readUnits (.take h port) r.nsid ((List.range run.2).map (run.1 + ·)) x.tenant x.tenant x.gen)
         ∧ u = { s with regs := u.regs, tsk := { s.tsk with ctxs := u.tsk.ctxs } }
         ∧ u.ctx h = some { x with issued := sparsePut (fun _ => 0) x.issued port n }
         ∧ (limited → u.byteLevel x.tenant = s.byteLevel x.tenant - n))) ∧
   (∀ (h port lba count n : Nat) (x : Ctx) (r : TakeRange) (s : State),
     Sparse.wf (fun _ => none) s.tsk.ctxs = true → s.ctx h = some x → x.inRange port = some r → r.port = port →
     s.nextPiece x r = (lba, count, n) → x.st = .running → sparseGet (fun _ => 0) x.issued port ≠ 0 →
     s.mediaWaits (.take h port) x.gen = false → s.lostUnits (.take h port) x.gen = [] →
     (∀ q ∈ s.cnt.reads, ¬ (q.key = x.key ∧ q.gen = x.gen ∧ q.nsid = r.nsid ∧ q.lba = lba)) →
     let run := s.unitRun r.nsid lba count
     let media := ((List.range run.2).map (run.1 + ·)).countP fun u =>
       (s.wbFind r.nsid u).isNone && !s.unitEmpty r.nsid u
     let cells := s.dramNeeds x.tenant (Config.bufferPlace 2) (4096 * media) false
       ++ State.need colSec x.tenant (4096 * media) 512
       ++ s.dramNeeds x.tenant (s.windowAddr x.tenant (r.stage + x.stagedAt port % 2 ^ 21)) n true
     let data := (s.readBlocks r.nsid lba count).take n
     (s.canDraw cells = true → Completes (.stagePieceRead h port) s fun t =>
       (∃ y, t.ctx h = some y ∧ y.st = .running ∧ sparseGet (fun _ => 0) y.issued port = 0
         ∧ y.stagedAt port = x.stagedAt port + data.length)
       ∧ t = { s with regs := t.regs, slt := (s.spend cells).slt, ftl := t.ftl, eng := t.eng, tsk := t.tsk,
                      mem := t.mem, freeCtr := t.freeCtr }) ∧
     (s.canDraw cells = false → exec (.stagePieceRead h port) s = .next { s with slt := (s.postCells cells).slt })) ∧
   (∀ (h most pos n : Nat) (x y : Ctx) (r : TakeRange) (l : List Byte) (s : State), s.ctx h = some x →
     x.st = .committing → (s.getF (F.instByteRateRate x.tenant) = 0 ∨ 0 < s.byteLevel x.tenant) →
     let u := s.gatherOutputs h
     u.ctx h = some y → y.st = .committing → u.nextOutput y most = some (r, l, pos, n) → n ≠ 0 →
     u.canDraw (u.outputNeeds y r pos n) = true → n ≤ 2 ^ 20 ∧
     exec (.takePieceCharge h none most) s
       = .next (((u.spend (u.outputNeeds y r pos n)).outputPiece h y r l pos n).chargeBuckets y.tenant n 0)) ∧
   (∀ (h most pos : Nat) (x : Ctx) (r : TakeRange) (l : List Byte) (ls : List (List Byte)) (s : State),
     Sparse.wf (fun _ => none) s.tsk.ctxs = true → s.ctx h = some x → x.st = .committing → x.outData = some ls →
     State.outputAt (x.desc.outs.zip ls) x.outCharged = some (r, l, pos) → r.kind ≠ 0 → x.noHost = false → 0 < most →
     (s.getF (F.instByteRateRate x.tenant) = 0 ∨ 0 < s.byteLevel x.tenant) →
     let n := min (l.length - pos) (min most (2 ^ 20))
     s.canDraw (s.outputNeeds x r pos n) = true → Completes (.takePieceCharge h none most) s fun t =>
       t.tsk.hostWrites = (r.addr + pos, slice l pos n) :: s.tsk.hostWrites
       ∧ t.ctx h = some { x with outCharged := x.outCharged + n }
       ∧ t = { s with regs := t.regs, slt := (s.spend (s.outputNeeds x r pos n)).slt, tsk := t.tsk })) ∧
  ((∀ (h : Nat) (x : Ctx) (s : State), Sparse.wf (fun _ => none) s.tsk.ctxs = true → s.ctx h = some x →
     x.st = .restarting →
     Completes (.takeRestart h) s fun t =>
       t = { s with regs := t.regs, tsk := t.tsk, ftl := { s.ftl with reads := t.ftl.reads } } ∧ ∃ y, t.ctx h = some y ∧
       if 3 ≤ x.restarts then y.st = .faulting ∧ y.reason = 0x22 ∧ y.faultTask = 0xFF
       else y.st = .preparing ∧ y.restarts = x.restarts + 1 ∧ y.budgetLeft = x.desc.budget ∧ y.done = 0
         ∧ y.staged = [] ∧ y.issued = [] ∧ y.consumed = [] ∧ y.produced = []) ∧
   (∀ (h : Nat) (x : Ctx) (s : State), Sparse.wf (fun _ => none) s.tsk.ctxs = true → s.ctx h = some x →
     x.st = .faulting →
     Completes (.takeFaultEnd h) s fun t =>
       t = { s with regs := t.regs, host := t.host, tsk := t.tsk }
       ∧ (∃ y, t.ctx h = some y ∧ y.st = .ended ∧ y.tasks = [] ∧ y.sharedSize = 0)
       ∧ t.host = (if x.cancelled then s.host else (s.endCmd x.key 7 0xC3
           (h + (if x.faultTask = 0xFF then 0 else x.faultTask) * 2 ^ 18 + x.reason * 2 ^ 24) (State.takeDw1 x) []).host)) ∧
   (∀ (h : Nat) (x : Ctx) (l : List (List Byte)) (s : State), Sparse.wf (fun _ => none) s.tsk.ctxs = true →
     s.ctx h = some x → x.st = .committing → x.outData = some l → State.outputAt (x.desc.outs.zip l) x.outCharged = none →
     s.role = roleNone → x.silent = false →
     let cells := if x.desc.report = 0 || x.noHost then [] else State.need colHdw x.tenant 128 256
     s.canDraw cells = true → Completes (.takeCommitEnd h) s fun t =>
       (∃ y, t.ctx h = some y ∧ y.st = .ended)
       ∧ t.host = (s.endCmd x.key 0 0 h (State.takeDw1 x) []).host
       ∧ t.tsk.hostWrites = (if x.desc.report = 0 || x.noHost then s.tsk.hostWrites
           else (x.desc.report, State.statusRecord h (some x)) :: s.tsk.hostWrites)
       ∧ t = { s with regs := t.regs, slt := (s.spend cells).slt, host := t.host, ftl := t.ftl, ten := t.ten,
                      tsk := t.tsk }) ∧
   (∀ (key : CmdKey) (c : Cmd) (s : State), s.executing key 0x82 false = some c →
     let h := c.sqe.dw10 % 2 ^ 18
     exec (.takeStatus key) s = .next (s.endCmd key 0 0 0 0 (State.statusRecord h
       (match s.ctx h with
        | some x => if x.tenant = State.fnTenant key.fn ∧ x.silent = false then some x else none
        | none => none)))) ∧
   (∀ (key : CmdKey) (c : Cmd) (s : State), s.executing key 0x84 false = some c →
     (∀ x, s.ctx (c.sqe.dw10 % 2 ^ 18) = some x → x.tenant ≠ State.fnTenant key.fn ∨ x.silent = true) →
     exec (.takeCancel key) s = .next (s.endCmd key 0 0 1 0 [])) ∧
   (∀ (key : CmdKey) (c d : Cmd) (x : Ctx) (u s : State), s.executing key 0x84 false = some c →
     s.ctx (c.sqe.dw10 % 2 ^ 18) = some x → x.tenant = State.fnTenant key.fn → x.silent = false →
     s.cmd? x.key = some d → s.catchCmd d = some u →
     exec (.takeCancel key) s = .next (u.endCmd key 0 0 0 0 [])))

/-! ## The Druot processors (chapter 09) -/

/-- Arithmetic, logic, comparison, multiplication and upper immediates (Table 09.7, R328, R336): where the instruction
can issue and its unused fields are zero, it retires, writes the value of the table, and changes nothing else. The
model's own choices in it: log entry 53. -/
def Obligations.DruotArithmetic : Prop :=
  (∀ (p : Nat) (f : BitVec 24) (s : State), s.Issues p 0x0100 → usesAB f = true →
    let a := s.gReg p (fieldA f)
    let b := s.gReg p (fieldB f)
    let n := b.toNat % 32
    let gives := fun (i : Instr) (v : Word) =>
      Completes i s fun t => s.Retires t p (fieldD f) v ((s.proc p).pc + 4)
    gives (.add p f) (a + b) ∧ gives (.sub p f) (a - b) ∧ gives (.and p f) (a &&& b) ∧ gives (.or p f) (a ||| b)
    ∧ gives (.xor p f) (a ^^^ b) ∧ gives (.sll p f) (a <<< n) ∧ gives (.srl p f) (a >>> n)
    ∧ gives (.sra p f) (a.sshiftRight n)
    ∧ gives (.seq p f) (if a = b then 1 else 0) ∧ gives (.sne p f) (if a = b then 0 else 1)
    ∧ gives (.slt p f) (if a.toInt < b.toInt then 1 else 0) ∧ gives (.sltu p f) (if a.toNat < b.toNat then 1 else 0)
    ∧ gives (.mul p f) (a * b)
    ∧ gives (.mulh p f) ((a.signExtend 64 * b.signExtend 64).extractLsb' 32 32)
    ∧ gives (.mulhu p f) ((a.setWidth 64 * b.setWidth 64).extractLsb' 32 32)) ∧
  (∀ (p : Nat) (f : BitVec 24) (s : State), s.Issues p 0x0101 → usesAB f = true →
    let a := s.gReg p (fieldA f)
    let b := s.gReg p (fieldB f)
    let gives := fun (i : Instr) (v : Word) =>
      Completes i s fun t => s.Retires t p (fieldD f) v ((s.proc p).pc + 4)
    gives (.min p f) (if a.toInt ≤ b.toInt then a else b) ∧ gives (.max p f) (if a.toInt ≤ b.toInt then b else a)
    ∧ gives (.minu p f) (if a.toNat ≤ b.toNat then a else b) ∧ gives (.maxu p f) (if a.toNat ≤ b.toNat then b else a)) ∧
  (∀ (p : Nat) (f : BitVec 24) (s : State), s.Issues p 0x0101 → usesA f = true →
    let a := s.gReg p (fieldA f)
    Completes (.clz p f) s (fun t => ∃ n, s.Retires t p (fieldD f) (BitVec.ofNat 32 n) ((s.proc p).pc + 4)
      ∧ n ≤ 32 ∧ a.toNat < 2 ^ (32 - n) ∧ (n < 32 → 2 ^ (31 - n) ≤ a.toNat))
    ∧ Completes (.popc p f) s fun t => s.Retires t p (fieldD f)
        (BitVec.ofNat 32 ((List.range 32).map fun i => a.toNat / 2 ^ i % 2).sum) ((s.proc p).pc + 4)) ∧
  (∀ (p : Nat) (f : BitVec 24) (s : State), s.Issues p 0x0100 →
    let a := s.gReg p (fieldA f)
    let i := f.extractLsb' 0 14
    let gives := fun (i : Instr) (v : Word) =>
      Completes i s fun t => s.Retires t p (fieldD f) v ((s.proc p).pc + 4)
    gives (.addi p f) (a + i.signExtend 32) ∧ gives (.andi p f) (a &&& i.setWidth 32)
    ∧ gives (.ori p f) (a ||| i.setWidth 32) ∧ gives (.xori p f) (a ^^^ i.setWidth 32)
    ∧ gives (.seqi p f) (if a = i.signExtend 32 then 1 else 0) ∧ gives (.snei p f) (if a = i.signExtend 32 then 0 else 1)
    ∧ gives (.slti p f) (if a.toInt < (i.signExtend 32).toInt then 1 else 0)
    ∧ gives (.sltiu p f) (if a.toNat < (i.signExtend 32).toNat then 1 else 0)
    ∧ gives (.lui p f) (f.extractLsb' 0 19 ++ 0#13)
    ∧ (i.toNat < 32 → gives (.slli p f) (a <<< i.toNat) ∧ gives (.srli p f) (a >>> i.toNat)
        ∧ gives (.srai p f) (a.sshiftRight i.toNat))) ∧
  (∀ (p : Nat) (f : BitVec 24) (s : State), s.Issues p 0x0102 →
    Completes (.auipc p f) s fun t =>
      s.Retires t p (fieldD f) ((s.proc p).pc + (f.extractLsb' 0 19 ++ 0#13)) ((s.proc p).pc + 4))

/-- Division (R329): with a divisor that is not zero DIV and REM round towards zero and DIVU and REMU are unsigned; a
zero divisor writes all ones in all four, without a trap; 0x80000000 by 0xFFFFFFFF gives 0x80000000 and 0. -/
def Obligations.DivisionNeverTraps : Prop :=
  ∀ (p : Nat) (f : BitVec 24) (s : State), s.Issues p 0x0100 → usesAB f = true →
    let a := s.gReg p (fieldA f)
    let b := s.gReg p (fieldB f)
    let gives := fun (i : Instr) (v : Word) =>
      Completes i s fun t => s.Retires t p (fieldD f) v ((s.proc p).pc + 4)
    (b = 0 → gives (.div p f) 0xFFFFFFFF ∧ gives (.divu p f) 0xFFFFFFFF ∧ gives (.rem p f) 0xFFFFFFFF
      ∧ gives (.remu p f) 0xFFFFFFFF)
    ∧ (a = 0x80000000 → b = 0xFFFFFFFF → gives (.div p f) 0x80000000 ∧ gives (.rem p f) 0)
    ∧ (b ≠ 0 → gives (.div p f) (BitVec.ofInt 32 (a.toInt.tdiv b.toInt))
      ∧ gives (.rem p f) (BitVec.ofInt 32 (a.toInt.tmod b.toInt))
      ∧ gives (.divu p f) (BitVec.ofNat 32 (a.toNat / b.toNat)) ∧ gives (.remu p f) (BitVec.ofNat 32 (a.toNat % b.toNat)))

/-- Branches and jumps (Table 09.7, R330): taken to a target in the code space they go there; JAL and JALR link the
next instruction; a branch that is not taken goes on whatever its target. The model's own choices in it: log entry 53.
-/
def Obligations.BranchesReachTheirTargets : Prop :=
  ∀ (p : Nat) (f : BitVec 24) (s : State), s.Issues p 0x0100 →
    let pc := (s.proc p).pc
    let dest := pc + (f.extractLsb' 0 19).signExtend 32 * 4
    let goes := fun (i : Instr) (d : Nat) (v pc : Word) => Completes i s fun t => s.Retires t p d v pc
    let inCode := fun (w : Word) => w.toNat % 4 = 0 ∧ w.toNat < (s.proc p).textLen
    (s.gReg p (fieldD f) = 0 → inCode dest → goes (.beqz p f) 0 0 dest)
    ∧ (s.gReg p (fieldD f) ≠ 0 → goes (.beqz p f) 0 0 (pc + 4))
    ∧ (s.gReg p (fieldD f) ≠ 0 → inCode dest → goes (.bnez p f) 0 0 dest)
    ∧ (s.gReg p (fieldD f) = 0 → goes (.bnez p f) 0 0 (pc + 4))
    ∧ (inCode dest → goes (.jal p f) (fieldD f) (pc + 4) dest)
    ∧ (let w := s.gReg p (fieldA f) + (f.extractLsb' 0 14).signExtend 32
       inCode w → goes (.jalr p f) (fieldD f) (pc + 4) w)

/-- R330: a target that JALR cannot take for its low bits, or one of any branch or jump outside the code space, traps
with cause FETCH at the branch itself, writing nothing: on a core its pc is saved in EPC and the target in BADADDR,
and at T the take faults with them. A branch that is not taken never traps for its target. -/
def Obligations.BadTargetTrapsAtTheBranch : Prop :=
  ∀ (p : Nat) (f : BitVec 24) (s : State), s.Issues p 0x0100 →
    let pc := (s.proc p).pc
    let dest := pc + (f.extractLsb' 0 19).signExtend 32 * 4
    let w := s.gReg p (fieldA f) + (f.extractLsb' 0 14).signExtend 32
    let traps := fun (i : Instr) (target : Word) =>
      (isCore p = true → (s.proc p).status.getLsbD 0 = false →
        Completes i s fun t => t.proc p = { s.proc p with
            epc := pc, cause := 3, badaddr := target, status := (s.proc p).status ||| 1, stall := none
            pc := (s.proc p).tvec &&& 0xFFFFFFFC }
          ∧ (∀ q, q ≠ p → t.proc q = s.proc q) ∧ t = { s with eng := { s.eng with procs := t.eng.procs } }) ∧
      (isEngine p = true → ∀ c : Ctx, Sparse.wf (fun _ => none) s.tsk.ctxs = true → s.ctx (s.proc p).ctx = some c →
        (c.st = .running ∨ c.st = .preparing) →
        Completes i s fun t => (t.proc p).running = false ∧ (t.proc p).regs = (s.proc p).regs
          ∧ ∃ y, t.ctx (s.proc p).ctx = some y ∧ y.st = .faulting ∧ y.reason = 3 ∧ y.faultPc = pc.toNat
            ∧ y.faultAddr = target.toNat)
    let outside := fun (x : Word) => (s.proc p).textLen ≤ x.toNat
    (w.toNat % 4 ≠ 0 ∨ outside w → traps (.jalr p f) w)
    ∧ (outside dest → traps (.jal p f) dest)
    ∧ (s.gReg p (fieldD f) = 0 → outside dest → traps (.beqz p f) dest)
    ∧ (s.gReg p (fieldD f) ≠ 0 → outside dest → traps (.bnez p f) dest)
    ∧ (s.gReg p (fieldD f) ≠ 0 → Completes (.beqz p f) s fun t => s.Retires t p 0 0 (pc + 4))
    ∧ (s.gReg p (fieldD f) = 0 → Completes (.bnez p f) s fun t => s.Retires t p 0 0 (pc + 4))

/-- Loads and stores (Table 09.7, R331, R340, R347, R620): an access that meets no trap moves its bytes, low byte
first, sign or zero extended, and the instruction retires; where its bytes lie in DRAM or in the stage of a port it
takes the cells of the owner and waits without them; the first trap cause that it meets is raised with the data
address instead, no byte accessed; an uncorrectable load is a BUS trap. A store to local SRAM leaves every other byte
of it as the processor reads it. The model's own choices in it: log entries 53, 135 and 161. -/
def Obligations.LoadsAndStores : Prop :=
  (∀ (p : Nat) (f : BitVec 24) (s : State), s.Issues p 0x0100 →
    let a := (s.gReg p (fieldA f) + (f.extractLsb' 0 14).signExtend 32).toNat
    let load := fun (i : Instr) (n : Nat) (ext : Nat → Word) =>
      let cells := s.accessNeeds p a n false
      let drawn := s.spend cells
      (s.canDraw cells = false → exec i s = .next { s with slt := (s.postCells cells).slt }) ∧
      (∀ c, s.accessAt p a n false = .error c → exec i s = .next (s.trap p c a false)) ∧
      (∀ (pl : Place) (l : List Byte) (u : State), s.canDraw cells = true → s.accessAt p a n false = .ok pl →
        drawn.memLoad p pl n = (some l, u) →
        Completes i s fun t => u.Retires t p (fieldD f) (ext (leNat l)) ((s.proc p).pc + 4)
          ∧ u = { s with regs := u.regs, slt := drawn.slt, ftl := u.ftl, mem := u.mem }) ∧
      (∀ (pl : Place) (u : State), s.canDraw cells = true → s.accessAt p a n false = .ok pl → pl.isMemory = true →
        drawn.memLoad p pl n = (none, u) → exec i s = .next (u.trap p trapBus a true)) ∧
      (∀ port off, s.accessAt p a n false = .ok (.inPort port off) → off < 4 → s.popReady p port n = false →
        Completes i s fun t => (∃ ext, (t.proc p) = { s.proc p with stall := some (.pop (fieldD f) port n ext) })
          ∧ t = { s with eng := { s.eng with procs := t.eng.procs } })
    load (.lb p f) 1 (fun v => (BitVec.ofNat 8 v).signExtend 32) ∧ load (.lbu p f) 1 (BitVec.ofNat 32)
    ∧ load (.lh p f) 2 (fun v => (BitVec.ofNat 16 v).signExtend 32) ∧ load (.lhu p f) 2 (BitVec.ofNat 32)
    ∧ load (.lw p f) 4 (BitVec.ofNat 32) ∧
    (∀ port off, s.accessAt p a 4 false = .ok (.outPort port off) → Completes (.lw p f) s fun t =>
      s.Retires t p (fieldD f) (BitVec.ofNat 32 (s.outPortWord p port off)) ((s.proc p).pc + 4)) ∧
    (∀ port off, s.accessAt p a 4 false = .ok (.inPort port off) → 4 ≤ off → Completes (.lw p f) s fun t =>
      s.Retires t p (fieldD f) (BitVec.ofNat 32 (s.inPortWord p port off)) ((s.proc p).pc + 4)) ∧
    (∀ x (v : Nat) (u : State), s.accessAt p a 4 false = .ok (.mgmt x) → s.busRead .core x = (v, u) →
      exec (.lw p f) s = .next (u.writeNext p (fieldD f) (BitVec.ofNat 32 v)))) ∧
  (∀ (p : Nat) (f : BitVec 24) (s : State), s.Issues p 0x0100 →
    let a := (s.gReg p (fieldA f) + (f.extractLsb' 0 14).signExtend 32).toNat
    let store := fun (i : Instr) (n : Nat) =>
      let l := leBytes n (s.gReg p (fieldD f)).toNat
      (∀ c, s.accessAt p a n true = .error c → exec i s = .next (s.trap p c a false)) ∧
      let cells := s.accessNeeds p a n true
      (s.canDraw cells = false → exec i s = .next { s with slt := (s.postCells cells).slt }) ∧
      (∀ pl : Place, s.canDraw cells = true → s.accessAt p a n true = .ok pl → pl.isMemory = true →
        exec i s = .next (((s.spend cells).memStore p pl l).nextInstr p ((s.proc p).pc + 4))) ∧
      (∀ port off, s.placeOf p a n = .ok (.inPort port off) → a % n = 0 → s.mpuOk p a n true = true →
        exec i s = .next (s.trap p trapStream a false)) ∧
      (∀ port off, s.accessAt p a n true = .ok (.outPort port off) → off < 4 → s.pushReady p port = false →
        Completes i s fun t => (t.proc p) =
            { s.proc p with stall := some (.push port n ((s.gReg p (fieldD f)).toNat % 2 ^ (8 * n))) }
          ∧ t = { s with eng := { s.eng with procs := t.eng.procs } })
    let keeps := fun (i : Instr) (n off : Nat) => Completes i s fun t =>
      t = { s with regs := t.regs, eng := { s.eng with procs := t.eng.procs }, ftl := t.ftl, mem := t.mem } ∧
      (t.mergeLoad p false off n).1 = some (leBytes n (s.gReg p (fieldD f)).toNat) ∧
      ∀ b, b / 4 ≠ off / 4 → (t.mergeLoad p false b 1).1 = (s.mergeLoad p false b 1).1
    store (.sb p f) 1 ∧ store (.sh p f) 2 ∧ store (.sw p f) 4
    ∧ (∀ x, s.accessAt p a 4 true = .ok (.mgmt x) →
        exec (.sw p f) s = .next ((s.busWrite .core x (s.gReg p (fieldD f))).nextInstr p ((s.proc p).pc + 4)))
    ∧ (((s.proc p).merge.filter fun e => e.shared = false).length < 8 → s.noErrors →
        Sparse.wf (fun _ => (0 : Byte)) (s.proc p).local_ = true →
        (∀ off, s.accessAt p a 1 true = .ok (.loc off) →
          ((s.proc p).merge.find? fun e => e.shared = false && e.word = off / 4) = none → keeps (.sb p f) 1 off)
        ∧ (∀ off, s.accessAt p a 2 true = .ok (.loc off) →
          ((s.proc p).merge.find? fun e => e.shared = false && e.word = off / 4) = none → keeps (.sh p f) 2 off)
        ∧ (∀ off, s.accessAt p a 4 true = .ok (.loc off) → keeps (.sw p f) 4 off)))

/-- Class 7 (R328, R332–R334, R336, R350, R351): FENCE drains the SRAM stores it names; TEND drains and waits for its
slots; TRAP retires and traps with cause SOFTWARE and its immediate; WFE returns the latched events at once or waits;
MFSR reads what T may read; on a core MTSR and ERET act, ERET going on at EPC out of the trap; an unused field that is
not zero, or a later profile than declared, is ILLEGAL. The model's own choices in it: log entries 53 and 150. -/
def Obligations.DruotSystem : Prop :=
  (∀ (p : Nat) (f : BitVec 24) (s : State), s.Issues p 0x0100 →
    (fieldD f = 0 → fieldA f = 0 → fieldB f = 0 → fieldFn f < 8 →
      exec (.fence p f) s = .next ((if fieldFn f = 0 ∨ fieldFn f % 2 = 1 then s.drainAll p else s).nextInstr p ((s.proc p).pc + 4)))
    ∧ (fieldD f = 0 → fieldB f = 0 → fieldFn f = 0 → isEngine p = true →
      Completes (.tend p f) s fun t =>
        (t.proc p).stall = some (.tend (s.gReg p (fieldA f)).toNat) ∧ (t.proc p).retired = (s.proc p).retired + 1
        ∧ (t.proc p).merge = [] ∧ t = { s with regs := t.regs, ftl := t.ftl, mem := t.mem, eng := t.eng })
    ∧ (fieldD f = 0 → fieldB f = 0 → fieldFn f = 0 → isCore p = true →
      exec (.tend p f) s = .next (s.trap p trapIllegal 0 false))
    ∧ (fieldD f = 0 → fieldA f = 0 → isCore p = true → (s.proc p).status.getLsbD 0 = false →
      Completes (.trap p f) s fun t => t.proc p = { s.proc p with
          epc := (s.proc p).pc, cause := 0x0B, badaddr := (f.extractLsb' 0 14).setWidth 32
          status := (s.proc p).status ||| 1, pc := (s.proc p).tvec &&& 0xFFFFFFFC
          retired := (s.proc p).retired + 1, stall := none })
    ∧ (fieldD f = 0 → fieldA f = 0 → isEngine p = true →
      exec (.trap p f) s = .next ((s.retire p).trapTask p 0x0B (s.proc p).pc.toNat (f.extractLsb' 0 14).toNat false))
    ∧ (∀ v, fieldA f = 0 → s.sysT p (f.extractLsb' 0 14).toNat = some v →
      Completes (.mfsr p f) s fun t =>
        t.gReg p (fieldD f) = (if fieldD f = 0 then 0 else BitVec.ofNat 32 v) ∧ (t.proc p).pc = (s.proc p).pc + 4
        ∧ t = { s with regs := t.regs, eng := { s.eng with procs := t.eng.procs } } ∧ RegsKept [A.engERetired p] s t)
    ∧ (isCore p = true → fieldD f = 0 →
        (∀ v : Word, s.gReg p (fieldA f) = v →
          let writes := fun (n : Nat) (x : Proc) => (f.extractLsb' 0 14).toNat = n →
            Completes (.mtsr p f) s fun t =>
              t.proc p = { x with pc := (s.proc p).pc + 4, retired := (s.proc p).retired + 1 }
              ∧ t = { s with eng := { s.eng with procs := t.eng.procs } }
          writes 0x100 { s.proc p with epc := v } ∧ writes 0x101 { s.proc p with cause := v }
          ∧ writes 0x102 { s.proc p with badaddr := v } ∧ writes 0x103 { s.proc p with status := v &&& 3 }
          ∧ writes 0x104 { s.proc p with tvec := v } ∧ writes 0x140 { s.proc p with winBase := v.toNat % 1024 }
          ∧ writes 0x000 (s.proc p)))
    ∧ (isCore p = true → f = 0 →
        Completes (.eret p f) s fun t => t.proc p = { s.proc p with
            pc := (s.proc p).epc, status := (s.proc p).status &&& 0xFFFFFFFE, retired := (s.proc p).retired + 1 }
          ∧ t = { s with eng := { s.eng with procs := t.eng.procs } })
    ∧ (isEngine p = true → f = 0 → exec (.eret p f) s = .next (s.trap p trapPriv 0 false))
    ∧ (usesAB f = false → exec (.add p f) s = .next (s.trap p trapIllegal 0 false))
    ∧ ((s.proc p).profile < 0x0101 → exec (.min p f) s = .next (s.trap p trapIllegal 0 false))) ∧
  (∀ (p : Nat) (f : BitVec 24) (s : State), s.Issues p 0x0102 → usesA f = true →
    ((s.proc p).events % 4 ≠ 0 → Completes (.wfe p f) s fun t =>
        t.gReg p (fieldD f) = (if fieldD f = 0 then 0 else BitVec.ofNat 32 ((s.proc p).events % 4))
        ∧ (t.proc p).events = 0 ∧ (t.proc p).pc = (s.proc p).pc + 4)
    ∧ ((s.proc p).events % 4 = 0 → Completes (.wfe p f) s fun t =>
        (∃ u, (t.proc p).stall = some (.wfe (fieldD f) u)
          ∧ u = s.tick + 32 * (if s.gReg p (fieldA f) = 0 then 2 ^ 24 else (s.gReg p (fieldA f)).toNat))
        ∧ t = { s with eng := { s.eng with procs := t.eng.procs } }))

/-- What ends the stalls of an engine, and its memories and fence (R319, R323, R334, R342, R346, R353, R372, R377).
The model's own choices in it: log entries 101, 143, 161 and 190. -/
def Obligations.EngineEventsComplete : Prop :=
  (∀ (p d u : Nat) (s : State), s.procRuns p = true → (s.proc p).stall = some (.wfe d u) →
    Sparse.wf (fun _ => Proc.reset) s.eng.procs = true → Sparse.wf (fun _ => (0 : Word)) (s.proc p).regs = true →
    ((s.proc p).events % 4 ≠ 0 ∨ u ≤ s.tick) →
    Completes (.wfeWake p) s fun t =>
      t.gReg p d = (if d = 0 then 0 else BitVec.ofNat 32 ((s.proc p).events % 4 + if u ≤ s.tick then 4 else 0))
      ∧ (t.proc p).events = 0 ∧ (t.proc p).pc = (s.proc p).pc + 4 ∧ (t.proc p).retired = (s.proc p).retired + 1
      ∧ t = { s with regs := t.regs, eng := { s.eng with procs := t.eng.procs } } ∧ RegsKept [A.engERetired p] s t) ∧
  (∀ (p : Nat) (c : Ctx) (s : State), s.procRuns p = true → (s.proc p).stall = some .grant →
    s.ctx (s.proc p).ctx = some c → Sparse.wf (fun _ => Proc.reset) s.eng.procs = true →
    Sparse.wf (fun _ => none) s.tsk.ctxs = true →
    Completes (.budgetGrant p) s fun t =>
      let g := min c.budgetLeft 65536
      t.proc p = { s.proc p with stall := none, grant := g, grantSize := g }
      ∧ t.ctx (s.proc p).ctx = some { c with budgetLeft := c.budgetLeft - g
                                             retired := c.retired + (s.proc p).grantSize
                                             retiredAll := c.retiredAll + (s.proc p).grantSize }
      ∧ t = { s with eng := { s.eng with procs := t.eng.procs }, tsk := { s.tsk with ctxs := t.tsk.ctxs } }) ∧
  (∀ (p d port n : Nat) (sext : Bool) (c : Ctx) (r : TakeRange) (l : List Byte) (u s : State), s.procRuns p = true →
    (s.proc p).stall = some (.pop d port n sext) → s.popReady p port n = true → s.ctx (s.proc p).ctx = some c →
    c.inRange port = some r → s.canDraw (s.popNeeds p port n) = true →
    (s.spend (s.popNeeds p port n)).popBytes (s.proc p).ctx r (min n (r.length - c.consumedAt port)) = (some l, u) →
    Sparse.wf (fun _ => Proc.reset) s.eng.procs = true → Sparse.wf (fun _ => (0 : Word)) (s.proc p).regs = true →
    (u.proc p) = s.proc p → u.eng = s.eng →
    Completes (.portPopResume p) s fun t =>
      t.gReg p d = (if d = 0 then 0 else State.extend n sext (leNat l))
      ∧ (t.proc p).pc = (s.proc p).pc + 4 ∧ (t.proc p).stall ≠ (s.proc p).stall
      ∧ (t.proc p).retired = (s.proc p).retired + 1) ∧
  (∀ (p port n v : Nat) (c : Ctx) (r : TakeRange) (s : State), s.procRuns p = true →
    (s.proc p).stall = some (.push port n v) → s.pushReady p port = true → s.ctx (s.proc p).ctx = some c →
    c.outRange port = some r → s.canDraw (s.pushNeeds p port n) = true →
    exec (.portPushResume p) s = .next (((s.spend (s.pushNeeds p port n)).pushBytes (s.proc p).ctx r (leBytes n v)).nextInstr p ((s.proc p).pc + 4))) ∧
  (∀ (p n : Nat) (e : MergeEntry) (s : State), (s.proc p).merge[n]? = some e → e.last + 64 * 32 ≤ s.tick →
    exec (.mergeEntryDrain p n) s = .next (s.drainEntry p e)) ∧
  (∀ (p : Nat) (s : State), s.procRuns p = true → (s.proc p).stall = none → (s.proc p).pc.toNat < (s.proc p).textLen →
    (s.proc p).pc.toNat / 64 ∉ (s.proc p).icache → Sparse.wf (fun _ => Proc.reset) s.eng.procs = true →
    let cells := s.dramNeeds (s.procOwner p) (Config.bufferPlace 6 + (s.proc p).pc.toNat / 64 * 64) 64 false
    s.canDraw cells = true → Completes (.icacheFill p 0) s fun t =>
      (s.proc p).pc.toNat / 64 ∈ (t.proc p).icache
      ∧ t = { s with slt := (s.spend cells).slt, eng := { s.eng with procs := t.eng.procs } }) ∧
  (∀ (e : Nat) (w : Bool) (s : State), e < 32 → s.logicOn = true → s.regsWf → (s.proc e).running = false →
    (s.getF F.engFencedFenced).testBit e = false →
    Completes (.engineFence e w) s (fun t => t = { s with regs := t.regs, host := t.host, ftl := t.ftl, mgt := t.mgt } ∧
      ∀ i < 32, (t.getF F.engFencedFenced).testBit i = (decide (i = e) || (s.getF F.engFencedFenced).testBit i)) ∧
    exec (.engineAckTimeout e) s = exec (.engineFence e w) s) ∧
  (∀ (path : Path) (w : Word) (s : State), s.regsWf → s.admits path A.engUnfence → s.inMode .service = true →
    Completes (.engineUnfence path w) s fun t => t = { s with regs := t.regs, eng := { s.eng with procs := t.eng.procs } } ∧
      ∀ i < 32, (t.getF F.engFencedFenced).testBit i = ((s.getF F.engFencedFenced).testBit i && !w.getLsbD i))

/-- Decode of encode: the word of every issue, at every value of its fields, decodes to that issue, and no two issues
of one processor share a word (Table 09.7). The model's own choices in it: log entry 53. -/
def Obligations.DruotRoundTrip : Prop :=
  (∀ (i : Instr) (w : BitVec 32), encodeDruot i = some w → ∃ p, decodeDruot p w = some i) ∧
  (∀ (p : Nat) (w : BitVec 32) (i : Instr), decodeDruot p w = some i → encodeDruot i = some w)

/-! ## Accelerators (chapter 11) -/

/-- Doorbells and units (R325, R326, R385, R387, R389, R402, R418): a ring of a BUSY slot only sets REFUSED; one of
another slot makes it BUSY and queues its job, or completes it at once with the code of the first check that fails; a
free unit takes the waiting job of its page; a job whose work has ended leaves its slot DONE with code and results; a
new owner of a bank invalidates its entries and no others; an injection is armed in Service mode. The model's own
choices in it: log entries 1, 136, 137, 138, 142 and 161. -/
def Obligations.AcceleratorsServeDoorbells : Prop :=
  (∀ (p page slot len : Nat) (s : State), (isEngine p || isCore p) = true → page < 4 → slot < 4 → s.logicOn = true →
    (s.proc p).merge = [] →
    (((s.proc p).slot page slot).state = 1 → exec (.doorbellRing p page slot len) s =
      .next (s.modProc p fun x => x.setSlot page slot { x.slot page slot with refused := true }))
    ∧ (((s.proc p).slot page slot).state ≠ 1 → page ≠ 3 →
      let u := s.modProc p fun x =>
        x.setSlot page slot { x.slot page slot with state := 1, refused := false, code := 0 }
      (∀ c r v, u.ringCheck p page slot len = (.error (c, r), v) →
        exec (.doorbellRing p page slot len) s = .next (v.slotDone p page slot c 0 r))
      ∧ (∀ j v, u.ringCheck p page slot len = (.ok j, v) → Completes (.doorbellRing p page slot len) s fun t =>
          t.jobsOf page = v.jobsOf page ++ [j] ∧ t.cmp.nextRing = v.cmp.nextRing + 1
          ∧ t = { v with pmx := t.pmx, cmp := t.cmp, sec := t.sec }))) ∧
  (∀ (page u : Nat) (j : AccJob) (s : State), page < 4 → s.freeUnit page = some u → s.nextJob page = some j →
    j.page = page → page < 2 →
    Completes (.jobUnitAssign page) s fun t =>
      t.jobsOf page = (s.jobsOf page).map (fun k =>
        if k.proc = j.proc ∧ k.slot = j.slot then { k with unit := some u } else k)
      ∧ t = { s with pmx := t.pmx, cmp := t.cmp }) ∧
  (∀ (p page slot c r r2 : Nat) (j : AccJob) (s : State), page < 4 → slot < 4 →
    s.job? page p slot = some j → j.code = some (c, r, r2) → Sparse.wf (fun _ => Proc.reset) s.eng.procs = true →
    Sparse.wf (fun _ => Doorbell.reset) (s.proc p).slots = true →
    let cells := if page = 1 then s.jobDram j (field j.desc 0x1C 4) 32 true else []
    s.canDraw cells = true → Completes (.jobComplete p page slot) s fun t =>
      t.job? page p slot = none
      ∧ ((t.proc p).slot page slot).state = 2 ∧ ((t.proc p).slot page slot).code = c % 2 ^ 16
      ∧ ((t.proc p).slot page slot).result = r % 2 ^ 32 ∧ ((t.proc p).slot page slot).result2 = r2 % 2 ^ 32
      ∧ t = { s with regs := t.regs, slt := (s.spend cells).slt, ftl := t.ftl, pmx := t.pmx, cmp := t.cmp, sec := t.sec,
                     eng := t.eng, tsk := t.tsk, mem := t.mem, freeCtr := t.freeCtr }) ∧
  (∀ (path : Path) (bank : Nat) (v : Word) (s : State), s.regsWf → bank < 16 → s.admits path (A.pmxBankOwner bank) →
    v.toNat / 2 ^ 16 % 1024 < 512 → v.toNat / 2 ^ 16 % 1024 ≠ s.bankOwner bank →
    Completes (.bankOwnerWrite path bank v) s fun t =>
      t.bankOwner bank = v.toNat / 2 ^ 16 % 1024
      ∧ (∀ pos, pos / 4096 = bank → (t.searchAt pos).valid = false ∧ (t.shadowAt pos).valid = false)
      ∧ (∀ pos, pos / 4096 ≠ bank → t.searchAt pos = s.searchAt pos ∧ t.shadowAt pos = s.shadowAt pos)
      ∧ t = { s with regs := t.regs, pmx := t.pmx, mem := t.mem, upd := t.upd }) ∧
  (∀ (path : Path) (v : Word) (s : State), s.regsWf → s.admits path A.cmpInject →
    Completes (.cmpInject path v) s fun t => t = { s with regs := t.regs } ∧
      ∀ i < 4, (t.getF F.cmpInjectLane).testBit i =
        ((s.getF F.cmpInjectLane).testBit i || (s.inMode .service && v.getLsbD i)))

/-- Cells of the jobs (R54, R386, R435, R439): each scan, install, lookup, update, compression, decompression, cipher
and digest command takes one piece of its job, in its owner's cells where the piece moves data; the next record of an
INSERT takes cells at each eighth record; the end of a cipher piece takes those of the tag. The model's own choices in
it: log entries 30, 31, 140, 141, 144 and 161. -/
def Obligations.JobsMoveInTheirCells : Prop :=
  ∀ (p slot : Nat) (equal : Bool) (s : State),
    (s.PieceRuns (.scan p slot) 0 p slot s.scanNeeds (·.scanPiece p slot)
    ∧ s.PieceRuns (.install p slot) 0 p slot s.installNeeds (·.installPiece p slot)
    ∧ s.PieceRuns (.lookup p slot) 0 p slot s.lookupNeeds (·.lookupPiece p slot)
    ∧ s.PieceRuns (.assocWrite p slot) 0 p slot (fun j k => s.updateNeeds j (k.pos - j.pos)) (·.updatePiece p slot 0x11 false)
    ∧ s.PieceRuns (.delete p slot) 0 p slot (fun j k => s.updateNeeds j (k.pos - j.pos)) (·.updatePiece p slot 0x13 true)
    ∧ s.PieceRuns (.compress p slot) 1 p slot s.cmpNeeds (·.compressPiece p slot)
    ∧ s.PieceRuns (.compressBlockVerified p slot equal) 1 p slot s.cmpNeeds (·.verifiedPiece p slot equal)
    ∧ s.PieceRuns (.decompress p slot) 1 p slot s.cmpNeeds (·.decompressPiece p slot)
    ∧ s.PieceRuns (.gcmEncrypt p slot) 2 p slot s.aesNeeds (·.gcmEncryptPiece p slot)
    ∧ s.PieceRuns (.gcmDecrypt p slot) 2 p slot s.aesNeeds (·.gcmDecryptPiece p slot)
    ∧ s.PieceRuns (.xtsEncrypt p slot) 2 p slot s.aesNeeds (·.xtsPiece p slot 3)
    ∧ s.PieceRuns (.xtsDecrypt p slot) 2 p slot s.aesNeeds (·.xtsPiece p slot 4)
    ∧ s.PieceRuns (.hash p slot) 3 p slot s.digestNeeds (·.digestSlice p slot 1)
    ∧ s.PieceRuns (.hmac p slot) 3 p slot s.digestNeeds (·.digestSlice p slot 2)) ∧
    (∀ j : AccJob, s.job? 2 p slot = some j → j.hits ≠ 0 → j.code = none → j.unit.isSome = true →
      let cells := s.pieceEndNeeds j
      (s.canDraw cells = true → exec (.aesPieceEnd p slot) s = .next ((s.spend cells).aesPieceEnd p slot))
      ∧ (s.canDraw cells = false → exec (.aesPieceEnd p slot) s = .next { s with slt := (s.postCells cells).slt })) ∧
    (∀ j : AccJob, s.assocJob p slot 0x12 = some j →
      let starts : Prop := s.pmx.mover = none ∧ (s.insertPiece p slot).pmx.mover.isSome = true ∧ j.pos % 8 = 0
      let cells := s.updateNeeds j (min 8 (State.updateCount j - j.pos))
      (¬ starts → exec (.insert p slot) s = .next (s.insertPiece p slot))
      ∧ (starts → s.canDraw cells = true → exec (.insert p slot) s = .next ((s.spend cells).insertPiece p slot))
      ∧ (starts → s.canDraw cells = false → exec (.insert p slot) s = .next { s with slt := (s.postCells cells).slt }))

/-- Pieces of pattern jobs (R392–R398, R403–R408): a scan runs its automaton over the bytes its source holds and ends
with a header of position, matches and state; a checked image takes its pages and RESULT is its handle; an uninstall
frees them; a lookup answers the keys of its cell; a WRITE sets entries in place and a DELETE clears their valid bit;
an INSERT moves the entries above it up by one before the new record is written. The model's own choices in it: log
entries 1, 8, 29, 30, 113, 140, 141, 145 and 161. -/
def Obligations.PatternJobsTakeEffect : Prop :=
  (∀ (p slot : Nat) (j : AccJob) (a : AutoSet) (l : List Byte) (ended : Bool) (u v s : State),
    s.runningJob 0 p slot 0x01 = some j → j.eos = false → j.pos < field j.desc 0xC 4 → scanOnce j = false →
    s.setOf j.ctx (field j.desc 4 2) = some a → portOf (field j.desc 1 1) (field j.desc 2 1) = none →
    s.jobSource j none (field j.desc 8 4) (field j.desc 0xC 4) 512 = (.data l ended, u) → 0 < j.pos →
    let r := scanRun a.image (bit (field j.desc 1 1) 1) j.pos l { state := j.dfa, matched := [], n := 0, read := [] }
    u.automatonRead a r.read = (true, v) → r.matched = [] →
    s.scanPiece p slot = ((v.countScan r.n).modJob 0 p slot fun k =>
      { k with pos := j.pos + r.n, dfa := r.state, hits := j.hits, eos := ended && r.n = l.length })) ∧
  (∀ (p slot : Nat) (j : AccJob) (s : State), s.runningJob 0 p slot 0x01 = some j → j.page = 0 →
    (j.eos = true ∨ field j.desc 0xC 4 ≤ j.pos) → 0 < j.pos →
    let cells := s.jobDram j (field j.desc 0x18 4) 16 true
    s.canDraw cells = true → Completes (.scanEnd p slot) s fun t =>
      (∃ k, t.job? 0 p slot = some k
        ∧ k.code = some (if field j.desc 0x1C 4 < j.hits then 0x0112 else 0, j.hits, j.dfa))
      ∧ t = { s with regs := t.regs, slt := (s.spend cells).slt, ftl := t.ftl, eng := t.eng, pmx := t.pmx, mem := t.mem,
                     freeCtr := t.freeCtr }) ∧
  (∀ (p slot pg : Nat) (j : AccJob) (l : List Byte) (e : Bool) (u s : State),
    s.runningJob 0 p slot 0x02 = some j → j.page = 0 →
    s.jobSource j none (field j.desc 4 4) (field j.desc 8 4) 512 = (.data l e, u) →
    (j.pos + l.length < field j.desc 8 4 → s.installPiece p slot =
      (u.modJob 0 p slot fun k => { k with pos := k.pos + l.length, taken := j.taken ++ l }))
    ∧ (field j.desc 8 4 ≤ j.pos + l.length → j.ctx = none →
      imageBad (j.taken ++ l) (field j.desc 8 4) true = none → u.pmx = s.pmx →
      s.freeRun 0 512 (ceilDiv (field j.desc 8 4) 4096) = some pg → Sparse.wf (fun _ => none) s.pmx.sets = true →
      let t := s.installPiece p slot
      ∃ a k, sparseGet (fun _ => none) t.pmx.sets pg = some a ∧ a.image = j.taken ++ l ∧ a.ctx = none
        ∧ a.handle % 2048 = pg % 2048 ∧ t.job? 0 p slot = some k
        ∧ k.code = some (0, a.handle, field (j.taken ++ l) 0x18 4))) ∧
  (∀ (p slot : Nat) (j : AccJob) (a : AutoSet) (s : State), s.runningJob 0 p slot 0x03 = some j → j.page = 0 →
    s.setOf j.ctx (field j.desc 4 2) = some a → a.ctx = j.ctx → Sparse.wf (fun _ => none) s.pmx.sets = true →
    Completes (.uninstall p slot) s fun t =>
      sparseGet (fun _ => none) t.pmx.sets (a.handle % 2048) = none
      ∧ (∀ q, q ≠ a.handle % 2048 → sparseGet (fun _ => none) t.pmx.sets q = sparseGet (fun _ => none) s.pmx.sets q)
      ∧ (∃ k, t.job? 0 p slot = some k ∧ k.code = some (0, 0, 0))
      ∧ t = { s with pmx := t.pmx, mem := t.mem }) ∧
  (∀ (p slot : Nat) (j : AccJob) (l : List Byte) (u s : State), s.assocJob p slot 0x10 = some j →
    (∀ b < 16, bit (field j.desc 2 2) b = true → s.bankOwner b = j.owner) →
    s.jobRead j (field j.desc 4 4 + 24 * j.pos) 24 = (some l, u) → field j.desc 8 4 = j.pos + 1 →
    let v := u.lookupKey j j.pos (bits144 (l.take 18))
    l.length = 24 →
    (∀ k, v.job? 0 p slot = some k → k.pos = j.pos + 1 →
      s.lookupPiece p slot = (v.endJob k 0 k.hits k.dropped))) ∧
  (∀ (p slot pos : Nat) (e : AssocEntry) (j : AccJob) (u s : State), s.pmx.mover = none → j.page = 0 → j.pos ≠ 0 →
    State.updateCount j = j.pos + 1 → s.updateRecords j j.pos 1 = (some [(pos, e)], u) → u.pmx = s.pmx →
    Sparse.wf (fun _ => AssocEntry.reset) s.pmx.search = true →
    let done := fun (t : State) (v : AssocEntry) => t.searchAt pos = v
      ∧ (∀ q, q ≠ pos → t.searchAt q = s.searchAt q)
      ∧ (∃ k, t.job? 0 p slot = some k ∧ k.code = some (0, 0, 0))
      ∧ t = { s with regs := t.regs, ftl := t.ftl, pmx := t.pmx, mem := t.mem }
    (s.assocJob p slot 0x11 = some j → done (s.updatePiece p slot 0x11 false) e)
    ∧ (s.assocJob p slot 0x13 = some j →
        done (s.updatePiece p slot 0x13 true) { s.shadowAt pos with valid := false })) ∧
  (∀ (p slot pos f : Nat) (e : AssocEntry) (j : AccJob) (u s : State), s.assocJob p slot 0x12 = some j →
    s.pmx.mover = none → j.pos ≠ 0 → s.updateRecords j j.pos 1 = (some [(pos, e)], u) → u.pmx = s.pmx →
    pos % 4096 ≤ f → f < 4096 → (s.searchAt (pos / 4096 * 4096 + f)).valid = false →
    (∀ g, pos % 4096 ≤ g → g < f → (s.searchAt (pos / 4096 * 4096 + g)).valid = true) →
    let t := s.insertPiece p slot
    t.pmx.mover = some
        { bank := pos / 4096, entry := pos % 4096, next := f, newRec := e, proc := p, slot := slot }
      ∧ t = { u with pmx := { u.pmx with mover := t.pmx.mover } }) ∧
  (∀ (m : Mover) (s : State), s.pmx.mover = some m → s.noErrors →
    Sparse.wf (fun _ => AssocEntry.reset) s.pmx.search = true →
    Completes .moverStep s fun t =>
      t = { s with regs := t.regs, ftl := t.ftl, pmx := t.pmx, mem := t.mem }
      ∧ if m.entry < m.next then
          t.searchAt (m.bank * 4096 + m.next) = s.shadowAt (m.bank * 4096 + m.next - 1)
          ∧ (∀ q, q ≠ m.bank * 4096 + m.next → t.searchAt q = s.searchAt q)
          ∧ t.pmx.mover = some { m with next := m.next - 1 }
        else t.searchAt (m.bank * 4096 + m.entry) = m.newRec ∧ t.pmx.mover = none
          ∧ ∀ q, q ≠ m.bank * 4096 + m.entry → t.searchAt q = s.searchAt q)

/-- Pieces of compression jobs (R409, R412–R415, R418): input fills a block, which is encoded when it is full or the
input ends; a block whose check fails is written raw, and the job that holds one ends VERIFY_FAILED; a decompression
delivers the decoder's output and ends with the code of what the decoder finds; a Zstandard frame of one raw block
decodes to its input. The model's own choices in it: log entries 7, 31 and 142. -/
def Obligations.CompressionJobsTakeEffect : Prop :=
  (∀ (p slot : Nat) (j : AccJob) (l : List Byte) (ended : Bool) (u s : State), s.runningJob 1 p slot 0x01 = some j →
    j.blockOut = none → j.eos = false →
    s.jobSource j (portOf (field j.desc 3 1) (field j.desc 4 1)) (field j.desc 8 4) (field j.desc 0xC 4)
      (min 512 (blockSize (field j.desc 1 1) - j.blockIn.length)) = (.data l ended, u) →
    (j.blockIn ++ l).length ≠ blockSize (field j.desc 1 1) → ended = false →
    s.compressPiece p slot = (u.modJob 1 p slot fun k =>
      { k with pos := k.pos + l.length, taken := k.taken ++ l, blockIn := j.blockIn ++ l, eos := false, blockOut := none })) ∧
  (∀ (p slot : Nat) (j : AccJob) (b : List Bool) (s : State), s.runningJob 1 p slot 0x01 = some j →
    j.blockOut = some b → j.eos = false → 0 < j.blocks → j.unit = some 0 → s.regsWf →
    (s.getF F.cmpInjectLane).testBit 0 = false →
    let raw := rawBlock (field j.desc 1 1) false j.bits.length j.blockIn
    let wrote := fun (s : State) (chosen : List Bool) (raws : Nat) =>
      let out := packBits (j.bits ++ chosen)
      if s.destRoom j < out.1.length then s.endCmp p slot 0x0106
      else (s.deliver j out.1).modJob 1 p slot fun k =>
        { k with consumed := k.consumed + k.blockIn.length, produced := k.produced + out.1.length, blocks := k.blocks + 1,
                 raws := raws, blockIn := [], blockOut := none, bits := out.2 }
    s.verifiedPiece p slot false = wrote (s.incF F.cmpCntVerifyBlocks) raw (j.raws + 1)
    ∧ s.verifiedPiece p slot true = wrote s (if b.length < raw.length then b else raw) j.raws) ∧
  (∀ (p slot : Nat) (j : AccJob) (l : List Byte) (ended : Bool) (u s : State), s.runningJob 1 p slot 0x02 = some j →
    let port := portOf (field j.desc 3 1) (field j.desc 4 1)
    s.jobSource j port (field j.desc 8 4) (field j.desc 0xC 4) 512 = (.data l ended, u) →
    let r := decodeStream (field j.desc 1 1) (field j.desc 0x18 4) (j.taken ++ l)
    let new := r.out.drop j.produced
    let v := (u.deliver j new).modJob 1 p slot fun k =>
      { k with pos := k.pos + l.length, taken := j.taken ++ l, consumed := r.used, produced := k.produced + new.length,
               blocks := r.blocks }
    let w := v.unpop j port ((j.taken ++ l).length - r.used)
    s.decompressPiece p slot = (if u.destRoom j < new.length then u.endCmp p slot 0x0106
      else match r.stop with
      | some .unsupported => w.endCmp p slot 0x0102
      | some .corrupt => w.endCmp p slot 0x0103
      | some .checksum => w.endCmp p slot 0x0104
      | some .limit => w.endCmp p slot 0x00C8
      | some .more => if ended then v.endCmp p slot 0x0105 else v
      | none => if ended then v.endCmp p slot 0 else v)) ∧
  (∀ (level flags limit : Nat) (l : List Byte), l.length ≤ 131072 → l.length ≤ limit →
    let frame := encodeHead 0 level flags l.length ++ (packBits (rawBlock 0 true 0 l)).1 ++ encodeTail 0 flags l
    decodeStream 0 limit frame = { out := l, stop := none, used := frame.length, blocks := 1 })

/-! ## Security (chapter 12) -/

/-- Pieces of cipher and digest jobs (R421, R434–R440): a GCM or XTS piece delivers the cipher of its bytes at its
position; the last piece writes the tag, ends the second pass, or erases what a wrong tag belongs to; a digest job
takes slices and shows the value of the whole message; a job past its slice yields, and one at the front resumes with
its saved context; a read of DIGEST of a BUSY slot is a misuse. The model's own choices in it: log entries 7, 139,
144, 145 and 167. -/
def Obligations.CipherAndDigestJobs : Prop :=
  (∀ (p slot : Nat) (j : AccJob) (iv l : List Byte) (ended : Bool) (u s : State), j.hits = 0 → j.saved = some iv →
    field j.desc 0xC 4 ≠ 0 → s.jobSource j (State.aesIn j) (field j.desc 8 4) (field j.desc 0xC 4) 65536 = (.data l ended, u) →
    let v := (u.useMasks (ceilDiv l.length 16)).modJob 2 p slot fun k => { k with pos := k.pos + l.length, hits := l.length + 1, eos := ended }
    (∀ w, s.runningJob 2 p slot 1 = some j → v.aesDeliver j (gcmPart j.key (iv.take 12) j.pos l) = (true, w) →
      s.gcmEncryptPiece p slot = (w.modJob 2 p slot fun k =>
        { k with produced := k.produced + (gcmPart j.key (iv.take 12) j.pos l).length
                 taken := k.taken ++ gcmPart j.key (iv.take 12) j.pos l }))
    ∧ (s.runningJob 2 p slot 2 = some j → j.dfa = 0 →
        s.gcmDecryptPiece p slot = (v.modJob 2 p slot fun k => { k with taken := k.taken ++ l }))
    ∧ (s.runningJob 2 p slot 2 = some j → j.dfa = 1 →
        let out := gcmPart j.key (iv.take 12) j.pos l
        s.gcmDecryptPiece p slot = ((v.jobWrite j (field j.desc 0x10 4 + j.produced) out).modJob 2 p slot fun k =>
          { k with produced := k.produced + out.length }))
    ∧ (∀ (op : Nat) (w : State), op = 3 ∨ op = 4 → s.runningJob 2 p slot op = some j → j.blockIn = [] →
        l.length % 4096 = 0 →
        let out := xtsUnits (op = 3) j.key (leNat iv + j.produced / 4096) (l.length / 4096) l
        v.aesDeliver j out = (true, w) →
        s.xtsPiece p slot op = (w.modJob 2 p slot fun k =>
          { k with produced := k.produced + out.length, blockIn := [] }))) ∧
  (∀ (p slot : Nat) (j : AccJob) (s : State), s.job? 2 p slot = some j → j.hits ≠ 0 → j.code = none → j.unit.isSome = true →
    let u := s.modJob 2 p slot fun k => { k with hits := 0 }
    let iv := j.saved.getD []
    (j.eos = false → s.aesPieceEnd p slot = u)
    ∧ (j.eos = true → j.op = 1 → State.aesOut j = none → s.aesPieceEnd p slot =
        ((u.jobWrite j (field j.desc 0x10 4 + 16 * field j.desc 0x1E 2)
          (gcmTag j.key (iv.take 12) (iv.drop 12) j.taken)).endAes p slot 0 false))
    ∧ (j.eos = true → j.op = 2 → j.dfa = 0 → ∀ (x : List Byte) (v : State),
        u.jobRead j (field j.desc 8 4 + 16 * field j.desc 0x1E 2) 16 = (some x, v) →
        if x = gcmTag j.key (iv.take 12) (iv.drop 12) j.taken then
          s.aesPieceEnd p slot = (v.modJob 2 p slot fun k => { k with dfa := 1, pos := 0, eos := false })
        else s.aesPieceEnd p slot =
          (((v.jobWrite j (field j.desc 0x10 4) (zeros (field j.desc 0xC 4))).incF F.secCntAuthAuthFail).endJob j 0x00C4 0 0))
    ∧ (j.eos = true → j.op = 2 → j.dfa = 1 → s.aesPieceEnd p slot = (u.endAes p slot 0 true))
    ∧ (j.eos = true → j.op = 3 ∨ j.op = 4 → s.aesPieceEnd p slot = (u.endAes p slot 0 false))) ∧
  (∀ (p slot op : Nat) (j : AccJob) (s : State), op = 1 ∨ op = 2 → s.runningJob 3 p slot op = some j → j.page = 3 →
    s.yieldDue j = false →
    let i : Instr := if op = 1 then .hash p slot else .hmac p slot
    let total := field j.desc 0xC 4
    (∀ (l : List Byte) (u : State), total ≠ 0 → s.jobSource j (portOf (field j.desc 2 1) (field j.desc 3 1))
        (field j.desc 8 4) total (s.sliceBytes (field j.desc 1 1) j.pos) = (.data l false, u) →
        s.digestSlice p slot op = (u.modJob 3 p slot fun k =>
          { k with pos := k.pos + l.length, hits := k.hits + l.length, taken := k.taken ++ l, eos := false }))
    ∧ (total = 0 → bit (field j.desc 2 1) 1 = false → bit (field j.desc 2 1) 2 = false →
        Sparse.wf (fun _ => DigestWin.reset) s.sec.windows = true →
        Completes i s fun t =>
          (t.digestWin p slot).ready = true
          ∧ (t.digestWin p slot).digest = (if op = 2 then hmacOf (field j.desc 1 1) j.key j.taken
              else digestOf (field j.desc 1 1) j.taken)
          ∧ (∃ k, t.job? 3 p slot = some k ∧ k.code = some (0, 0, 0))
          ∧ t = { s with sec := t.sec })) ∧
  (∀ (j : AccJob) (rest : List AccJob) (s : State), s.sec.digests = j :: rest → j.unit.isSome = true → j.code = none →
    j.op = 1 → j.eos = false → s.getF F.secDigestCfgSlice * 64 ≤ j.hits → j.pos % digestBlock (field j.desc 1 1) = 0 →
    (∃ k ∈ rest, k.unit = none ∧ k.code = none) → (∀ k ∈ rest, k.proc ≠ j.proc ∨ k.slot ≠ j.slot) →
    Completes .digestYield s fun t =>
      t.sec.digests = rest ++ [{ j with unit := none, saved := some (digestRecord j), hits := 0 }]
      ∧ t = { s with regs := t.regs, sec := { s.sec with digests := t.sec.digests } }) ∧
  (∀ (u : Nat) (j : AccJob) (r : List Byte) (s : State), s.freeUnit 3 = some u → s.nextJob 3 = some j →
    j.saved = some r → j.op = 1 →
    exec .digestResume s = .next (s.modJob 3 j.proc j.slot fun k => { k with unit := some u, saved := none })) ∧
  (∀ (p slot : Nat) (s : State), slot < 4 → ((s.proc p).slot 3 slot).state = 1 →
    Sparse.wf (fun _ => DigestWin.reset) s.sec.windows = true →
    Completes (.digestReadBusy p slot) s fun t => (t.digestWin p slot).misuse = true
      ∧ t = { s with regs := t.regs, sec := { s.sec with windows := t.sec.windows } })

/-- The key store, the random generator and tampering (R420, R423–R430, R442–R445, Table 12.13): a key command that
may run sets BUSY and becomes an order of the sequencer; one that wins and passes its checks waits for its durable
copy, which sets the slot; tampering erases every key and orders Safe; the lock burns at its second write. The model's
own choices in it: log entries 1, 7, 8, 62, 67, 147 and 167. -/
def Obligations.SecurityCommandsTakeEffect : Prop :=
  (∀ (path : Path) (v : Word) (s : State), s.admits path A.secKeyCmd → path ≠ .vf → s.inMode .safe = false →
    s.orderBarred (fun m => decide (m ≠ .safe)) = false →
    let slot := v.toNat % 4096
    let placed := (s.setF F.secKeyStatusBusy 1).placeOrder
    let ordered := fun (op : Nat) =>
      if s.onF F.secKeyStatusBusy = true then s.setF F.secKeyStatusResult 1
      else placed (.key op (v.toNat / 2 ^ 24 % 16) (v.toNat / 2 ^ 12 % 4096) slot) true
        (.slot slot :: (s.boundNs slot).map .ns) 3 (pathSide path)
    exec (.keyLoad path v) s = .next (ordered 1) ∧ exec (.keyGenerate path v) s = .next (ordered 2)
    ∧ exec (.keyExport path v) s = .next (ordered 3) ∧ exec (.keyErase path v) s = .next (ordered 4)) ∧
  (∀ (side : Side) (cls wrap slot : Nat) (s : State), s.onF F.secStatusKeysDisabled = false → s.inMode .safe = false →
    s.slotBusy slot = false → s.noErrors →
    s.runKeyCmd side 4 cls wrap slot = { s with sec := { s.sec with cmd := some { slot := slot, newKey := none, blob := none } } }
    ∧ (∀ k, s.loadKey side slot = .ok k → s.runKeyCmd side 1 cls wrap slot =
        { s with sec := { s.sec with cmd := some { slot := slot, newKey := some k, blob := none } } })) ∧
  (∀ (slot : Nat) (k : Option KeySlot) (s : State), s.sec.cmd = some { slot := slot, newKey := k, blob := none } →
    s.onF F.nvsStatusBusy = false → s.sec.areaUsed < State.keyAreaRecords → s.regsWf →
    Sparse.wf (fun _ => none) s.sec.slots = true →
    Completes .keyCommandDone s fun t =>
      t.keySlot slot = k ∧ (∀ n, n ≠ slot → t.keySlot n = s.keySlot n) ∧ t.sec.cmd = none
      ∧ t.onF F.secKeyStatusBusy = false ∧ t.getF F.secKeyStatusResult = 0
      ∧ t = { s with regs := t.regs, slt := t.slt, sec := t.sec, cnt := t.cnt, mem := t.mem, freeCtr := t.freeCtr }) ∧
  (∀ s : State, 3 * State.keyAreaRecords ≤ 4 * s.sec.areaUsed →
    exec .keyAreaCompact s = .next { s with sec := { s.sec with areaUsed := s.sec.stored.length + 1 } }) ∧
  (∀ (path : Path) (v : Word) (s : State), s.admits path A.secBlobData → s.regsWf →
    Completes (.blobDataAccess path (some v)) s fun t =>
      let w := s.getF F.secBlobAddrWord
      field t.blobWindow (4 * w) 4 = v.toNat ∧ t.getF F.secBlobAddrWord = (w + 1) % 64
      ∧ t = { s with regs := t.regs, sec := { s.sec with blob := t.sec.blob } }) ∧
  (∀ (path : Path) (v : Word) (k : KeySlot) (s : State), s.admits path A.secNsKey →
    0 < s.getF F.secNsSelNsid → s.getF F.secNsSelNsid ≤ 1024 → s.nsAttached (s.getF F.secNsSelNsid) = false →
    s.keySlot (v.toNat % 4096) = some k → k.cls = 1 → s.isTenantSlot (v.toNat % 4096) = false →
    Sparse.wf (fun _ => none) s.sec.nsKeys = true →
    Completes (.nsKeyBind path v) s fun t => t.nsKeySlot (s.getF F.secNsSelNsid) = some (v.toNat % 4096)
      ∧ t = { s with regs := t.regs, sec := { s.sec with nsKeys := t.sec.nsKeys } }) ∧
  (∀ (fails : Nat) (s : State), s.logicOn = true → (65536 ≤ s.sec.requests ∨ s.since s.sec.reseedAt 1000000000 = true) →
    s.regsWf →
    Completes (.drbgReseed fails true) s fun t =>
      t.sec = { s.sec with requests := 0, reseedAt := s.fab.timecode, drbgLive := true }
      ∧ t.onF F.secStatusEntropyFail = false ∧ t = { s with regs := t.regs, sec := t.sec }) ∧
  (∀ s : State, s.logicOn = true → s.since s.sec.reseedAt 10000000000 = true → s.onF F.secStatusEntropyFail = false →
    s.regsWf →
    Completes .entropyFail s fun t => t.onF F.secStatusEntropyFail = true ∧ t = { s with regs := t.regs, ftl := t.ftl }) ∧
  (∀ (cause : Nat) (s : State), cause < 5 → s.tamperMasked cause = false → s.logicOn = true → s.regsWf →
    Completes (.tamperAlarm cause) s fun t =>
      t.sec.slots = [] ∧ t.sec.swk = none ∧ t.sec.cwk = none ∧ t.sec.drbgLive = false ∧ t.sec.swkStored = none
      ∧ t.sec.nsKeys = s.sec.nsKeys ∧ t.nvs.zeroized = true ∧ t.ftl.wb = []
      ∧ t.onF F.secStatusTampered = true ∧ (t.getF F.secTamperCause).testBit cause = true
      ∧ (∃ o ∈ t.pwr.window, o.op = .mode .safe false 2 false)
      ∧ t = { s with regs := t.regs, host := t.host, ftl := t.ftl, sec := t.sec, mgt := t.mgt, nvs := t.nvs, pwr := t.pwr }) ∧
  (∀ (path : Path) (v : Word) (s : State), s.admits path A.secLifecycle → s.regsWf → s.inMode .service = true →
    v.toNat / 2 ^ 16 = 0x4C4B →
    Completes (.lifecycleLock path v) s fun t =>
      t = { s with regs := t.regs, sec := { s.sec with lockAt := t.sec.lockAt } }
      ∧ (s.sec.lockAt = none → t.sec.lockAt = some s.fab.timecode)
      ∧ ∀ a, s.sec.lockAt = some a → s.fab.timecode ≤ a + 64000000 → t.getF F.secLifecycleState = 1 ∧ t.sec.lockAt = none)

/-! ## Memory (chapter 13) -/

/-- Device DRAM (R454–R456, R464): where no error stands and the write queues are in order, a write keeps them so, a
read gives back the bytes written, and every other byte reads as before. The model's own choices in it: log entry 156.
-/
def Obligations.DramReadsBackWhatWasWritten : Prop :=
  ∀ (a : Nat) (l : List Byte) (s : State), s.dramOk → (s.dramWrite a l).dramOk ∧
    ∀ b, ∃ v, (s.dramRead b 1).1 = some [v] ∧
      ((s.dramWrite a l).dramRead b 1).1 = some [if a ≤ b ∧ b < a + l.length then l.getD (b - a) 0 else v]

/-- The memory controller's own events and its registers (R449, R450, R453, R454, R457–R464, R470–R472): training
settles on the first rate that passes or fails the channel and orders Safe; calibration, tracking, polling and
reseeding keep their intervals; up to four refreshes are postponed while reads wait and made up once none does; an
idle row closes; an alert opens an episode, and its rise ends a replay; blocks fill from the lowest; the scrubbers go
round, the patrol in MEDIA cells; a heal reports what it found; flips are armed and channels retrained in Service mode
only. The model's own choices in it: log entries 1, 6, 14, 114, 156 and 161. -/
def Obligations.MemoryCommandsTakeEffect : Prop :=
  (∀ (ch fails : Nat) (s : State), ch < 2 → s.logicOn = true → s.regsWf → s.getF (State.chStateF ch) ≤ 1 →
    let top := s.getF F.memDdrCfgMaxRate
    (fails < top + 2 → Completes (.dramTraining ch fails true) s fun t =>
      t.getF (State.chStateF ch) = 2 ∧ t.getF (State.chRateF ch) = max 1 (top - fails) ∧ t = { s with regs := t.regs })
    ∧ (top + 2 ≤ fails → Completes (.dramTraining ch fails true) s fun t =>
      t.getF (State.chStateF ch) = 4 ∧ t.getF (State.chRateF ch) = 0 ∧ (∃ o ∈ t.pwr.window, o.op = .mode .safe false 7 false)
      ∧ t = { s with regs := t.regs, host := t.host, ftl := t.ftl, pwr := t.pwr })) ∧
  (∀ (ch : Nat) (s : State), s.getF (State.chStateF ch) = 2 → Sparse.wf (fun _ => (0 : Nat)) s.mem.zqAt = true →
    Sparse.wf (fun _ => (0 : Nat)) s.mem.dqsAt = true → Sparse.wf (fun _ => (0 : Nat)) s.mem.mr4At = true →
    Sparse.wf (fun _ => RankRefresh.reset) s.mem.ranks = true →
    (s.since (sparseGet (fun _ => 0) s.mem.zqAt ch) 128000000 = true → Completes (.zqCalibration ch) s fun t =>
      sparseGet (fun _ => 0) t.mem.zqAt ch = s.fab.timecode ∧ t = { s with mem := { s.mem with zqAt := t.mem.zqAt } })
    ∧ (s.since (sparseGet (fun _ => 0) s.mem.dqsAt ch) 1000000 = true → Completes (.dqsTracking ch) s fun t =>
      sparseGet (fun _ => 0) t.mem.dqsAt ch = s.fab.timecode ∧ t = { s with mem := { s.mem with dqsAt := t.mem.dqsAt } })
    ∧ (∀ rank hot, s.since (sparseGet (fun _ => 0) s.mem.mr4At (ch * 2 + rank)) 32000000 = true →
      Completes (.mr4Poll ch rank hot) s fun t => t.rankRefresh ch rank = { s.rankRefresh ch rank with hot := hot }
        ∧ sparseGet (fun _ => 0) t.mem.mr4At (ch * 2 + rank) = s.fab.timecode
        ∧ t = { s with mem := { s.mem with ranks := t.mem.ranks, mr4At := t.mem.mr4At } })
    ∧ (∀ rank, let r := s.rankRefresh ch rank
      r.selfRef = false → s.since r.lastAt (if r.hot then 1950 else 3900) = true →
      Completes (.refresh ch rank) s fun t => t.rankRefresh ch rank = { r with
          postponed := if s.readsWait ch = true then min 4 (r.postponed + 1) else 0, lastAt := s.fab.timecode }
        ∧ t = { s with mem := { s.mem with ranks := t.mem.ranks } })
    ∧ (∀ rank, let r := s.rankRefresh ch rank
      r.selfRef = false → s.since r.lastAt (if r.hot then 1950 else 3900) = false → s.readsWait ch = false →
      0 < r.postponed → Completes (.refresh ch rank) s fun t => t.rankRefresh ch rank = { r with postponed := 0 }
        ∧ t = { s with mem := { s.mem with ranks := t.mem.ranks } })) ∧
  (∀ (sub bank row : Nat) (b : BankRow) (s : State), sparseGet (fun _ => BankRow.reset) (s.subch sub).rows bank = b →
    b.row = some row → b.used + ckTime (s.getF (State.chRateF (sub / 2))) (s.getF F.memPageIdle) ≤ s.fab.timecode →
    Sparse.wf (fun _ => Subchannel.reset) s.mem.subs = true → Sparse.wf (fun _ => BankRow.reset) (s.subch sub).rows = true →
    Completes (.rowIdlePrecharge sub bank) s fun t =>
      (sparseGet (fun _ => BankRow.reset) (t.subch sub).rows bank).row = none ∧ t = { s with mem := { s.mem with subs := t.mem.subs } }) ∧
  (∀ (sub : Nat) (s : State), (s.subch sub).alertLow = false → (s.getF F.memStatusSubFailed).testBit sub = false →
    s.getF (State.chStateF (sub / 2)) = 2 → (s.subch sub).writes = [] → (s.subch sub).reads = [] →
    0 < s.getF F.memWqHigh → Sparse.wf (fun _ => Subchannel.reset) s.mem.subs = true →
    Completes (.dramCommandIssue sub) s fun t => t.subch sub = { s.subch sub with draining := false }
      ∧ t = { s with mem := { s.mem with subs := t.mem.subs } }) ∧
  (∀ (sub : Nat) (r : BurstReq) (s : State), (s.subch sub).alertLow = false →
    (s.getF F.memStatusSubFailed).testBit sub = false → s.getF (State.chStateF (sub / 2)) = 2 →
    (s.subch sub).writes = [] → (s.subch sub).reads = [r] → 0 < s.getF F.memWqHigh →
    Sparse.wf (fun _ => Subchannel.reset) s.mem.subs = true →
    Completes (.dramCommandIssue sub) s fun t => (t.subch sub).reads = [] ∧ (t.subch sub).writes = []
      ∧ (t.subch sub).retry = ((r.burst, false) :: (s.subch sub).retry).take 32
      ∧ t = { s with regs := t.regs, mem := { s.mem with subs := t.mem.subs }, freeCtr := t.freeCtr }) ∧
  (∀ (sub : Nat) (s : State), s.since (s.subch sub).seededAt 1000000 = true → s.onF F.secStatusEntropyFail = false →
    Sparse.wf (fun _ => Subchannel.reset) s.mem.subs = true →
    Completes (.rhReseed sub) s fun t => (t.subch sub).seededAt = s.fab.timecode ∧ t.sec.requests = s.sec.requests + 1
      ∧ t = { s with sec := { s.sec with requests := t.sec.requests }, mem := { s.mem with subs := t.mem.subs } }) ∧
  (∀ (sub : Nat) (ok : Bool) (s : State), sub < 4 → (s.subch sub).alertLow = false →
    Sparse.wf (fun _ => Subchannel.reset) s.mem.subs = true → s.regsWf →
    let same : Prop := ∃ t, (s.subch sub).replayEnd = some t ∧ s.fab.timecode ≤ t + 64000
    let failed : Prop := (s.getF F.memStatusSubFailed).testBit sub = true
    (¬ failed → ¬ same → Completes (.caParityAlert sub ok) s fun t => t.subch sub = { s.subch sub with alertLow := true, replays := 0 }
      ∧ t = { s with regs := t.regs, mem := { s.mem with subs := t.mem.subs } })
    ∧ (¬ failed → same → 3 ≤ (s.subch sub).replays → Completes (.caParityAlert sub ok) s fun t =>
      (t.getF F.memStatusSubFailed).testBit sub = true ∧ t.getF (State.chStateF (sub / 2)) = 4
      ∧ (∃ o ∈ t.pwr.window, o.op = .mode .safe false 3 false)
      ∧ t.mem.lostUnits = (if ok = true ∧ s.pwr.failing = false then s.mem.lostUnits else (s.loseHeld sub).mem.lostUnits)
      ∧ t = { s with regs := t.regs, host := t.host, ftl := t.ftl, pwr := t.pwr,
                     mem := { s.mem with subs := t.mem.subs, lostUnits := t.mem.lostUnits } })
    ∧ (failed → s.ftl.dump = none → Completes (.caParityAlert sub ok) s fun t =>
      (t.subch sub).alertLow = true ∧ (∀ u ∈ s.heldOn sub, u ∈ t.mem.lostUnits)
      ∧ t = { s with regs := t.regs, mem := { s.mem with subs := t.mem.subs, lostUnits := t.mem.lostUnits } })) ∧
  (∀ (sub : Nat) (s : State), (s.subch sub).alertLow = true → (s.getF F.memStatusSubFailed).testBit sub = false →
    Sparse.wf (fun _ => Subchannel.reset) s.mem.subs = true →
    Completes (.alertNRise sub) s fun t => t.subch sub = { s.subch sub with
        alertLow := false, replays := (s.subch sub).replays + 1, replayEnd := some s.fab.timecode }
      ∧ t = { s with ftl := t.ftl, mem := { s.mem with subs := t.mem.subs } }) ∧
  (∀ s : State, s.mem.rank1Training = true → Sparse.wf (fun _ => RankRefresh.reset) s.mem.ranks = true →
    Completes (.rank1Trained true) s fun t => t.mem.rank1Training = false ∧ (t.rankRefresh 0 1).selfRef = false
      ∧ (t.rankRefresh 1 1).selfRef = false
      ∧ t = { s with mem := { s.mem with rank1Training := t.mem.rank1Training, ranks := t.mem.ranks } }) ∧
  (∀ (ch : Nat) (s : State), ch < 2 → s.getF (State.chStateF ch) = 2 → 0 < s.blocksPerRank → 0 < s.rankCount →
    (∀ i, i = 2 * ch ∨ i = 2 * ch + 1 → (s.subch i).reads = [] ∧ (s.subch i).writes = []) → s.mem.filled = [] →
    Completes (.fillBlock ch) s fun t => t.mem.filled = [(ch * 2 ^ 19, true)]
      ∧ t = { s with mem := { s.mem with filled := t.mem.filled } }) ∧
  (∀ s : State, s.onF F.memCtrlScrubEn = true → s.logicOn = true → s.dramBytes ≠ 0 → s.mem.masks = [] →
    let cells := if s.isFilled (s.mem.scrubPos * 512) = true then s.dramNeeds ownMedia (s.mem.scrubPos * 512) 512 false else []
    (s.canDraw cells = true → Completes .patrolScrub s fun t =>
      t.mem.scrubPos = (s.mem.scrubPos + 1) % (s.dramBytes / 512)
      ∧ t = { s with regs := t.regs, slt := (s.spend cells).slt, mem := { s.mem with scrubPos := t.mem.scrubPos } })
    ∧ (s.canDraw cells = false → exec .patrolScrub s = .next { s with slt := (s.postCells cells).slt })) ∧
  (∀ s : State, s.logicOn = true → s.since s.mem.sramAt 1000000000 = true → s.mem.masks = [] → s.mem.ces = [] →
    exec .sramScrub s = .next { s with mem := { s.mem with sramAt := s.fab.timecode } }) ∧
  (∀ (path : Path) (v : Word) (s : State), s.admits path A.memHealCtrl → s.regsWf → F.memHealCtrlGo.get v = 1 →
    s.mem.masks = [] →
    Completes (.heal path v) s fun t => t = { s with regs := t.regs }
      ∧ (t.getF F.memHealCtrlResult = 0 ∨ t.getF F.memHealCtrlResult = 3 ∨ t.getF F.memHealCtrlResult = 4)) ∧
  (∀ (path : Path) (v : Word) (s : State), s.admits path A.memFlipCtrl → s.regsWf → F.memFlipCtrlArm.get v = 1 →
    Completes (.flipArm path v) s fun t => t = { s with regs := t.regs }
      ∧ t.onF F.memFlipCtrlArm = (s.inMode .service || s.onF F.memFlipCtrlArm)) ∧
  (∀ (path : Path) (v : Word) (s : State), s.admits path A.memCtrl → s.regsWf →
    (s.inMode .service = false → Completes (.memRetrain path v) s fun t =>
      t = { s with regs := t.regs } ∧ t.getF F.memStatusCh0State = s.getF F.memStatusCh0State)
    ∧ (s.inMode .service = true → Completes (.memRetrain path v) s fun t =>
      t = { s with regs := t.regs, ftl := t.ftl, mem := t.mem } ∧ ∀ c < 2, (F.memCtrlRetrain.get v).testBit c = true →
        t.getF (State.chStateF c) = 1 ∧ t.getF (State.chRateF c) = 0))

/-! ## Flash (chapter 05) -/

/-- Channels, their training and fences (R161, R162, R167–R170, R192–R196): a channel is brought up with the LUNs that
answered and agree with the geometry, at the rate its training reaches, or is fenced; it comes back from Standby at
the rate it kept; a retrain ends in a rate or a fence; CLEAR_FENCE has effect in Service mode and the channel is
trained again; a written or earned fence of a LUN or a channel empties it, shows in its register, shuts the
superblocks it leaves short, and starts its rebuild, whose end shows 10000. The model's own choices in it: log entries
13, 14, 108, 111 and 177. -/
def Obligations.FlashChannelsTrainAndFence : Prop :=
  (let tables := fun (s : State) (ch : Nat) => s.regsWf ∧ Sparse.wf (fun _ => Channel.reset) s.fch.chans = true
     ∧ Sparse.wf (fun _ => Lun.reset) (s.chan ch).luns = true
   let top := fun (s : State) (ch : Nat) => max 1 (min 6 (s.getF (F.fchCfgMaxRate ch)))
   let rate := fun (s : State) (ch fails : Nat) => if fails < top s ch then top s ch - fails else 1
   let online := fun (s : State) (ch : Nat) => if s.getF (F.fchLunFenceFenced ch) = 0 then 2 else 3
   (∀ (ch fails : Nat) (targets : List NandTarget) (g : NandGeom) (s : State), ch < 16 → tables s ch →
     (s.chan ch).fenced = false → s.logicOn = true → s.getF (F.fchStatusState ch) ≤ 1 →
     (s.chan ch).retraining = false → (s.chan ch).keptRate = none →
     ((ch ≠ 0 ∧ s.fch.geom = some g) ∨ (ch = 0 ∧ s.fch.nandRec = none
       ∧ ((targets.find? fun t => State.geomSupported t.geom).map (·.geom)) = some g)) →
     let luns := State.presentLuns g targets
     (fails < top s ch + 2 → Completes (.channelBringUp ch targets fails) s fun t =>
       t.getF (F.fchPresentPresent ch) = luns ∧ t.getF (F.fchStatusRate ch) = rate s ch fails
       ∧ t.getF (F.fchStatusState ch) = online s ch
       ∧ t.onF (F.fchStatusTargetMismatch ch) = (targets.any fun t => !State.sameGeom g t.geom)
       ∧ t.fch.geom = some g
       ∧ t = { s with regs := t.regs, fch := { s.fch with geom := t.fch.geom, chans := t.fch.chans } })
     ∧ (top s ch + 2 ≤ fails → ∃ u : State, exec (.channelBringUp ch targets fails) s
           = .next ((u.setF (F.fchStatusRate ch) 0).fenceChan ch)
         ∧ u.getF (F.fchPresentPresent ch) = luns
         ∧ u = { s with regs := u.regs, fch := { s.fch with geom := u.fch.geom, chans := u.fch.chans } })) ∧
   (∀ (ch r : Nat) (s : State), ch < 16 → tables s ch → (s.chan ch).fenced = false → s.logicOn = true →
     s.getF (F.fchStatusState ch) ≤ 1 → (s.chan ch).keptRate = some r → r < 8 → (s.chan ch).present < 2 ^ 32 →
     (Completes (.channelStandbyRestore ch true) s fun t =>
       t.getF (F.fchStatusRate ch) = r ∧ t.getF (F.fchPresentPresent ch) = (s.chan ch).present
       ∧ t.getF (F.fchStatusState ch) = online s ch ∧ (t.chan ch).keptRate = none
       ∧ t = { s with regs := t.regs, fch := { s.fch with chans := t.fch.chans } })
     ∧ (Completes (.channelStandbyRestore ch false) s fun t =>
       t.getF (F.fchStatusState ch) = 1 ∧ (t.chan ch).keptRate = none
       ∧ t = { s with regs := t.regs, fch := { s.fch with chans := t.fch.chans } })) ∧
   (∀ (ch fails : Nat) (s : State), ch < 16 → tables s ch → (s.chan ch).retraining = true →
     (fails < top s ch + 2 → Completes (.channelRetrain ch fails) s fun t =>
       t.getF (F.fchStatusRate ch) = rate s ch fails ∧ t.getF (F.fchStatusState ch) = online s ch
       ∧ (t.chan ch).retraining = false ∧ (t.chan ch).timeouts = []
       ∧ t = { s with regs := t.regs, fch := { s.fch with chans := t.fch.chans } })
     ∧ (top s ch + 2 ≤ fails → exec (.channelRetrain ch fails) s
         = .next ((s.modChan ch fun x => { x with timeouts := [] }).trainingFailed ch))) ∧
   (∀ (ch : Nat) (path : Path) (s : State), ch < 16 → tables s ch → s.admits path (A.fchCtrl ch) → s.inMode .service = true →
     Completes (.clearFence ch path) s fun t => (t.chan ch).fenced = false ∧ (t.chan ch).eraseFirst = true
       ∧ t.getF (F.fchLunFenceFenced ch) = 0 ∧ t.getF (F.fchStatusState ch) = 1
       ∧ t.onF (F.fchCtrlClearFence ch) = true ∧ t.getF (F.fchStatusRebuildPct ch) = 10000
       ∧ t = { s with regs := t.regs, host := t.host, fch := t.fch, ftl := t.ftl, mgt := t.mgt })) ∧
  (let tables := fun (s : State) (ch : Nat) => s.regsWf ∧ Sparse.wf (fun _ => Channel.reset) s.fch.chans = true
     ∧ Sparse.wf (fun _ => Lun.reset) (s.chan ch).luns = true
   (∀ (ch lun : Nat) (written idFails : Bool) (s : State), ch < 16 → lun < 32 → tables s ch →
     (s.getF (F.fchLunFenceFenced ch)).testBit lun = false →
     (written = true ∨ idFails = true
       ∨ (3 ≤ ((s.lun ch lun).timeouts.countP fun t => !s.since t 1000000000) ∧ (s.lun ch lun).resetBad = true)
       ∨ (∃ g, s.fch.geom = some g ∧ 0 < g.blocks ∧ g.blocks < (s.lun ch lun).retired * 50)) →
     exec (.lunFence ch lun written idFails) s = .next (s.fenceLun ch lun)
     ∧ ((s.lun ch lun).queue = [] → (s.lun ch lun).held = [] → s.ftl.sbs = [] → s.ftl.map = [] →
       Completes (.lunFence ch lun written idFails) s fun t =>
         (t.getF (F.fchLunFenceFenced ch)).testBit lun = true
         ∧ t.getF (F.fchStatusState ch) = (if s.getF (F.fchStatusState ch) = 2 then 3 else s.getF (F.fchStatusState ch))
         ∧ t = { s with regs := t.regs, host := t.host, fch := t.fch, ftl := t.ftl, mgt := t.mgt })) ∧
   (∀ (ch : Nat) (written : Bool) (s : State), ch < 16 → tables s ch → (s.chan ch).fenced = false →
     (written = true ∨ 8 ≤ ((List.range 32).countP fun l => (s.getF (F.fchLunFenceFenced ch)).testBit l)) →
     exec (.channelFence ch written) s = .next (s.fenceChan ch)
     ∧ ((s.chan ch).luns = [] → s.ftl.sbs = [] → s.ftl.map = [] → Completes (.channelFence ch written) s fun t =>
         (t.chan ch).fenced = true ∧ t.getF (F.fchStatusState ch) = 4
         ∧ t = { s with regs := t.regs, host := t.host, fch := t.fch, ftl := t.ftl, mgt := t.mgt })) ∧
   (∀ (ch : Nat) (s : State), ch < 16 → tables s ch → (s.chan ch).rebuilding = true → (s.chan ch).rebuildLeft = 0 →
     Completes (.rebuildComplete ch) s fun t => t.getF (F.fchStatusRebuildPct ch) = 10000
       ∧ t.chan ch = { s.chan ch with rebuilding := false }
       ∧ t = { s with regs := t.regs, fch := t.fch, ftl := t.ftl, mgt := t.mgt }))

/-- Array operations on a LUN (R46, R176, R177, R180, R183, R184, R186, R187, R191): a status read, a suspend, a
resume and a loop sample take one cell of the channel; a poll schedules the next one, finds a read's data, sends a
failed read up the ladder, or ends a program or erase with PASS or FAIL; a timeout resets the LUN and fails what it
holds back to its issuers; a codeword that decodes ends its read, one that does not climbs, and one that soft decoding
loses is reconstructed; a FAIL retires the block. The model's own choices in it: log entries 15, 161, 166 and 168. -/
def Obligations.FlashOperationsTakeEffect : Prop :=
  let cell := fun (ch owner : Nat) => [({ col := colFlash ch, owner := owner, count := 1 } : CellNeed)]
  (∀ (ch lun : Nat) (busy fail : Bool) (o : FlashOp) (s : State), s.runningOp ch lun = some o →
    o.pollAt ≤ s.fab.timecode → s.chanOnline ch = true →
    (s.canDraw (cell ch o.owner) = true →
      let u := s.spend (cell ch o.owner)
      exec (.flashStatusPoll ch lun true fail) s = .next (u.modOp ch lun o fun o =>
        { o with pollAt := s.fab.timecode + (if o.kind = .read then 2000 else 20000) * 64 })
      ∧ (o.kind = .read → exec (.flashStatusPoll ch lun false false) s =
          .next (u.modOp ch lun o fun o => { o with ready := true, moved := 0 }))
      ∧ (o.kind = .read → exec (.flashStatusPoll ch lun false true) s =
          .next (if o.step = 16 then u.startRecon ch lun o else u.climb ch lun o))
      ∧ (o.kind ≠ .read → exec (.flashStatusPoll ch lun false false) s = .next (u.opPassed ch lun o))
      ∧ (o.kind ≠ .read → exec (.flashStatusPoll ch lun false true) s =
          .next (((u.incF (if o.kind = .program then F.fchCntFailPgmFail ch else F.fchCntFailErsFail ch)).retireBlock
            ch lun o.block).opFailedBack ch lun o false)))
    ∧ (s.canDraw (cell ch o.owner) = false → exec (.flashStatusPoll ch lun busy fail) s =
        .next { s with slt := (s.postCells (cell ch o.owner)).slt })) ∧
  (∀ (ch lun : Nat) (resetOk : Bool) (o : FlashOp) (s : State), s.runningOp ch lun = some o →
    s.since (o.issued.getD s.tick) (s.opLimit o.kind * 2000) = true → (s.lun ch lun).queue = [o] →
    Sparse.wf (fun _ => Channel.reset) s.fch.chans = true → Sparse.wf (fun _ => Lun.reset) (s.chan ch).luns = true →
    let u := (((s.incF (F.fchCntFailTimeout ch)).incF (F.fchCntFailLunReset ch)).modChan ch fun x =>
      { x with timeouts := (lun, s.fab.timecode) :: x.timeouts }).modLun ch lun fun x =>
      { x with timeouts := s.fab.timecode :: x.timeouts, resetBad := !resetOk }
    let v := if o.kind = .read then u.startRecon ch lun o else u.opFailedBack ch lun o true
    exec (.flashOperationTimeout ch lun resetOk) s = .next
      (if 4 ≤ (((v.chan ch).timeouts.filter fun t => !v.since t.2 1000000000).map (·.1)).eraseDups.length
        then v.beginRetrain ch else v)) ∧
  (∀ (ch lun : Nat) (z c : Bool) (o : FlashOp) (s : State), s.readyOp ch lun = some o → o.step < 16 →
    let count := fun (u : State) => if o.step = 0 then u.incF (F.fchCntCwReadCount ch) else u
    let cells := s.dramNeeds o.owner (Config.bufferPlace 2) 4096 true
    (s.canDraw cells = true →
      let u := (count (s.spend cells)).incF (F.fchRetryHistCount ch o.step)
      exec (.hardDecodeDone ch lun true true) s
        = .next ((if o.step = 0 then u else u.setHint ch lun o.block o.step).readDone ch lun o))
    ∧ (s.canDraw cells = false → exec (.hardDecodeDone ch lun true true) s = .next { s with slt := (s.postCells cells).slt })
    ∧ ((z && c) = false → exec (.hardDecodeDone ch lun z c) s
        = .next ((if z = true then (count s).incF (F.fchCntCrcMissCount ch) else count s).climb ch lun o))) ∧
  (∀ (slot : Nat) (z c : Bool) (r : SoftReq) (o : FlashOp) (s : State), s.fch.softBusy[slot]? = some r →
    (s.nextSoft slot).readyOp r.ch r.lun = some o →
    exec (.softDecodeDone slot true true) s = .next ((s.nextSoft slot).readDone r.ch r.lun o)
    ∧ ((z && c) = false → exec (.softDecodeDone slot z c) s = .next ((if z = true
        then (s.nextSoft slot).incF (F.fchCntCrcMissCount r.ch) else s.nextSoft slot).startRecon r.ch r.lun o))) ∧
  (∀ (ch lun : Nat) (o : FlashOp) (s : State), s.runningOp ch lun = some o →
    (o.kind = .program → exec (.programFail ch lun) s =
        .next (((s.incF (F.fchCntFailPgmFail ch)).retireBlock ch lun o.block).opFailedBack ch lun o false))
    ∧ (o.kind = .erase → exec (.eraseFail ch lun) s =
        .next (((s.incF (F.fchCntFailErsFail ch)).retireBlock ch lun o.block).opFailedBack ch lun o false))) ∧
  (∀ (ch lun loops n : Nat) (r : NandRec) (s : State), s.fch.nandRec = some r → r.loopFeature ≠ 0 →
    (s.lun ch lun).programs = 64 * n → (s.lun ch lun).sampled < 64 * n → s.regsWf →
    Sparse.wf (fun _ => Channel.reset) s.fch.chans = true → s.canDraw (cell ch ownMedia) = true →
    let l := (loops :: (s.chan ch).loops).take 64
    Completes (.programLoopSample ch lun loops) s fun t => t.getF (F.fchPgmLoopsAvg ch) = min 255 (4 * l.sum / l.length)
      ∧ t.getF (F.fchPgmLoopsMax ch) = min 255 (max loops (s.getF (F.fchPgmLoopsMax ch)))
      ∧ t = { s with regs := t.regs, slt := (s.spend (cell ch ownMedia)).slt, fch := { s.fch with chans := t.fch.chans } }) ∧
  (∀ (ch lun : Nat) (o q : FlashOp) (r : NandRec) (s : State), s.runningOp ch lun = some o → o.kind ≠ .read →
    s.fch.nandRec = some r → r.suspOp ≠ 0 → s.fch.powerFail = false → s.chanOnline ch = true →
    ((s.lun ch lun).queue.find? fun x => x.kind = .read && x.began.isNone) = some q →
    let pgm := o.kind = .program
    s.since (o.began.getD s.tick) (if pgm then s.getF (F.fchSuspendPgmMinRun ch) * 1000
      else s.getF (F.fchSuspendErsMinRun ch) * 10000) = true →
    o.suspends < (if pgm then s.getF (F.fchSuspendPgmMax ch) else s.getF (F.fchSuspendErsMax ch)) →
    s.canDraw (cell ch q.owner) = true →
    exec (.flashSuspend ch lun) s = .next (((s.spend (cell ch q.owner)).modOp ch lun o fun x =>
      { x with suspendedAt := some s.fab.timecode, suspends := x.suspends + 1 }).incF
        (if pgm then F.fchCntSuspendPgm ch else F.fchCntSuspendErs ch))) ∧
  (∀ (ch lun : Nat) (o : FlashOp) (s : State), ((s.lun ch lun).queue.find? fun o => o.suspendedAt.isSome) = some o →
    ((∀ x ∈ (s.lun ch lun).queue, x.kind ≠ .read)
      ∨ s.since (o.suspendedAt.getD 0) (s.getF (F.fchSuspend2HoldMax ch) * 1000) = true) →
    (∀ x ∈ (s.lun ch lun).queue, x.ready = false) → s.runningOp ch lun = none →
    (s.fch.powerFail = false ∨ o.kind ≠ .erase) → s.canDraw (cell ch o.owner) = true →
    exec (.suspendHoldExpire ch lun) s = .next ((s.spend (cell ch o.owner)).modOp ch lun o fun x =>
      { x with suspendedAt := none, began := some s.fab.timecode, issued := some s.fab.timecode
               pollAt := s.fab.timecode + s.opLimit x.kind * 32000 }))

/-! ## Flash translation, heat, tiering and sensors (chapter 06) -/

/-- Buffer, journal, checkpoints and superblocks (R208, R211–R222, R229): each event takes its effect when it is due,
in the cells of MEDIA where it moves data; a journal codeword holds up to 126 records in order and the chain is
durable up to the first codeword that is not; a checkpoint keeps the map as it stood; a unit of a collected superblock
is read and its copy committed only where the map still holds its source; an erase begins, runs and ends in turn;
deallocated units are cleared; the dump is durable once its pages are programmed. The model's own choices in it: log
entries 73, 110, 161, 165, 169, 170, 171 and 172. -/
def Obligations.TranslationCommandsTakeEffect : Prop :=
  (∀ (nsid unit : Nat) (e : WbEntry) (n : Namespace) (s : State),
    (s.ftl.wb.find? fun e => e.nsid = nsid && e.unit = unit && e.complete && e.mapped.isNone) = some e →
    e.flushing = false → s.since e.age 100000000 = true → s.ns nsid = some n → n.type ≠ .zoned →
    (s.extent nsid (unit / 256)).st ≠ .disk → s.getF F.ftlStatusState = 3 → s.laneUrgent (unit % 4) = false →
    s.flushBarred nsid unit = false → (s.nsKey nsid).isSome = true → s.noErrors →
    let cells := s.dramNeeds ownMedia (Config.bufferPlace 0) 4096 false ++ State.need colSec (State.flushOwner e) 4096 512
    (s.canDraw cells = true → exec (.flushStart nsid unit) s = .next ((s.spend cells).flushEntry e))
    ∧ (s.canDraw cells = false → exec (.flushStart nsid unit) s = .next { s with slt := (s.postCells cells).slt })) ∧
  (∀ (stream lane seg : Nat) (x : Superblock) (s : State), lane < 4 → stream < 4 →
    ((s.listedSbs lane).filter fun e => e.2.st = .opened && e.2.stream = some (Stream.ofNum stream)
      && match sparseGet (fun _ => none) s.ftl.rows (sbKey lane e.1) with
        | some (r : RowFill) => s.since r.firstAt 100000000
        | none => false) = [(seg, x)] →
    let per := max 1 (s.rowSlots lane seg)
    let row := (x.next - 1) / per
    exec (.rowPadTimeout stream lane) s
      = .next ((s.modSb lane seg fun x => { x with next := (row + 1) * per }).programRow lane seg row)) ∧
  (∀ (lane a : Nat) (s : State), sparseGet (fun _ => none) s.ftl.openWait lane = some a → s.since a 1000000000 = true →
    let waitOver := fun (s : State) => ({ s with ftl := { s.ftl with
      openWait := sparsePut (fun _ => none) s.ftl.openWait lane none } } : State)
    (s.slotWaiters lane = [] → exec (.superblockOpenTimeout lane) s = .next (waitOver s))
    ∧ (∀ e, s.slotWaiters lane = [e] → exec (.superblockOpenTimeout lane) s = .next (waitOver (s.loseEntry e 0x01)))) ∧
  (∀ (r : JrnRec) (rest : List JrnRec) (s : State), s.ftl.tail = r :: rest →
    (126 ≤ s.ftl.tail.length ∨ s.since r.time 200000 = true) → s.pageLuns ≠ [] → s.ftl.dumping = false →
    let cells := s.dramNeeds ownMedia (Config.bufferPlace 5) 4096 false
    s.canDraw cells = true → Completes .journalCodewordWrite s fun t =>
      t.ftl.tail = s.ftl.tail.drop 126 ∧ t.ftl.pageSeq = s.ftl.pageSeq + 1
      ∧ (∃ c, t.ftl.cws = s.ftl.cws ++ [c] ∧ c.pageSeq = s.ftl.pageSeq + 1 ∧ c.recs = s.ftl.tail.take 126
          ∧ c.passed = 0 ∧ c.left ≠ [] ∧ ∀ ch ∈ c.left, ch ∈ s.pageLuns.map (·.1))
      ∧ t.ftl.durable = s.ftl.durable
      ∧ t = { s with slt := (s.spend cells).slt, fch := t.fch, ftl := t.ftl }) ∧
  (∀ (c : JrnCw) (rest : List JrnCw) (s : State), s.ftl.cws = c :: rest → (∀ d ∈ rest, d.pageSeq ≠ c.pageSeq) →
    c.left = [] → 0 < c.passed → s.ftl.moves = [] → s.ftl.dump = none → s.ftl.promos = [] → s.regsWf →
    Completes (.journalDurable c.pageSeq) s fun t =>
      t.ftl.cws = rest
      ∧ t.ftl.durable = (match (rest.map (·.recs)).flatten ++ s.ftl.tail with
          | r :: _ => r.seq
          | [] => s.ftl.nextSeq) - 1
      ∧ t.ftl.wb = s.ftl.wb.filter (fun e => match e.mapped with
          | some q => decide (t.ftl.durable < q)
          | none => true)
      ∧ t.getF F.ftlJrnDurableLoSeqLo = t.ftl.durable % 2 ^ 32
      ∧ t = { s with regs := t.regs, ftl := t.ftl }) ∧
  (∀ (path : Path) (s : State), s.logicOn = true → path ≠ .vf → Sparse.wf (fun _ => (0 : Nat)) s.ftl.durHi = true →
    Completes (.jrnDurableLoRead path) s fun t =>
      sparseGet (fun _ => 0) t.ftl.durHi (pathNum path) = s.ftl.durable / 2 ^ 32
      ∧ t = { s with host := t.host, ftl := { s.ftl with durHi := t.ftl.durHi } }) ∧
  (∀ s : State, s.ftl.ckptStart = none → s.regsWf → s.getF F.ftlStatusState = 3 → s.pageLuns ≠ [] →
    (8 * 2 ^ 30 < s.ftl.jrnBytes ∨ s.onF F.ftlCtrlCkptNow = true ∨ s.bestRoot = none
      ∨ s.since s.ftl.ckptAt 1800000000000 = true) →
    let cells := s.dramNeeds ownMedia (Config.bufferPlace 3) (4096 * s.ckptSize) false
    s.canDraw cells = true → Completes .checkpointStart s fun t => t.ftl.ckptStart = some s.ftl.nextSeq
      ∧ t.ftl.ckptNext = some { map := s.ftl.map, extents := s.ftl.extents } ∧ t.onF F.ftlStatusCkptActive = true
      ∧ t = { s with regs := t.regs, slt := (s.spend cells).slt, fch := t.fch, ftl := { s.ftl with
                ckptStart := t.ftl.ckptStart, ckptNext := t.ftl.ckptNext, ckptPages := t.ftl.ckptPages } }) ∧
  (∀ (path : Path) (v : Word) (s : State), s.regsWf → s.admits path A.ftlCtrl → F.ftlCtrlCkptNow.get v = 1 →
    Completes (.ckptNow path v) s fun t => t.onF F.ftlCtrlCkptNow = true ∧ t = { s with regs := t.regs }) ∧
  (∀ (q : Nat) (s : State), s.ftl.ckptStart = some q → s.ckptLeft = 0 → s.regsWf →
    Completes .checkpointComplete s fun t => t.ftl.ckpt = s.ftl.ckptNext ∧ t.ftl.ckptStart = none
      ∧ t.ftl.rootStart = q ∧ t.ftl.ckptPass = s.ftl.ckptPass + 1 ∧ t.ftl.jrnBytes = 0
      ∧ t.onF F.ftlStatusCkptActive = false ∧ t.onF F.ftlCtrlCkptNow = false
      ∧ t = { s with regs := t.regs, ftl := t.ftl, nvs := t.nvs }) ∧
  (∀ (lane seg k v : Nat) (x : Superblock) (s : State), lane < 4 → s.getF (F.ftlFreeSbCount lane) ≤ 8 →
    s.getF F.ftlStatusState = 3 → s.listedSbs lane = [(seg, x)] → x.st = .closed → 0 < x.valid → s.copySources = [] →
    s.ftl.map = [(k, v)] → k % 2 ^ 40 % 4 = lane → v < mapZero - 15 → s.sbOfSlot lane v = seg →
    exec (.gcCollect lane) s = .next (s.collectUnit (k / 2 ^ 40) (k % 2 ^ 40) v)
    ∧ ∀ c l b p w, s.slotPlace lane v = some (c, l, b, p, w) → s.chanServes c = true → s.lunUsable c l = true →
        exec (.gcCollect lane) s = .next (s.queueOp c l
          (s.newOp .read (.copy (k / 2 ^ 40) (k % 2 ^ 40) v) ownMedia true b p w 1))) ∧
  (∀ (c : UnitCopy) (src dst : Nat) (s : State), s.ftl.copies = [c] → c.src = some src → c.dst = some dst →
    c.ready = true →
    let u : State := { s with ftl := { s.ftl with copies := [] } }
    exec (.gcCopyCommit c.nsid c.unit src) s =
      .next (if s.mapOf c.nsid c.unit = src then u.mapSet c.nsid c.unit dst else u.incF F.ftlGcDroppedUnits)) ∧
  (∀ (lane seg g l b : Nat) (s : State), s.sbPlace lane seg = some (g, l, b) →
    (((s.sb lane seg).st = .closed ∨ (s.sb lane seg).st = .eraseIncomplete) → (s.sb lane seg).valid = 0 →
      (s.sb lane seg).lastSeq ≤ s.ftl.durable →
      let u := s.appendJrn .eraseBegin lane 0 seg 0 0
      exec (.superblockErase lane seg) s = .next (u.setSb lane seg { s.sb lane seg with st := .erasing, eraseSeq := u.lastSeq }))
    ∧ ((s.sb lane seg).st = .erasing → (s.sb lane seg).eraseSeq ≤ s.ftl.durable → s.ftl.progs = [] →
      let cs := (s.groupMembers g).filter fun c => s.blockUsable c l b
      cs ≠ [] → Completes (.superblockErase lane seg) s fun t =>
        t.ftl.progs = [{ lane := lane, seg := seg, row := none, left := cs }]
        ∧ t = { s with fch := t.fch, ftl := { s.ftl with progs := t.ftl.progs } })) ∧
  (∀ s : State, s.ftl.deallocs = [] → exec .deallocateApply s = .next s.syncWb) ∧
  (∀ (d : Dealloc) (s : State), s.ftl.deallocs = [d] → d.count = 1 → s.ftl.wb = [] → s.ftl.dumpWaits = [] →
    let u := ({ s with ftl := { s.ftl with deallocs := [] } } : State).mapRun .mapClear mapUnmapped d.nsid d.first 1
    (u.extent d.nsid (d.first / 256)).st = .flash →
    exec .deallocateApply s = .next (u.dropIfEmpty d.nsid (d.first / 256)).syncWb) ∧
  (∀ s : State, s.ftl.dumping = true →
    (0 < s.dumpLeft → exec .dumpDurable s = .next s)
    ∧ (s.dumpLeft = 0 → s.regsWf → s.noErrors → s.pwr.failing = true ∨ s.mem.lostUnits = [] →
      let gone := fun (e : WbEntry) => s.mem.lostUnits.contains (e.nsid, e.unit)
      Completes .dumpDurable s fun t =>
        (∃ d, t.ftl.dump = some d ∧ d.seq = s.ftl.nextSeq ∧ d.tail = s.jrnTail
          ∧ d.entries = s.ftl.dumpWaits ++ (s.ftl.wb.filter fun e => e.complete && !gone e).map s.sealed
          ∧ d.lost = s.ftl.wb.filter fun e => e.complete && gone e)
        ∧ t.ftl.dumping = false ∧ t.getF F.ftlStatusState = 5
        ∧ t = { s with regs := t.regs, fch := t.fch, ftl := t.ftl, mem := { s.mem with lostUnits := [] } }))

/-- Heat, tiering, spares and sensors (R223–R233, R237, R238, R552): an epoch takes an eighth of every extent's heat;
cold extents move to a band and their flash is freed once that is durable; hot or written ones come back; sparse bands
are compacted; a short pool starts evacuation and, with nothing left to free, orders Read-Only; a trip that lasts a
second orders Safe with cause OVER_TEMP; the histories are saved as they stand. The model's own choices in it: log
entries 16, 17, 19, 42, 82, 108, 130, 161 and 172. -/
def Obligations.TieringCommandsTakeEffect : Prop :=
  (∀ s : State, s.since s.ftl.epochAt (s.getF F.ftlHeatEpochSeconds * 1000000000) = true →
    Completes .heatEpoch s fun t => t.ftl.epochAt = s.fab.timecode
      ∧ (∀ nsid ext, Sparse.wf (fun _ => Extent.reset) s.ftl.extents = true → (s.extent nsid ext).st ≠ .unalloc →
          t.extent nsid ext = { s.extent nsid ext with
            heat := (s.extent nsid ext).heat - (s.extent nsid ext).heat / 8, classified := true })
      ∧ t = { s with ftl := { s.ftl with epochAt := t.ftl.epochAt, extents := t.ftl.extents } }) ∧
  (∀ (a b : Nat) (e : Nat × Nat) (s : State), s.onF F.ftlStatusEvacActive = true → a = 1 - s.ftl.lastAct % 2 →
    s.freeBand a = some b → s.coldExtents = [e] → 256 ≤ (s.band b).capacity →
    let u := { s with ftl := { s.ftl with demoting := s.demotionDue } }
    exec .demotionStart s = .next ((u.setExtent e.1 e.2 { u.extent e.1 e.2 with st := .moving }).openMove a b [e] none)) ∧
  (∀ (nsid ext q : Nat) (m : BandMove) (s : State), s.ftl.moves = [m] → m.old = none → m.extents = [(nsid, ext)] →
    m.lastSeq = some q → q ≤ s.ftl.durable → (s.extent nsid ext).st ≠ .disk → s.onF F.ftlStatusEvacActive = false →
    exec (.extentDemoted nsid ext) s = .next { s with ftl := { s.ftl with moves := [] } }) ∧
  (∀ (nsid ext c : Nat) (u s : State), (s.extent nsid ext).st = .disk → s.isTiered nsid = true →
    (s.extWritten nsid ext = true ∨ (s.getF F.ftlHeatCfgPromoteMin ≤ (s.extent nsid ext).heat
      ∧ s.tieredAbove (s.getF F.ftlMigrateCfgLow) = true ∧ s.writtenWaits = false)) →
    s.promoting nsid ext = false → s.extOnline (s.extent nsid ext) = true → s.chunkRoom nsid 1 = true →
    s.getF F.ftlStatusState = 3 → s.takeChunk = (some c, u) →
    (∀ i < 256, (s.wbFind nsid (ext * 256 + i)).isSome = true ∨ s.unitEmpty nsid (ext * 256 + i) = true) →
    let v := u.putExtent nsid ext { s.extent nsid ext with chunk := c }
    let w := v.appendJrn .extentSet nsid 1 ext { v.extent nsid ext with st := .flash }.encode 0
    exec (.promotion nsid ext) s
      = .next { w with ftl := { w.ftl with promos := w.ftl.promos ++ [(nsid, ext, w.ftl.nextSeq - 1)] } }) ∧
  (∀ (act band b : Nat) (s : State), (s.bandRec band).map (·.act) = some act → (s.band band).st = .full → s.bandZoned band = false → s.actOnline act = true →
    s.ftl.moves = [] → (s.band band).weak = true → s.freeBand act = some b →
    exec (.bandCompaction act band) s = .next (if (s.liveExtents band).isEmpty then s.resetBand band
      else s.openMove act b ((s.liveExtents band).take ((s.band b).capacity / 256)) (some band))) ∧
  (∀ s : State, s.onF F.ftlStatusEvacActive = false → s.sparePool * 50 < s.ftl.rawBlocks → s.regsWf →
    Completes .evacuationStart s fun t => t.onF F.ftlStatusEvacActive = true
      ∧ t.getF F.ftlTierCapChunks = min (s.getF F.ftlTierCapChunks) (Config.tierCap s.sparePool) ∧ t.ftl.evacDone = 0
      ∧ t = { s with regs := t.regs, host := t.host, ftl := t.ftl, mgt := t.mgt, pwr := t.pwr }) ∧
  (∀ s : State, s.sparePool < s.getF F.ftlSpareFloorBlocks → s.tieredChunks = 0 → s.inMode .readOnly = false → s.regsWf →
    Completes .readOnlyOrder s fun t => t.onF F.ftlStatusRoSpares = true
      ∧ (∃ o ∈ t.pwr.window, o.op = .mode .readOnly false 2 false)
      ∧ t = { s with regs := t.regs, host := t.host, ftl := t.ftl, mgt := t.mgt, pwr := t.pwr }) ∧
  (∀ (a b c : Int) (s : State), s.regsWf → 0 ≤ a → a < 400 → 0 ≤ b → b < 400 → 0 ≤ c → c < 400 →
    (∀ x, s.ftl.sensorAt = some x → s.since x 1000000000 = true) →
    Completes (.sensorSample a b c) s fun t => t.sensorNow 0 = a ∧ t.sensorNow 1 = b ∧ t.sensorNow 2 = c
      ∧ t.pwr.hotSince = none
      ∧ t = { s with regs := t.regs, host := t.host, ftl := t.ftl, mgt := t.mgt, pwr := t.pwr }) ∧
  (∀ s : State, s.since s.ftl.binAt 60000000000 = true → (∀ i < 3, s.onF (State.sensorValidF i) = false) →
    exec .tempHistoryBin s = .next { s with ftl := { s.ftl with binAt := s.fab.timecode } }) ∧
  (∀ s : State, s.since s.ftl.tempsSavedAt 3600000000000 = true → exec .tempHistorySave s = .next { s with ftl := { s.ftl with
    tempsSaved := s.ftl.temps, tempsSavedAt := s.fab.timecode } }) ∧
  (∀ s : State, s.ftl.dailiesAt = none → exec .dailiesCopy s = .next { s with ftl := { s.ftl with
    dailiesSaved := s.ftl.dailies, dailiesNew := 0, dailiesAt := some s.fab.timecode } })

/-! ## The disk channel (chapter 07) -/

/-- Reads, writes and verification of the disk (R241, R242, R252–R267, R271, R272): a sector is queued in its band's
order, captured at its slot while on track and locked, framed at its first start, and accepted or read again; a write
waits for its slot with the gate down, ends with its bits, and passes only a verification within its limits; faults
and lost clocks cut the gate; a verification runs over its bands and ends with 0x07 where it is aborted. The model's
own choices in it: log entries 17, 18, 108, 117 and 161. -/
def Obligations.DiskCommandsTakeEffect : Prop :=
  (∀ (act band unit inst gen : Nat) (for_ : ReadFor) (s : State),
    ((for_ = .device ∧ inst = noTenant ∧ gen = 0) ∨ (for_ ≠ .device ∧ ((s.ftl.reads.find? fun r => r.reader = for_
      && r.band = some (band, unit) && !r.lost && !s.isStale r.inst r.gen).map fun r => (r.inst, r.gen)) = some (inst, gen))) →
    s.bandAct band = some act → unit < 65536 → s.bandGone band = false → 2 ≤ s.getF (F.dchStatusState act) →
    s.ftl.dumping = false → (s.band band).st ≠ .clockBad → (∀ q ∈ (s.diskAct act).reads, q.user ≠ .reader for_) →
    (∀ q ∈ (s.diskAct act).holding, q.user ≠ .reader for_) →
    let r : SectorRead :=
      { user := .reader for_, inst := inst, gen := gen, band := band, unit := unit
        pos := s.readPos band (s.unitPos band unit), st := .position, step := 0
        dets := [], starts := [], start := 0, first := 0 }
    exec (.sectorReadQueue act band unit for_) s =
      .next (((s.modDiskAct act fun d => { d with reads := d.reads ++ [r] }).syncDisk act).nextPosition act)) ∧
  (∀ (act band nsid unit : Nat) (e : WbEntry) (s : State), s.zoneBand nsid (unit / 65536) = some band →
    s.wbFind nsid unit = some e → s.flushBarred nsid unit = false → s.bandAct band = some act →
    unit % 65536 < (s.band band).capacity → s.unitPos band (unit % 65536) = (s.band band).nextPos →
    (∀ v < unit % 65536, s.unitPos band v < (s.band band).nextPos) →
    ((s.band band).st = .empty ∨ (s.band band).st = .opened) → s.bandHead band = .good → s.actOnline act = true →
    s.ftl.dumping = false → (∀ w ∈ (s.diskAct act).writes, w.band = band) →
    let pos := (s.band band).nextPos
    let w : SectorWrite := { user := .buffer nsid unit, band := band, unit := unit % 65536, orig := pos, pos := pos, st := .position }
    let cells := State.need colSec (State.flushOwner e) 4096 512
    (s.canDraw cells = true → exec (.sectorWriteQueue act band nsid unit) s =
      .next (((((s.spend cells).modBand band fun x => { x with st := .opened, nextPos := pos + 1 }).modDiskAct act fun d =>
        { d with writes := d.writes ++ [w] }).syncDisk act).nextPosition act))
    ∧ (s.canDraw cells = false → exec (.sectorWriteQueue act band nsid unit) s =
      .next { s with slt := (s.postCells cells).slt })) ∧
  (∀ (act rdata : Nat) (path : Path) (s : State), act < 2 → s.admits path (A.dchCtrl act) → s.inMode .service = true →
    s.regsWf → bit (s.getF (F.dchPreampFrame act)) 15 = true → rdata < 2 ^ 8 →
    Completes (.preampFrame act path rdata) s fun t => t.getF (F.dchPreampRdata act) = rdata ∧ t = { s with regs := t.regs }) ∧
  (∀ (act : Nat) (s : State), act < 2 →
    exec (.preampFault act) s = .next ((s.setF (F.dchStatusPreampFault act) 1).cutWrite act)
    ∧ (2 ≤ s.getF (F.dchStatusState act) → s.getF (F.dchStatusState act) ≠ 5 →
        exec (.clockLock act) s = .next ((s.setF (F.dchStatusClkLock act) 1).diskReady act))
    ∧ (s.onF (F.dchStatusClkLock act) = true → (s.diskAct act).writes = [] → (s.diskAct act).reads = [] → s.regsWf →
        (s.diskAct act).gate = false → Sparse.wf (fun _ => DiskAct.reset) s.dch.acts = true →
        Completes (.clockLoss act) s fun t => t.onF (F.dchStatusClkLock act) = false
          ∧ t = { s with regs := t.regs, host := t.host, ftl := t.ftl, dch := t.dch, mgt := t.mgt })
    ∧ exec (.writeCut act) s = .next (s.cutWrite act)) ∧
  (∀ (act : Nat) (r : SectorRead) (s : State), ((s.diskAct act).reads.find? (·.st = .wait)) = some r →
    s.onPos act r.band r.pos = true → (∀ q ∈ (s.diskAct act).reads, q.st ≠ .capture) →
    exec (.captureWindowOpen act) s = .next ((s.modRead act r fun r => { r with st := .capture }).syncDisk act)) ∧
  (∀ (act window : Nat) (r : SectorRead) (s : State), ((s.diskAct act).reads.find? (·.st = .capture)) = some r →
    let ds := detections window
    let u := if r.step ≠ 0 ∨ ds.head? = some 0 then s
      else s.incF (if ds = [] then F.dchHSyncMissCount act (s.selHead act) else F.dchHSyncOffsetCount act (s.selHead act))
    exec (.sectorCaptureDone act window) s = .next ((u.requestStep act 0).modRead act r fun r =>
      { r with st := .decode, dets := ds, start := (framingOrder ds).headD 0
               first := (framingOrder ds).headD 0, starts := (framingOrder ds).drop 1 })) ∧
  (∀ (act : Nat) (recovery z c : Bool) (r : SectorRead) (s : State),
    ((s.diskAct act).reads.find? fun r => if recovery then r.st = .reframe || (r.st = .decode && 0 < r.step)
      else r.st = .decode && r.step = 0) = some r →
    let full : Prop := r.st = .decode ∧ r.step = 0 ∧ 4 ≤ (s.diskAct act).recovery
    exec (.sectorDecodeDone act recovery true true) s = .next (((s.acceptRead act r).syncRecovery act).nextPosition act)
    ∧ ((z && c) = false → full → exec (.sectorDecodeDone act recovery z c) s =
        .next ((s.incF (F.dchRcvQueueFull act)).nextStep act r))
    ∧ ((z && c) = false → ¬ full → ∀ n rest, r.starts = n :: rest → exec (.sectorDecodeDone act recovery z c) s =
        .next ((s.modRead act r fun r => { r with st := .reframe, start := n, starts := rest }).syncRecovery act))
    ∧ ((z && c) = false → ¬ full → r.starts = [] → exec (.sectorDecodeDone act recovery z c) s =
        .next (((s.nextStep act r).syncRecovery act).nextPosition act))) ∧
  (∀ (act : Nat) (w : SectorWrite) (s : State),
    ((s.diskAct act).writes.find? fun w => w.st = .waitSlot && s.onPos act w.band w.pos) = some w →
    (s.diskAct act).gate = false → s.onF (F.srvActStatusWriteSafe act) = true → s.onF (F.dchStatusClkLock act) = true →
    s.ftl.dumping = false →
    let cells := s.dramNeeds ownDisk (Config.bufferPlace 0) 4096 false
    (s.canDraw cells = true → Completes (.slotBit0 act) s fun t =>
      t = ((s.spend cells).modWrite act w fun w => { w with st := .writing }).modDiskAct act (fun d => { d with gate := true })
      ∧ t = { s with slt := (s.spend cells).slt, dch := { s.dch with acts := t.dch.acts } })
    ∧ (s.canDraw cells = false → exec (.slotBit0 act) s = .next { s with slt := (s.postCells cells).slt })) ∧
  (∀ (act : Nat) (w : SectorWrite) (s : State), ((s.diskAct act).writes.find? (·.st = .writing)) = some w →
    Completes (.slotWriteEnd act) s fun t =>
      t = (((s.modWrite act w fun w => { w with st := .verifyWait }).modDiskAct act fun d => { d with gate := false }).incF
        (F.dchHSectWriteCount act (s.selHead act))).modBand w.band fun b => { b with losses := 0 }) ∧
  (∀ (act pos window iters bits : Nat) (ok equal : Bool) (w : SectorWrite) (s : State),
    ((s.diskAct act).writes.find? fun w => w.st = .verifyWait && w.pos = pos) = some w →
    let pass : Prop := (∃ d ∈ detections window, -2 ≤ d ∧ d ≤ 2) ∧ ok = true ∧ equal = true
      ∧ iters ≤ s.getF (F.dchCfgVerifyIterMax act) ∧ bits ≤ s.getF (F.dchCfgVerifyBitsMax act)
    (pass → exec (.verifyResult act pos window ok iters bits equal) s = .next ((s.passedVerify act w).nextPosition act))
    ∧ (¬ pass → exec (.verifyResult act pos window ok iters bits equal) s = .next ((s.failedVerify act w).nextPosition act))) ∧
  (∀ (act : Nat) (path : Path) (v : Word) (s : State), act < 2 → s.admits path (A.dchVerifyCtrl act) →
    s.inMode .ready = true → (s.diskAct 0).verify = none → (s.diskAct 1).verify = none →
    (F.dchVerifyCtrlGo act).get v = 1 → (F.dchVerifyCtrlCount act).get v ≠ 0 →
    (F.dchVerifyCtrlAll act).get v = 0 → s.regsWf →
    Completes (.bandVerifyGo act path v) s fun t =>
      (∃ (u : State) (w : BandVerify), t = u.verifyAdvance act w ∧ w.first = s.getF (F.dchVerifyFirstFirstBand act)
        ∧ w.count = (F.dchVerifyCtrlCount act).get v ∧ w.done = 0 ∧ w.track = 0)
      ∧ t = { s with regs := t.regs, dch := t.dch, mgt := t.mgt, pwr := t.pwr }) ∧
  (∀ (act : Nat) (reads : List SlotRead) (v : BandVerify) (s : State), (s.diskAct act).verify = some v →
    let b := v.first + v.done
    (s.bandRec b = none → exec (.bandVerifyTrack act reads) s = .next (s.verifyAdvance act { v with done := v.done + 1 }))
    ∧ (∀ z, s.bandRec b = some z → s.actIdle act = false → exec (.bandVerifyTrack act reads) s = .next s)
    ∧ (∀ z, s.bandRec b = some z → s.actIdle act = true → ∃ u : State,
        exec (.bandVerifyTrack act reads) s = .next (u.verifyAdvance act
          (if z.tracks ≤ v.track + 1 ∨ ((s.band b).vwp ≤ (v.track + 1) * z.slots ∧ (s.band b).st ≠ .full)
            then { v with done := v.done + 1, track := 0 } else { v with track := v.track + 1 }))
        ∧ u = { s with regs := u.regs, host := u.host, ftl := u.ftl, dch := { s.dch with bands := u.dch.bands }, mgt := u.mgt })) ∧
  (∀ (act : Nat) (path : Path) (s : State), act < 2 → s.admits path (A.dchVerifyCtrl act) →
    (s.diskAct act).verify.isSome = true → Sparse.wf (fun _ => DiskAct.reset) s.dch.acts = true →
    Completes (.bandVerifyAbort act path) s fun t => (t.diskAct act).verify = none
      ∧ t = { s with regs := t.regs, dch := t.dch, mgt := t.mgt, pwr := t.pwr })

/-! ## Servo, actuators and spindle (chapter 08) -/

/-- Actuators (R243, R244, R276, R278, R296–R300, R306–R309): a command whose state accepts it starts the motion and
sets BUSY, any other sets CMD_DROPPED; loading, acquiring, seeking, settling, unloading and retracting lead from state
to state as their events occur; a failure goes OFFLINE once the heads are parked; an emergency retract retracts every
loaded actuator. The model's own choices in it: log entries 12, 20, 21, 23, 49, 120, 148, 161 and 175. -/
def Obligations.ActuatorsMoveThroughTheirStates : Prop :=
  let tables := fun (s : State) => s.regsWf ∧ Sparse.wf (fun _ => ActServo.reset) s.srv.acts = true
  let quiet := fun (s t : State) => t = { s with regs := t.regs, srv := { s.srv with acts := t.srv.acts } }
  let moving := fun (s t : State) => t = { s with regs := t.regs, host := t.host, ftl := t.ftl, dch := t.dch, srv := t.srv, mgt := t.mgt, pwr := t.pwr }
  (∀ (act : Nat) (path : Path) (s : State), act < 2 → s.admits path (A.srvActCmd act) → tables s →
    s.onF (F.srvActStatusBusy act) = false → s.onF F.srvStatusTableValid = true →
    let accepted := fun (i : Instr) (st : Nat) => Completes i s fun t =>
      t.actState act = st ∧ t.onF (F.srvActStatusBusy act) = true ∧ t.onF F.srvStatusCmdDropped = s.onF F.srvStatusCmdDropped
      ∧ moving s t
    (s.actState act = 0 → s.spinState = 5 → accepted (.load act path) 1)
    ∧ (s.actState act = 5 → accepted (.unload act path) 6)
    ∧ (s.actState act = 5 → ∀ head track, head < 10 → accepted (.seekRead act head track path) 3
        ∧ accepted (.seekWrite act head track path) 3)
    ∧ (s.actState act = 8 → s.inMode .service = true → Completes (.clearOffline act path) s fun t => t.actState act = 0
        ∧ (t.servoAct act).recorded = false ∧ (t.servoAct act).lostTimes = []
        ∧ t = { s with regs := t.regs, host := t.host, srv := t.srv })
    ∧ (s.actState act = 0 → Completes (.unload act path) s fun t => t.onF F.srvStatusCmdDropped = true
        ∧ t.actState act = 0 ∧ t = { s with regs := t.regs })) ∧
  (∀ (act : Nat) (s : State), act < 2 → tables s →
    (s.actState act = 1 → Completes (.servoFieldsSeen act) s fun t => t.actState act = 2
        ∧ (t.servoAct act).loadFails = 0 ∧ quiet s t)
    ∧ (s.actState act = 1 → s.since (s.servoAct act).enteredAt 500000000 = true →
        Completes (.loadTimeout act) s fun t => t.actState act = 6
        ∧ (t.servoAct act).loadFails = (s.servoAct act).loadFails + 1 ∧ moving s t)
    ∧ (s.actState act = 2 → 4 ≤ (s.servoAct act).validRun → Completes (.acquireDone act) s fun t => t.actState act = 4
        ∧ (t.servoAct act).target = s.getF (F.srvActStatusTrack act) ∧ quiet s t)
    ∧ (∀ k, s.actState act = 3 → (s.servoAct act).seek = some k → k.acquire = false → k.wedges ≤ k.n →
        Completes (.seekEnd act) s fun t => t.actState act = 4 ∧ (t.servoAct act).seek = none ∧ quiet s t)
    ∧ (s.actState act = 4 → (s.servoAct act).write = false → s.onF (F.srvActStatusOnTrack act) = true →
        (s.diskAct act).reads = [] → (s.diskAct act).writes = [] →
        Completes (.settleDone act) s fun t => t.actState act = 5 ∧ t.onF (F.srvActStatusBusy act) = false ∧ moving s t)
    ∧ (s.actState act = 4 → 64 ≤ (s.servoAct act).settleWedges → (s.servoAct act).settleFails < 2 →
        Completes (.settleTimeout act) s fun t => t.actState act = 2
        ∧ (t.servoAct act).settleFails = (s.servoAct act).settleFails + 1 ∧ moving s t)
    ∧ (s.actState act = 6 → (s.servoAct act).failing = false → Completes (.headsOnRamp act) s fun t => t.actState act = 0
        ∧ t.onF (F.srvActStatusBusy act) = false ∧ quiet s t)
    ∧ (s.actState act = 0 → (s.servoAct act).failing = true → (s.diskAct act).reads = [] → (s.diskAct act).writes = [] →
        s.ftl.moves = [] → (s.diskAct act).verify = none →
        Completes (.actuatorOffline act none) s fun t => t.actState act = 8 ∧ (t.servoAct act).recorded = true ∧ moving s t)
    ∧ (s.actState act = 5 → 32 ≤ (s.servoAct act).invalidRun → (s.servoAct act).lostTimes = [] →
        Completes (.servoLost act) s fun t => t.actState act = 2 ∧ (t.servoAct act).lostTimes = [s.fab.timecode]
        ∧ (t.servoAct act).invalidRun = 0 ∧ moving s t)
    ∧ (s.actState act = 7 → (s.servoAct act).holdAt = none → Completes (.headsOnRamp act) s fun t =>
        t.servoAct act = { s.servoAct act with
          holdAt := some s.fab.timecode, vcm := .hold ((s.srv.header.map (·.parkHold)).getD 0) }
        ∧ t = { s with srv := { s.srv with acts := t.srv.acts } })
    ∧ (s.actState act = 7 → s.onF F.drvStatusPwrFail = false → (s.servoAct act).failing = false →
        (∀ a < 2, a ≠ act → (s.servoAct a).retract = none) →
        ((∃ a, (s.servoAct act).holdAt = some a ∧ s.since a 50000000 = true)
          ∨ ∃ a, (s.servoAct act).retract = some a
              ∧ s.since a ((50 + (s.srv.header.map (·.retractMs)).getD 150) * 1000000) = true) →
        Completes (.retractParkHoldEnd act) s fun t => t.actState act = 0 ∧ (t.servoAct act).retract = none
        ∧ (t.servoAct act).holdAt = none ∧ (t.servoAct act).vcm = .off ∧ t.onF F.drvStatusRetract = false
        ∧ t = { s with regs := t.regs, srv := { s.srv with acts := t.srv.acts, spinDrive := t.srv.spinDrive } })) ∧
  (∀ (cause : Nat) (s : State), s.retractCause cause = true → s.onF F.drvStatusRetract = false → tables s →
    (∃ a < 2, 1 ≤ s.actState a ∧ s.actState a ≤ 6) →
    Completes (.emergencyRetract cause) s fun t => t.getF F.srvRetractCause = cause ∧ t.onF F.drvStatusRetract = true
      ∧ t.onF F.drvStatusHtrEn = false ∧ t.onF F.drvStatusSpinEn = false ∧ t.fab.held = []
      ∧ (∀ a < 2, t.actState a = if 1 ≤ s.actState a ∧ s.actState a ≤ 6 then 7 else s.actState a)
      ∧ t = { s with regs := t.regs, fab := { s.fab with held := [], outputs := t.fab.outputs }, host := t.host, ftl := t.ftl,
                     dch := t.dch, srv := t.srv, mgt := t.mgt }) ∧
  (∀ (act wedge id : Nat) (a1 b1 a2 b2 : Int) (s : State), act < 2 → tables s → s.actState act = 2 →
    (s.servoAct act).tAA = 0 → 0 < a2 - a1 → idParityOk id = true → grayDecode id < 2 ^ 24 →
    s.onF (F.srvActStatusWriteSafe act) = false →
    (s.servoAct act).seek = none → (s.diskAct act).reads = [] → (s.diskAct act).writes = [] →
    Completes (.servoWedge act wedge (some 0) id [a1, b1, a2, b2]) s fun t =>
      (t.servoAct act).wedge = wedge ∧ (t.servoAct act).valid = true ∧ (t.servoAct act).tAA = a2 - a1
      ∧ (t.servoAct act).validRun = (s.servoAct act).validRun + 1 ∧ (t.servoAct act).invalidRun = 0
      ∧ t.getF (F.srvActStatusTrack act) = grayDecode id ∧ t.actState act = 2 ∧ moving s t) ∧
  (∀ (act : Nat) (s : State), act < 2 → tables s → s.actState act = 0 → preampRecordOk (s.calibBytes 1 act 20) = false →
    s.ftl.moves = [] → (s.diskAct act).verify = none → (s.diskAct act).reads = [] → (s.diskAct act).writes = [] →
    Completes (.preampDiscovery act 0 []) s (fun t => t.actState act = 8 ∧ t.onF (F.dchStatusPreampRecBad act) = true ∧ moving s t)
    ∧ ∀ path, s.admits path (A.dchCtrl act) → s.inMode .service = true →
      Completes (.preampRescan act path 0 []) s fun t => t.actState act = 8 ∧ moving s t)

/-- Spindle, loops and tuning (R282, R285, R292–R294, R302–R305, R310–R312): the spindle aligns, ramps, hands over and
reaches its speed, brakes and stops; TARGET_RPM changes only while it is stopped; a table that passes its check is
valid, and a write of a record of an idle list takes that back; a tune of an allowed loop runs until it ends, and an
abort ends it with ABORTED. The model's own choices in it: log entries 20, 22, 118, 119 and 174. -/
def Obligations.SpindleLoopsAndTuning : Prop :=
  let spins := fun (s : State) (i : Instr) (n : Nat) => Completes i s fun t =>
    t.spinState = n ∧ t = { s with regs := t.regs, srv := { s.srv with spinAt := s.fab.timecode, spinDrive := State.spinDriveOf n } }
  (∀ s : State, s.regsWf →
    (s.spinState = 1 → s.since s.srv.spinAt 200000000 = true → spins s .alignDone 2)
    ∧ (∀ rpm, s.spinState = 2 → 120 ≤ rpm → rpm < 2 ^ 14 → spins s (.rampDone rpm) 3 ∧
        Completes (.rampDone rpm) s fun t => t.getF F.srvSpeedRpm = rpm)
    ∧ (∀ crossings, s.spinState = 3 → 12 ≤ crossings → spins s (.spindleHandoverDone crossings) 4)
    ∧ (s.spinState = 3 → s.since s.srv.spinAt 200000000 = true → s.srv.handoverFails < 2 →
        Completes .spindleHandoverTimeout s fun t => t.spinState = 1 ∧ t.srv.handoverFails = s.srv.handoverFails + 1)
    ∧ (∀ rpms : List Nat, s.spinState = 4 → 64 ≤ rpms.length →
        (∀ rpm ∈ rpms.take 64, 2000 * ((rpm : Int) - (s.getF F.srvSpinTargetRpm : Int)).natAbs ≤ s.getF F.srvSpinTargetRpm) →
        spins s (.atSpeed rpms) 5)
    ∧ (∀ rpm, s.spinState = 5 → 100 * rpm < 99 * s.getF F.srvSpinTargetRpm → spins s (.speedDrop rpm) 4)
    ∧ (∀ rpm, 10 * rpm < 9 * s.getF F.srvSpinTargetRpm → s.actState 0 = 0 → s.actState 1 = 0 →
        exec (.speedLowUnload rpm) s = .next (s.setF F.srvSpeedRpm rpm))
    ∧ (∀ rpm, s.spinState = 6 → rpm < 300 → spins s (.brakeEnter rpm) 7)
    ∧ (s.spinState = 7 → s.since s.srv.spinAt 1000000000 = true → spins s .spindleStopped 0)
    ∧ (s.spinState = 4 → s.actState 0 = 8 → s.actState 1 = 8 → Completes (.spindleFault false false) s fun t =>
        t.spinState = 9 ∧ t.onF F.drvStatusSpinEn = false)
    ∧ (∀ (path : Path) (v : Word), s.admits path A.srvSpin →
        let rpm := F.srvSpinTargetRpm.get v
        (s.spinState = 0 → 5400 ≤ rpm → rpm ≤ 10000 → Completes (.targetRpmWrite path v) s fun t =>
          t.getF F.srvSpinTargetRpm = rpm ∧ t = { s with regs := t.regs })
        ∧ (s.spinState ≠ 0 → rpm ≠ s.getF F.srvSpinTargetRpm → Completes (.targetRpmWrite path v) s fun t =>
          t.getF F.srvSpinTargetRpm = s.getF F.srvSpinTargetRpm ∧ t.onF F.srvStatusWriteRefused = true)
        ∧ (F.srvSpinStart.get v = 1 → s.spinState = 0 → s.onF F.srvStatusTableValid = true →
          s.onF F.devSpliceStatusUp = true →
          Completes (.spinStart path v) s fun t => t.spinState = 1 ∧ t.onF F.drvStatusSpinEn = true
            ∧ t = { s with regs := t.regs, srv := { s.srv with spinAt := s.fab.timecode, spinDrive := .demand, handoverFails := 0 } })
        ∧ (F.srvSpinStop.get v = 1 → s.spinState = 5 → s.actState 0 = 0 → s.actState 1 = 0 → spins s (.spinStop path v) 6))) ∧
  (∀ (act : Nat) (e : Nat × Nat) (s : State), act < 2 → (s.srv.waiting.find? fun e => e.1 = act) = some e →
    (40 ≤ (s.fab.cycleLogic + 2 ^ 32 - e.2) % 2 ^ 32 → exec (.wedgeListRun act) s = .next (s.runWaiting act)
      ∧ (s.srv.waiting = [e] → exec (.wedgeListRun act) s =
          .next (({ s with srv := { s.srv with waiting := [] } } : State).runList e.1 e.2)))) ∧
  (∀ s : State, s.onF F.devSpliceStatusUp = true → (s.fab.cycleLogic + 2 ^ 32 - s.srv.tickDue) % 2 ^ 32 < 2 ^ 31 →
    (s.srv.ticks + 1) % 10 ≠ 0 → s.srv.waiting = [] →
    exec .controlTick s = .next (({ s with srv := { s.srv with
      ticks := s.srv.ticks + 1, tickDue := (s.srv.tickDue + 40000) % 2 ^ 32 } } : State).runList 2 s.srv.tickDue)) ∧
  (∀ (path : Path) (v : Word) (s : State), s.admits path A.srvCtrl → s.regsWf →
    (F.srvCtrlCheck.get v = 1 → s.windowReject = none → Completes (.loopTableCheck path v) s fun t =>
      t.onF F.srvStatusTableValid = true ∧ t = { s with regs := t.regs })
    ∧ (F.srvCtrlClearFlags.get v = 1 → Completes (.clearFlags path v) s fun t =>
      (∀ i, Sparse.wf (fun _ => Loop.reset) s.srv.loops = true → (t.loop i) = { s.loop i with sticky := 0 })
      ∧ t = { s with regs := t.regs, srv := { s.srv with loops := t.srv.loops } })) ∧
  (∀ (path : Path) (i off : Nat) (v : Word) (s : State), i < 48 → off < 8 → s.admits path (0x8400 + i * 0x40 + off * 4) →
    s.regsWf → s.onF F.srvStatusTableValid = true →
    (s.recordIdle (s.loop i) = true → Completes (.loopRecordWrite path (0x8400 + i * 0x40 + off * 4) v) s fun t =>
      t.onF F.srvStatusTableValid = false
      ∧ t = { s with regs := t.regs, srv := { s.srv with loops := t.srv.loops } })
    ∧ (s.recordIdle (s.loop i) = false → Completes (.loopRecordWrite path (0x8400 + i * 0x40 + off * 4) v) s fun t =>
      t.onF F.srvStatusWriteRefused = true ∧ t = { s with regs := t.regs })) ∧
  (∀ (path : Path) (v : Word) (s : State), s.admits path A.srvTuneCtrl → s.regsWf →
    (F.srvTuneCtrlStart.get v = 1 → s.srv.tune = none → F.srvTuneCtrlRule.get v < 6 →
      s.tuneAllowed (F.srvTuneCtrlLoop.get v) = true → Completes (.tuneStart path v) s fun t =>
        (∃ x, t.srv.tune = some x ∧ x.loop = F.srvTuneCtrlLoop.get v ∧ x.rule = F.srvTuneCtrlRule.get v
          ∧ x.u0 = (s.loop (F.srvTuneCtrlLoop.get v)).outSel ∧ x.ended = none)
        ∧ t.getF F.srvTuneStatusState = 1 ∧ t = { s with regs := t.regs, srv := { s.srv with tune := t.srv.tune } })
    ∧ (F.srvTuneCtrlAbort.get v = 1 → s.srv.tune.isSome = true → Completes (.tuneAbort path v) s fun t =>
        t.srv.tune = none ∧ t.getF F.srvTuneStatusState = 4 ∧ t.getF F.srvTuneStatusResult = 6)
    ∧ (∀ x code, s.srv.tune = some x → x.ended = some (code + 1) → code + 1 < 8 → Completes .tuneEnd s fun t =>
        t.srv.tune = none ∧ t.getF F.srvTuneStatusResult = code + 1 ∧ t.getF F.srvTuneStatusState = 4))

/-! ## The NVS and firmware update (chapter 16) -/

/-- A gap move keeps every logical byte (R538, R540): where the ring slots name different sectors and the gap and
start lie in their ranges and no slot is a root, the gap moves to its next slot, the start by one when the gap was in
slot 0, every unit of the 1920 logical sectors reads as before through the new ring, and the ranges hold again. The
model's own choices in it: log entry 156. -/
def Obligations.GapMoveKeepsContents : Prop :=
  ∀ s : State, s.nvs.gapDue = true → s.nvs.op = none → s.nvs.stopped = false → s.regsWf →
    Sparse.wf (fun _ => State.erasedUnit) s.nvs.units = true →
    (∀ i ≤ 1920, ∀ j ≤ 1920, s.slotPhys i = s.slotPhys j → i = j) → (∀ i ≤ 1920, s.slotPhys i % 1024 ≠ 0) →
    s.nvs.remaps.length ≤ 508 → s.nvsGap ≤ 1920 → s.nvsStart < 1920 →
    Completes .gapMove s fun t =>
      t.nvsGap = (if s.nvsGap = 0 then 1920 else s.nvsGap - 1)
      ∧ t.nvsStart = (if s.nvsGap = 0 then (s.nvsStart + 1) % 1920 else s.nvsStart)
      ∧ (∀ u < 1920 * 512, t.rawUnit (t.unitKey u) = s.rawUnit (s.unitKey u))
      ∧ (∀ i, t.slotPhys i = s.slotPhys i) ∧ t.nvs.gapDue = false
      ∧ t = { s with regs := t.regs, nvs := t.nvs } ∧ RegsKept [A.nvsRing, F.nvsMovesMoves.addr] s t

/-- NVS commands (R544–R550): two key words within 160 cycles arm the next command, which disarms; a read answers at
once or waits for its bank; a program or erase that nothing refuses starts, and its end leaves the unit programmed or
the sector erased; suspending and resuming stop and go on. The model's own choices in it: log entries 109, 156 and
189. -/
def Obligations.NvsCommandsTakeEffect : Prop :=
  (∀ (path : Path) (v : Word) (s : State), s.admits path A.nvsUnlock → s.regsWf →
    (s.nvs.unlockAt = none → F.nvsUnlockKey.get v = 0xA5 → Completes (.nvsUnlock path v) s fun t =>
      t.nvs.unlockAt = some (s.fab.timecode, path) ∧ t.nvs.owner = some path ∧ t = { s with regs := t.regs, nvs := t.nvs })
    ∧ (∀ a p, s.nvs.unlockAt = some (a, p) → F.nvsUnlockKey.get v = 0x5A → s.fab.timecode ≤ a + 64 * 160 →
      Completes (.nvsUnlock path v) s fun t => t.onF F.nvsStatusArmed = true ∧ t.nvs.armedAt = some s.fab.timecode
        ∧ t.nvs.unlockAt = none ∧ t = { s with regs := t.regs, nvs := t.nvs })
    ∧ (∀ a p, s.nvs.unlockAt = some (a, p) → F.nvsUnlockKey.get v ≠ 0x5A → Completes (.nvsUnlock path v) s fun t =>
        t.onF F.nvsStatusUnlockErr = true ∧ t.onF F.nvsStatusArmed = s.onF F.nvsStatusArmed ∧ t.nvs.owner = none)) ∧
  (∀ (a : Nat) (s : State), s.nvs.armedAt = some a → s.since a 1000000 = true → s.regsWf →
    Completes .nvsArmedExpire s fun t => t.onF F.nvsStatusArmed = false ∧ t.nvs.armedAt = none
      ∧ t = { s with regs := t.regs, nvs := { s.nvs with armedAt := none } }) ∧
  (∀ (path : Path) (s : State), s.admits path A.nvsCmd → s.regsWf →
    let u := s.getF F.nvsAddrUnit
    let disarmed := fun (t : State) => t.onF F.nvsStatusArmed = false ∧ t.nvs.armedAt = none
      ∧ t = { s with regs := t.regs, nvs := t.nvs }
    (u * 8 ≤ 0x77FFF8 → s.nvs.op = none → s.nvs.errs = [] → Completes (.nvsRead path) s fun t =>
      t.getF F.nvsDataLoData + 2 ^ 32 * t.getF F.nvsDataHiData = (s.rawUnit (s.unitKey u)).toNat
      ∧ t.getF F.nvsStatusResult = 0 ∧ disarmed t)
    ∧ (0x77FFF8 < u * 8 → Completes (.nvsRead path) s fun t => t.getF F.nvsStatusResult = nvsBadAddress ∧ disarmed t)
    ∧ (path = .core → s.onF F.nvsStatusArmed = true → u * 8 ≤ 0x77FFF8 → s.rawUnit (s.unitKey u) = State.erasedUnit →
        s.nvs.op = none → s.nvs.gapDue = false → s.nvs.stopped = false → Completes (.nvsProgram path) s fun t =>
        (∃ o, t.nvs.op = some o ∧ o.erase = false ∧ o.unit = u ∧ o.slot = s.sectorSlot (u / 512)
          ∧ o.data = BitVec.ofNat 64 (s.getF F.nvsDataLoData + 2 ^ 32 * s.getF F.nvsDataHiData))
        ∧ t.onF F.nvsStatusBusy = true ∧ disarmed t)
    ∧ (path = .core → s.onF F.nvsStatusArmed = true → u * 8 ≤ 0x77FFF8 → s.slotProtected (u / 512) = false →
        s.nvs.op = none → s.nvs.gapDue = false → s.nvs.stopped = false → s.nvs.counted < 64 →
        Completes (.nvsErase path) s fun t =>
        (∃ o, t.nvs.op = some o ∧ o.erase = true ∧ o.slot = s.sectorSlot (u / 512))
        ∧ t.nvs.gapDue = decide (s.nvs.counted = 63) ∧ t.nvs.counted = (s.nvs.counted + 1) % 64
        ∧ t.onF F.nvsStatusBusy = true ∧ disarmed t)
    ∧ (path = .core → s.onF F.nvsStatusArmed = false → Completes (.nvsProgram path) s fun t =>
        t.getF F.nvsStatusResult = nvsLocked ∧ t.nvs.op = s.nvs.op ∧ t.nvs.units = s.nvs.units)
    ∧ (∀ o, s.nvs.op = some o → o.suspendedAt = none → s.since o.ranFrom 200000 = true → s.nvs.readWaits = none →
        Completes (.nvsSuspend path) s fun t => t.nvs.op = some { o with suspendedAt := some s.fab.timecode, suspendHeld := false }
        ∧ t.onF F.nvsStatusSuspended = true ∧ t.onF F.nvsStatusBusy = false ∧ disarmed t)
    ∧ (∀ o, s.nvs.op = some o → o.suspendedAt.isSome = true → s.nvs.stopped = false →
        Completes (.nvsResume path) s fun t => t.nvs.op = some { o with suspendedAt := none, ranFrom := s.fab.timecode }
        ∧ t.onF F.nvsStatusSuspended = false ∧ t.onF F.nvsStatusBusy = true ∧ disarmed t)
    ∧ (u / 512 < 1920 → s.nvs.units = [] → s.nvs.flags = [] → Completes (.nvsBlankCheck path) s fun t =>
        t.getF F.nvsStatusResult = 0 ∧ disarmed t)) ∧
  (∀ (o : NvsOp) (pulses : Nat) (s : State), s.nvs.op = some o → 0 < pulses →
    pulses ≤ (if o.erase = true then 64 else 16) → o.suspendedAt = none → s.nvs.readWaits = none →
    s.regsWf → Sparse.wf (fun _ => State.erasedUnit) s.nvs.units = true →
    Completes (.nvsOperationDone true pulses) s fun t => t.nvs.op = none ∧ t.onF F.nvsStatusBusy = false
      ∧ t.getF F.nvsStatusResult = 0 ∧ t.getF F.nvsPulsesPulses = pulses
      ∧ (∀ k, t.rawUnit k = if o.erase = true then (if k / 512 = s.slotPhys o.slot then State.erasedUnit else s.rawUnit k)
          else if k = s.slotPhys o.slot * 512 + o.unit % 512 then o.data else s.rawUnit k)
      ∧ t = { s with regs := t.regs, nvs := t.nvs }) ∧
  (∀ (o : NvsOp) (a : Nat) (s : State), s.nvs.op = some o → o.suspendedAt = some a → s.since a 10000000 = true →
    s.nvs.readWaits = none → exec .nvsAutoResume s = .next s.resumeNow)

/-- Firmware update and settings (R558–R564): staged bytes fill a chunk whose last word stores it in the slot that is
not running; a commit is an order; discarding gives up the staging; settings are saved in Service only where every
check passes; an activation runs the new image; a trial whose path stayed open for 60 s is confirmed. The model's own
choices in it: log entries 11, 46, 52, 62 and 77. -/
def Obligations.UpdateCommandsTakeEffect : Prop :=
  (∀ (path : Path) (v : Word) (slot : Nat) (s : State), s.admits path A.updData → s.regsWf →
    s.getF F.updStatusOwner ≠ 1 → s.onF F.updStatusBusy = false → s.upd.commit = none → s.stagingSlot = some slot →
    Sparse.wf (fun _ => false) s.upd.valid = true →
    (s.upd.chunk.length < 4092 → Completes (.updData path v) s fun t =>
      t.upd.chunk = s.upd.chunk ++ leBytes 4 v.toNat ∧ t.getF F.updStatusOwner = 2 ∧ t.upd.lastStage = s.fab.timecode
      ∧ t = { s with regs := t.regs, upd := t.upd })
    ∧ (s.upd.chunk.length = 4092 → Completes (.updData path v) s fun t =>
      t.upd.chunk = [] ∧ t.getF F.updOffsetChunk = (s.getF F.updOffsetChunk + 1) % 512
      ∧ sparseGet (fun _ => false) t.upd.valid slot = false ∧ t = { s with regs := t.regs, nvs := t.nvs, upd := t.upd })) ∧
  (∀ (path : Path) (v : Word) (s : State), s.admits path A.updCtrl → s.regsWf → s.onF F.updStatusBusy = false →
    (F.updCtrlAction.get v = 2 → s.orderBarred (fun _ => true) = false → Completes (.updCommit path v) s fun t =>
      t.onF F.updStatusBusy = true
      ∧ (∃ o ∈ t.pwr.window, o.op = .firmware 2 (F.updCtrlSlot.get v) ∧ o.targets = [.firmware])
      ∧ t = { s with regs := t.regs, host := t.host, pwr := t.pwr })
    ∧ (Completes (.updDiscard path v) s fun t => t.getF F.updStatusOwner = 0 ∧ t.upd.chunk = []
      ∧ t.getF F.updStatusResult = 0
      ∧ (∀ slot, s.stagingSlot = some slot → Sparse.wf (fun _ => false) s.upd.valid = true →
          sparseGet (fun _ => false) t.upd.valid slot = false)
      ∧ t = { s with regs := t.regs, upd := t.upd })
    ∧ (s.inMode .service = false → Completes (.settingsSave path v) s fun t =>
      t.getF F.updStatusResult = updNotAllowed ∧ t = { s with regs := t.regs })
    ∧ (∀ items, s.inMode .service = true → settingsItems (field s.stagedSettings 0x0C 2) (s.stagedSettings.drop 32) = some items →
        settingsValid s.stagedSettings = true → settingsItemsOk s.stagedSettings = true →
        Completes (.settingsSave path v) s fun t => t.getF F.updStatusResult = 0
        ∧ t = { s with regs := t.regs, nvs := t.nvs, upd := t.upd })) ∧
  (∀ (path : Path) (v : Word) (s : State), s.admits path A.updSetData → s.regsWf →
    Sparse.wf (fun _ => (0 : Byte)) s.upd.stage = true →
    Completes (.setDataAccess path (some v)) s fun t =>
      let w := s.getF F.updSetOffsetWord
      (List.range 4).map (fun i => sparseGet (fun _ => 0) t.upd.stage (4 * w + i)) = leBytes 4 v.toNat
      ∧ t.getF F.updSetOffsetWord = (w + 1) % 0x4000
      ∧ t = { s with regs := t.regs, upd := { s.upd with stage := t.upd.stage } }) ∧
  (∀ s : State, s.getF F.updStatusOwner ≠ 0 → s.since s.upd.lastStage 600000000000 = true → s.regsWf →
    Completes .stagingOwnerTimeout s fun t => t.getF F.updStatusOwner = 0
      ∧ t = { s with regs := t.regs, upd := { s.upd with chunk := [] } }) ∧
  (∀ (c : Commit) (s : State), s.upd.commit = some c → c.key = none → s.regsWf → c.slot < 2 →
    Completes .firmwareActivation s fun t => t.getF F.updSlotsActive = c.slot ∧ t.upd.runningImage = s.slotImage c.slot
      ∧ t.upd.commit = none ∧ t.host.fwHold = false ∧ t.onF F.updStatusBusy = false ∧ t.getF F.updStatusResult = 0
      ∧ t = { s with regs := t.regs, host := t.host, ftl := t.ftl, eng := t.eng, nvs := t.nvs, upd := t.upd }) ∧
  (∀ (a : Nat) (s : State), s.pwr.openedAt = some a → s.nvs.trial = true → s.pwr.pathOpen = true →
    s.since a 60000000000 = true → s.getF F.updSlotsActive = s.nvs.bootNext → s.regsWf →
    Completes .trialConfirm s fun t => t.nvs.trial = false ∧ t.nvs.bootNext = s.nvs.bootNext ∧ t.onF F.updSlotsTrial = false
      ∧ t = { s with regs := t.regs, nvs := t.nvs })

/-! ## The continuity pair (chapter 14) -/

/-- Messages of the partner (R480, R481, R485–R489, R491, R498, R500–R502): received bytes are opened in SEC and D
cells under the session key, and wait until they have them; a message counts once, in order and under its tag, and
anything else takes the link down; a mirrored change is applied on a double that does not hold, or waits as an order;
an ACK frees what it acknowledges; a REFUSE makes the extents dirty; a higher epoch is adopted; a read for the partner
is answered with its data. The model's own choices in it: log entries 1, 9, 10, 32, 35, 89, 92, 93, 161, 173 and 184.
-/
def Obligations.PairMessagesTakeEffect : Prop :=
  let got := fun (s : State) (w : List Byte) (m : LinkMsg) => ((s.opened w).setF F.cntPeerEpochEpoch m.epoch).modCnt fun c =>
    { c with msgRx := c.msgRx + 1, ackNow := c.ackNow || m.ackNow }
  let valid := fun (s : State) (w : List Byte) (m : LinkMsg) (type : Nat) => s.Opens w m ∧ m.magic = 0x434D
    ∧ m.type = type ∧ m.version = s.getF F.cntNegotiatedVersion ∧ m.seq = s.cnt.msgRx ∧ m.epoch = s.cnt.epoch
  let fresh := fun (s : State) (w : List Byte) (m : LinkMsg) (type : Nat) =>
    valid s w m type ∧ s.role = roleDouble ∧ s.cnt.hold = false
  (∀ (w : List Byte) (s : State), s.cnt.proven = true → s.canDraw (s.recvNeeds w) = false →
    exec (.ack w) s = .next (s.postCells (s.recvNeeds w))
    ∧ exec (.mirrorWrite w false) s = .next (s.postCells (s.recvNeeds w))) ∧
  (∀ (w : List Byte) (s : State), s.cnt.proven = true → s.canDraw (s.recvNeeds w) = true → s.openMsg w = none →
    exec (.ack w) s = .next ((s.opened w).setF F.cntStatusAuthFail 1).linkDown
    ∧ exec (.mirrorWrite w false) s = .next ((s.opened w).setF F.cntStatusAuthFail 1).linkDown) ∧
  (∀ (w : List Byte) (m : LinkMsg) (s : State), s.Opens w m → m.seq ≠ s.cnt.msgRx →
    exec (.ack w) s = .next (s.opened w).linkDown ∧ exec (.mirrorWrite w false) s = .next (s.opened w).linkDown) ∧
  (∀ (w : List Byte) (m : LinkMsg) (s : State), s.cnt.waiting = [] →
    let applied := fun (i : Instr) (type : Nat) => fresh s w m type → exec i s = .next ((got s w m).applyMsg m false)
    applied (.mirrorWrite w false) msgWrite ∧ applied (.takeCommit w) msgTakeCommit
    ∧ applied (.slateMessage w) msgSlate ∧ applied (.resyncData w) msgResyncData ∧ applied (.resyncDone w) msgResyncDone
    ∧ (field m.body 0 4 < 4 → applied (.mapDelta w) msgMapDelta)
    ∧ (field m.body 0 1 = 5 → applied (.config w) msgConfig)
    ∧ (fresh s w m msgWrite → Completes (.mirrorWrite w true) s fun t => t.cnt.heldWrites = s.cnt.heldWrites ++ [m]
        ∧ t.ftl = s.ftl ∧ t.ns m.nsid = s.ns m.nsid)) ∧
  (∀ (w : List Byte) (m : LinkMsg) (s : State),
    let ordered := fun (i : Instr) (type : Nat) (mgmt : Bool) (targets : List Target) =>
      fresh s w m type → exec i s = .next ((got s w m).waitOrder m mgmt targets)
    (4 ≤ field m.body 0 4 → ordered (.mapDelta w) msgMapDelta false [.ns m.nsid])
    ∧ (field m.body 0 1 = 1 → ordered (.config w) msgConfig false [.inst m.tenant])
    ∧ (field m.body 0 1 = 2 → ordered (.config w) msgConfig false [.ns (field (m.body.drop 8) 0 4)])
    ∧ ordered (.keyMessage w) msgKey true (.slot (field m.body 0 4) :: (s.boundNs (field m.body 0 4)).map .ns)) ∧
  (∀ (w : List Byte) (m : LinkMsg) (s : State), valid s w m msgAck → s.cnt.resync = none → s.cnt.order = none →
    Completes (.ack w) s fun t => t.cnt.out = s.cnt.out.filter (fun o => decide (field m.body 0 8 < o.seq))
      ∧ t.cnt.ackAt = s.fab.timecode ∧ t.cnt.msgRx = s.cnt.msgRx + 1
      ∧ t = { s with regs := t.regs, host := t.host, cnt := t.cnt, slt := t.slt, sec := t.sec, freeCtr := t.freeCtr }) ∧
  (∀ (w : List Byte) (m : LinkMsg) (o : OutMsg) (s : State), valid s w m msgRefuse → s.cnt.out = [o] →
    o.seq = field m.body 0 8 → o.type = msgSlate → s.regsWf →
    Completes (.refuse w) s fun t => t.cnt.out = [] ∧ t.onF F.cntStatusPeerReject = true
      ∧ t = { s with regs := t.regs, ftl := t.ftl, cnt := t.cnt, mgt := t.mgt, slt := t.slt, sec := t.sec,
                     freeCtr := t.freeCtr }) ∧
  (∀ (w : List Byte) (m : LinkMsg) (s : State), s.Opens w m → m.magic = 0x434D → m.type = msgEpoch →
    m.version = s.getF F.cntNegotiatedVersion → m.seq = s.cnt.msgRx →
    (field m.body 0 4 ≤ s.cnt.epoch → m.epoch = s.cnt.epoch → exec (.epochMessage w) s = .next (got s w m))
    ∧ (s.cnt.epoch < field m.body 0 4 → s.cnt.epoch ≤ m.epoch → bit (field m.body 4 4) 0 = false →
      exec (.epochMessage w) s = .next (((got s w m).adoptEpoch (field m.body 0 4)).settlePair rolePrincipal))
    ∧ (s.cnt.epoch < field m.body 0 4 → s.cnt.epoch ≤ m.epoch → bit (field m.body 4 4) 0 = true → s.anyDirty = false →
      exec (.epochMessage w) s = .next ((got s w m).setEpoch (field m.body 0 4)).becomePrincipal)) ∧
  (∀ (w : List Byte) (m : LinkMsg) (s : State), valid s w m msgDirty → m.body.length = 8 → s.role = rolePrincipal →
    s.mirrorUp = true →
    exec (.dirty w) s = .next ((got s w m).modCnt fun c =>
      { c with peerDirty := c.peerDirty ++ [(field m.body 0 4, field m.body 4 4)] }).startResync) ∧
  (∀ (w : List Byte) (m : LinkMsg) (s : State), fresh s w m msgReadReq →
    let lba := field m.body 0 8
    let count := field m.body 8 4
    let tag := field m.body 12 4
    let units := (List.range (s.unitRun m.nsid lba count).2).map ((s.unitRun m.nsid lba count).1 + ·)
    let answer := fun (data : List Byte) (status : Nat) => Completes (.readReq w) s fun t =>
      t = (got s w m).sendMsg msgReadData m.nsid m.tenant m.gen (leBytes 4 tag ++ leBytes 4 status ++ data) none 0
    (s.ns m.nsid = none → answer [] (State.statusWord 0 0x0B))
    ∧ (∀ n, s.ns m.nsid = some n → n.size < lba + count → answer [] (State.statusWord 0 0x80))
    ∧ (∀ n, s.ns m.nsid = some n → lba + count ≤ n.size → s.keyDenied m.nsid = none → s.noErrors →
        (∀ u ∈ units, (s.wbFind m.nsid u).isSome = true ∨ s.unitEmpty m.nsid u = true) → s.cnt.serving = [] →
        s.ftl.reads = [] → answer (s.readBlocks m.nsid lba count) 0)
    ∧ (∀ n u b v, s.ns m.nsid = some n → lba + count ≤ n.size → s.keyDenied m.nsid = none → s.noErrors → units = [u] →
        s.wbFind m.nsid u = none → s.unitEmpty m.nsid u = false → s.unitBand m.nsid u = some (b, v) →
        s.bandGone b = false → s.ftl.reads = [] → (∀ x ∈ s.cnt.serving, x.tag ≠ tag) →
        Completes (.readReq w) s fun t => (∃ x, t.cnt.serving = s.cnt.serving ++ [x] ∧ x.tag = tag ∧ x.nsid = m.nsid
            ∧ x.lba = lba ∧ x.count = count) ∧ t.cnt.unsent = s.cnt.unsent
          ∧ (∃ y, t.ftl.reads = [y] ∧ y.reader = .pair tag ∧ y.unit = u ∧ y.band = some (b, v) ∧ y.lost = false))) ∧
  (∀ (w : List Byte) (m : LinkMsg) (r : PairRead) (s : State), valid s w m msgReadData → s.cnt.reads = [r] →
    r.tag = field m.body 0 4 → field m.body 4 4 = 0 → s.isStale (State.fnInst r.key.fn) r.gen = false →
    s.ctxsOf r.key = [] →
    exec (.readData w) s = .next (((got s w m).modCnt fun c => { c with reads := [] }).endCmd r.key 0 0 0 0 (m.body.drop 8)))

/-- Link, roles, resync and heartbeat (R476–R478, R482–R486, R489, R493, R495, R501, R502, Table 14.10): enabling the
link makes a device that is not principal a double that trains; a trained link says HELLO, and a CONFIRM under the
LINK key proves the session; a frame is used only under its CRC and in sequence, and a NAK sends again from the frame
it names; a silent link or a late ACK take it down; extents are locked, read and copied lowest first; a pair order
becomes an order of the sequencer. The model's own choices in it: log entries 1, 7, 62, 85, 86, 128, 147, 155, 161,
173, 181 and 182. -/
def Obligations.PairLinkTakesEffect : Prop :=
  (∀ (path : Path) (v : Word) (s : State), s.admits path A.cntCtrl → s.lockedAt A.cntCtrl = false → s.regsWf →
    (s.onF F.cntCtrlLinkEn = false → F.cntCtrlLinkEn.get v = 1 → s.role ≠ rolePrincipal → s.host.cmds = [] →
      F.cntCtrlRetrain.get v = 0 →
      Completes (.linkEnable path v) s fun t => t.onF F.cntCtrlLinkEn = true ∧ t.role = roleDouble
        ∧ t.pairState = pairTraining ∧ t.pwr.pathOpen = false
        ∧ t = { s with regs := t.regs, host := t.host, cnt := t.cnt, pwr := t.pwr })
    ∧ (s.onF F.cntCtrlLinkEn = true → F.cntCtrlLinkEn.get v = 0 → s.mirrorUp = false → s.inMode .service = true →
      Completes (.linkDisable path v) s fun t => t.onF F.cntCtrlLinkEn = false ∧ t.role = roleNone
        ∧ t.pairState = pairDown ∧ t.cnt.epoch = s.cnt.epoch ∧ t.cnt.proven = false
        ∧ t = { s with regs := t.regs, ftl := t.ftl, cnt := t.cnt })
    ∧ (F.cntCtrlRetrain.get v = 1 → s.mirrorUp = false → s.pairState ≠ pairDown →
      F.cntCtrlLinkEn.get v = s.getF F.cntCtrlLinkEn →
      Completes (.linkRetrain path v) s fun t => t.pairState = pairTraining ∧ t.cnt.proven = false
        ∧ t = { s with regs := t.regs, ftl := t.ftl, cnt := t.cnt })) ∧
  (∀ (width : Nat) (s : State), s.pairState = pairTraining → s.logicOn = true → (width = 1 ∨ width = 2 ∨ width = 4) →
    s.regsWf →
    Completes (.linkTrained width) s fun t => t.getF F.cntStatusWidth = width ∧ t.pairState = pairNegotiating
      ∧ t.cnt.helloSent.isSome = true ∧ t.cnt.lastFrameAt = s.fab.timecode ∧ t.cnt.retryDue = none
      ∧ t = { s with regs := t.regs, sec := t.sec, cnt := t.cnt, freeCtr := t.freeCtr }) ∧
  (∀ (a : Nat) (s : State), s.cnt.retryDue = some a → a ≤ s.fab.timecode → s.pairState = pairNegotiating → s.regsWf →
    Completes .linkTrainRetry s fun t => t.pairState = pairTraining ∧ t.cnt.helloSeen = none
      ∧ t = { s with regs := t.regs, ftl := t.ftl, cnt := t.cnt }) ∧
  (∀ (hdr : Word) (data : List Byte) (crc : Word) (s : State), s.pairState = pairInSync → s.regsWf →
    let seq := bits hdr.toNat 16 12
    let ack := bits hdr.toNat 4 12
    let good := crc.toNat = crc32c (leBytes 4 hdr.toNat ++ fit 256 data)
    (¬good → Completes (.linkFrameReceive hdr data crc) s fun t => t.cnt.nak = true ∧ t.cnt.rxSeq = s.cnt.rxSeq
      ∧ t.getF F.cntCntLinkCrcErr = min (s.getF F.cntCntLinkCrcErr + 1) F.cntCntLinkCrcErr.max
      ∧ t = { s with regs := t.regs, cnt := { s.cnt with nak := true } } ∧ RegsKept [F.cntCntLinkCrcErr.addr] s t)
    ∧ (good → bits hdr.toNat 28 4 = 1 → bit hdr.toNat 0 = false → s.cnt.frames = [] → seq = s.cnt.rxSeq →
      Completes (.linkFrameReceive hdr data crc) s fun t => t = { s with cnt := { s.cnt with
        lastFrameAt := s.fab.timecode, rxSeq := (s.cnt.rxSeq + 1) % 4096, nak := false, resend := 0 } })
    ∧ (good → bits hdr.toNat 28 4 = 1 → bit hdr.toNat 0 = false → s.cnt.frames = [] → seq ≠ s.cnt.rxSeq →
      Completes (.linkFrameReceive hdr data crc) s fun t => t = { s with cnt := { s.cnt with
        lastFrameAt := s.fab.timecode, nak := true, resend := 0 } })
    ∧ (∀ f g, good → bits hdr.toNat 28 4 = 2 → bit hdr.toNat 0 = false → s.cnt.frames = [f, g] → f.seq ≠ seq →
      g.seq = seq → ack = f.seq → g.sends < 8 → Completes (.linkFrameReceive hdr data crc) s fun t =>
        t = { s with cnt := { s.cnt with lastFrameAt := s.fab.timecode, frames := [g], resend := 1 } })) ∧
  (∀ s : State, s.pairState = pairInSync → s.since s.cnt.lastFrameAt 100000 = true →
    exec .linkFrameTimeout s = .next (s.separate 1)) ∧
  (∀ (w : List Byte) (s : State), let m := clearMsg w
    s.pairState = pairNegotiating → m.magic = 0x434D → m.type = 1 → s.regsWf →
    (field m.body 8 4 ≠ s.getF F.cntDomainDomain → Completes (.hello w) s fun t =>
      t.onF F.cntStatusDomainMismatch = true ∧ t.cnt.retryDue = some (s.fab.timecode + 64 * 10000000000)
      ∧ t = { s with regs := t.regs, cnt := t.cnt })
    ∧ (∀ v k, field m.body 8 4 = s.getF F.cntDomainDomain → field m.body 4 2 % 1024 = s.getF F.cntDevnumDevnum ^^^ 1 →
      s.commonVersion (field m.body 0 2) (field m.body 2 2) = some v → v < 2 ^ 8 → s.cnt.proven = false → s.linkKey = some k →
      Completes (.hello w) s fun t => t.getF F.cntNegotiatedVersion = v ∧ t.cnt.helloSeen = some m.body
        ∧ t = { s with regs := t.regs, cnt := t.cnt })) ∧
  (∀ (w mine theirs lower higher k : List Byte) (dir : Byte) (s : State), let m := clearMsg w
    s.cnt.helloSent = some mine →
    s.cnt.helloSeen = some theirs → s.pairState = pairNegotiating → s.onF F.cntNegotiatedVersion = true →
    s.cnt.proven = false → m.magic = 0x434D → m.type = 2 → s.helloPair mine theirs = (lower, higher, dir) →
    s.linkKey = some k →
    (m.body = State.linkProof k lower higher (1 - dir) → exec (.confirm w) s = .next ((s.modCnt fun c =>
        { c with proven := true, msgTx := 0, msgRx := 0, retryDue := none
                 keys := some (State.sessionKey k lower higher dir, State.sessionKey k lower higher (1 - dir)) }).settleRoles
          (field theirs 6 1) (field theirs 12 4)))
    ∧ (m.body ≠ State.linkProof k lower higher (1 - dir) → Completes (.confirm w) s fun t => t.cnt.proven = false
        ∧ t = { s with regs := t.regs, cnt := { s.cnt with retryDue := t.cnt.retryDue } })) ∧
  (∀ (j : Nat) (s : State), s.cnt.journaled = some j → s.cnt.ackSent = none → s.cnt.proven = true →
    s.since s.cnt.ackAt 2000 = true →
    Completes .ackSend s fun t => t.cnt.ackSent = some j ∧ t.cnt.ackAt = s.fab.timecode ∧ t.cnt.ackNow = false
      ∧ t.cnt.msgTx = s.cnt.msgTx + 1 ∧ (∃ f, t.cnt.unsent = s.cnt.unsent ++ [f] ∧ f.msg = s.cnt.msgTx ∧ f.head = some 56
        ∧ f.data = fit 256 (slice (s.sealOut (s.makeMsg msgAck 0 noTenant 0 s.cnt.msgTx (leBytes 8 j))) 0 256))
      ∧ t = { s with regs := t.regs, cnt := t.cnt, slt := t.slt, sec := t.sec, freeCtr := t.freeCtr }) ∧
  (∀ (o : OutMsg) (rest : List OutMsg) (s : State), s.cnt.out = o :: rest → s.mirrorUp = true →
    s.since (max o.sentAt s.cnt.ackAt) (s.getF F.cntCfgAckTimeout * 1000000) = true →
    exec .ackTimeout s = .next (s.separate 2)) ∧
  (∀ (a : Nat) (s : State), s.role = rolePrincipal → s.pairState = pairResync → s.cnt.resync = none →
    (s.cnt.passDue = none → ∀ nsid ext, exec (.resyncExtent nsid ext) s = .next s.startResync)
    ∧ (s.cnt.passDue = some a → a ≤ s.fab.timecode → exec .resyncPassTimer s = .next s.startResync)) ∧
  (∀ (r : Resync) (nsid ext : Nat) (s : State), s.role = rolePrincipal → s.pairState = pairResync →
    s.cnt.resync = some r → r.doneSeq = none →
    (r.lock = none → s.nextExtent r = some (State.extKey nsid ext) → s.extentLocked nsid ext = false →
      (∀ u, u / 256 = ext → s.unitClass nsid u ≠ 0) →
      Completes (.resyncExtent nsid ext) s fun t =>
        t = { s with cnt := { s.cnt with resync := some { r with lock := some (nsid, ext) } } })
    ∧ (r.lock = some (nsid, ext) → s.mediaWaits .resync 0 = false → Sparse.wf (fun _ => false) s.cnt.dirty = true →
      Completes (.resyncExtent nsid ext) s fun t => sparseGet (fun _ => false) t.cnt.dirty (State.extKey nsid ext) = false
        ∧ (∀ k, k ≠ State.extKey nsid ext →
            sparseGet (fun _ => false) t.cnt.dirty k = sparseGet (fun _ => false) s.cnt.dirty k)
        ∧ ∃ q, t.cnt.resync = some q ∧ q.copied = r.copied + 1 ∧ q.lock = none)
    ∧ (r.lock = none → s.nextExtent r = none →
      Completes (.resyncExtent nsid ext) s fun t => t.cnt.resync = some { r with doneSeq := some s.cnt.msgTx }
        ∧ (∃ m, t.cnt.out = s.cnt.out ++ [m] ∧ m.type = msgResyncDone ∧ m.body = leBytes 4 r.copied)
        ∧ t = { s with regs := t.regs, cnt := t.cnt, slt := t.slt, sec := t.sec, freeCtr := t.freeCtr })) ∧
  (∀ s : State, s.cnt.pulseAt + 64000000 + s.cnt.pulseDelay ≤ s.fab.timecode →
    exec (.heartbeatPulse false) s = .next { s with cnt := { s.cnt with pulseAt := s.fab.timecode, pulseDelay := 0 } }) ∧
  (∀ (low : Nat) (s : State), 5000 ≤ low → s.regsWf → Completes (.partnerPulse low) s fun t =>
      t.onF F.cntStatusHbPresent = true ∧ t.cnt.partnerAt = some s.fab.timecode
      ∧ t = { s with regs := t.regs, cnt := { s.cnt with partnerAt := t.cnt.partnerAt } }) ∧
  (∀ (a : Nat) (s : State), s.cnt.partnerAt = some a → s.onF F.cntStatusHbPresent = true →
    s.since a (s.getF F.cntHbTimeout * 1000000) = true → s.regsWf →
    Completes .heartbeatLost s fun t => t.onF F.cntStatusHbPresent = false ∧ t.onF F.cntStatusHbLost = true
      ∧ t.role = s.role ∧ t = { s with regs := t.regs, ftl := t.ftl, mgt := t.mgt }) ∧
  (∀ (path : Path) (s : State), s.admits path A.cntOrder → s.onF F.cntOrderStatusBusy = false → s.inMode .safe = false →
    s.orderBarred (fun m => decide (m ≠ .safe)) = false →
    let ordered := fun (op : Nat) => (s.setF F.cntOrderStatusBusy 1).placeOrder (.pair op (s.getF F.cntOrderEpochEpoch)) true
      [.pairRole] 3 (pathSide path)
    exec (.promote path) s = .next (ordered 1) ∧ exec (.handover path) s = .next (ordered 2)
    ∧ exec (.stepDown path) s = .next (ordered 3))

/-! ## Out-of-band management (chapter 15) -/

/-- The local bus and the task file (R511–R516): discovery builds the partner table anew; a partner that joins, leaves
at the third NACK in a row, reads beyond its limit or is missing raises its alert; a task-file command named by
TF_CMD.OP is checked and waits for its order or its lock, may be caught before its access, and reads its units, takes
its cells and reaches DONE with its status, its data and an alert. The model's own choices in it: log entries 94, 95,
96, 97, 98, 161 and 183. -/
def Obligations.ManagementTakesEffect : Prop :=
  (∀ (found : List LbFound) (s : State), s.regsWf → (s.onF F.mgtLbCtrlRescan = true ∨ s.mgt.lbFoundAt = none) →
    Completes (.lbDiscovery found) s fun t => t.onF F.mgtLbCtrlRescan = false ∧ t.mgt.lbFoundAt = some s.tick
      ∧ t.mgt.lbChecked = [] ∧ (s.onF F.mgtLbCtrlEn = false → t.mgt.lbTable = [])
      ∧ t = { s with regs := t.regs, mgt := t.mgt } ∧ RegsKept [A.mgtLbCtrl] s t) ∧
  (∀ (path : Path) (s : State), s.admits path A.mgtLbCtrl → s.regsWf →
    Completes (.lbRescan path) s fun t => t.onF F.mgtLbCtrlRescan = true ∧ t = { s with regs := t.regs }
      ∧ RegsKept [A.mgtLbCtrl] s t) ∧
  (∀ (pid : Nat) (s : State), pid ≠ 0 → s.onF F.mgtLbCtrlEn = true →
    (s.lbFreeEntry = none → exec (.lbHotJoin pid) s = .next (s.incF F.mgtLbStatusHjIgnored))
    ∧ (∀ p, s.lbFreeEntry = some p → (∀ d ∈ s.mgt.lbDescs, d.pid ≠ pid) → s.onF ⟨A.mgtAlertStatus, 10, 1⟩ = true →
      Sparse.wf (fun _ => none) s.mgt.lbTable = true →
      Completes (.lbHotJoin pid) s fun t => (t.lbEntry p).map (fun x => (x.pid, x.addr, x.kind, x.desc))
          = some (pid, s.lbFreeAddr, 4, none)
        ∧ (∀ q, q ≠ p → t.lbEntry q = s.lbEntry q) ∧ t = { s with mgt := { s.mgt with lbTable := t.mgt.lbTable } })) ∧
  (∀ (p i : Nat) (x : LbPartner) (d : LbDesc) (v : Int) (s : State), s.lbEntry p = some x → x.desc = some i →
    s.mgt.lbDescs[i]? = some d → s.onF F.mgtLbCtrlEn = true → d.period ≠ 0 → s.since x.lastPoll (d.period * 1000000) = true →
    d.len = 2 → -32768 ≤ v → v < 32768 → d.below = false →
    let polled := fun v => s.setLbEntry p (some { x with naks := 0, value := v, lastPoll := s.tick })
    (v ≤ d.limit → exec (.lbPoll p true v) s = .next (polled v))
    ∧ (d.limit < v → d.kind ≠ 1 → exec (.lbPoll p true v) s = .next (polled v).alertLbLimit)
    ∧ (d.limit < v → d.kind = 1 → exec (.lbPoll p true v) s = .next (polled v).alertLbLimit.alertHoldupLow)
    ∧ (x.naks < 2 → exec (.lbPoll p false v) s =
        .next (s.setLbEntry p (some { x with naks := x.naks + 1, lastPoll := s.tick })))
    ∧ (2 ≤ x.naks → exec (.lbPoll p false v) s = .next (s.setLbEntry p none).alertLbChange)) ∧
  (∀ (desc a : Nat) (d : LbDesc) (s : State), s.mgt.lbFoundAt = some a → s.mgt.lbDescs[desc]? = some d →
    d.required = true → desc ∉ s.mgt.lbChecked → s.since a 1000000000 = true → s.mgt.lbTable = [] →
    exec (.lbRequiredCheck desc) s =
      .next (s.modMgt fun m => { m with lbChecked := m.lbChecked ++ [desc] }).alertLbChange) ∧
  (∀ (path : Path) (s : State), s.admits path A.tfCtrl → s.getF F.tfStatusState ≠ 1 → s.regsWf →
    let waits := fun (i : Instr) (op : Nat) => s.getF F.tfCmdOp = op → s.tfCheck op = none →
      Completes i s fun t => t.getF F.tfStatusState = 1 ∧ t.mgt.tf.phase = .lock ∧ t.mgt.tf.arrival = s.host.nextArrival
        ∧ t = { s with regs := t.regs, host := t.host, mgt := t.mgt, pwr := t.pwr }
    let ordered := fun (i : Instr) (op : Nat) => s.getF F.tfCmdOp = op → s.tfCheck op = none →
      Completes i s fun t => t.getF F.tfStatusState = 1 ∧ t.mgt.tf.phase = .order
        ∧ (∃ o ∈ t.pwr.window, o.op = .taskFile ∧ o.targets = [.ns (s.getF F.tfNsidNsid)] ∧ o.side = .i3c)
        ∧ t = { s with regs := t.regs, host := t.host, mgt := t.mgt, pwr := t.pwr }
    waits (.tfIdentify path) 1 ∧ waits (.tfRead path) 2 ∧ ordered (.tfWrite path) 3 ∧ ordered (.tfWriteZeroes path) 4
    ∧ waits (.tfFlush path) 5 ∧ waits (.tfGetLog path) 6
    ∧ (∀ st, s.getF F.tfCmdOp = 2 → s.tfCheck 2 = some st → Completes (.tfRead path) s fun t =>
        t.mgt.tf.phase = .ended ∧ t.mgt.tf.sct = st.1 ∧ t.mgt.tf.sc = st.2.1)) ∧
  (∀ (path : Path) (s : State), s.admits path A.tfCtrl → (s.mgt.tf.phase = .order ∨ s.mgt.tf.phase = .lock) →
    s.mgt.tf.reading = false →
    exec (.tfAbort path) s = .next (s.tfEnd 0 0x07 [])) ∧
  (∀ (path : Path) (v : Word) (s : State), s.admits path A.tfData → s.regsWf →
    (s.getF F.tfStatusState ≠ 1 → s.mgt.tf.inBuf.length ≤ 65532 → s.getF F.tfReceivedBytes < 2 ^ 32 - 4 →
      Completes (.tfDataAccess path (some v)) s fun t => t.mgt.tf.inBuf = s.mgt.tf.inBuf ++ leBytes 4 v.toNat
        ∧ t.getF F.tfReceivedBytes = s.getF F.tfReceivedBytes + 4 ∧ t = { s with regs := t.regs, mgt := t.mgt }
        ∧ RegsKept [A.tfReceived] s t)
    ∧ (s.mgt.tf.outBuf ≠ [] →
      exec (.tfDataAccess path none) s =
        .next ((s.busData (field s.mgt.tf.outBuf 0 4)).modTf fun t => { t with outBuf := s.mgt.tf.outBuf.drop 4 }))
    ∧ (s.mgt.tf.outBuf = [] → Completes (.tfDataAccess path none) s fun t => t.onF F.tfStatusOverread = true
        ∧ t = { s with regs := t.regs, host := t.host })) ∧
  (∀ s : State, s.mgt.tf.phase = .ended → s.mgt.tf.sct < 8 → s.mgt.tf.sc < 256 → s.mgt.tf.mode < 8 →
    s.regsWf →
    Completes .tfCommandDone s fun t => t.getF F.tfStatusState = 2 ∧ t.getF F.tfStatusSct = s.mgt.tf.sct
      ∧ t.getF F.tfStatusSc = s.mgt.tf.sc ∧ t.getF F.tfStatusMode = s.mgt.tf.mode ∧ t.mgt.tf.outBuf = s.mgt.tf.result
      ∧ t.mgt.tf.phase = .idle ∧ t.onF ⟨A.mgtAlertStatus, 9, 1⟩ = true
      ∧ t = { s with regs := t.regs, ftl := t.ftl, mgt := t.mgt } ∧ RegsKept [A.tfStatus, A.mgtAlertStatus] s t) ∧
  (∀ s : State, s.mgt.tf.phase = .lock → s.tfLockFree = true → s.regsWf →
    let op := s.getF F.tfCmdOp
    (op = 2 → s.mgt.tf.reading = false → exec .tfCommandDone s = .next s.tfStartRead.tfSettle)
    ∧ ((op = 2 → s.mgt.tf.reading = true) → s.mediaWaits .taskFile 0 = false →
        (s.canDraw s.tfNeeds = false → exec .tfCommandDone s = .next (s.postCells s.tfNeeds))
        ∧ (op = 5 → Completes .tfCommandDone s fun t => t.getF F.tfStatusState = 2 ∧ t.getF F.tfStatusSct = 0
            ∧ t.getF F.tfStatusSc = 0 ∧ t.mgt.tf.phase = .idle ∧ t = { s with regs := t.regs, ftl := t.ftl, mgt := t.mgt })
        ∧ (∀ l, op = 6 → s.canDraw s.tfNeeds = true →
            (s.spend s.tfNeeds).logPage 0 (s.getF F.tfNsidNsid) (s.getF F.tfArgArg) = some l →
            Completes .tfCommandDone s fun t => t.getF F.tfStatusState = 2 ∧ t.getF F.tfStatusSct = 0
              ∧ t.getF F.tfStatusSc = 0 ∧ t.mgt.tf.phase = .idle
              ∧ t.mgt.tf.outBuf = State.pageSlice (s.getF F.tfArgArg) l 0 (s.getF F.tfLengthBytes)
              ∧ t = { s with regs := t.regs, ftl := t.ftl, mgt := t.mgt, slt := t.slt })))

/-- The I3C target (R504–R510, R533): in HDR-DDR a common command code changes nothing, and otherwise it sets the
event enables, the dynamic address and the frame lengths or answers its bytes; a frame with a wrong CRC does nothing,
one with an illegal field answers BAD_FRAME, and a legal one reads or writes its words in order; a response is read
once; an alert interrupts until it is accepted. The model's own choices in it: log entries 51 and 152. -/
def Obligations.I3cTargetAnswers : Prop :=
  (∀ (a b : Bool) (n m : Nat) (s : State), s.mgt.hdr = true →
    ∀ i ∈ ([.enec a b, .disec a b, .rstdaa, .entdaa n, .setmwl n, .setmrl n, .rstact n, .setdasa n m, .setnewda n,
      .getmwl, .getmrl, .getpid, .getbcr, .getdcr, .getstatus, .getmxds, .getcaps] : List Instr), exec i s = .next s) ∧
  (∀ (a b : Bool) (s : State), s.mgt.hdr = false → s.regsWf →
    (Completes (.enec a b) s fun t => t.onF F.mgtI3cStatusIntEn = (a || s.onF F.mgtI3cStatusIntEn)
      ∧ t.onF F.mgtI3cStatusHjEn = (b || s.onF F.mgtI3cStatusHjEn) ∧ t = { s with regs := t.regs }
      ∧ RegsKept [A.mgtI3cStatus] s t)
    ∧ (Completes (.disec a b) s fun t => t.onF F.mgtI3cStatusIntEn = (!a && s.onF F.mgtI3cStatusIntEn)
      ∧ t.onF F.mgtI3cStatusHjEn = (!b && s.onF F.mgtI3cStatusHjEn) ∧ t = { s with regs := t.regs }
      ∧ RegsKept [A.mgtI3cStatus] s t)) ∧
  (∀ (da : Nat) (s : State), s.mgt.hdr = false → da < 128 → s.regsWf →
    let takes := fun (i : Instr) => Completes i s fun t => t.getF F.mgtI3cStatusDynAddr = da ∧ t.hasAddress = true
      ∧ t = { s with regs := t.regs, mgt := { s.mgt with hjDue := none } } ∧ RegsKept [A.mgtI3cStatus] s t
    (s.hasAddress = false → s.onF F.mgtI3cCfgI2cOnly = false → takes (.entdaa da))
    ∧ (s.hasAddress = false → takes (.setdasa (s.getF F.mgtI3cCfgStaticAddr) da))
    ∧ (s.hasAddress = true → takes (.setnewda da) ∧ exec (.entdaa da) s = .next s)
    ∧ (Completes .rstdaa s fun t => t.hasAddress = false ∧ t.getF F.mgtI3cStatusDynAddr = 0
        ∧ t = { s with regs := t.regs, mgt := { s.mgt with hjDue := some (s.tick + 64 * 1000000000) } }
        ∧ RegsKept [A.mgtI3cStatus] s t)) ∧
  (∀ (len : Nat) (s : State), s.mgt.hdr = false →
    (12 ≤ len → len ≤ 265 → exec (.setmwl len) s = .next { s with mgt := { s.mgt with mwl := len } })
    ∧ ((len < 12 ∨ 265 < len) → exec (.setmwl len) s = .next s)
    ∧ (8 ≤ len → len ≤ 261 → exec (.setmrl len) s = .next { s with mgt := { s.mgt with mrl := len } })
    ∧ ((len < 8 ∨ 261 < len) → exec (.setmrl len) s = .next s)) ∧
  (∀ s : State, exec .enthdr0 s = .next { s with mgt := { s.mgt with hdr := true } }
    ∧ exec .hdrExitPattern s = .next { s with mgt := { s.mgt with hdr := false } }) ∧
  (∀ s : State, s.mgt.hdr = false → s.regsWf → Completes (.rstact 1) s fun t => t.hasAddress = false
    ∧ t.onF F.mgtI3cStatusIntEn = true ∧ t.onF F.mgtI3cStatusHjEn = true ∧ t.mgt.mwl = 265 ∧ t.mgt.mrl = 261
    ∧ t.mgt.response = none ∧ t.mgt.hdr = false ∧ t = { s with regs := t.regs, mgt := t.mgt, ftl := t.ftl }
    ∧ RegsKept [A.mgtI3cStatus] s t) ∧
  (∀ s : State, s.mgt.hdr = false →
    let answers := fun (i : Instr) (l : List Byte) => exec i s =
      .next { s with mgt := { s.mgt with lastRead := if s.hasAddress then l else [] } }
    answers .getmwl (beBytes 2 s.mgt.mwl) ∧ answers .getmrl (beBytes 2 s.mgt.mrl ++ [4])
    ∧ answers .getpid (beBytes 6 s.provisionalId) ∧ answers .getbcr [0x26] ∧ answers .getdcr [0] ∧ answers .getmxds [0, 0]
    ∧ answers .getcaps (leBytes 1 1 ++ leBytes 1 (Config.getCaps 1) ++ leBytes 1 (Config.getCaps 2))
    ∧ (s.hasAddress = true → exec .getstatus s = .next { s with mgt := { s.mgt with
        lastRead := beBytes 2 (s.pendingAlerts + 32 * s.mgt.protoErr.toNat), protoErr := false } })) ∧
  (∀ (a : Nat) (s : State), s.mgt.hjDue = some a → a ≤ s.tick → s.hasAddress = false → s.onF F.mgtI3cCfgI2cOnly = false →
    s.onF F.mgtI3cStatusHjEn = true →
    exec .hotJoin s = .next { s with mgt := { s.mgt with
      hotJoins := s.mgt.hotJoins + 1, hjDue := some (s.tick + 64 * 1000000000) } }) ∧
  (∀ (tag count addr : Nat) (data : List Word) (crc : Byte) (s : State),
    let good := fun (op : Nat) (data : List Word) => crc8 (requestBytes op tag count addr data) = crc
      ∧ s.requestLegal count addr (requestBytes op tag count addr data).length = true
    let read := fun (i : Instr) (op step : Nat) =>
      (crc8 (requestBytes op tag count addr []) ≠ crc → exec i s = .next (s.badRequest frameBadCrc tag))
      ∧ (crc8 (requestBytes op tag count addr []) = crc → (count = 0 ∨ 64 < count ∨ addr % 4 ≠ 0 ∨ 0x400000 ≤ addr) →
          exec i s = .next (s.badRequest frameBadFrame tag))
      ∧ (good op [] →
          let r := s.frameRead addr step count []
          exec i s = .next (r.2.2.respond (responseFrame r.1 tag r.2.1.length r.2.1)))
    let write := fun (i : Instr) (op step : Nat) =>
      (crc8 (requestBytes op tag count addr data) ≠ crc → exec i s = .next (s.badRequest frameBadCrc tag))
      ∧ (crc8 (requestBytes op tag count addr data) = crc → (count = 0 ∨ 64 < count ∨ data.length ≠ count) →
          exec i s = .next (s.badRequest frameBadFrame tag))
      ∧ (good op data → data.length = count →
          let r := s.frameWrite addr step data 0
          exec i s = .next (r.2.2.respond (responseFrame r.1 tag r.2.1 [])))
    write (.i3cWrite tag count addr data crc) 1 4 ∧ read (.i3cRead tag count addr crc) 2 4
    ∧ write (.i3cWriteSame tag count addr data crc) 3 0 ∧ read (.i3cReadSame tag count addr crc) 4 0) ∧
  (∀ s : State,
    (∀ l, s.mgt.response = some l → exec .i3cResponseRead s =
      .next { s with mgt := { s.mgt with lastRead := l.take s.mgt.mrl, response := none } })
    ∧ (s.mgt.response = none → exec .i3cResponseRead s =
      .next { s with mgt := { s.mgt with lastRead := (responseFrame frameNoRequest 0 0 []).take s.mgt.mrl } })) ∧
  (∀ (b : Nat) (s : State),
    ((List.range 32).find? fun b => s.mgt.ibiPending.contains b && s.onF ⟨A.mgtAlertStatus, b, 1⟩) = some b →
    s.onF F.mgtI3cStatusIntEn = true → s.hasAddress = true → s.onF F.mgtI3cCfgI2cOnly = false → s.mgt.hdr = false →
    s.mgt.ibiRetryAt ≤ s.tick →
    exec (.ibiRaise true) s = .next ((s.incF F.mgtCntIbi).modMgt fun m => { m with
      ibiPending := m.ibiPending.filter (· ≠ b)
      lastRead := leBytes 1 (0x80 + b) ++ leBytes 4 (s.reg A.mgtAlertStatus).toNat })
    ∧ exec (.ibiRaise false) s = .next (s.modMgt fun m => { m with ibiRetryAt := s.tick + 64 * 1000000 }))

/-! ## Modes (chapter 15) -/

/-- Pins and mode orders (R517, R518, R520, R527, R623): a level held long enough counts and a short one does not; a
wake order and a power-down take their places in the window; a write of PWR_MODE_CMD makes the register BUSY and
places its order with its precedence, and with PWRDIS high it reads NOT_ALLOWED. The model's own choices in it: log
entries 1, 57, 58, 62, 68 and 183. -/
def Obligations.PinsAndModeOrdersArePlaced : Prop :=
  (∀ (held : Nat) (s : State), held < 2000 → exec (.wakeN held) s = .next s.drew) ∧
  (∀ (held : Nat) (s : State), 10000 ≤ held → s.pwr.pwrdis = false → (s.mode = .dormant ∨ s.mode = .standby ∨ s.mode = .doze) →
    s.pwr.trans = none → Completes (.wakeN held) s fun t => t.pwr.window = s.pwr.window ++
        [{ op := .mode .ready false 1 false, mgmt := true, targets := [.mode], prec := 3, side := .device, arrival := s.tick }]
      ∧ t.pwr.idleSince = none ∧ t = { s with pwr := { s.pwr with window := t.pwr.window, idleSince := none }, freeCtr := t.freeCtr }) ∧
  (∀ (held : Nat) (s : State), held < 50000 → exec (.pwrdisAssert held) s = .next s.drew
    ∧ exec (.pwrdisRelease held) s = .next s.drew) ∧
  (∀ (held : Nat) (s : State), 100000 ≤ held → s.pwr.pwrdis = false → s.pwr.trans = none →
    Completes (.pwrdisAssert held) s fun t => t.pwr.pwrdis = true ∧ t.pwr.window = s.pwr.window ++
        [{ op := .powerDown, mgmt := true, targets := [.mode], prec := 3, side := .device, arrival := s.tick }]
      ∧ t = { s with pwr := t.pwr, freeCtr := t.freeCtr }) ∧
  (∀ (held : Nat) (s : State), 100000 ≤ held → s.pwr.pwrdis = true → s.inMode .dormant = false →
    exec (.pwrdisRelease held) s = .next (s.drew.modPwr fun p => { p with pwrdis := false })) ∧
  (∀ (path : Path) (s : State), s.admits path A.pwrModeCmd → s.regsWf → s.pwr.trans = none →
    let places := fun (i : Instr) (target : Mode) (leave : Bool) (prec : Nat) =>
      (s.pwr.pwrdis = false → Completes i s fun t => t.onF F.pwrModeStatusBusy = true
        ∧ t.pwr.window = s.pwr.window ++ [{ op := .mode target leave 1 true, mgmt := true, targets := [.mode], prec := prec
                                            side := pathSide path, arrival := s.tick }]
        ∧ t = { s with regs := t.regs, pwr := { s.pwr with window := t.pwr.window, idleSince := none } }
        ∧ RegsKept [A.pwrModeCmd, A.pwrModeStatus] s t)
      ∧ (s.pwr.pwrdis = true → Completes i s fun t => t.getF F.pwrModeStatusResult = 2
        ∧ t = { s with regs := t.regs } ∧ RegsKept [A.pwrModeCmd, A.pwrModeStatus] s t)
    places (.modeOrderSafe path) .safe false 0 ∧ places (.modeOrderService path) .service false 1
    ∧ places (.modeOrderReadOnly path) .readOnly false 2 ∧ places (.modeOrderDormant path) .dormant false 3
    ∧ places (.modeOrderStandby path) .standby false 3 ∧ places (.modeOrderDoze path) .doze false 3
    ∧ places (.modeOrderReady path) .ready false 3 ∧ places (.modeOrderLeave path) .ready true 3)

/-- Idleness and the ends of transitions (R520, R522, R524, R573, Table 15.10): idle Active becomes Ready after 10 µs;
the idle policy takes the deepest target that fits the wake budget; one second after its entry began the drain ends
what is left; and a transition ends, and its mode is entered, once the entry rules of its target are met and not
before. The model's own choices in it: log entries 1, 62, 63, 64, 66, 69, 82 and 183. -/
def Obligations.ModeTransitionsEnd : Prop :=
  (∀ (a : Nat) (s : State), s.pwr.idleSince = some a → s.inMode .active = true → s.isIdle = true →
    (s.since a 10000 = true → exec .idleToReady s = .next (s.enterMode .ready 0))
    ∧ (s.since a 10000 = false → exec .idleToReady s = .next s)) ∧
  (∀ (a : Nat) (s : State), s.pwr.idleSince = some a → s.inMode .ready = true → s.isIdle = true → s.getF F.pwrIdleEntryMs ≠ 0 →
    s.since a (s.getF F.pwrIdleEntryMs * 1000000) = true → s.diskData = false → s.regsWf →
    (s.getF F.pwrWakeBudgetUs < 2 → Completes .idlePolicy s fun t => t.getF F.pwrIdleStatusTarget = 3
      ∧ t.onF F.pwrIdleStatusFellShort = false ∧ t = { s with regs := t.regs, freeCtr := s.freeCtr + 1 }
      ∧ RegsKept [A.pwrIdleStatus] s t)
    ∧ (2 ≤ s.getF F.pwrWakeBudgetUs → s.getF F.pwrWakeBudgetUs < 30000 → Completes .idlePolicy s fun t =>
      t.getF F.pwrIdleStatusTarget = 2 ∧ t.onF F.pwrIdleStatusFellShort = false ∧ t.pwr.trans.map (·.target) = some .doze
      ∧ t.onF F.pwrModeChanging = true ∧ t.inMode .ready = true ∧ t.pwr.spin = some false
      ∧ t = { s with regs := t.regs, pwr := t.pwr, freeCtr := s.freeCtr + 1 }
      ∧ RegsKept [A.pwrIdleStatus, A.pwrMode] s t)
    ∧ (30000 ≤ s.getF F.pwrWakeBudgetUs → s.rank1Quiet = false → Completes .idlePolicy s fun t =>
      t.getF F.pwrIdleStatusTarget = 2 ∧ t.onF F.pwrIdleStatusFellShort = true ∧ t.pwr.trans.map (·.target) = some .doze
      ∧ t = { s with regs := t.regs, pwr := t.pwr, freeCtr := s.freeCtr + 1 })) ∧
  (∀ (x : Transition) (s : State), s.pwr.trans = some x → x.idle = false → x.drained = false →
    (x.target = .dormant ∨ x.target = .standby ∨ x.target = .service) →
    (s.since x.start 1000000000 = false → exec .modeDrainTimeout s = .next s)
    ∧ (s.since x.start 1000000000 = true → exec .modeDrainTimeout s = .next (s.drainLimit x))) ∧
  (∀ (x : Transition) (s : State), s.pwr.trans = some x → s.pwr.starting = none →
    (x.target = .doze → (s.headsParked = false ∨ s.spinStopped = false) → exec .modeTransitionDone s = .next s)
    ∧ (x.target = .doze → s.headsParked = true → s.spinStopped = true → s.pwr.pwrdisWait = false → s.regsWf →
      s.role = roleNone → Completes .modeTransitionDone s fun t => t.inMode .doze = true ∧ t.onF F.pwrModeChanging = false
        ∧ t.getF F.pwrModeCause = x.cause % 256 ∧ t.pwr.trans = none)
    ∧ (x.target = .readOnly → exec .modeTransitionDone s = .next (s.newMode .readOnly x.cause).endTrans)
    ∧ (x.target = .ready → x.leave = false → 2 ≤ s.getF F.pwrModeMode → s.diskUp = true →
      exec .modeTransitionDone s = .next (s.newMode .ready x.cause).endTrans)
    ∧ (x.target = .ready → x.leave = false → s.diskUp = false → exec .modeTransitionDone s = .next s)
    ∧ (x.target = .service → s.ftl.wb = [] → s.host.cmds = [] → s.tsk.ctxs = [] →
      exec .modeTransitionDone s = .next (s.closePath.newMode .service x.cause).endTrans)
    ∧ (x.target = .service → s.ftl.wb ≠ [] → exec .modeTransitionDone s = .next s)
    ∧ (x.target = .safe → s.logicOn = true → s.ftl.dumping = false → s.headsParked = true →
      exec .modeTransitionDone s = .next (s.safeReached x.cause).endTrans)
    ∧ (x.target = .safe → s.ftl.dumping = true → exec .modeTransitionDone s = .next s)
    ∧ (x.target = .standby → s.headsParked = true → s.spinStopped = true → s.ftl.wb = [] →
      (s.drained = true → s.rank1Quiet = true → s.journalDurable = true →
        exec .standbyEntryDone s = .next (s.standbyOff x.cause).endTrans)
      ∧ (s.drained = false → exec .standbyEntryDone s = .next s))) ∧
  (∀ (x : Transition) (s : State), s.pwr.trans = some x → s.pwr.starting = none → x.target = .dormant →
    s.headsParked = true → s.spinStopped = true → s.drained = true → s.ftl.wb = [] → s.journalDurable = true →
    s.logicOn = true → exec .modeTransitionDone s = .next ((s.powerOff x.cause).endTrans).releaseWake)

/-! ## Reset, power-up and supplies (chapter 17) -/

/-- Starts and resets (R25, R305, R557, R569, R572–R574, Table 17.2): a start waits for the splice and then runs its
steps, or fails at step 5 and ends in Safe; outside a start the splice comes up with every count of it at zero and its
cycle counters aligned; a wake from Dormant, or from Standby where the kept image or rank 0 fails, starts the logic
die; a good exit from Standby keeps rank 0; a cold reset leaves what the NVS holds and starts the timecode at 0;
NRESET fences the path and holds the logic die, which restarts when the pin, the dump and the unload have ended. The
model's own choices in it: log entries 1, 67, 71, 75, 159, 180, 186, 187 and 188. -/
def Obligations.StartsAndResets : Prop :=
  (∀ (x : StartSeq) (bad : Nat) (s : State), s.pwr.starting = some x → s.pwr.nreset = false →
    (x.step = 4 → exec (.spliceTrained bad) s = .next (s.runStart bad))
    ∧ (x.step ≠ 4 → exec (.spliceTrained bad) s = .next s)
    ∧ (x.step = 4 → s.pwr.failing = false → s.pwr.resetting = none → s.regsWf →
      exec (.logicStart true bad) s = .next (s.runStart bad)
      ∧ Completes (.logicStart false bad) s fun t => t.pwr.starting = none ∧ t.pwr.trans = none ∧ t.pwr.logicHeld = true
          ∧ t.onF F.devSpliceStatusLost = true ∧ t.inMode .safe = true ∧ t.getF F.pwrModeCause = 6
          ∧ t.onF F.pwrModeChanging = false)) ∧
  (∀ (bad : Nat) (s : State), s.pwr.starting = none → s.onF F.devSpliceStatusTrained = false → s.logicOn = true →
    s.fab.heldEvents = [] → s.regsWf →
    Completes (.spliceTrained bad) s fun t => t.onF F.devSpliceStatusTrained = true ∧ t.onF F.devSpliceStatusUp = true
      ∧ t.onF F.drvStatusSpliceUp = true
      ∧ t = { s with regs := t.regs, srv := t.srv, fab := { s.fab with failsDrive := 0, failsLogic := 0, seqDrive := 0
                                                                       seqLogic := 0, cycleDrive := s.fab.cycleLogic } }
      ∧ RegsKept [A.devSpliceStatus, A.drvStatus] s t) ∧
  (∀ (x : Transition) (bad : Nat) (s : State), s.pwr.starting = none → s.pwr.trans = some x → s.pwr.nreset = false →
    s.pwr.failing = false → s.pwr.resetting = none →
    (s.inMode .dormant = true → x.target = .ready →
      exec (.logicStart true bad) s = .next ((s.dormantStart true).runStart bad)
      ∧ exec (.logicStart false bad) s = .next (s.dormantStart true).spliceFails)
    ∧ (s.inMode .standby = true → x.target = .ready →
      (∀ ok, (ok = false ∨ s.pwr.keptDigest ≠ some (sha384 s.upd.runningImage)) →
        Completes (.standbyExit ok bad) s fun t => ∃ u : State, t = (u.dormantStart true).runStart bad
          ∧ u.mem = Mem.reset ∧ u.slt.dramCopy = none ∧ u.fch.hints = [] ∧ u.tsk = Takes.reset ∧ u.pwr.keptDigest = none
          ∧ u.upd = s.upd ∧ u.nvs = s.nvs ∧ u.ten = s.ten)
      ∧ (s.pwr.keptDigest = some (sha384 s.upd.runningImage) → Completes (.standbyExit true 0) s fun t =>
        t.pwr.starting = some { kind := .logicStandby, step := 8, wantReady := true, service := false }
        ∧ t.pwr.keptDigest = s.pwr.keptDigest ∧ t.host.linkL12 = false ∧ t.mem.dram = s.mem.dram))) ∧
  (∀ (lf : Bool) (s : State), Completes (.coldReset lf) s fun t =>
    t.fab = { Fabric.reset with lfRc := !lf } ∧ t.pwr = { Power.reset with avsVid := t.pwr.avsVid }
    ∧ t.ten = [] ∧ t.mgt = Mgmt.reset ∧ t.mem = Mem.reset ∧ t.eng = Engines.reset
    ∧ t.reg A.pwrMode = regReset A.pwrMode
    ∧ (s.pairState = pairDown → t.cnt.role = s.cnt.role ∧ t.cnt.epoch = s.cnt.epoch
      ∧ t.nvs = { s.nvs with op := none, unlockAt := none, armedAt := none, owner := none, readWaits := none })) ∧
  (∀ (held : Nat) (s : State),
    (held < 1000 → exec (.nresetAssert held) s = .next s.drew)
    ∧ (10000 ≤ held → Completes (.nresetAssert held) s fun t => t.pwr.nreset = true)
    ∧ (10000 ≤ held → s.pwr.resetting = none → s.pwr.failing = false → s.logicOn = false →
      s.headsParked = true → s.spinStopped = true → s.ftl.dumping = false →
      Completes (.nresetAssert held) s fun t => t.pwr.nreset = true ∧ t.pwr.logicHeld = true
        ∧ t.pwr.resetting = some { dumped := false, unloadAt := s.tick }
        ∧ t = { s with ftl := t.ftl, pwr := t.pwr, freeCtr := s.freeCtr + 1 })) ∧
  (∀ s : State, s.pwr.nreset = true →
    (s.pwr.resetting = none → exec .nresetRelease s = .next (s.modPwr fun p => { p with nreset := false }))
    ∧ (∀ x, s.pwr.resetting = some x → s.ftl.dumping = true →
      exec .nresetRelease s = .next (s.modPwr fun p => { p with nreset := false }))
    ∧ (∀ x, s.pwr.resetting = some x → s.ftl.dumping = false → s.headsParked = true → s.spinStopped = true →
      Completes .nresetRelease s fun t => t.pwr.resetting = none ∧ t.pwr.window = [] ∧ t.pwr.trans = none
        ∧ t.pwr.logicHeld = false
        ∧ t.pwr.starting = some { kind := .warm, step := 4, wantReady := false, service := false })) ∧
  (∀ (act : Nat) (x : ResetSeq) (s : State), s.pwr.resetting = some x → act < 2 → s.actState act = 6 →
    (s.since x.unloadAt 500000000 = false → exec (.unloadTimeout act) s = .next s)
    ∧ (s.since x.unloadAt 500000000 = true → s.regsWf → Sparse.wf (fun _ => ActServo.reset) s.srv.acts = true →
      (∀ w ∈ (s.diskAct act).writes, w.st ≠ .writing) → Completes (.unloadTimeout act) s fun t =>
      t.actState act = 7 ∧ t.getF (F.srvActStatusBusy act) = 0 ∧ (t.servoAct act).retract = some s.tick
      ∧ (t.servoAct act).seek = none ∧ t = { s with regs := t.regs, srv := t.srv, dch := t.dch }))

/-- Supplies (R229, R307, R314, R593–R599): V12 below its falling threshold is a power-fail event that ends only at a
restart, above its rising threshold the hold switch closes, and VHOLD below its threshold releases the rails and loses
DRAM; between two bounds a threshold is open. The model's own choices in it: log entries 1, 21, 71, 72, 80 and 81. -/
def Obligations.SuppliesTakeEffect : Prop :=
  (∀ (mv : Nat) (s : State),
    (10500 ≤ mv → exec (.powerFailEvent mv) s = .next s.drew)
    ∧ (mv < 10000 → Completes (.powerFailEvent mv) s fun t => t.pwr.failing = true ∧ t.pwr.v12UpSince = none
      ∧ t.pwr.spin = none)
    ∧ (mv < 10000 → s.nvs.op = none → s.srv.tune = none → s.logicOn = false → s.onF F.drvStatusRetract = false → s.regsWf →
      Completes (.powerFailEvent mv) s fun t => t.getF F.drvV12Mv = mv ∧ t.onF F.drvStatusPwrFail = true
        ∧ t.onF F.drvStatusHoldOn = false ∧ t.onF F.drvFaultPowerFail = true ∧ t.onF F.drvStatusHtrEn = false
        ∧ t.onF F.drvStatusSpinEn = false ∧ t.pwr.failing = true ∧ t.nvs.stopped = true
        ∧ (s.actState 0 = 0 → s.actState 1 = 0 → t.onF F.drvStatusRetract = false ∧ t.ftl = s.ftl)
        ∧ (∀ a < 2, 1 ≤ s.actState a → s.actState a ≤ 6 → t.onF F.drvStatusRetract = true ∧ t.actState a = 7))) ∧
  (∀ (mv : Nat) (s : State), mv < 2 ^ 16 → s.regsWf →
    (mv < 10500 → exec (.v12Rise mv) s = .next s.drew)
    ∧ (10700 ≤ mv → Completes (.v12Rise mv) s fun t => t.getF F.drvV12Mv = mv ∧ t.onF F.drvStatusPwrFail = false
      ∧ t.onF F.drvStatusHoldOn = true ∧ t.pwr.v12UpSince = some s.tick ∧ t.pwr.failing = s.pwr.failing
      ∧ t = { s with regs := t.regs, pwr := { s.pwr with v12UpSince := some s.tick }, freeCtr := s.freeCtr + 1 }
      ∧ RegsKept [A.drvV12, A.drvStatus] s t)
    ∧ (Completes (.holdSwitchOff mv) s fun t => t.getF F.drvV12Mv = mv ∧ t.onF F.drvStatusHoldOn = false
      ∧ t = { s with regs := t.regs } ∧ RegsKept [A.drvV12, A.drvStatus] s t)) ∧
  (∀ (mv : Nat) (s : State), s.regsWf →
    (8200 ≤ mv → exec (.vholdUndervoltage mv) s = .next s.drew)
    ∧ (mv < 7800 → Completes (.vholdUndervoltage mv) s fun t => t.getF F.drvVholdMv = mv ∧ t.onF F.drvFaultVholdUv = true
      ∧ t.onF F.drvStatusEnCore = false ∧ t.mem = Mem.reset ∧ t.pwr.logicHeld = true ∧ t.pwr.enRet = false
      ∧ t.pwr.pathOpen = false ∧ t.ftl.dumping = false ∧ (s.ftl.dumping = true → t.ftl.dumpCut.isSome = true)
      ∧ t = { s with regs := t.regs, ftl := t.ftl, mem := t.mem, pwr := t.pwr, freeCtr := s.freeCtr + 1 }
      ∧ RegsKept [A.drvVhold, A.drvFault, A.drvStatus] s t)) ∧
  (∀ (a : Nat) (s : State), s.pwr.v12UpSince = some a → s.pwr.failing = true → s.ftl.dumping = false →
    s.pwr.resetting = none →
    (s.since a 100000000 = false → exec .powerReturnRestart s = .next s)
    ∧ (s.since a 100000000 = true → s.inMode .dormant = true → s.pwr.starting = none → s.pwr.logicHeld = false →
      exec .powerReturnRestart s = .next { s with
        pwr := { s.pwr with failing := false }, nvs := { s.nvs with stopped := false } })
    ∧ (s.since a 100000000 = true → s.inMode .ready = true → Completes .powerReturnRestart s fun t =>
      t.pwr.failing = false ∧ t.pwr.window = [] ∧ t.pwr.trans = none
      ∧ t.pwr.starting = some { kind := .warm, step := 4, wantReady := false, service := false })) ∧
  (∀ (act : Nat) (s : State), act < 2 → s.regsWf → Sparse.wf (fun _ => ActServo.reset) s.srv.acts = true →
    Completes (.heaterFault act) s fun t => (t.servoAct act).heaterOff = true
      ∧ t.onF (if act = 0 then F.drvFaultHtr0 else F.drvFaultHtr1) = true
      ∧ t = { s with regs := t.regs, fab := { s.fab with outputs := t.fab.outputs }, srv := t.srv }
      ∧ RegsKept [A.drvFault] s t)

/-! ## The whole machine -/

/-- Every step, from every state whose register table is in its canonical form, keeps that form, takes exactly the
front command off the queue and puts none on it, and lets the timecode never decrease (R30), except where V3P3_AON
rises and it starts again at zero (R29). The model's own choices in it: log entry 60. -/
def Obligations.EveryStepKeepsTheMachineInOrder : Prop :=
  ∀ s t : State, s.regsWf → step s = .next t →
    t.regsWf ∧ t.pending = s.pending.tail
    ∧ ((∀ lf, s.pending.head? ≠ some (.coldReset lf)) → s.fab.timecode ≤ t.fab.timecode)
end

