-- ==== Sys2Proof/Laws/Bits.lean ====
section
/-! SUPPORT. Bit strings: packing the bits of bytes gives the bytes back. -/

namespace Sys2Proof.Machine

theorem bitsNat_byte (b : Byte) :
    BitVec.ofNat 8 (bitsNat [b.getLsbD 0, b.getLsbD 1, b.getLsbD 2, b.getLsbD 3, b.getLsbD 4, b.getLsbD 5, b.getLsbD 6,
      b.getLsbD 7]) = b := by
  revert b
  decide +kernel

@[simp] theorem packBits_bitsOf (l : List Byte) : packBits (bitsOf l) = (l, []) := by
  induction l with
  | nil => rfl
  | cons b t ih =>
    have h : bitsOf (b :: t) = b.getLsbD 0 :: b.getLsbD 1 :: b.getLsbD 2 :: b.getLsbD 3 :: b.getLsbD 4 :: b.getLsbD 5
        :: b.getLsbD 6 :: b.getLsbD 7 :: bitsOf t := by simp [bitsOf, List.range, List.range.loop]
    rw [h, packBits, ih, bitsNat_byte]

end Sys2Proof.Machine
end

