-- ==== Sys2Proof/Laws/Cells.lean ====
section
/-! SUPPORT. What drawing, spending and posting cells can do: they touch the slate alone, and a transfer either runs with
its cells or posts its request. -/

namespace Sys2Proof.Machine

/-- A run of steps that each change the slate alone changes the slate alone. -/
theorem forEach_slate {α : Type} {f : State → α → State} (h : ∀ s a, f s a = { s with slt := (f s a).slt }) (l : List α)
    (s : State) : forEach l s f = { s with slt := (forEach l s f).slt } := by
  unfold forEach
  induction l generalizing s with
  | nil => rfl
  | cons a l ih =>
    rw [List.foldl_cons, ih, h s a]

/-- Spending changes the grants alone (R48). -/
theorem spend_only (s : State) (l : List CellNeed) : s.spend l = { s with slt := (s.spend l).slt } :=
  forEach_slate (fun _ _ => rfl) l s

/-- Posting changes the requests alone (R48). -/
theorem postCells_only (s : State) (l : List CellNeed) : s.postCells l = { s with slt := (s.postCells l).slt } := by
  refine forEach_slate (fun s n => ?_) l s
  dsimp only
  split
  · rfl
  · split <;> rfl

/-- A transfer runs with the cells it needs, or posts its request and waits. -/
theorem moving_cases (s : State) (l : List CellNeed) (k : State → Host.Outcome State Fault Refusal) :
    (s.canDraw l = true ∧ s.moving l k = k (s.spend l)) ∨ (s.canDraw l = false ∧ s.moving l k = .next (s.postCells l)) := by
  unfold State.moving
  cases s.canDraw l
  · exact Or.inr ⟨rfl, rfl⟩
  · exact Or.inl ⟨rfl, rfl⟩

/-- A transfer that needs no cell runs as it is. -/
theorem moving_nil (s : State) (k : State → Host.Outcome State Fault Refusal) : s.moving [] k = k s := rfl

/-- Needs that are granted one after the other are granted together. -/
theorem draw_append {s : State} {l m : List CellNeed} (h : s.canDraw l = true) (k : s.canDraw m = true) :
    s.canDraw (l ++ m) = true := by
  simp only [State.canDraw, List.all_append, Bool.and_eq_true] at *
  exact ⟨h, k⟩

theorem draw_append_left {s : State} {l m : List CellNeed} (h : s.canDraw l = false) : s.canDraw (l ++ m) = false := by
  simp only [State.canDraw, List.all_append] at *
  simp [h]

theorem draw_append_right {s : State} {l m : List CellNeed} (h : s.canDraw m = false) : s.canDraw (l ++ m) = false := by
  simp only [State.canDraw, List.all_append] at *
  simp [h]

/-- An access of DRAM finds its cells where both columns hold enough, wherever its buffer stands. -/
theorem draw_dram {s : State} {o a n : Nat} {wr : Bool}
    (h : ceilDiv n 512 ≤ s.cellsGranted { col := colDram 0, owner := o, count := 0, wr := wr }
      ∧ ceilDiv n 512 ≤ s.cellsGranted { col := colDram 1, owner := o, count := 0, wr := wr }) :
    s.canDraw (s.dramNeeds o a n wr) = true := by
  have hc : ∀ p : Nat → Bool, (List.range (ceilDiv n 512)).countP p ≤ ceilDiv n 512 := fun p => by
    simpa using List.countP_le_length (p := p) (l := List.range (ceilDiv n 512))
  have g := fun c count => show s.cellsGranted { col := c, owner := o, count := count, wr := wr }
    = s.cellsGranted { col := c, owner := o, count := 0, wr := wr } from rfl
  unfold State.dramNeeds
  refine draw_append ?_ ?_
  · split
    · simp only [State.canDraw, List.all_cons, List.all_nil, Bool.and_true, decide_eq_true_eq, g]
      omega
    · rfl
  · split
    · rfl
    · simp only [State.canDraw, List.all_cons, List.all_nil, Bool.and_true, decide_eq_true_eq, g]
      exact Nat.le_trans (hc _) h.2

/-- An access of DRAM waits where no cell of either column is granted. -/
theorem no_draw_dram {s : State} {o a n : Nat} {wr : Bool}
    (h : 0 < ceilDiv n 512 ∧ s.cellsGranted { col := colDram 0, owner := o, count := 0, wr := wr } = 0
      ∧ s.cellsGranted { col := colDram 1, owner := o, count := 0, wr := wr } = 0) :
    s.canDraw (s.dramNeeds o a n wr) = false := by
  obtain ⟨h0, h1, h2⟩ := h
  have g := fun c count => show s.cellsGranted { col := c, owner := o, count := count, wr := wr }
    = s.cellsGranted { col := c, owner := o, count := 0, wr := wr } from rfl
  unfold State.dramNeeds
  by_cases e : (List.range (ceilDiv n 512)).countP (fun i => (s.dramLoc (a + 512 * i)).channel = 1) = 0
  · refine draw_append_left ?_
    rw [if_pos (by omega)]
    simp only [State.canDraw, List.all_cons, List.all_nil, Bool.and_true, decide_eq_false_iff_not, g]
    omega
  · refine draw_append_right ?_
    rw [if_neg e]
    simp only [State.canDraw, List.all_cons, List.all_nil, Bool.and_true, decide_eq_false_iff_not, g]
    omega

end Sys2Proof.Machine
end

