-- ==== Sys2Proof/Laws/Sparse.lean ====
section
/-! SUPPORT. What the sparse tables promise: reading after writing, and the canonical form kept. -/

namespace Sys2Proof.Machine

set_option linter.unusedSectionVars false

section
variable {α : Type} [DecidableEq α] {d : Nat → α}

theorem sparseGet_cons (k : Nat) (v : α) (m : Sparse α) (j : Nat) :
    sparseGet d ((k, v) :: m) j = if k = j then v else sparseGet d m j := rfl

/-- An entry that is not listed reads as the default. -/
theorem sparseGet_unlisted {m : Sparse α} {j : Nat} (h : ∀ e ∈ m, e.1 ≠ j) : sparseGet d m j = d j := by
  induction m with
  | nil => rfl
  | cons e m ih =>
    obtain ⟨k, v⟩ := e
    rw [sparseGet_cons, if_neg (h (k, v) (by simp))]
    exact ih fun e he => h e (by simp [he])

theorem Sparse.wf_cons {k : Nat} {v : α} {m : Sparse α} :
    Sparse.wf d ((k, v) :: m) = true ↔ v ≠ d k ∧ (∀ e ∈ m, k < e.1) ∧ Sparse.wf d m = true := by
  simp [Sparse.wf, and_assoc]

theorem mem_sparseInsert {k : Nat} {v : α} {m : Sparse α} {e : Nat × α} :
    e ∈ sparseInsert k v m ↔ e = (k, v) ∨ e ∈ m := by
  induction m with
  | nil => simp [sparseInsert]
  | cons e' m ih =>
    unfold sparseInsert
    split
    · simp
    · simp only [List.mem_cons, ih]
      exact or_left_comm

theorem sparseGet_insert {k : Nat} {v : α} {m : Sparse α} (h : ∀ e ∈ m, e.1 ≠ k) (j : Nat) :
    sparseGet d (sparseInsert k v m) j = if j = k then v else sparseGet d m j := by
  induction m with
  | nil => simp [sparseInsert, sparseGet, eq_comm]
  | cons e m ih =>
    obtain ⟨k', v'⟩ := e
    have hk : k' ≠ k := h (k', v') (by simp)
    unfold sparseInsert
    split
    · simp only [sparseGet_cons, eq_comm]
    · rw [sparseGet_cons, sparseGet_cons, ih fun e he => h e (by simp [he])]
      split <;> split <;> simp_all

theorem sparseGet_others (m : Sparse α) (k j : Nat) :
    sparseGet d (m.filter fun e => e.1 != k) j = if j = k then d j else sparseGet d m j := by
  induction m with
  | nil => simp [sparseGet]
  | cons e m ih =>
    obtain ⟨k', v'⟩ := e
    rw [List.filter_cons]
    split
    · rw [sparseGet_cons, sparseGet_cons, ih]
      split <;> split <;> simp_all
    · rename_i hk
      have hk' : k' = k := by simpa using hk
      rw [ih, sparseGet_cons, hk']
      by_cases hj : j = k
      · simp [hj]
      · simp [hj, Ne.symm hj]

/-- What a table reads as after an entry is written: the value there, and everywhere else what it read before. -/
theorem sparseGet_put (m : Sparse α) (k : Nat) (v : α) (j : Nat) :
    sparseGet d (sparsePut d m k v) j = if j = k then v else sparseGet d m j := by
  unfold sparsePut
  split
  · rename_i hv
    rw [sparseGet_others]
    split <;> simp_all
  · rw [sparseGet_insert (by simp), sparseGet_others]
    split <;> rfl

/-- Reading the entry written gives the value. -/
theorem sparseGet_put_same (m : Sparse α) (k : Nat) (v : α) : sparseGet d (sparsePut d m k v) k = v := by
  rw [sparseGet_put, if_pos rfl]

/-- Writing one entry leaves every other as it was. -/
theorem sparseGet_put_other (m : Sparse α) {k j : Nat} (v : α) (h : j ≠ k) :
    sparseGet d (sparsePut d m k v) j = sparseGet d m j := by
  rw [sparseGet_put, if_neg h]

/-- Dropping entries keeps the canonical form. -/
theorem sparseKeep_wf {m : Sparse α} (p : Nat → Bool) (h : Sparse.wf d m = true) :
    Sparse.wf d (sparseKeep p m) = true := by
  induction m with
  | nil => rfl
  | cons e m ih =>
    obtain ⟨k, v⟩ := e
    obtain ⟨h1, h2, h3⟩ := Sparse.wf_cons.1 h
    unfold sparseKeep at *
    rw [List.filter_cons]
    split
    · exact Sparse.wf_cons.2 ⟨h1, fun e he => h2 e (List.mem_filter.1 he).1, ih h3⟩
    · exact ih h3

theorem sparseInsert_wf {m : Sparse α} {k : Nat} {v : α} (h : Sparse.wf d m = true) (hk : ∀ e ∈ m, e.1 ≠ k)
    (hv : v ≠ d k) : Sparse.wf d (sparseInsert k v m) = true := by
  induction m with
  | nil => simp [sparseInsert, Sparse.wf, hv]
  | cons e m ih =>
    obtain ⟨k', v'⟩ := e
    obtain ⟨h1, h2, h3⟩ := Sparse.wf_cons.1 h
    have hne : k' ≠ k := hk (k', v') (by simp)
    unfold sparseInsert
    split
    · rename_i hlt
      refine Sparse.wf_cons.2 ⟨hv, fun e he => ?_, h⟩
      rcases List.mem_cons.1 he with rfl | he
      · exact hlt
      · have := h2 e he; omega
    · refine Sparse.wf_cons.2 ⟨h1, fun e he => ?_, ih h3 fun e he => hk e (by simp [he])⟩
      rcases mem_sparseInsert.1 he with rfl | he
      · simp; omega
      · exact h2 e he

/-- Writing keeps the canonical form. -/
theorem sparsePut_wf {m : Sparse α} (h : Sparse.wf d m = true) (k : Nat) (v : α) :
    Sparse.wf d (sparsePut d m k v) = true := by
  have ho : Sparse.wf d (m.filter fun e => e.1 != k) = true := sparseKeep_wf (fun i => i != k) h
  unfold sparsePut
  split
  · exact ho
  · rename_i hv
    exact sparseInsert_wf ho (by simp) hv

/-- Rewriting every entry keeps the canonical form. -/
theorem sparseMap_wf {m : Sparse α} (f : Nat → α → α) (h : Sparse.wf d m = true) :
    Sparse.wf d (sparseMap d f m) = true := by
  have above : ∀ (m : Sparse α) (b : Nat), (∀ e ∈ m, b < e.1) → ∀ e ∈ sparseMap d f m, b < e.1 := by
    intro m b
    induction m with
    | nil => intro _; simp [sparseMap]
    | cons e m ih =>
      obtain ⟨k, v⟩ := e
      intro hb e he
      unfold sparseMap at he
      split at he
      · exact ih (fun e he => hb e (by simp [he])) e he
      · rcases List.mem_cons.1 he with rfl | he
        · exact hb (k, v) (by simp)
        · exact ih (fun e he => hb e (by simp [he])) e he
  induction m with
  | nil => rfl
  | cons e m ih =>
    obtain ⟨k, v⟩ := e
    obtain ⟨-, h2, h3⟩ := Sparse.wf_cons.1 h
    unfold sparseMap
    split
    · exact ih h3
    · rename_i hv
      exact Sparse.wf_cons.2 ⟨hv, above m k h2, ih h3⟩

end

end Sys2Proof.Machine
end

