-- ==== Sys2Proof/Laws/Field.lean ====
section
/-! SUPPORT. Register fields: what a field reads after a write to it, to another field and to another register. -/

namespace Sys2Proof.Machine

/-- A field fits a register word. -/
def Field.fits (f : Field) : Bool := decide (f.lo + f.width ≤ 32)

/-- Two fields share no bit. -/
def Field.apart (f g : Field) : Bool := f.addr != g.addr || decide (f.lo + f.width ≤ g.lo) || decide (g.lo + g.width ≤ f.lo)

theorem Field.get_lt (f : Field) (w : Word) : f.get w < 2 ^ f.width := Nat.mod_lt _ (Nat.two_pow_pos _)

theorem Field.get_testBit (f : Field) (w : Word) (i : Nat) :
    (f.get w).testBit i = (decide (i < f.width) && w.getLsbD (f.lo + i)) := by
  rw [Field.get, Nat.testBit_mod_two_pow, Nat.testBit_div_two_pow, BitVec.getLsbD, Nat.add_comm]

theorem mul_add_testBit (a b k i : Nat) (hb : b < 2 ^ k) :
    (a * 2 ^ k + b).testBit i = if i < k then b.testBit i else a.testBit (i - k) := by
  rw [Nat.mul_comm]
  exact Nat.testBit_two_pow_mul_add a hb i

/-- The bits of a word with a field replaced. -/
theorem Field.put_bit (f : Field) (w : Word) (v i : Nat) (hi : i < 32) (hf : f.lo + f.width ≤ 32) :
    (f.put w v).getLsbD i =
      if f.lo ≤ i ∧ i < f.lo + f.width then v.testBit (i - f.lo) else w.getLsbD i := by
  have h1 : w.toNat % 2 ^ f.lo < 2 ^ f.lo := Nat.mod_lt _ (Nat.two_pow_pos _)
  have h2 : v % 2 ^ f.width < 2 ^ f.width := Nat.mod_lt _ (Nat.two_pow_pos _)
  have h3 : v % 2 ^ f.width * 2 ^ f.lo + w.toNat % 2 ^ f.lo < 2 ^ (f.lo + f.width) := by
    rw [Nat.pow_add]
    calc _ < v % 2 ^ f.width * 2 ^ f.lo + 2 ^ f.lo := by omega
      _ = (v % 2 ^ f.width + 1) * 2 ^ f.lo := by rw [Nat.add_mul, Nat.one_mul]
      _ ≤ 2 ^ f.width * 2 ^ f.lo := Nat.mul_le_mul_right _ h2
      _ = _ := Nat.mul_comm _ _
  have _ := hf
  rw [Field.put, BitVec.getLsbD_ofNat, Nat.add_assoc, mul_add_testBit _ _ _ _ h3, mul_add_testBit _ _ _ _ h1]
  simp only [hi, decide_true, Bool.true_and, Nat.testBit_mod_two_pow, Nat.testBit_div_two_pow, BitVec.getLsbD]
  by_cases ha : i < f.lo + f.width
  · by_cases hb : i < f.lo
    · have hc : ¬ f.lo ≤ i := by omega
      simp [ha, hb, hc]
    · have hc : f.lo ≤ i := by omega
      have hd : i - f.lo < f.width := by omega
      simp [ha, hb, hc, hd]
  · have hb : i - (f.lo + f.width) + (f.lo + f.width) = i := by omega
    simp [ha, hb]

/-- A field reads as what was put into it. -/
theorem Field.get_put_same (f : Field) (w : Word) (v : Nat) (hf : f.fits = true) :
    f.get (f.put w v) = v % 2 ^ f.width := by
  have hf := of_decide_eq_true hf
  apply Nat.eq_of_testBit_eq
  intro i
  rw [Field.get_testBit, Nat.testBit_mod_two_pow]
  by_cases hi : i < f.width
  · rw [Field.put_bit f w v _ (by omega) hf]
    simp [hi]
  · simp [hi]

/-- Another field of the word keeps its value. -/
theorem Field.get_put_other (f g : Field) (w : Word) (v : Nat) (hf : f.fits = true) (hg : g.fits = true)
    (h : g.lo + g.width ≤ f.lo ∨ f.lo + f.width ≤ g.lo) : g.get (f.put w v) = g.get w := by
  have hf := of_decide_eq_true hf
  have hg := of_decide_eq_true hg
  apply Nat.eq_of_testBit_eq
  intro i
  rw [Field.get_testBit, Field.get_testBit]
  by_cases hi : i < g.width
  · rw [Field.put_bit f w v _ (by omega) hf, if_neg (by omega)]
  · simp [hi]

/-- Writing one bit of a field's range leaves the rest of the word. -/
theorem Field.put_get (f : Field) (w : Word) (hf : f.fits = true) : f.put w (f.get w) = w := by
  have hf := of_decide_eq_true hf
  apply BitVec.eq_of_getLsbD_eq
  intro i hi
  rw [Field.put_bit f w _ i hi hf]
  split
  · rename_i h
    rw [Field.get_testBit]
    have h1 : i - f.lo < f.width := by omega
    have h2 : f.lo + (i - f.lo) = i := by omega
    simp [h1, h2]
  · rfl

namespace State

theorem reg_setReg_same (s : State) (a : Nat) (w : Word) :
    (s.setReg a w).reg a = w := sparseGet_put_same s.regs a w

theorem reg_setReg_other (s : State) {a b : Nat} (w : Word) (h : b ≠ a) : (s.setReg a w).reg b = s.reg b :=
  sparseGet_put_other _ _ h

theorem getF_setF_same (s : State) (f : Field) (v : Nat)
    (hf : f.fits = true) : (s.setF f v).getF f = v % 2 ^ f.width := by
  rw [getF, setF, reg_setReg_same, Field.get_put_same _ _ _ hf]

theorem getF_setF_other (s : State) (f g : Field) (v : Nat)
    (hf : f.fits = true) (hg : g.fits = true) (hd : f.apart g = true) : (s.setF f v).getF g = s.getF g := by
  by_cases ha : g.addr = f.addr
  · rw [getF, setF, ha, reg_setReg_same, Field.get_put_other f g _ _ hf hg, getF, ha]
    simp only [Field.apart, Bool.or_eq_true, decide_eq_true_eq, bne_iff_ne, ne_eq] at hd
    rcases hd with (hd | hd) | hd
    · exact absurd ha.symm hd
    · exact .inr hd
    · exact .inl hd
  · rw [getF, setF, reg_setReg_other _ _ ha, getF]

theorem setReg_wf (s : State) (h : Sparse.wf regReset s.regs = true) (a : Nat) (w : Word) :
    Sparse.wf regReset (s.setReg a w).regs = true := sparsePut_wf h a w

theorem setF_wf (s : State) (h : Sparse.wf regReset s.regs = true) (f : Field) (v : Nat) :
    Sparse.wf regReset (s.setF f v).regs = true := setReg_wf s h _ _

end State

end Sys2Proof.Machine
end

