-- ==== Sys2Proof/Laws/Link.lean ====
section
/-! SUPPORT. Sealing and opening of link messages (chapter 14): a message that is sealed opens as itself under the same
key and direction. -/

namespace Sys2Proof.Machine

/-! ## Little-endian fields -/

theorem leBytes_length (n v : Nat) : (leBytes n v).length = n := by
  induction n generalizing v with
  | zero => rfl
  | succ n ih => simp [leBytes, ih]

theorem leNat_leBytes (n v : Nat) : leNat (leBytes n v) = v % 256 ^ n := by
  induction n generalizing v with
  | zero => simp [leBytes, leNat, Nat.mod_one]
  | succ n ih =>
    rw [leBytes, leNat, ih, Nat.pow_succ', Nat.mod_mul]
    simp

/-- A field reads what stands at its offset. -/
theorem field_append (a b c : List Byte) : field (a ++ (b ++ c)) a.length b.length = leNat b := by
  simp [field, slice]

/-! ## The ciphers -/

theorem xorBytes_length (a b : List Byte) : (xorBytes a b).length = min a.length b.length := by
  simp [xorBytes]

/-- Combining twice with the same bytes gives the first bytes back. -/
theorem xorBytes_xorBytes {a b : List Byte} (h : a.length ≤ b.length) : xorBytes (xorBytes a b) b = a := by
  induction a generalizing b with
  | nil => simp [xorBytes]
  | cons x a ih =>
    cases b with
    | nil => simp at h
    | cons y b =>
      have := ih (b := b) (by simpa using h)
      simp only [xorBytes, List.zipWith_cons_cons] at this ⊢
      rw [this, BitVec.xor_assoc, BitVec.xor_self, BitVec.xor_zero]

theorem shiftRows_length (l : List Byte) : (shiftRows l).length = 16 := by simp [shiftRows]

/-- A key schedule whose last round key is whole makes blocks of 16 bytes. -/
theorem aesEnc_length {k blk : List Byte} (h : ((aesKeys k).getD 14 []).length = 16) : (aesEnc k blk).length = 16 := by
  unfold aesEnc
  split
  · rename_i k0 ks e
    rw [e] at h
    have : (ks.getD 13 []).length = 16 := by simpa using h
    simp only [xorBytes_length, shiftRows_length, this]
    rfl
  · rename_i e
    rw [e] at h
    simp at h

theorem gcmStream_length {k iv : List Byte} (c n : Nat) (h : ((aesKeys k).getD 14 []).length = 16) :
    (gcmStream k iv c n).length = 16 * n := by
  unfold gcmStream
  rw [List.length_flatten, List.map_map]
  have : ((List.range n).map (List.length ∘ fun i => aesEnc k (iv ++ beBytes 4 (c + i)))) = List.replicate n 16 :=
    List.ext_getElem (by simp) fun i _ _ => by simp [aesEnc_length h]
  rw [this, List.sum_replicate_nat, Nat.mul_comm]

theorem gcmCrypt_length {k iv m : List Byte} (h : ((aesKeys k).getD 14 []).length = 16) :
    (gcmCrypt k iv m).length = m.length := by
  rw [gcmCrypt, xorBytes_length, gcmStream_length _ _ h]
  omega

/-- The cipher is its own inverse. -/
theorem gcmCrypt_gcmCrypt {k iv m : List Byte} (h : ((aesKeys k).getD 14 []).length = 16) :
    gcmCrypt k iv (gcmCrypt k iv m) = m := by
  conv => lhs; rw [gcmCrypt, gcmCrypt_length h]
  rw [gcmCrypt]
  exact xorBytes_xorBytes (by rw [gcmStream_length _ _ h]; omega)

/-! ## Messages -/

/-- The fields of a message fit their widths (Table 14.2). -/
def linkFits (m : LinkMsg) : Bool :=
  m.magic < 2 ^ 16 && m.version < 2 ^ 16 && m.type < 2 ^ 8 && m.body.length < 2 ^ 16 && m.epoch < 2 ^ 32 && m.tenant < 2 ^ 16
    && m.gen < 2 ^ 16 && m.seq < 2 ^ 64 && m.nsid < 2 ^ 32

theorem msgHead_length (m : LinkMsg) : (msgHead m).length = 32 := by
  simp [msgHead, leBytes_length, zeros]

/-- The header says what the message holds. -/
theorem msgHead_fields {m : LinkMsg} (h : linkFits m = true) (r body : List Byte) :
    msgLen (msgHead m ++ r) = m.body.length ∧ field (msgHead m ++ r) 0x10 8 = m.seq
    ∧ msgOfHead (msgHead m ++ r) body = { m with body := body } := by
  simp only [linkFits, Bool.and_eq_true, decide_eq_true_eq] at h
  obtain ⟨⟨⟨⟨⟨⟨⟨⟨h1, h2⟩, h3⟩, h4⟩, h5⟩, h6⟩, h7⟩, h8⟩, h9⟩ := h
  have ack : bit (m.ackNow.toNat % 256 ^ 1) 0 = m.ackNow := by cases m.ackNow <;> rfl
  have at_ := fun (a b c : List Byte) (o n v : Nat) (e : msgHead m ++ r = a ++ (leBytes n v ++ c)) (ho : a.length = o) =>
    show field (msgHead m ++ r) o n = v % 256 ^ n by
      have := field_append a (leBytes n v) c
      rwa [← e, leBytes_length, ho, leNat_leBytes] at this
  have e := fun n v => leBytes_length n v
  have f0 : field (msgHead m ++ r) 0 2 = m.magic := by
    rw [at_ [] [] _ 0 2 m.magic (by simp only [msgHead, List.append_assoc, List.nil_append]; rfl) rfl]; omega
  have f2 : field (msgHead m ++ r) 2 2 = m.version := by
    rw [at_ (leBytes 2 m.magic) [] _ 2 2 m.version (by simp only [msgHead, List.append_assoc]; rfl) (by simp [e])]; omega
  have f4 : field (msgHead m ++ r) 4 1 = m.type := by
    rw [at_ (leBytes 2 m.magic ++ leBytes 2 m.version) [] _ 4 1 m.type
      (by simp only [msgHead, List.append_assoc]; rfl) (by simp [e])]; omega
  have f5 : bit (field (msgHead m ++ r) 5 1) 0 = m.ackNow := by
    rw [at_ (leBytes 2 m.magic ++ leBytes 2 m.version ++ leBytes 1 m.type) [] _ 5 1 m.ackNow.toNat
      (by simp only [msgHead, List.append_assoc]; rfl) (by simp [e]), ack]
  have f6 : field (msgHead m ++ r) 6 2 = m.body.length := by
    rw [at_ (leBytes 2 m.magic ++ leBytes 2 m.version ++ leBytes 1 m.type ++ leBytes 1 m.ackNow.toNat) [] _ 6 2 m.body.length
      (by simp only [msgHead, List.append_assoc]; rfl) (by simp [e])]; omega
  have f8 : field (msgHead m ++ r) 8 4 = m.epoch := by
    rw [at_ (leBytes 2 m.magic ++ leBytes 2 m.version ++ leBytes 1 m.type ++ leBytes 1 m.ackNow.toNat
      ++ leBytes 2 m.body.length) [] _ 8 4 m.epoch (by simp only [msgHead, List.append_assoc]; rfl) (by simp [e])]; omega
  have fC : field (msgHead m ++ r) 0x0C 2 = m.tenant := by
    rw [at_ (leBytes 2 m.magic ++ leBytes 2 m.version ++ leBytes 1 m.type ++ leBytes 1 m.ackNow.toNat
      ++ leBytes 2 m.body.length ++ leBytes 4 m.epoch) [] _ 0x0C 2 m.tenant
      (by simp only [msgHead, List.append_assoc]; rfl) (by simp [e])]; omega
  have fE : field (msgHead m ++ r) 0x0E 2 = m.gen := by
    rw [at_ (leBytes 2 m.magic ++ leBytes 2 m.version ++ leBytes 1 m.type ++ leBytes 1 m.ackNow.toNat
      ++ leBytes 2 m.body.length ++ leBytes 4 m.epoch ++ leBytes 2 m.tenant) [] _ 0x0E 2 m.gen
      (by simp only [msgHead, List.append_assoc]; rfl) (by simp [e])]; omega
  have f10 : field (msgHead m ++ r) 0x10 8 = m.seq := by
    rw [at_ (leBytes 2 m.magic ++ leBytes 2 m.version ++ leBytes 1 m.type ++ leBytes 1 m.ackNow.toNat
      ++ leBytes 2 m.body.length ++ leBytes 4 m.epoch ++ leBytes 2 m.tenant ++ leBytes 2 m.gen) [] _ 0x10 8 m.seq
      (by simp only [msgHead, List.append_assoc]; rfl) (by simp [e])]; omega
  have f18 : field (msgHead m ++ r) 0x18 4 = m.nsid := by
    rw [at_ (leBytes 2 m.magic ++ leBytes 2 m.version ++ leBytes 1 m.type ++ leBytes 1 m.ackNow.toNat
      ++ leBytes 2 m.body.length ++ leBytes 4 m.epoch ++ leBytes 2 m.tenant ++ leBytes 2 m.gen ++ leBytes 8 m.seq) [] _ 0x18 4
      m.nsid (by simp only [msgHead, List.append_assoc]; rfl) (by simp [e])]; omega
  exact ⟨f6, f10, by simp only [msgOfHead, f0, f2, f4, f5, f8, fC, fE, f10, f18]⟩

/-- A message in the clear reads as it was written (R481). -/
theorem clearMsg_written {m : LinkMsg} {l : List Byte} (h : linkFits m = true) (hl : l.length = m.body.length) :
    clearMsg (msgHead m ++ l) = { m with body := l } := by
  unfold clearMsg
  obtain ⟨f6, _, fm⟩ := msgHead_fields h l (slice (msgHead m ++ l) 32 (msgLen (msgHead m ++ l)))
  rw [fm, f6]
  have : slice (msgHead m ++ l) 32 m.body.length = l := by
    unfold slice
    rw [← msgHead_length m, List.drop_left, ← hl, List.take_length]
  rw [this]

theorem clearMsg_body {m : LinkMsg} {l : List Byte} (h : linkFits m = true) (hl : l.length = m.body.length) :
    (clearMsg (msgHead m ++ l)).body = l := by rw [clearMsg_written h hl]

/-- A sealed message opens as itself (R480, R481). -/
theorem openSealed_sealMsg {k : List Byte} (dir : Byte) {m : LinkMsg} (hk : ((aesKeys k).getD 14 []).length = 16)
    (h : linkFits m = true) : openSealed k dir (sealMsg k dir m) = some m := by
  have hl := msgHead_length m
  have hc : (gcmCrypt k (linkIv dir m.seq) m.body).length = m.body.length := gcmCrypt_length hk
  have ht : (gcmTag k (linkIv dir m.seq) (msgHead m) (gcmCrypt k (linkIv dir m.seq) m.body)).length = 16 := by
    simp [gcmTag, xorBytes_length, gcmStream_length 1 1 hk, beBytes, leBytes_length]
  unfold openSealed sealMsg
  simp only [List.append_assoc]
  obtain ⟨f6, f10, fm⟩ := msgHead_fields h
    (gcmCrypt k (linkIv dir m.seq) m.body ++ gcmTag k (linkIv dir m.seq) (msgHead m) (gcmCrypt k (linkIv dir m.seq) m.body))
    m.body
  have s1 : slice (msgHead m ++ (gcmCrypt k (linkIv dir m.seq) m.body
      ++ gcmTag k (linkIv dir m.seq) (msgHead m) (gcmCrypt k (linkIv dir m.seq) m.body))) 32 m.body.length
      = gcmCrypt k (linkIv dir m.seq) m.body := by
    unfold slice
    rw [← hl, List.drop_left, ← hc, List.take_left]
  have s2 : slice (msgHead m ++ (gcmCrypt k (linkIv dir m.seq) m.body
      ++ gcmTag k (linkIv dir m.seq) (msgHead m) (gcmCrypt k (linkIv dir m.seq) m.body))) (32 + m.body.length) 16
      = gcmTag k (linkIv dir m.seq) (msgHead m) (gcmCrypt k (linkIv dir m.seq) m.body) := by
    unfold slice
    rw [← hl, ← List.drop_drop, List.drop_left, ← hc, List.drop_left]
    exact List.take_of_length_le (by omega)
  have s3 : (msgHead m ++ (gcmCrypt k (linkIv dir m.seq) m.body
      ++ gcmTag k (linkIv dir m.seq) (msgHead m) (gcmCrypt k (linkIv dir m.seq) m.body))).take 32 = msgHead m := by
    rw [← hl, List.take_left]
  rw [f6, f10, s1, s2, s3, if_pos rfl, gcmCrypt_gcmCrypt hk, fm]

end Sys2Proof.Machine
end

