-- ==== Sys2Proof/Laws/State.lean ====
section
/-! SUPPORT. Every field of the state after every base update, by `rfl`: what the update leaves, and where it is a
unit's own record, what the update puts there. -/

namespace Sys2Proof.Machine.State

variable (s : State)

@[simp] theorem setReg_fab (a : Nat) (w : Word) : (s.setReg a w).fab = s.fab := rfl
@[simp] theorem setReg_slt (a : Nat) (w : Word) : (s.setReg a w).slt = s.slt := rfl
@[simp] theorem setReg_host (a : Nat) (w : Word) : (s.setReg a w).host = s.host := rfl
@[simp] theorem setReg_ten (a : Nat) (w : Word) : (s.setReg a w).ten = s.ten := rfl
@[simp] theorem setReg_fch (a : Nat) (w : Word) : (s.setReg a w).fch = s.fch := rfl
@[simp] theorem setReg_ftl (a : Nat) (w : Word) : (s.setReg a w).ftl = s.ftl := rfl
@[simp] theorem setReg_dch (a : Nat) (w : Word) : (s.setReg a w).dch = s.dch := rfl
@[simp] theorem setReg_srv (a : Nat) (w : Word) : (s.setReg a w).srv = s.srv := rfl
@[simp] theorem setReg_eng (a : Nat) (w : Word) : (s.setReg a w).eng = s.eng := rfl
@[simp] theorem setReg_tsk (a : Nat) (w : Word) : (s.setReg a w).tsk = s.tsk := rfl
@[simp] theorem setReg_pmx (a : Nat) (w : Word) : (s.setReg a w).pmx = s.pmx := rfl
@[simp] theorem setReg_cmp (a : Nat) (w : Word) : (s.setReg a w).cmp = s.cmp := rfl
@[simp] theorem setReg_sec (a : Nat) (w : Word) : (s.setReg a w).sec = s.sec := rfl
@[simp] theorem setReg_mem (a : Nat) (w : Word) : (s.setReg a w).mem = s.mem := rfl
@[simp] theorem setReg_cnt (a : Nat) (w : Word) : (s.setReg a w).cnt = s.cnt := rfl
@[simp] theorem setReg_mgt (a : Nat) (w : Word) : (s.setReg a w).mgt = s.mgt := rfl
@[simp] theorem setReg_nvs (a : Nat) (w : Word) : (s.setReg a w).nvs = s.nvs := rfl
@[simp] theorem setReg_upd (a : Nat) (w : Word) : (s.setReg a w).upd = s.upd := rfl
@[simp] theorem setReg_pwr (a : Nat) (w : Word) : (s.setReg a w).pwr = s.pwr := rfl
@[simp] theorem setReg_freeCtr (a : Nat) (w : Word) : (s.setReg a w).freeCtr = s.freeCtr := rfl
@[simp] theorem setReg_pending (a : Nat) (w : Word) : (s.setReg a w).pending = s.pending := rfl
@[simp] theorem setReg_tick (a : Nat) (w : Word) : (s.setReg a w).tick = s.tick := rfl

@[simp] theorem setF_fab (f : Field) (v : Nat) : (s.setF f v).fab = s.fab := rfl
@[simp] theorem setF_slt (f : Field) (v : Nat) : (s.setF f v).slt = s.slt := rfl
@[simp] theorem setF_host (f : Field) (v : Nat) : (s.setF f v).host = s.host := rfl
@[simp] theorem setF_ten (f : Field) (v : Nat) : (s.setF f v).ten = s.ten := rfl
@[simp] theorem setF_fch (f : Field) (v : Nat) : (s.setF f v).fch = s.fch := rfl
@[simp] theorem setF_ftl (f : Field) (v : Nat) : (s.setF f v).ftl = s.ftl := rfl
@[simp] theorem setF_dch (f : Field) (v : Nat) : (s.setF f v).dch = s.dch := rfl
@[simp] theorem setF_srv (f : Field) (v : Nat) : (s.setF f v).srv = s.srv := rfl
@[simp] theorem setF_eng (f : Field) (v : Nat) : (s.setF f v).eng = s.eng := rfl
@[simp] theorem setF_tsk (f : Field) (v : Nat) : (s.setF f v).tsk = s.tsk := rfl
@[simp] theorem setF_pmx (f : Field) (v : Nat) : (s.setF f v).pmx = s.pmx := rfl
@[simp] theorem setF_cmp (f : Field) (v : Nat) : (s.setF f v).cmp = s.cmp := rfl
@[simp] theorem setF_sec (f : Field) (v : Nat) : (s.setF f v).sec = s.sec := rfl
@[simp] theorem setF_mem (f : Field) (v : Nat) : (s.setF f v).mem = s.mem := rfl
@[simp] theorem setF_cnt (f : Field) (v : Nat) : (s.setF f v).cnt = s.cnt := rfl
@[simp] theorem setF_mgt (f : Field) (v : Nat) : (s.setF f v).mgt = s.mgt := rfl
@[simp] theorem setF_nvs (f : Field) (v : Nat) : (s.setF f v).nvs = s.nvs := rfl
@[simp] theorem setF_upd (f : Field) (v : Nat) : (s.setF f v).upd = s.upd := rfl
@[simp] theorem setF_pwr (f : Field) (v : Nat) : (s.setF f v).pwr = s.pwr := rfl
@[simp] theorem setF_freeCtr (f : Field) (v : Nat) : (s.setF f v).freeCtr = s.freeCtr := rfl
@[simp] theorem setF_pending (f : Field) (v : Nat) : (s.setF f v).pending = s.pending := rfl
@[simp] theorem setF_tick (f : Field) (v : Nat) : (s.setF f v).tick = s.tick := rfl

@[simp] theorem addF_fab (f : Field) (n : Nat) : (s.addF f n).fab = s.fab := rfl
@[simp] theorem addF_slt (f : Field) (n : Nat) : (s.addF f n).slt = s.slt := rfl
@[simp] theorem addF_host (f : Field) (n : Nat) : (s.addF f n).host = s.host := rfl
@[simp] theorem addF_ten (f : Field) (n : Nat) : (s.addF f n).ten = s.ten := rfl
@[simp] theorem addF_fch (f : Field) (n : Nat) : (s.addF f n).fch = s.fch := rfl
@[simp] theorem addF_ftl (f : Field) (n : Nat) : (s.addF f n).ftl = s.ftl := rfl
@[simp] theorem addF_dch (f : Field) (n : Nat) : (s.addF f n).dch = s.dch := rfl
@[simp] theorem addF_srv (f : Field) (n : Nat) : (s.addF f n).srv = s.srv := rfl
@[simp] theorem addF_eng (f : Field) (n : Nat) : (s.addF f n).eng = s.eng := rfl
@[simp] theorem addF_tsk (f : Field) (n : Nat) : (s.addF f n).tsk = s.tsk := rfl
@[simp] theorem addF_pmx (f : Field) (n : Nat) : (s.addF f n).pmx = s.pmx := rfl
@[simp] theorem addF_cmp (f : Field) (n : Nat) : (s.addF f n).cmp = s.cmp := rfl
@[simp] theorem addF_sec (f : Field) (n : Nat) : (s.addF f n).sec = s.sec := rfl
@[simp] theorem addF_mem (f : Field) (n : Nat) : (s.addF f n).mem = s.mem := rfl
@[simp] theorem addF_cnt (f : Field) (n : Nat) : (s.addF f n).cnt = s.cnt := rfl
@[simp] theorem addF_mgt (f : Field) (n : Nat) : (s.addF f n).mgt = s.mgt := rfl
@[simp] theorem addF_nvs (f : Field) (n : Nat) : (s.addF f n).nvs = s.nvs := rfl
@[simp] theorem addF_upd (f : Field) (n : Nat) : (s.addF f n).upd = s.upd := rfl
@[simp] theorem addF_pwr (f : Field) (n : Nat) : (s.addF f n).pwr = s.pwr := rfl
@[simp] theorem addF_freeCtr (f : Field) (n : Nat) : (s.addF f n).freeCtr = s.freeCtr := rfl
@[simp] theorem addF_pending (f : Field) (n : Nat) : (s.addF f n).pending = s.pending := rfl
@[simp] theorem addF_tick (f : Field) (n : Nat) : (s.addF f n).tick = s.tick := rfl

@[simp] theorem incF_fab (f : Field) : (s.incF f).fab = s.fab := rfl
@[simp] theorem incF_slt (f : Field) : (s.incF f).slt = s.slt := rfl
@[simp] theorem incF_host (f : Field) : (s.incF f).host = s.host := rfl
@[simp] theorem incF_ten (f : Field) : (s.incF f).ten = s.ten := rfl
@[simp] theorem incF_fch (f : Field) : (s.incF f).fch = s.fch := rfl
@[simp] theorem incF_ftl (f : Field) : (s.incF f).ftl = s.ftl := rfl
@[simp] theorem incF_dch (f : Field) : (s.incF f).dch = s.dch := rfl
@[simp] theorem incF_srv (f : Field) : (s.incF f).srv = s.srv := rfl
@[simp] theorem incF_eng (f : Field) : (s.incF f).eng = s.eng := rfl
@[simp] theorem incF_tsk (f : Field) : (s.incF f).tsk = s.tsk := rfl
@[simp] theorem incF_pmx (f : Field) : (s.incF f).pmx = s.pmx := rfl
@[simp] theorem incF_cmp (f : Field) : (s.incF f).cmp = s.cmp := rfl
@[simp] theorem incF_sec (f : Field) : (s.incF f).sec = s.sec := rfl
@[simp] theorem incF_mem (f : Field) : (s.incF f).mem = s.mem := rfl
@[simp] theorem incF_cnt (f : Field) : (s.incF f).cnt = s.cnt := rfl
@[simp] theorem incF_mgt (f : Field) : (s.incF f).mgt = s.mgt := rfl
@[simp] theorem incF_nvs (f : Field) : (s.incF f).nvs = s.nvs := rfl
@[simp] theorem incF_upd (f : Field) : (s.incF f).upd = s.upd := rfl
@[simp] theorem incF_pwr (f : Field) : (s.incF f).pwr = s.pwr := rfl
@[simp] theorem incF_freeCtr (f : Field) : (s.incF f).freeCtr = s.freeCtr := rfl
@[simp] theorem incF_pending (f : Field) : (s.incF f).pending = s.pending := rfl
@[simp] theorem incF_tick (f : Field) : (s.incF f).tick = s.tick := rfl

@[simp] theorem subF_fab (f : Field) (n : Nat) : (s.subF f n).fab = s.fab := rfl
@[simp] theorem subF_slt (f : Field) (n : Nat) : (s.subF f n).slt = s.slt := rfl
@[simp] theorem subF_host (f : Field) (n : Nat) : (s.subF f n).host = s.host := rfl
@[simp] theorem subF_ten (f : Field) (n : Nat) : (s.subF f n).ten = s.ten := rfl
@[simp] theorem subF_fch (f : Field) (n : Nat) : (s.subF f n).fch = s.fch := rfl
@[simp] theorem subF_ftl (f : Field) (n : Nat) : (s.subF f n).ftl = s.ftl := rfl
@[simp] theorem subF_dch (f : Field) (n : Nat) : (s.subF f n).dch = s.dch := rfl
@[simp] theorem subF_srv (f : Field) (n : Nat) : (s.subF f n).srv = s.srv := rfl
@[simp] theorem subF_eng (f : Field) (n : Nat) : (s.subF f n).eng = s.eng := rfl
@[simp] theorem subF_tsk (f : Field) (n : Nat) : (s.subF f n).tsk = s.tsk := rfl
@[simp] theorem subF_pmx (f : Field) (n : Nat) : (s.subF f n).pmx = s.pmx := rfl
@[simp] theorem subF_cmp (f : Field) (n : Nat) : (s.subF f n).cmp = s.cmp := rfl
@[simp] theorem subF_sec (f : Field) (n : Nat) : (s.subF f n).sec = s.sec := rfl
@[simp] theorem subF_mem (f : Field) (n : Nat) : (s.subF f n).mem = s.mem := rfl
@[simp] theorem subF_cnt (f : Field) (n : Nat) : (s.subF f n).cnt = s.cnt := rfl
@[simp] theorem subF_mgt (f : Field) (n : Nat) : (s.subF f n).mgt = s.mgt := rfl
@[simp] theorem subF_nvs (f : Field) (n : Nat) : (s.subF f n).nvs = s.nvs := rfl
@[simp] theorem subF_upd (f : Field) (n : Nat) : (s.subF f n).upd = s.upd := rfl
@[simp] theorem subF_pwr (f : Field) (n : Nat) : (s.subF f n).pwr = s.pwr := rfl
@[simp] theorem subF_freeCtr (f : Field) (n : Nat) : (s.subF f n).freeCtr = s.freeCtr := rfl
@[simp] theorem subF_pending (f : Field) (n : Nat) : (s.subF f n).pending = s.pending := rfl
@[simp] theorem subF_tick (f : Field) (n : Nat) : (s.subF f n).tick = s.tick := rfl

@[simp] theorem drew_regs : (s.drew).regs = s.regs := rfl
@[simp] theorem drew_fab : (s.drew).fab = s.fab := rfl
@[simp] theorem drew_slt : (s.drew).slt = s.slt := rfl
@[simp] theorem drew_host : (s.drew).host = s.host := rfl
@[simp] theorem drew_ten : (s.drew).ten = s.ten := rfl
@[simp] theorem drew_fch : (s.drew).fch = s.fch := rfl
@[simp] theorem drew_ftl : (s.drew).ftl = s.ftl := rfl
@[simp] theorem drew_dch : (s.drew).dch = s.dch := rfl
@[simp] theorem drew_srv : (s.drew).srv = s.srv := rfl
@[simp] theorem drew_eng : (s.drew).eng = s.eng := rfl
@[simp] theorem drew_tsk : (s.drew).tsk = s.tsk := rfl
@[simp] theorem drew_pmx : (s.drew).pmx = s.pmx := rfl
@[simp] theorem drew_cmp : (s.drew).cmp = s.cmp := rfl
@[simp] theorem drew_sec : (s.drew).sec = s.sec := rfl
@[simp] theorem drew_mem : (s.drew).mem = s.mem := rfl
@[simp] theorem drew_cnt : (s.drew).cnt = s.cnt := rfl
@[simp] theorem drew_mgt : (s.drew).mgt = s.mgt := rfl
@[simp] theorem drew_nvs : (s.drew).nvs = s.nvs := rfl
@[simp] theorem drew_upd : (s.drew).upd = s.upd := rfl
@[simp] theorem drew_pwr : (s.drew).pwr = s.pwr := rfl
@[simp] theorem drew_pending : (s.drew).pending = s.pending := rfl
@[simp] theorem drew_reg (a : Nat) : (s.drew).reg a = s.reg a := rfl
@[simp] theorem drew_getF (f : Field) : (s.drew).getF f = s.getF f := rfl
@[simp] theorem drew_tick : (s.drew).tick = s.tick := rfl

@[simp] theorem setTenant_regs (n : Nat) (x : Tenant) : (s.setTenant n x).regs = s.regs := rfl
@[simp] theorem setTenant_fab (n : Nat) (x : Tenant) : (s.setTenant n x).fab = s.fab := rfl
@[simp] theorem setTenant_slt (n : Nat) (x : Tenant) : (s.setTenant n x).slt = s.slt := rfl
@[simp] theorem setTenant_host (n : Nat) (x : Tenant) : (s.setTenant n x).host = s.host := rfl
@[simp] theorem setTenant_fch (n : Nat) (x : Tenant) : (s.setTenant n x).fch = s.fch := rfl
@[simp] theorem setTenant_ftl (n : Nat) (x : Tenant) : (s.setTenant n x).ftl = s.ftl := rfl
@[simp] theorem setTenant_dch (n : Nat) (x : Tenant) : (s.setTenant n x).dch = s.dch := rfl
@[simp] theorem setTenant_srv (n : Nat) (x : Tenant) : (s.setTenant n x).srv = s.srv := rfl
@[simp] theorem setTenant_eng (n : Nat) (x : Tenant) : (s.setTenant n x).eng = s.eng := rfl
@[simp] theorem setTenant_tsk (n : Nat) (x : Tenant) : (s.setTenant n x).tsk = s.tsk := rfl
@[simp] theorem setTenant_pmx (n : Nat) (x : Tenant) : (s.setTenant n x).pmx = s.pmx := rfl
@[simp] theorem setTenant_cmp (n : Nat) (x : Tenant) : (s.setTenant n x).cmp = s.cmp := rfl
@[simp] theorem setTenant_sec (n : Nat) (x : Tenant) : (s.setTenant n x).sec = s.sec := rfl
@[simp] theorem setTenant_mem (n : Nat) (x : Tenant) : (s.setTenant n x).mem = s.mem := rfl
@[simp] theorem setTenant_cnt (n : Nat) (x : Tenant) : (s.setTenant n x).cnt = s.cnt := rfl
@[simp] theorem setTenant_mgt (n : Nat) (x : Tenant) : (s.setTenant n x).mgt = s.mgt := rfl
@[simp] theorem setTenant_nvs (n : Nat) (x : Tenant) : (s.setTenant n x).nvs = s.nvs := rfl
@[simp] theorem setTenant_upd (n : Nat) (x : Tenant) : (s.setTenant n x).upd = s.upd := rfl
@[simp] theorem setTenant_pwr (n : Nat) (x : Tenant) : (s.setTenant n x).pwr = s.pwr := rfl
@[simp] theorem setTenant_freeCtr (n : Nat) (x : Tenant) : (s.setTenant n x).freeCtr = s.freeCtr := rfl
@[simp] theorem setTenant_pending (n : Nat) (x : Tenant) : (s.setTenant n x).pending = s.pending := rfl
@[simp] theorem setTenant_reg (n : Nat) (x : Tenant) (a : Nat) : (s.setTenant n x).reg a = s.reg a := rfl
@[simp] theorem setTenant_getF (n : Nat) (x : Tenant) (f : Field) : (s.setTenant n x).getF f = s.getF f := rfl
@[simp] theorem setTenant_tick (n : Nat) (x : Tenant) : (s.setTenant n x).tick = s.tick := rfl

@[simp] theorem modTenant_regs (n : Nat) (g : Tenant → Tenant) : (s.modTenant n g).regs = s.regs := rfl
@[simp] theorem modTenant_fab (n : Nat) (g : Tenant → Tenant) : (s.modTenant n g).fab = s.fab := rfl
@[simp] theorem modTenant_slt (n : Nat) (g : Tenant → Tenant) : (s.modTenant n g).slt = s.slt := rfl
@[simp] theorem modTenant_host (n : Nat) (g : Tenant → Tenant) : (s.modTenant n g).host = s.host := rfl
@[simp] theorem modTenant_fch (n : Nat) (g : Tenant → Tenant) : (s.modTenant n g).fch = s.fch := rfl
@[simp] theorem modTenant_ftl (n : Nat) (g : Tenant → Tenant) : (s.modTenant n g).ftl = s.ftl := rfl
@[simp] theorem modTenant_dch (n : Nat) (g : Tenant → Tenant) : (s.modTenant n g).dch = s.dch := rfl
@[simp] theorem modTenant_srv (n : Nat) (g : Tenant → Tenant) : (s.modTenant n g).srv = s.srv := rfl
@[simp] theorem modTenant_eng (n : Nat) (g : Tenant → Tenant) : (s.modTenant n g).eng = s.eng := rfl
@[simp] theorem modTenant_tsk (n : Nat) (g : Tenant → Tenant) : (s.modTenant n g).tsk = s.tsk := rfl
@[simp] theorem modTenant_pmx (n : Nat) (g : Tenant → Tenant) : (s.modTenant n g).pmx = s.pmx := rfl
@[simp] theorem modTenant_cmp (n : Nat) (g : Tenant → Tenant) : (s.modTenant n g).cmp = s.cmp := rfl
@[simp] theorem modTenant_sec (n : Nat) (g : Tenant → Tenant) : (s.modTenant n g).sec = s.sec := rfl
@[simp] theorem modTenant_mem (n : Nat) (g : Tenant → Tenant) : (s.modTenant n g).mem = s.mem := rfl
@[simp] theorem modTenant_cnt (n : Nat) (g : Tenant → Tenant) : (s.modTenant n g).cnt = s.cnt := rfl
@[simp] theorem modTenant_mgt (n : Nat) (g : Tenant → Tenant) : (s.modTenant n g).mgt = s.mgt := rfl
@[simp] theorem modTenant_nvs (n : Nat) (g : Tenant → Tenant) : (s.modTenant n g).nvs = s.nvs := rfl
@[simp] theorem modTenant_upd (n : Nat) (g : Tenant → Tenant) : (s.modTenant n g).upd = s.upd := rfl
@[simp] theorem modTenant_pwr (n : Nat) (g : Tenant → Tenant) : (s.modTenant n g).pwr = s.pwr := rfl
@[simp] theorem modTenant_freeCtr (n : Nat) (g : Tenant → Tenant) : (s.modTenant n g).freeCtr = s.freeCtr := rfl
@[simp] theorem modTenant_pending (n : Nat) (g : Tenant → Tenant) : (s.modTenant n g).pending = s.pending := rfl
@[simp] theorem modTenant_reg (n : Nat) (g : Tenant → Tenant) (a : Nat) : (s.modTenant n g).reg a = s.reg a := rfl
@[simp] theorem modTenant_getF (n : Nat) (g : Tenant → Tenant) (f : Field) : (s.modTenant n g).getF f = s.getF f := rfl
@[simp] theorem modTenant_tick (n : Nat) (g : Tenant → Tenant) : (s.modTenant n g).tick = s.tick := rfl

@[simp] theorem setCtrl_regs (n : Nat) (x : Ctrl) : (s.setCtrl n x).regs = s.regs := rfl
@[simp] theorem setCtrl_fab (n : Nat) (x : Ctrl) : (s.setCtrl n x).fab = s.fab := rfl
@[simp] theorem setCtrl_slt (n : Nat) (x : Ctrl) : (s.setCtrl n x).slt = s.slt := rfl
@[simp] theorem setCtrl_ten (n : Nat) (x : Ctrl) : (s.setCtrl n x).ten = s.ten := rfl
@[simp] theorem setCtrl_fch (n : Nat) (x : Ctrl) : (s.setCtrl n x).fch = s.fch := rfl
@[simp] theorem setCtrl_ftl (n : Nat) (x : Ctrl) : (s.setCtrl n x).ftl = s.ftl := rfl
@[simp] theorem setCtrl_dch (n : Nat) (x : Ctrl) : (s.setCtrl n x).dch = s.dch := rfl
@[simp] theorem setCtrl_srv (n : Nat) (x : Ctrl) : (s.setCtrl n x).srv = s.srv := rfl
@[simp] theorem setCtrl_eng (n : Nat) (x : Ctrl) : (s.setCtrl n x).eng = s.eng := rfl
@[simp] theorem setCtrl_tsk (n : Nat) (x : Ctrl) : (s.setCtrl n x).tsk = s.tsk := rfl
@[simp] theorem setCtrl_pmx (n : Nat) (x : Ctrl) : (s.setCtrl n x).pmx = s.pmx := rfl
@[simp] theorem setCtrl_cmp (n : Nat) (x : Ctrl) : (s.setCtrl n x).cmp = s.cmp := rfl
@[simp] theorem setCtrl_sec (n : Nat) (x : Ctrl) : (s.setCtrl n x).sec = s.sec := rfl
@[simp] theorem setCtrl_mem (n : Nat) (x : Ctrl) : (s.setCtrl n x).mem = s.mem := rfl
@[simp] theorem setCtrl_cnt (n : Nat) (x : Ctrl) : (s.setCtrl n x).cnt = s.cnt := rfl
@[simp] theorem setCtrl_mgt (n : Nat) (x : Ctrl) : (s.setCtrl n x).mgt = s.mgt := rfl
@[simp] theorem setCtrl_nvs (n : Nat) (x : Ctrl) : (s.setCtrl n x).nvs = s.nvs := rfl
@[simp] theorem setCtrl_upd (n : Nat) (x : Ctrl) : (s.setCtrl n x).upd = s.upd := rfl
@[simp] theorem setCtrl_pwr (n : Nat) (x : Ctrl) : (s.setCtrl n x).pwr = s.pwr := rfl
@[simp] theorem setCtrl_freeCtr (n : Nat) (x : Ctrl) : (s.setCtrl n x).freeCtr = s.freeCtr := rfl
@[simp] theorem setCtrl_pending (n : Nat) (x : Ctrl) : (s.setCtrl n x).pending = s.pending := rfl
@[simp] theorem setCtrl_reg (n : Nat) (x : Ctrl) (a : Nat) : (s.setCtrl n x).reg a = s.reg a := rfl
@[simp] theorem setCtrl_getF (n : Nat) (x : Ctrl) (f : Field) : (s.setCtrl n x).getF f = s.getF f := rfl
@[simp] theorem setCtrl_tick (n : Nat) (x : Ctrl) : (s.setCtrl n x).tick = s.tick := rfl

@[simp] theorem modCtrl_regs (n : Nat) (g : Ctrl → Ctrl) : (s.modCtrl n g).regs = s.regs := rfl
@[simp] theorem modCtrl_fab (n : Nat) (g : Ctrl → Ctrl) : (s.modCtrl n g).fab = s.fab := rfl
@[simp] theorem modCtrl_slt (n : Nat) (g : Ctrl → Ctrl) : (s.modCtrl n g).slt = s.slt := rfl
@[simp] theorem modCtrl_ten (n : Nat) (g : Ctrl → Ctrl) : (s.modCtrl n g).ten = s.ten := rfl
@[simp] theorem modCtrl_fch (n : Nat) (g : Ctrl → Ctrl) : (s.modCtrl n g).fch = s.fch := rfl
@[simp] theorem modCtrl_ftl (n : Nat) (g : Ctrl → Ctrl) : (s.modCtrl n g).ftl = s.ftl := rfl
@[simp] theorem modCtrl_dch (n : Nat) (g : Ctrl → Ctrl) : (s.modCtrl n g).dch = s.dch := rfl
@[simp] theorem modCtrl_srv (n : Nat) (g : Ctrl → Ctrl) : (s.modCtrl n g).srv = s.srv := rfl
@[simp] theorem modCtrl_eng (n : Nat) (g : Ctrl → Ctrl) : (s.modCtrl n g).eng = s.eng := rfl
@[simp] theorem modCtrl_tsk (n : Nat) (g : Ctrl → Ctrl) : (s.modCtrl n g).tsk = s.tsk := rfl
@[simp] theorem modCtrl_pmx (n : Nat) (g : Ctrl → Ctrl) : (s.modCtrl n g).pmx = s.pmx := rfl
@[simp] theorem modCtrl_cmp (n : Nat) (g : Ctrl → Ctrl) : (s.modCtrl n g).cmp = s.cmp := rfl
@[simp] theorem modCtrl_sec (n : Nat) (g : Ctrl → Ctrl) : (s.modCtrl n g).sec = s.sec := rfl
@[simp] theorem modCtrl_mem (n : Nat) (g : Ctrl → Ctrl) : (s.modCtrl n g).mem = s.mem := rfl
@[simp] theorem modCtrl_cnt (n : Nat) (g : Ctrl → Ctrl) : (s.modCtrl n g).cnt = s.cnt := rfl
@[simp] theorem modCtrl_mgt (n : Nat) (g : Ctrl → Ctrl) : (s.modCtrl n g).mgt = s.mgt := rfl
@[simp] theorem modCtrl_nvs (n : Nat) (g : Ctrl → Ctrl) : (s.modCtrl n g).nvs = s.nvs := rfl
@[simp] theorem modCtrl_upd (n : Nat) (g : Ctrl → Ctrl) : (s.modCtrl n g).upd = s.upd := rfl
@[simp] theorem modCtrl_pwr (n : Nat) (g : Ctrl → Ctrl) : (s.modCtrl n g).pwr = s.pwr := rfl
@[simp] theorem modCtrl_freeCtr (n : Nat) (g : Ctrl → Ctrl) : (s.modCtrl n g).freeCtr = s.freeCtr := rfl
@[simp] theorem modCtrl_pending (n : Nat) (g : Ctrl → Ctrl) : (s.modCtrl n g).pending = s.pending := rfl
@[simp] theorem modCtrl_reg (n : Nat) (g : Ctrl → Ctrl) (a : Nat) : (s.modCtrl n g).reg a = s.reg a := rfl
@[simp] theorem modCtrl_getF (n : Nat) (g : Ctrl → Ctrl) (f : Field) : (s.modCtrl n g).getF f = s.getF f := rfl
@[simp] theorem modCtrl_tick (n : Nat) (g : Ctrl → Ctrl) : (s.modCtrl n g).tick = s.tick := rfl

@[simp] theorem setNs_regs (n : Nat) (x : Option Namespace) : (s.setNs n x).regs = s.regs := rfl
@[simp] theorem setNs_fab (n : Nat) (x : Option Namespace) : (s.setNs n x).fab = s.fab := rfl
@[simp] theorem setNs_slt (n : Nat) (x : Option Namespace) : (s.setNs n x).slt = s.slt := rfl
@[simp] theorem setNs_ten (n : Nat) (x : Option Namespace) : (s.setNs n x).ten = s.ten := rfl
@[simp] theorem setNs_fch (n : Nat) (x : Option Namespace) : (s.setNs n x).fch = s.fch := rfl
@[simp] theorem setNs_ftl (n : Nat) (x : Option Namespace) : (s.setNs n x).ftl = s.ftl := rfl
@[simp] theorem setNs_dch (n : Nat) (x : Option Namespace) : (s.setNs n x).dch = s.dch := rfl
@[simp] theorem setNs_srv (n : Nat) (x : Option Namespace) : (s.setNs n x).srv = s.srv := rfl
@[simp] theorem setNs_eng (n : Nat) (x : Option Namespace) : (s.setNs n x).eng = s.eng := rfl
@[simp] theorem setNs_tsk (n : Nat) (x : Option Namespace) : (s.setNs n x).tsk = s.tsk := rfl
@[simp] theorem setNs_pmx (n : Nat) (x : Option Namespace) : (s.setNs n x).pmx = s.pmx := rfl
@[simp] theorem setNs_cmp (n : Nat) (x : Option Namespace) : (s.setNs n x).cmp = s.cmp := rfl
@[simp] theorem setNs_sec (n : Nat) (x : Option Namespace) : (s.setNs n x).sec = s.sec := rfl
@[simp] theorem setNs_mem (n : Nat) (x : Option Namespace) : (s.setNs n x).mem = s.mem := rfl
@[simp] theorem setNs_cnt (n : Nat) (x : Option Namespace) : (s.setNs n x).cnt = s.cnt := rfl
@[simp] theorem setNs_mgt (n : Nat) (x : Option Namespace) : (s.setNs n x).mgt = s.mgt := rfl
@[simp] theorem setNs_nvs (n : Nat) (x : Option Namespace) : (s.setNs n x).nvs = s.nvs := rfl
@[simp] theorem setNs_upd (n : Nat) (x : Option Namespace) : (s.setNs n x).upd = s.upd := rfl
@[simp] theorem setNs_pwr (n : Nat) (x : Option Namespace) : (s.setNs n x).pwr = s.pwr := rfl
@[simp] theorem setNs_freeCtr (n : Nat) (x : Option Namespace) : (s.setNs n x).freeCtr = s.freeCtr := rfl
@[simp] theorem setNs_pending (n : Nat) (x : Option Namespace) : (s.setNs n x).pending = s.pending := rfl
@[simp] theorem setNs_reg (n : Nat) (x : Option Namespace) (a : Nat) : (s.setNs n x).reg a = s.reg a := rfl
@[simp] theorem setNs_getF (n : Nat) (x : Option Namespace) (f : Field) : (s.setNs n x).getF f = s.getF f := rfl
@[simp] theorem setNs_tick (n : Nat) (x : Option Namespace) : (s.setNs n x).tick = s.tick := rfl

@[simp] theorem modNs_regs (n : Nat) (g : Namespace → Namespace) : (s.modNs n g).regs = s.regs := rfl
@[simp] theorem modNs_fab (n : Nat) (g : Namespace → Namespace) : (s.modNs n g).fab = s.fab := rfl
@[simp] theorem modNs_slt (n : Nat) (g : Namespace → Namespace) : (s.modNs n g).slt = s.slt := rfl
@[simp] theorem modNs_ten (n : Nat) (g : Namespace → Namespace) : (s.modNs n g).ten = s.ten := rfl
@[simp] theorem modNs_fch (n : Nat) (g : Namespace → Namespace) : (s.modNs n g).fch = s.fch := rfl
@[simp] theorem modNs_ftl (n : Nat) (g : Namespace → Namespace) : (s.modNs n g).ftl = s.ftl := rfl
@[simp] theorem modNs_dch (n : Nat) (g : Namespace → Namespace) : (s.modNs n g).dch = s.dch := rfl
@[simp] theorem modNs_srv (n : Nat) (g : Namespace → Namespace) : (s.modNs n g).srv = s.srv := rfl
@[simp] theorem modNs_eng (n : Nat) (g : Namespace → Namespace) : (s.modNs n g).eng = s.eng := rfl
@[simp] theorem modNs_tsk (n : Nat) (g : Namespace → Namespace) : (s.modNs n g).tsk = s.tsk := rfl
@[simp] theorem modNs_pmx (n : Nat) (g : Namespace → Namespace) : (s.modNs n g).pmx = s.pmx := rfl
@[simp] theorem modNs_cmp (n : Nat) (g : Namespace → Namespace) : (s.modNs n g).cmp = s.cmp := rfl
@[simp] theorem modNs_sec (n : Nat) (g : Namespace → Namespace) : (s.modNs n g).sec = s.sec := rfl
@[simp] theorem modNs_mem (n : Nat) (g : Namespace → Namespace) : (s.modNs n g).mem = s.mem := rfl
@[simp] theorem modNs_cnt (n : Nat) (g : Namespace → Namespace) : (s.modNs n g).cnt = s.cnt := rfl
@[simp] theorem modNs_mgt (n : Nat) (g : Namespace → Namespace) : (s.modNs n g).mgt = s.mgt := rfl
@[simp] theorem modNs_nvs (n : Nat) (g : Namespace → Namespace) : (s.modNs n g).nvs = s.nvs := rfl
@[simp] theorem modNs_upd (n : Nat) (g : Namespace → Namespace) : (s.modNs n g).upd = s.upd := rfl
@[simp] theorem modNs_pwr (n : Nat) (g : Namespace → Namespace) : (s.modNs n g).pwr = s.pwr := rfl
@[simp] theorem modNs_freeCtr (n : Nat) (g : Namespace → Namespace) : (s.modNs n g).freeCtr = s.freeCtr := rfl
@[simp] theorem modNs_pending (n : Nat) (g : Namespace → Namespace) : (s.modNs n g).pending = s.pending := rfl
@[simp] theorem modNs_reg (n : Nat) (g : Namespace → Namespace) (a : Nat) : (s.modNs n g).reg a = s.reg a := rfl
@[simp] theorem modNs_getF (n : Nat) (g : Namespace → Namespace) (f : Field) : (s.modNs n g).getF f = s.getF f := rfl
@[simp] theorem modNs_tick (n : Nat) (g : Namespace → Namespace) : (s.modNs n g).tick = s.tick := rfl

@[simp] theorem setChan_regs (n : Nat) (x : Channel) : (s.setChan n x).regs = s.regs := rfl
@[simp] theorem setChan_fab (n : Nat) (x : Channel) : (s.setChan n x).fab = s.fab := rfl
@[simp] theorem setChan_slt (n : Nat) (x : Channel) : (s.setChan n x).slt = s.slt := rfl
@[simp] theorem setChan_host (n : Nat) (x : Channel) : (s.setChan n x).host = s.host := rfl
@[simp] theorem setChan_ten (n : Nat) (x : Channel) : (s.setChan n x).ten = s.ten := rfl
@[simp] theorem setChan_ftl (n : Nat) (x : Channel) : (s.setChan n x).ftl = s.ftl := rfl
@[simp] theorem setChan_dch (n : Nat) (x : Channel) : (s.setChan n x).dch = s.dch := rfl
@[simp] theorem setChan_srv (n : Nat) (x : Channel) : (s.setChan n x).srv = s.srv := rfl
@[simp] theorem setChan_eng (n : Nat) (x : Channel) : (s.setChan n x).eng = s.eng := rfl
@[simp] theorem setChan_tsk (n : Nat) (x : Channel) : (s.setChan n x).tsk = s.tsk := rfl
@[simp] theorem setChan_pmx (n : Nat) (x : Channel) : (s.setChan n x).pmx = s.pmx := rfl
@[simp] theorem setChan_cmp (n : Nat) (x : Channel) : (s.setChan n x).cmp = s.cmp := rfl
@[simp] theorem setChan_sec (n : Nat) (x : Channel) : (s.setChan n x).sec = s.sec := rfl
@[simp] theorem setChan_mem (n : Nat) (x : Channel) : (s.setChan n x).mem = s.mem := rfl
@[simp] theorem setChan_cnt (n : Nat) (x : Channel) : (s.setChan n x).cnt = s.cnt := rfl
@[simp] theorem setChan_mgt (n : Nat) (x : Channel) : (s.setChan n x).mgt = s.mgt := rfl
@[simp] theorem setChan_nvs (n : Nat) (x : Channel) : (s.setChan n x).nvs = s.nvs := rfl
@[simp] theorem setChan_upd (n : Nat) (x : Channel) : (s.setChan n x).upd = s.upd := rfl
@[simp] theorem setChan_pwr (n : Nat) (x : Channel) : (s.setChan n x).pwr = s.pwr := rfl
@[simp] theorem setChan_freeCtr (n : Nat) (x : Channel) : (s.setChan n x).freeCtr = s.freeCtr := rfl
@[simp] theorem setChan_pending (n : Nat) (x : Channel) : (s.setChan n x).pending = s.pending := rfl
@[simp] theorem setChan_reg (n : Nat) (x : Channel) (a : Nat) : (s.setChan n x).reg a = s.reg a := rfl
@[simp] theorem setChan_getF (n : Nat) (x : Channel) (f : Field) : (s.setChan n x).getF f = s.getF f := rfl
@[simp] theorem setChan_tick (n : Nat) (x : Channel) : (s.setChan n x).tick = s.tick := rfl

@[simp] theorem modChan_regs (n : Nat) (g : Channel → Channel) : (s.modChan n g).regs = s.regs := rfl
@[simp] theorem modChan_fab (n : Nat) (g : Channel → Channel) : (s.modChan n g).fab = s.fab := rfl
@[simp] theorem modChan_slt (n : Nat) (g : Channel → Channel) : (s.modChan n g).slt = s.slt := rfl
@[simp] theorem modChan_host (n : Nat) (g : Channel → Channel) : (s.modChan n g).host = s.host := rfl
@[simp] theorem modChan_ten (n : Nat) (g : Channel → Channel) : (s.modChan n g).ten = s.ten := rfl
@[simp] theorem modChan_ftl (n : Nat) (g : Channel → Channel) : (s.modChan n g).ftl = s.ftl := rfl
@[simp] theorem modChan_dch (n : Nat) (g : Channel → Channel) : (s.modChan n g).dch = s.dch := rfl
@[simp] theorem modChan_srv (n : Nat) (g : Channel → Channel) : (s.modChan n g).srv = s.srv := rfl
@[simp] theorem modChan_eng (n : Nat) (g : Channel → Channel) : (s.modChan n g).eng = s.eng := rfl
@[simp] theorem modChan_tsk (n : Nat) (g : Channel → Channel) : (s.modChan n g).tsk = s.tsk := rfl
@[simp] theorem modChan_pmx (n : Nat) (g : Channel → Channel) : (s.modChan n g).pmx = s.pmx := rfl
@[simp] theorem modChan_cmp (n : Nat) (g : Channel → Channel) : (s.modChan n g).cmp = s.cmp := rfl
@[simp] theorem modChan_sec (n : Nat) (g : Channel → Channel) : (s.modChan n g).sec = s.sec := rfl
@[simp] theorem modChan_mem (n : Nat) (g : Channel → Channel) : (s.modChan n g).mem = s.mem := rfl
@[simp] theorem modChan_cnt (n : Nat) (g : Channel → Channel) : (s.modChan n g).cnt = s.cnt := rfl
@[simp] theorem modChan_mgt (n : Nat) (g : Channel → Channel) : (s.modChan n g).mgt = s.mgt := rfl
@[simp] theorem modChan_nvs (n : Nat) (g : Channel → Channel) : (s.modChan n g).nvs = s.nvs := rfl
@[simp] theorem modChan_upd (n : Nat) (g : Channel → Channel) : (s.modChan n g).upd = s.upd := rfl
@[simp] theorem modChan_pwr (n : Nat) (g : Channel → Channel) : (s.modChan n g).pwr = s.pwr := rfl
@[simp] theorem modChan_freeCtr (n : Nat) (g : Channel → Channel) : (s.modChan n g).freeCtr = s.freeCtr := rfl
@[simp] theorem modChan_pending (n : Nat) (g : Channel → Channel) : (s.modChan n g).pending = s.pending := rfl
@[simp] theorem modChan_reg (n : Nat) (g : Channel → Channel) (a : Nat) : (s.modChan n g).reg a = s.reg a := rfl
@[simp] theorem modChan_getF (n : Nat) (g : Channel → Channel) (f : Field) : (s.modChan n g).getF f = s.getF f := rfl
@[simp] theorem modChan_tick (n : Nat) (g : Channel → Channel) : (s.modChan n g).tick = s.tick := rfl

@[simp] theorem setLun_regs (n l : Nat) (x : Lun) : (s.setLun n l x).regs = s.regs := rfl
@[simp] theorem setLun_fab (n l : Nat) (x : Lun) : (s.setLun n l x).fab = s.fab := rfl
@[simp] theorem setLun_slt (n l : Nat) (x : Lun) : (s.setLun n l x).slt = s.slt := rfl
@[simp] theorem setLun_host (n l : Nat) (x : Lun) : (s.setLun n l x).host = s.host := rfl
@[simp] theorem setLun_ten (n l : Nat) (x : Lun) : (s.setLun n l x).ten = s.ten := rfl
@[simp] theorem setLun_ftl (n l : Nat) (x : Lun) : (s.setLun n l x).ftl = s.ftl := rfl
@[simp] theorem setLun_dch (n l : Nat) (x : Lun) : (s.setLun n l x).dch = s.dch := rfl
@[simp] theorem setLun_srv (n l : Nat) (x : Lun) : (s.setLun n l x).srv = s.srv := rfl
@[simp] theorem setLun_eng (n l : Nat) (x : Lun) : (s.setLun n l x).eng = s.eng := rfl
@[simp] theorem setLun_tsk (n l : Nat) (x : Lun) : (s.setLun n l x).tsk = s.tsk := rfl
@[simp] theorem setLun_pmx (n l : Nat) (x : Lun) : (s.setLun n l x).pmx = s.pmx := rfl
@[simp] theorem setLun_cmp (n l : Nat) (x : Lun) : (s.setLun n l x).cmp = s.cmp := rfl
@[simp] theorem setLun_sec (n l : Nat) (x : Lun) : (s.setLun n l x).sec = s.sec := rfl
@[simp] theorem setLun_mem (n l : Nat) (x : Lun) : (s.setLun n l x).mem = s.mem := rfl
@[simp] theorem setLun_cnt (n l : Nat) (x : Lun) : (s.setLun n l x).cnt = s.cnt := rfl
@[simp] theorem setLun_mgt (n l : Nat) (x : Lun) : (s.setLun n l x).mgt = s.mgt := rfl
@[simp] theorem setLun_nvs (n l : Nat) (x : Lun) : (s.setLun n l x).nvs = s.nvs := rfl
@[simp] theorem setLun_upd (n l : Nat) (x : Lun) : (s.setLun n l x).upd = s.upd := rfl
@[simp] theorem setLun_pwr (n l : Nat) (x : Lun) : (s.setLun n l x).pwr = s.pwr := rfl
@[simp] theorem setLun_freeCtr (n l : Nat) (x : Lun) : (s.setLun n l x).freeCtr = s.freeCtr := rfl
@[simp] theorem setLun_pending (n l : Nat) (x : Lun) : (s.setLun n l x).pending = s.pending := rfl
@[simp] theorem setLun_reg (n l : Nat) (x : Lun) (a : Nat) : (s.setLun n l x).reg a = s.reg a := rfl
@[simp] theorem setLun_getF (n l : Nat) (x : Lun) (f : Field) : (s.setLun n l x).getF f = s.getF f := rfl
@[simp] theorem setLun_tick (n l : Nat) (x : Lun) : (s.setLun n l x).tick = s.tick := rfl

@[simp] theorem modLun_regs (n l : Nat) (g : Lun → Lun) : (s.modLun n l g).regs = s.regs := rfl
@[simp] theorem modLun_fab (n l : Nat) (g : Lun → Lun) : (s.modLun n l g).fab = s.fab := rfl
@[simp] theorem modLun_slt (n l : Nat) (g : Lun → Lun) : (s.modLun n l g).slt = s.slt := rfl
@[simp] theorem modLun_host (n l : Nat) (g : Lun → Lun) : (s.modLun n l g).host = s.host := rfl
@[simp] theorem modLun_ten (n l : Nat) (g : Lun → Lun) : (s.modLun n l g).ten = s.ten := rfl
@[simp] theorem modLun_ftl (n l : Nat) (g : Lun → Lun) : (s.modLun n l g).ftl = s.ftl := rfl
@[simp] theorem modLun_dch (n l : Nat) (g : Lun → Lun) : (s.modLun n l g).dch = s.dch := rfl
@[simp] theorem modLun_srv (n l : Nat) (g : Lun → Lun) : (s.modLun n l g).srv = s.srv := rfl
@[simp] theorem modLun_eng (n l : Nat) (g : Lun → Lun) : (s.modLun n l g).eng = s.eng := rfl
@[simp] theorem modLun_tsk (n l : Nat) (g : Lun → Lun) : (s.modLun n l g).tsk = s.tsk := rfl
@[simp] theorem modLun_pmx (n l : Nat) (g : Lun → Lun) : (s.modLun n l g).pmx = s.pmx := rfl
@[simp] theorem modLun_cmp (n l : Nat) (g : Lun → Lun) : (s.modLun n l g).cmp = s.cmp := rfl
@[simp] theorem modLun_sec (n l : Nat) (g : Lun → Lun) : (s.modLun n l g).sec = s.sec := rfl
@[simp] theorem modLun_mem (n l : Nat) (g : Lun → Lun) : (s.modLun n l g).mem = s.mem := rfl
@[simp] theorem modLun_cnt (n l : Nat) (g : Lun → Lun) : (s.modLun n l g).cnt = s.cnt := rfl
@[simp] theorem modLun_mgt (n l : Nat) (g : Lun → Lun) : (s.modLun n l g).mgt = s.mgt := rfl
@[simp] theorem modLun_nvs (n l : Nat) (g : Lun → Lun) : (s.modLun n l g).nvs = s.nvs := rfl
@[simp] theorem modLun_upd (n l : Nat) (g : Lun → Lun) : (s.modLun n l g).upd = s.upd := rfl
@[simp] theorem modLun_pwr (n l : Nat) (g : Lun → Lun) : (s.modLun n l g).pwr = s.pwr := rfl
@[simp] theorem modLun_freeCtr (n l : Nat) (g : Lun → Lun) : (s.modLun n l g).freeCtr = s.freeCtr := rfl
@[simp] theorem modLun_pending (n l : Nat) (g : Lun → Lun) : (s.modLun n l g).pending = s.pending := rfl
@[simp] theorem modLun_reg (n l : Nat) (g : Lun → Lun) (a : Nat) : (s.modLun n l g).reg a = s.reg a := rfl
@[simp] theorem modLun_getF (n l : Nat) (g : Lun → Lun) (f : Field) : (s.modLun n l g).getF f = s.getF f := rfl
@[simp] theorem modLun_tick (n l : Nat) (g : Lun → Lun) : (s.modLun n l g).tick = s.tick := rfl

@[simp] theorem setDiskAct_regs (n : Nat) (x : DiskAct) : (s.setDiskAct n x).regs = s.regs := rfl
@[simp] theorem setDiskAct_fab (n : Nat) (x : DiskAct) : (s.setDiskAct n x).fab = s.fab := rfl
@[simp] theorem setDiskAct_slt (n : Nat) (x : DiskAct) : (s.setDiskAct n x).slt = s.slt := rfl
@[simp] theorem setDiskAct_host (n : Nat) (x : DiskAct) : (s.setDiskAct n x).host = s.host := rfl
@[simp] theorem setDiskAct_ten (n : Nat) (x : DiskAct) : (s.setDiskAct n x).ten = s.ten := rfl
@[simp] theorem setDiskAct_fch (n : Nat) (x : DiskAct) : (s.setDiskAct n x).fch = s.fch := rfl
@[simp] theorem setDiskAct_ftl (n : Nat) (x : DiskAct) : (s.setDiskAct n x).ftl = s.ftl := rfl
@[simp] theorem setDiskAct_srv (n : Nat) (x : DiskAct) : (s.setDiskAct n x).srv = s.srv := rfl
@[simp] theorem setDiskAct_eng (n : Nat) (x : DiskAct) : (s.setDiskAct n x).eng = s.eng := rfl
@[simp] theorem setDiskAct_tsk (n : Nat) (x : DiskAct) : (s.setDiskAct n x).tsk = s.tsk := rfl
@[simp] theorem setDiskAct_pmx (n : Nat) (x : DiskAct) : (s.setDiskAct n x).pmx = s.pmx := rfl
@[simp] theorem setDiskAct_cmp (n : Nat) (x : DiskAct) : (s.setDiskAct n x).cmp = s.cmp := rfl
@[simp] theorem setDiskAct_sec (n : Nat) (x : DiskAct) : (s.setDiskAct n x).sec = s.sec := rfl
@[simp] theorem setDiskAct_mem (n : Nat) (x : DiskAct) : (s.setDiskAct n x).mem = s.mem := rfl
@[simp] theorem setDiskAct_cnt (n : Nat) (x : DiskAct) : (s.setDiskAct n x).cnt = s.cnt := rfl
@[simp] theorem setDiskAct_mgt (n : Nat) (x : DiskAct) : (s.setDiskAct n x).mgt = s.mgt := rfl
@[simp] theorem setDiskAct_nvs (n : Nat) (x : DiskAct) : (s.setDiskAct n x).nvs = s.nvs := rfl
@[simp] theorem setDiskAct_upd (n : Nat) (x : DiskAct) : (s.setDiskAct n x).upd = s.upd := rfl
@[simp] theorem setDiskAct_pwr (n : Nat) (x : DiskAct) : (s.setDiskAct n x).pwr = s.pwr := rfl
@[simp] theorem setDiskAct_freeCtr (n : Nat) (x : DiskAct) : (s.setDiskAct n x).freeCtr = s.freeCtr := rfl
@[simp] theorem setDiskAct_pending (n : Nat) (x : DiskAct) : (s.setDiskAct n x).pending = s.pending := rfl
@[simp] theorem setDiskAct_reg (n : Nat) (x : DiskAct) (a : Nat) : (s.setDiskAct n x).reg a = s.reg a := rfl
@[simp] theorem setDiskAct_getF (n : Nat) (x : DiskAct) (f : Field) : (s.setDiskAct n x).getF f = s.getF f := rfl
@[simp] theorem setDiskAct_tick (n : Nat) (x : DiskAct) : (s.setDiskAct n x).tick = s.tick := rfl

@[simp] theorem modDiskAct_regs (n : Nat) (g : DiskAct → DiskAct) : (s.modDiskAct n g).regs = s.regs := rfl
@[simp] theorem modDiskAct_fab (n : Nat) (g : DiskAct → DiskAct) : (s.modDiskAct n g).fab = s.fab := rfl
@[simp] theorem modDiskAct_slt (n : Nat) (g : DiskAct → DiskAct) : (s.modDiskAct n g).slt = s.slt := rfl
@[simp] theorem modDiskAct_host (n : Nat) (g : DiskAct → DiskAct) : (s.modDiskAct n g).host = s.host := rfl
@[simp] theorem modDiskAct_ten (n : Nat) (g : DiskAct → DiskAct) : (s.modDiskAct n g).ten = s.ten := rfl
@[simp] theorem modDiskAct_fch (n : Nat) (g : DiskAct → DiskAct) : (s.modDiskAct n g).fch = s.fch := rfl
@[simp] theorem modDiskAct_ftl (n : Nat) (g : DiskAct → DiskAct) : (s.modDiskAct n g).ftl = s.ftl := rfl
@[simp] theorem modDiskAct_srv (n : Nat) (g : DiskAct → DiskAct) : (s.modDiskAct n g).srv = s.srv := rfl
@[simp] theorem modDiskAct_eng (n : Nat) (g : DiskAct → DiskAct) : (s.modDiskAct n g).eng = s.eng := rfl
@[simp] theorem modDiskAct_tsk (n : Nat) (g : DiskAct → DiskAct) : (s.modDiskAct n g).tsk = s.tsk := rfl
@[simp] theorem modDiskAct_pmx (n : Nat) (g : DiskAct → DiskAct) : (s.modDiskAct n g).pmx = s.pmx := rfl
@[simp] theorem modDiskAct_cmp (n : Nat) (g : DiskAct → DiskAct) : (s.modDiskAct n g).cmp = s.cmp := rfl
@[simp] theorem modDiskAct_sec (n : Nat) (g : DiskAct → DiskAct) : (s.modDiskAct n g).sec = s.sec := rfl
@[simp] theorem modDiskAct_mem (n : Nat) (g : DiskAct → DiskAct) : (s.modDiskAct n g).mem = s.mem := rfl
@[simp] theorem modDiskAct_cnt (n : Nat) (g : DiskAct → DiskAct) : (s.modDiskAct n g).cnt = s.cnt := rfl
@[simp] theorem modDiskAct_mgt (n : Nat) (g : DiskAct → DiskAct) : (s.modDiskAct n g).mgt = s.mgt := rfl
@[simp] theorem modDiskAct_nvs (n : Nat) (g : DiskAct → DiskAct) : (s.modDiskAct n g).nvs = s.nvs := rfl
@[simp] theorem modDiskAct_upd (n : Nat) (g : DiskAct → DiskAct) : (s.modDiskAct n g).upd = s.upd := rfl
@[simp] theorem modDiskAct_pwr (n : Nat) (g : DiskAct → DiskAct) : (s.modDiskAct n g).pwr = s.pwr := rfl
@[simp] theorem modDiskAct_freeCtr (n : Nat) (g : DiskAct → DiskAct) : (s.modDiskAct n g).freeCtr = s.freeCtr := rfl
@[simp] theorem modDiskAct_pending (n : Nat) (g : DiskAct → DiskAct) : (s.modDiskAct n g).pending = s.pending := rfl
@[simp] theorem modDiskAct_reg (n : Nat) (g : DiskAct → DiskAct) (a : Nat) : (s.modDiskAct n g).reg a = s.reg a := rfl
@[simp] theorem modDiskAct_getF (n : Nat) (g : DiskAct → DiskAct) (f : Field) : (s.modDiskAct n g).getF f = s.getF f := rfl
@[simp] theorem modDiskAct_tick (n : Nat) (g : DiskAct → DiskAct) : (s.modDiskAct n g).tick = s.tick := rfl

@[simp] theorem setBand_regs (n : Nat) (x : Band) : (s.setBand n x).regs = s.regs := rfl
@[simp] theorem setBand_fab (n : Nat) (x : Band) : (s.setBand n x).fab = s.fab := rfl
@[simp] theorem setBand_slt (n : Nat) (x : Band) : (s.setBand n x).slt = s.slt := rfl
@[simp] theorem setBand_host (n : Nat) (x : Band) : (s.setBand n x).host = s.host := rfl
@[simp] theorem setBand_ten (n : Nat) (x : Band) : (s.setBand n x).ten = s.ten := rfl
@[simp] theorem setBand_fch (n : Nat) (x : Band) : (s.setBand n x).fch = s.fch := rfl
@[simp] theorem setBand_ftl (n : Nat) (x : Band) : (s.setBand n x).ftl = s.ftl := rfl
@[simp] theorem setBand_srv (n : Nat) (x : Band) : (s.setBand n x).srv = s.srv := rfl
@[simp] theorem setBand_eng (n : Nat) (x : Band) : (s.setBand n x).eng = s.eng := rfl
@[simp] theorem setBand_tsk (n : Nat) (x : Band) : (s.setBand n x).tsk = s.tsk := rfl
@[simp] theorem setBand_pmx (n : Nat) (x : Band) : (s.setBand n x).pmx = s.pmx := rfl
@[simp] theorem setBand_cmp (n : Nat) (x : Band) : (s.setBand n x).cmp = s.cmp := rfl
@[simp] theorem setBand_sec (n : Nat) (x : Band) : (s.setBand n x).sec = s.sec := rfl
@[simp] theorem setBand_mem (n : Nat) (x : Band) : (s.setBand n x).mem = s.mem := rfl
@[simp] theorem setBand_cnt (n : Nat) (x : Band) : (s.setBand n x).cnt = s.cnt := rfl
@[simp] theorem setBand_mgt (n : Nat) (x : Band) : (s.setBand n x).mgt = s.mgt := rfl
@[simp] theorem setBand_nvs (n : Nat) (x : Band) : (s.setBand n x).nvs = s.nvs := rfl
@[simp] theorem setBand_upd (n : Nat) (x : Band) : (s.setBand n x).upd = s.upd := rfl
@[simp] theorem setBand_pwr (n : Nat) (x : Band) : (s.setBand n x).pwr = s.pwr := rfl
@[simp] theorem setBand_freeCtr (n : Nat) (x : Band) : (s.setBand n x).freeCtr = s.freeCtr := rfl
@[simp] theorem setBand_pending (n : Nat) (x : Band) : (s.setBand n x).pending = s.pending := rfl
@[simp] theorem setBand_reg (n : Nat) (x : Band) (a : Nat) : (s.setBand n x).reg a = s.reg a := rfl
@[simp] theorem setBand_getF (n : Nat) (x : Band) (f : Field) : (s.setBand n x).getF f = s.getF f := rfl
@[simp] theorem setBand_tick (n : Nat) (x : Band) : (s.setBand n x).tick = s.tick := rfl

@[simp] theorem modBand_regs (n : Nat) (g : Band → Band) : (s.modBand n g).regs = s.regs := rfl
@[simp] theorem modBand_fab (n : Nat) (g : Band → Band) : (s.modBand n g).fab = s.fab := rfl
@[simp] theorem modBand_slt (n : Nat) (g : Band → Band) : (s.modBand n g).slt = s.slt := rfl
@[simp] theorem modBand_host (n : Nat) (g : Band → Band) : (s.modBand n g).host = s.host := rfl
@[simp] theorem modBand_ten (n : Nat) (g : Band → Band) : (s.modBand n g).ten = s.ten := rfl
@[simp] theorem modBand_fch (n : Nat) (g : Band → Band) : (s.modBand n g).fch = s.fch := rfl
@[simp] theorem modBand_ftl (n : Nat) (g : Band → Band) : (s.modBand n g).ftl = s.ftl := rfl
@[simp] theorem modBand_srv (n : Nat) (g : Band → Band) : (s.modBand n g).srv = s.srv := rfl
@[simp] theorem modBand_eng (n : Nat) (g : Band → Band) : (s.modBand n g).eng = s.eng := rfl
@[simp] theorem modBand_tsk (n : Nat) (g : Band → Band) : (s.modBand n g).tsk = s.tsk := rfl
@[simp] theorem modBand_pmx (n : Nat) (g : Band → Band) : (s.modBand n g).pmx = s.pmx := rfl
@[simp] theorem modBand_cmp (n : Nat) (g : Band → Band) : (s.modBand n g).cmp = s.cmp := rfl
@[simp] theorem modBand_sec (n : Nat) (g : Band → Band) : (s.modBand n g).sec = s.sec := rfl
@[simp] theorem modBand_mem (n : Nat) (g : Band → Band) : (s.modBand n g).mem = s.mem := rfl
@[simp] theorem modBand_cnt (n : Nat) (g : Band → Band) : (s.modBand n g).cnt = s.cnt := rfl
@[simp] theorem modBand_mgt (n : Nat) (g : Band → Band) : (s.modBand n g).mgt = s.mgt := rfl
@[simp] theorem modBand_nvs (n : Nat) (g : Band → Band) : (s.modBand n g).nvs = s.nvs := rfl
@[simp] theorem modBand_upd (n : Nat) (g : Band → Band) : (s.modBand n g).upd = s.upd := rfl
@[simp] theorem modBand_pwr (n : Nat) (g : Band → Band) : (s.modBand n g).pwr = s.pwr := rfl
@[simp] theorem modBand_freeCtr (n : Nat) (g : Band → Band) : (s.modBand n g).freeCtr = s.freeCtr := rfl
@[simp] theorem modBand_pending (n : Nat) (g : Band → Band) : (s.modBand n g).pending = s.pending := rfl
@[simp] theorem modBand_reg (n : Nat) (g : Band → Band) (a : Nat) : (s.modBand n g).reg a = s.reg a := rfl
@[simp] theorem modBand_getF (n : Nat) (g : Band → Band) (f : Field) : (s.modBand n g).getF f = s.getF f := rfl
@[simp] theorem modBand_tick (n : Nat) (g : Band → Band) : (s.modBand n g).tick = s.tick := rfl

@[simp] theorem setServoAct_regs (n : Nat) (x : ActServo) : (s.setServoAct n x).regs = s.regs := rfl
@[simp] theorem setServoAct_fab (n : Nat) (x : ActServo) : (s.setServoAct n x).fab = s.fab := rfl
@[simp] theorem setServoAct_slt (n : Nat) (x : ActServo) : (s.setServoAct n x).slt = s.slt := rfl
@[simp] theorem setServoAct_host (n : Nat) (x : ActServo) : (s.setServoAct n x).host = s.host := rfl
@[simp] theorem setServoAct_ten (n : Nat) (x : ActServo) : (s.setServoAct n x).ten = s.ten := rfl
@[simp] theorem setServoAct_fch (n : Nat) (x : ActServo) : (s.setServoAct n x).fch = s.fch := rfl
@[simp] theorem setServoAct_ftl (n : Nat) (x : ActServo) : (s.setServoAct n x).ftl = s.ftl := rfl
@[simp] theorem setServoAct_dch (n : Nat) (x : ActServo) : (s.setServoAct n x).dch = s.dch := rfl
@[simp] theorem setServoAct_eng (n : Nat) (x : ActServo) : (s.setServoAct n x).eng = s.eng := rfl
@[simp] theorem setServoAct_tsk (n : Nat) (x : ActServo) : (s.setServoAct n x).tsk = s.tsk := rfl
@[simp] theorem setServoAct_pmx (n : Nat) (x : ActServo) : (s.setServoAct n x).pmx = s.pmx := rfl
@[simp] theorem setServoAct_cmp (n : Nat) (x : ActServo) : (s.setServoAct n x).cmp = s.cmp := rfl
@[simp] theorem setServoAct_sec (n : Nat) (x : ActServo) : (s.setServoAct n x).sec = s.sec := rfl
@[simp] theorem setServoAct_mem (n : Nat) (x : ActServo) : (s.setServoAct n x).mem = s.mem := rfl
@[simp] theorem setServoAct_cnt (n : Nat) (x : ActServo) : (s.setServoAct n x).cnt = s.cnt := rfl
@[simp] theorem setServoAct_mgt (n : Nat) (x : ActServo) : (s.setServoAct n x).mgt = s.mgt := rfl
@[simp] theorem setServoAct_nvs (n : Nat) (x : ActServo) : (s.setServoAct n x).nvs = s.nvs := rfl
@[simp] theorem setServoAct_upd (n : Nat) (x : ActServo) : (s.setServoAct n x).upd = s.upd := rfl
@[simp] theorem setServoAct_pwr (n : Nat) (x : ActServo) : (s.setServoAct n x).pwr = s.pwr := rfl
@[simp] theorem setServoAct_freeCtr (n : Nat) (x : ActServo) : (s.setServoAct n x).freeCtr = s.freeCtr := rfl
@[simp] theorem setServoAct_pending (n : Nat) (x : ActServo) : (s.setServoAct n x).pending = s.pending := rfl
@[simp] theorem setServoAct_reg (n : Nat) (x : ActServo) (a : Nat) : (s.setServoAct n x).reg a = s.reg a := rfl
@[simp] theorem setServoAct_getF (n : Nat) (x : ActServo) (f : Field) : (s.setServoAct n x).getF f = s.getF f := rfl
@[simp] theorem setServoAct_tick (n : Nat) (x : ActServo) : (s.setServoAct n x).tick = s.tick := rfl

@[simp] theorem modServoAct_regs (n : Nat) (g : ActServo → ActServo) : (s.modServoAct n g).regs = s.regs := rfl
@[simp] theorem modServoAct_fab (n : Nat) (g : ActServo → ActServo) : (s.modServoAct n g).fab = s.fab := rfl
@[simp] theorem modServoAct_slt (n : Nat) (g : ActServo → ActServo) : (s.modServoAct n g).slt = s.slt := rfl
@[simp] theorem modServoAct_host (n : Nat) (g : ActServo → ActServo) : (s.modServoAct n g).host = s.host := rfl
@[simp] theorem modServoAct_ten (n : Nat) (g : ActServo → ActServo) : (s.modServoAct n g).ten = s.ten := rfl
@[simp] theorem modServoAct_fch (n : Nat) (g : ActServo → ActServo) : (s.modServoAct n g).fch = s.fch := rfl
@[simp] theorem modServoAct_ftl (n : Nat) (g : ActServo → ActServo) : (s.modServoAct n g).ftl = s.ftl := rfl
@[simp] theorem modServoAct_dch (n : Nat) (g : ActServo → ActServo) : (s.modServoAct n g).dch = s.dch := rfl
@[simp] theorem modServoAct_eng (n : Nat) (g : ActServo → ActServo) : (s.modServoAct n g).eng = s.eng := rfl
@[simp] theorem modServoAct_tsk (n : Nat) (g : ActServo → ActServo) : (s.modServoAct n g).tsk = s.tsk := rfl
@[simp] theorem modServoAct_pmx (n : Nat) (g : ActServo → ActServo) : (s.modServoAct n g).pmx = s.pmx := rfl
@[simp] theorem modServoAct_cmp (n : Nat) (g : ActServo → ActServo) : (s.modServoAct n g).cmp = s.cmp := rfl
@[simp] theorem modServoAct_sec (n : Nat) (g : ActServo → ActServo) : (s.modServoAct n g).sec = s.sec := rfl
@[simp] theorem modServoAct_mem (n : Nat) (g : ActServo → ActServo) : (s.modServoAct n g).mem = s.mem := rfl
@[simp] theorem modServoAct_cnt (n : Nat) (g : ActServo → ActServo) : (s.modServoAct n g).cnt = s.cnt := rfl
@[simp] theorem modServoAct_mgt (n : Nat) (g : ActServo → ActServo) : (s.modServoAct n g).mgt = s.mgt := rfl
@[simp] theorem modServoAct_nvs (n : Nat) (g : ActServo → ActServo) : (s.modServoAct n g).nvs = s.nvs := rfl
@[simp] theorem modServoAct_upd (n : Nat) (g : ActServo → ActServo) : (s.modServoAct n g).upd = s.upd := rfl
@[simp] theorem modServoAct_pwr (n : Nat) (g : ActServo → ActServo) : (s.modServoAct n g).pwr = s.pwr := rfl
@[simp] theorem modServoAct_freeCtr (n : Nat) (g : ActServo → ActServo) : (s.modServoAct n g).freeCtr = s.freeCtr := rfl
@[simp] theorem modServoAct_pending (n : Nat) (g : ActServo → ActServo) : (s.modServoAct n g).pending = s.pending := rfl
@[simp] theorem modServoAct_reg (n : Nat) (g : ActServo → ActServo) (a : Nat) : (s.modServoAct n g).reg a = s.reg a := rfl
@[simp] theorem modServoAct_getF (n : Nat) (g : ActServo → ActServo) (f : Field) : (s.modServoAct n g).getF f = s.getF f := rfl
@[simp] theorem modServoAct_tick (n : Nat) (g : ActServo → ActServo) : (s.modServoAct n g).tick = s.tick := rfl

@[simp] theorem setLoop_regs (n : Nat) (x : Loop) : (s.setLoop n x).regs = s.regs := rfl
@[simp] theorem setLoop_fab (n : Nat) (x : Loop) : (s.setLoop n x).fab = s.fab := rfl
@[simp] theorem setLoop_slt (n : Nat) (x : Loop) : (s.setLoop n x).slt = s.slt := rfl
@[simp] theorem setLoop_host (n : Nat) (x : Loop) : (s.setLoop n x).host = s.host := rfl
@[simp] theorem setLoop_ten (n : Nat) (x : Loop) : (s.setLoop n x).ten = s.ten := rfl
@[simp] theorem setLoop_fch (n : Nat) (x : Loop) : (s.setLoop n x).fch = s.fch := rfl
@[simp] theorem setLoop_ftl (n : Nat) (x : Loop) : (s.setLoop n x).ftl = s.ftl := rfl
@[simp] theorem setLoop_dch (n : Nat) (x : Loop) : (s.setLoop n x).dch = s.dch := rfl
@[simp] theorem setLoop_eng (n : Nat) (x : Loop) : (s.setLoop n x).eng = s.eng := rfl
@[simp] theorem setLoop_tsk (n : Nat) (x : Loop) : (s.setLoop n x).tsk = s.tsk := rfl
@[simp] theorem setLoop_pmx (n : Nat) (x : Loop) : (s.setLoop n x).pmx = s.pmx := rfl
@[simp] theorem setLoop_cmp (n : Nat) (x : Loop) : (s.setLoop n x).cmp = s.cmp := rfl
@[simp] theorem setLoop_sec (n : Nat) (x : Loop) : (s.setLoop n x).sec = s.sec := rfl
@[simp] theorem setLoop_mem (n : Nat) (x : Loop) : (s.setLoop n x).mem = s.mem := rfl
@[simp] theorem setLoop_cnt (n : Nat) (x : Loop) : (s.setLoop n x).cnt = s.cnt := rfl
@[simp] theorem setLoop_mgt (n : Nat) (x : Loop) : (s.setLoop n x).mgt = s.mgt := rfl
@[simp] theorem setLoop_nvs (n : Nat) (x : Loop) : (s.setLoop n x).nvs = s.nvs := rfl
@[simp] theorem setLoop_upd (n : Nat) (x : Loop) : (s.setLoop n x).upd = s.upd := rfl
@[simp] theorem setLoop_pwr (n : Nat) (x : Loop) : (s.setLoop n x).pwr = s.pwr := rfl
@[simp] theorem setLoop_freeCtr (n : Nat) (x : Loop) : (s.setLoop n x).freeCtr = s.freeCtr := rfl
@[simp] theorem setLoop_pending (n : Nat) (x : Loop) : (s.setLoop n x).pending = s.pending := rfl
@[simp] theorem setLoop_reg (n : Nat) (x : Loop) (a : Nat) : (s.setLoop n x).reg a = s.reg a := rfl
@[simp] theorem setLoop_getF (n : Nat) (x : Loop) (f : Field) : (s.setLoop n x).getF f = s.getF f := rfl
@[simp] theorem setLoop_tick (n : Nat) (x : Loop) : (s.setLoop n x).tick = s.tick := rfl

@[simp] theorem modLoop_regs (n : Nat) (g : Loop → Loop) : (s.modLoop n g).regs = s.regs := rfl
@[simp] theorem modLoop_fab (n : Nat) (g : Loop → Loop) : (s.modLoop n g).fab = s.fab := rfl
@[simp] theorem modLoop_slt (n : Nat) (g : Loop → Loop) : (s.modLoop n g).slt = s.slt := rfl
@[simp] theorem modLoop_host (n : Nat) (g : Loop → Loop) : (s.modLoop n g).host = s.host := rfl
@[simp] theorem modLoop_ten (n : Nat) (g : Loop → Loop) : (s.modLoop n g).ten = s.ten := rfl
@[simp] theorem modLoop_fch (n : Nat) (g : Loop → Loop) : (s.modLoop n g).fch = s.fch := rfl
@[simp] theorem modLoop_ftl (n : Nat) (g : Loop → Loop) : (s.modLoop n g).ftl = s.ftl := rfl
@[simp] theorem modLoop_dch (n : Nat) (g : Loop → Loop) : (s.modLoop n g).dch = s.dch := rfl
@[simp] theorem modLoop_eng (n : Nat) (g : Loop → Loop) : (s.modLoop n g).eng = s.eng := rfl
@[simp] theorem modLoop_tsk (n : Nat) (g : Loop → Loop) : (s.modLoop n g).tsk = s.tsk := rfl
@[simp] theorem modLoop_pmx (n : Nat) (g : Loop → Loop) : (s.modLoop n g).pmx = s.pmx := rfl
@[simp] theorem modLoop_cmp (n : Nat) (g : Loop → Loop) : (s.modLoop n g).cmp = s.cmp := rfl
@[simp] theorem modLoop_sec (n : Nat) (g : Loop → Loop) : (s.modLoop n g).sec = s.sec := rfl
@[simp] theorem modLoop_mem (n : Nat) (g : Loop → Loop) : (s.modLoop n g).mem = s.mem := rfl
@[simp] theorem modLoop_cnt (n : Nat) (g : Loop → Loop) : (s.modLoop n g).cnt = s.cnt := rfl
@[simp] theorem modLoop_mgt (n : Nat) (g : Loop → Loop) : (s.modLoop n g).mgt = s.mgt := rfl
@[simp] theorem modLoop_nvs (n : Nat) (g : Loop → Loop) : (s.modLoop n g).nvs = s.nvs := rfl
@[simp] theorem modLoop_upd (n : Nat) (g : Loop → Loop) : (s.modLoop n g).upd = s.upd := rfl
@[simp] theorem modLoop_pwr (n : Nat) (g : Loop → Loop) : (s.modLoop n g).pwr = s.pwr := rfl
@[simp] theorem modLoop_freeCtr (n : Nat) (g : Loop → Loop) : (s.modLoop n g).freeCtr = s.freeCtr := rfl
@[simp] theorem modLoop_pending (n : Nat) (g : Loop → Loop) : (s.modLoop n g).pending = s.pending := rfl
@[simp] theorem modLoop_reg (n : Nat) (g : Loop → Loop) (a : Nat) : (s.modLoop n g).reg a = s.reg a := rfl
@[simp] theorem modLoop_getF (n : Nat) (g : Loop → Loop) (f : Field) : (s.modLoop n g).getF f = s.getF f := rfl
@[simp] theorem modLoop_tick (n : Nat) (g : Loop → Loop) : (s.modLoop n g).tick = s.tick := rfl

@[simp] theorem setProc_regs (n : Nat) (x : Proc) : (s.setProc n x).regs = s.regs := rfl
@[simp] theorem setProc_fab (n : Nat) (x : Proc) : (s.setProc n x).fab = s.fab := rfl
@[simp] theorem setProc_slt (n : Nat) (x : Proc) : (s.setProc n x).slt = s.slt := rfl
@[simp] theorem setProc_host (n : Nat) (x : Proc) : (s.setProc n x).host = s.host := rfl
@[simp] theorem setProc_ten (n : Nat) (x : Proc) : (s.setProc n x).ten = s.ten := rfl
@[simp] theorem setProc_fch (n : Nat) (x : Proc) : (s.setProc n x).fch = s.fch := rfl
@[simp] theorem setProc_ftl (n : Nat) (x : Proc) : (s.setProc n x).ftl = s.ftl := rfl
@[simp] theorem setProc_dch (n : Nat) (x : Proc) : (s.setProc n x).dch = s.dch := rfl
@[simp] theorem setProc_srv (n : Nat) (x : Proc) : (s.setProc n x).srv = s.srv := rfl
@[simp] theorem setProc_tsk (n : Nat) (x : Proc) : (s.setProc n x).tsk = s.tsk := rfl
@[simp] theorem setProc_pmx (n : Nat) (x : Proc) : (s.setProc n x).pmx = s.pmx := rfl
@[simp] theorem setProc_cmp (n : Nat) (x : Proc) : (s.setProc n x).cmp = s.cmp := rfl
@[simp] theorem setProc_sec (n : Nat) (x : Proc) : (s.setProc n x).sec = s.sec := rfl
@[simp] theorem setProc_mem (n : Nat) (x : Proc) : (s.setProc n x).mem = s.mem := rfl
@[simp] theorem setProc_cnt (n : Nat) (x : Proc) : (s.setProc n x).cnt = s.cnt := rfl
@[simp] theorem setProc_mgt (n : Nat) (x : Proc) : (s.setProc n x).mgt = s.mgt := rfl
@[simp] theorem setProc_nvs (n : Nat) (x : Proc) : (s.setProc n x).nvs = s.nvs := rfl
@[simp] theorem setProc_upd (n : Nat) (x : Proc) : (s.setProc n x).upd = s.upd := rfl
@[simp] theorem setProc_pwr (n : Nat) (x : Proc) : (s.setProc n x).pwr = s.pwr := rfl
@[simp] theorem setProc_freeCtr (n : Nat) (x : Proc) : (s.setProc n x).freeCtr = s.freeCtr := rfl
@[simp] theorem setProc_pending (n : Nat) (x : Proc) : (s.setProc n x).pending = s.pending := rfl
@[simp] theorem setProc_reg (n : Nat) (x : Proc) (a : Nat) : (s.setProc n x).reg a = s.reg a := rfl
@[simp] theorem setProc_getF (n : Nat) (x : Proc) (f : Field) : (s.setProc n x).getF f = s.getF f := rfl
@[simp] theorem setProc_tick (n : Nat) (x : Proc) : (s.setProc n x).tick = s.tick := rfl

@[simp] theorem modProc_regs (n : Nat) (g : Proc → Proc) : (s.modProc n g).regs = s.regs := rfl
@[simp] theorem modProc_fab (n : Nat) (g : Proc → Proc) : (s.modProc n g).fab = s.fab := rfl
@[simp] theorem modProc_slt (n : Nat) (g : Proc → Proc) : (s.modProc n g).slt = s.slt := rfl
@[simp] theorem modProc_host (n : Nat) (g : Proc → Proc) : (s.modProc n g).host = s.host := rfl
@[simp] theorem modProc_ten (n : Nat) (g : Proc → Proc) : (s.modProc n g).ten = s.ten := rfl
@[simp] theorem modProc_fch (n : Nat) (g : Proc → Proc) : (s.modProc n g).fch = s.fch := rfl
@[simp] theorem modProc_ftl (n : Nat) (g : Proc → Proc) : (s.modProc n g).ftl = s.ftl := rfl
@[simp] theorem modProc_dch (n : Nat) (g : Proc → Proc) : (s.modProc n g).dch = s.dch := rfl
@[simp] theorem modProc_srv (n : Nat) (g : Proc → Proc) : (s.modProc n g).srv = s.srv := rfl
@[simp] theorem modProc_tsk (n : Nat) (g : Proc → Proc) : (s.modProc n g).tsk = s.tsk := rfl
@[simp] theorem modProc_pmx (n : Nat) (g : Proc → Proc) : (s.modProc n g).pmx = s.pmx := rfl
@[simp] theorem modProc_cmp (n : Nat) (g : Proc → Proc) : (s.modProc n g).cmp = s.cmp := rfl
@[simp] theorem modProc_sec (n : Nat) (g : Proc → Proc) : (s.modProc n g).sec = s.sec := rfl
@[simp] theorem modProc_mem (n : Nat) (g : Proc → Proc) : (s.modProc n g).mem = s.mem := rfl
@[simp] theorem modProc_cnt (n : Nat) (g : Proc → Proc) : (s.modProc n g).cnt = s.cnt := rfl
@[simp] theorem modProc_mgt (n : Nat) (g : Proc → Proc) : (s.modProc n g).mgt = s.mgt := rfl
@[simp] theorem modProc_nvs (n : Nat) (g : Proc → Proc) : (s.modProc n g).nvs = s.nvs := rfl
@[simp] theorem modProc_upd (n : Nat) (g : Proc → Proc) : (s.modProc n g).upd = s.upd := rfl
@[simp] theorem modProc_pwr (n : Nat) (g : Proc → Proc) : (s.modProc n g).pwr = s.pwr := rfl
@[simp] theorem modProc_freeCtr (n : Nat) (g : Proc → Proc) : (s.modProc n g).freeCtr = s.freeCtr := rfl
@[simp] theorem modProc_pending (n : Nat) (g : Proc → Proc) : (s.modProc n g).pending = s.pending := rfl
@[simp] theorem modProc_reg (n : Nat) (g : Proc → Proc) (a : Nat) : (s.modProc n g).reg a = s.reg a := rfl
@[simp] theorem modProc_getF (n : Nat) (g : Proc → Proc) (f : Field) : (s.modProc n g).getF f = s.getF f := rfl
@[simp] theorem modProc_tick (n : Nat) (g : Proc → Proc) : (s.modProc n g).tick = s.tick := rfl

@[simp] theorem setCtx_regs (n : Nat) (x : Option Ctx) : (s.setCtx n x).regs = s.regs := rfl
@[simp] theorem setCtx_fab (n : Nat) (x : Option Ctx) : (s.setCtx n x).fab = s.fab := rfl
@[simp] theorem setCtx_slt (n : Nat) (x : Option Ctx) : (s.setCtx n x).slt = s.slt := rfl
@[simp] theorem setCtx_host (n : Nat) (x : Option Ctx) : (s.setCtx n x).host = s.host := rfl
@[simp] theorem setCtx_ten (n : Nat) (x : Option Ctx) : (s.setCtx n x).ten = s.ten := rfl
@[simp] theorem setCtx_fch (n : Nat) (x : Option Ctx) : (s.setCtx n x).fch = s.fch := rfl
@[simp] theorem setCtx_ftl (n : Nat) (x : Option Ctx) : (s.setCtx n x).ftl = s.ftl := rfl
@[simp] theorem setCtx_dch (n : Nat) (x : Option Ctx) : (s.setCtx n x).dch = s.dch := rfl
@[simp] theorem setCtx_srv (n : Nat) (x : Option Ctx) : (s.setCtx n x).srv = s.srv := rfl
@[simp] theorem setCtx_eng (n : Nat) (x : Option Ctx) : (s.setCtx n x).eng = s.eng := rfl
@[simp] theorem setCtx_pmx (n : Nat) (x : Option Ctx) : (s.setCtx n x).pmx = s.pmx := rfl
@[simp] theorem setCtx_cmp (n : Nat) (x : Option Ctx) : (s.setCtx n x).cmp = s.cmp := rfl
@[simp] theorem setCtx_sec (n : Nat) (x : Option Ctx) : (s.setCtx n x).sec = s.sec := rfl
@[simp] theorem setCtx_mem (n : Nat) (x : Option Ctx) : (s.setCtx n x).mem = s.mem := rfl
@[simp] theorem setCtx_cnt (n : Nat) (x : Option Ctx) : (s.setCtx n x).cnt = s.cnt := rfl
@[simp] theorem setCtx_mgt (n : Nat) (x : Option Ctx) : (s.setCtx n x).mgt = s.mgt := rfl
@[simp] theorem setCtx_nvs (n : Nat) (x : Option Ctx) : (s.setCtx n x).nvs = s.nvs := rfl
@[simp] theorem setCtx_upd (n : Nat) (x : Option Ctx) : (s.setCtx n x).upd = s.upd := rfl
@[simp] theorem setCtx_pwr (n : Nat) (x : Option Ctx) : (s.setCtx n x).pwr = s.pwr := rfl
@[simp] theorem setCtx_freeCtr (n : Nat) (x : Option Ctx) : (s.setCtx n x).freeCtr = s.freeCtr := rfl
@[simp] theorem setCtx_pending (n : Nat) (x : Option Ctx) : (s.setCtx n x).pending = s.pending := rfl
@[simp] theorem setCtx_reg (n : Nat) (x : Option Ctx) (a : Nat) : (s.setCtx n x).reg a = s.reg a := rfl
@[simp] theorem setCtx_getF (n : Nat) (x : Option Ctx) (f : Field) : (s.setCtx n x).getF f = s.getF f := rfl
@[simp] theorem setCtx_tick (n : Nat) (x : Option Ctx) : (s.setCtx n x).tick = s.tick := rfl

@[simp] theorem modCtx_regs (n : Nat) (g : Ctx → Ctx) : (s.modCtx n g).regs = s.regs := rfl
@[simp] theorem modCtx_fab (n : Nat) (g : Ctx → Ctx) : (s.modCtx n g).fab = s.fab := rfl
@[simp] theorem modCtx_slt (n : Nat) (g : Ctx → Ctx) : (s.modCtx n g).slt = s.slt := rfl
@[simp] theorem modCtx_host (n : Nat) (g : Ctx → Ctx) : (s.modCtx n g).host = s.host := rfl
@[simp] theorem modCtx_ten (n : Nat) (g : Ctx → Ctx) : (s.modCtx n g).ten = s.ten := rfl
@[simp] theorem modCtx_fch (n : Nat) (g : Ctx → Ctx) : (s.modCtx n g).fch = s.fch := rfl
@[simp] theorem modCtx_ftl (n : Nat) (g : Ctx → Ctx) : (s.modCtx n g).ftl = s.ftl := rfl
@[simp] theorem modCtx_dch (n : Nat) (g : Ctx → Ctx) : (s.modCtx n g).dch = s.dch := rfl
@[simp] theorem modCtx_srv (n : Nat) (g : Ctx → Ctx) : (s.modCtx n g).srv = s.srv := rfl
@[simp] theorem modCtx_eng (n : Nat) (g : Ctx → Ctx) : (s.modCtx n g).eng = s.eng := rfl
@[simp] theorem modCtx_pmx (n : Nat) (g : Ctx → Ctx) : (s.modCtx n g).pmx = s.pmx := rfl
@[simp] theorem modCtx_cmp (n : Nat) (g : Ctx → Ctx) : (s.modCtx n g).cmp = s.cmp := rfl
@[simp] theorem modCtx_sec (n : Nat) (g : Ctx → Ctx) : (s.modCtx n g).sec = s.sec := rfl
@[simp] theorem modCtx_mem (n : Nat) (g : Ctx → Ctx) : (s.modCtx n g).mem = s.mem := rfl
@[simp] theorem modCtx_cnt (n : Nat) (g : Ctx → Ctx) : (s.modCtx n g).cnt = s.cnt := rfl
@[simp] theorem modCtx_mgt (n : Nat) (g : Ctx → Ctx) : (s.modCtx n g).mgt = s.mgt := rfl
@[simp] theorem modCtx_nvs (n : Nat) (g : Ctx → Ctx) : (s.modCtx n g).nvs = s.nvs := rfl
@[simp] theorem modCtx_upd (n : Nat) (g : Ctx → Ctx) : (s.modCtx n g).upd = s.upd := rfl
@[simp] theorem modCtx_pwr (n : Nat) (g : Ctx → Ctx) : (s.modCtx n g).pwr = s.pwr := rfl
@[simp] theorem modCtx_freeCtr (n : Nat) (g : Ctx → Ctx) : (s.modCtx n g).freeCtr = s.freeCtr := rfl
@[simp] theorem modCtx_pending (n : Nat) (g : Ctx → Ctx) : (s.modCtx n g).pending = s.pending := rfl
@[simp] theorem modCtx_reg (n : Nat) (g : Ctx → Ctx) (a : Nat) : (s.modCtx n g).reg a = s.reg a := rfl
@[simp] theorem modCtx_getF (n : Nat) (g : Ctx → Ctx) (f : Field) : (s.modCtx n g).getF f = s.getF f := rfl
@[simp] theorem modCtx_tick (n : Nat) (g : Ctx → Ctx) : (s.modCtx n g).tick = s.tick := rfl

@[simp] theorem setTask_regs (n : Nat) (x : Option TaskEntry) : (s.setTask n x).regs = s.regs := rfl
@[simp] theorem setTask_fab (n : Nat) (x : Option TaskEntry) : (s.setTask n x).fab = s.fab := rfl
@[simp] theorem setTask_slt (n : Nat) (x : Option TaskEntry) : (s.setTask n x).slt = s.slt := rfl
@[simp] theorem setTask_host (n : Nat) (x : Option TaskEntry) : (s.setTask n x).host = s.host := rfl
@[simp] theorem setTask_ten (n : Nat) (x : Option TaskEntry) : (s.setTask n x).ten = s.ten := rfl
@[simp] theorem setTask_fch (n : Nat) (x : Option TaskEntry) : (s.setTask n x).fch = s.fch := rfl
@[simp] theorem setTask_ftl (n : Nat) (x : Option TaskEntry) : (s.setTask n x).ftl = s.ftl := rfl
@[simp] theorem setTask_dch (n : Nat) (x : Option TaskEntry) : (s.setTask n x).dch = s.dch := rfl
@[simp] theorem setTask_srv (n : Nat) (x : Option TaskEntry) : (s.setTask n x).srv = s.srv := rfl
@[simp] theorem setTask_eng (n : Nat) (x : Option TaskEntry) : (s.setTask n x).eng = s.eng := rfl
@[simp] theorem setTask_pmx (n : Nat) (x : Option TaskEntry) : (s.setTask n x).pmx = s.pmx := rfl
@[simp] theorem setTask_cmp (n : Nat) (x : Option TaskEntry) : (s.setTask n x).cmp = s.cmp := rfl
@[simp] theorem setTask_sec (n : Nat) (x : Option TaskEntry) : (s.setTask n x).sec = s.sec := rfl
@[simp] theorem setTask_mem (n : Nat) (x : Option TaskEntry) : (s.setTask n x).mem = s.mem := rfl
@[simp] theorem setTask_cnt (n : Nat) (x : Option TaskEntry) : (s.setTask n x).cnt = s.cnt := rfl
@[simp] theorem setTask_mgt (n : Nat) (x : Option TaskEntry) : (s.setTask n x).mgt = s.mgt := rfl
@[simp] theorem setTask_nvs (n : Nat) (x : Option TaskEntry) : (s.setTask n x).nvs = s.nvs := rfl
@[simp] theorem setTask_upd (n : Nat) (x : Option TaskEntry) : (s.setTask n x).upd = s.upd := rfl
@[simp] theorem setTask_pwr (n : Nat) (x : Option TaskEntry) : (s.setTask n x).pwr = s.pwr := rfl
@[simp] theorem setTask_freeCtr (n : Nat) (x : Option TaskEntry) : (s.setTask n x).freeCtr = s.freeCtr := rfl
@[simp] theorem setTask_pending (n : Nat) (x : Option TaskEntry) : (s.setTask n x).pending = s.pending := rfl
@[simp] theorem setTask_reg (n : Nat) (x : Option TaskEntry) (a : Nat) : (s.setTask n x).reg a = s.reg a := rfl
@[simp] theorem setTask_getF (n : Nat) (x : Option TaskEntry) (f : Field) : (s.setTask n x).getF f = s.getF f := rfl
@[simp] theorem setTask_tick (n : Nat) (x : Option TaskEntry) : (s.setTask n x).tick = s.tick := rfl

@[simp] theorem modTask_regs (n : Nat) (g : TaskEntry → TaskEntry) : (s.modTask n g).regs = s.regs := rfl
@[simp] theorem modTask_fab (n : Nat) (g : TaskEntry → TaskEntry) : (s.modTask n g).fab = s.fab := rfl
@[simp] theorem modTask_slt (n : Nat) (g : TaskEntry → TaskEntry) : (s.modTask n g).slt = s.slt := rfl
@[simp] theorem modTask_host (n : Nat) (g : TaskEntry → TaskEntry) : (s.modTask n g).host = s.host := rfl
@[simp] theorem modTask_ten (n : Nat) (g : TaskEntry → TaskEntry) : (s.modTask n g).ten = s.ten := rfl
@[simp] theorem modTask_fch (n : Nat) (g : TaskEntry → TaskEntry) : (s.modTask n g).fch = s.fch := rfl
@[simp] theorem modTask_ftl (n : Nat) (g : TaskEntry → TaskEntry) : (s.modTask n g).ftl = s.ftl := rfl
@[simp] theorem modTask_dch (n : Nat) (g : TaskEntry → TaskEntry) : (s.modTask n g).dch = s.dch := rfl
@[simp] theorem modTask_srv (n : Nat) (g : TaskEntry → TaskEntry) : (s.modTask n g).srv = s.srv := rfl
@[simp] theorem modTask_eng (n : Nat) (g : TaskEntry → TaskEntry) : (s.modTask n g).eng = s.eng := rfl
@[simp] theorem modTask_pmx (n : Nat) (g : TaskEntry → TaskEntry) : (s.modTask n g).pmx = s.pmx := rfl
@[simp] theorem modTask_cmp (n : Nat) (g : TaskEntry → TaskEntry) : (s.modTask n g).cmp = s.cmp := rfl
@[simp] theorem modTask_sec (n : Nat) (g : TaskEntry → TaskEntry) : (s.modTask n g).sec = s.sec := rfl
@[simp] theorem modTask_mem (n : Nat) (g : TaskEntry → TaskEntry) : (s.modTask n g).mem = s.mem := rfl
@[simp] theorem modTask_cnt (n : Nat) (g : TaskEntry → TaskEntry) : (s.modTask n g).cnt = s.cnt := rfl
@[simp] theorem modTask_mgt (n : Nat) (g : TaskEntry → TaskEntry) : (s.modTask n g).mgt = s.mgt := rfl
@[simp] theorem modTask_nvs (n : Nat) (g : TaskEntry → TaskEntry) : (s.modTask n g).nvs = s.nvs := rfl
@[simp] theorem modTask_upd (n : Nat) (g : TaskEntry → TaskEntry) : (s.modTask n g).upd = s.upd := rfl
@[simp] theorem modTask_pwr (n : Nat) (g : TaskEntry → TaskEntry) : (s.modTask n g).pwr = s.pwr := rfl
@[simp] theorem modTask_freeCtr (n : Nat) (g : TaskEntry → TaskEntry) : (s.modTask n g).freeCtr = s.freeCtr := rfl
@[simp] theorem modTask_pending (n : Nat) (g : TaskEntry → TaskEntry) : (s.modTask n g).pending = s.pending := rfl
@[simp] theorem modTask_reg (n : Nat) (g : TaskEntry → TaskEntry) (a : Nat) : (s.modTask n g).reg a = s.reg a := rfl
@[simp] theorem modTask_getF (n : Nat) (g : TaskEntry → TaskEntry) (f : Field) : (s.modTask n g).getF f = s.getF f := rfl
@[simp] theorem modTask_tick (n : Nat) (g : TaskEntry → TaskEntry) : (s.modTask n g).tick = s.tick := rfl

@[simp] theorem setKeySlot_regs (n : Nat) (x : Option KeySlot) : (s.setKeySlot n x).regs = s.regs := rfl
@[simp] theorem setKeySlot_fab (n : Nat) (x : Option KeySlot) : (s.setKeySlot n x).fab = s.fab := rfl
@[simp] theorem setKeySlot_slt (n : Nat) (x : Option KeySlot) : (s.setKeySlot n x).slt = s.slt := rfl
@[simp] theorem setKeySlot_host (n : Nat) (x : Option KeySlot) : (s.setKeySlot n x).host = s.host := rfl
@[simp] theorem setKeySlot_ten (n : Nat) (x : Option KeySlot) : (s.setKeySlot n x).ten = s.ten := rfl
@[simp] theorem setKeySlot_fch (n : Nat) (x : Option KeySlot) : (s.setKeySlot n x).fch = s.fch := rfl
@[simp] theorem setKeySlot_ftl (n : Nat) (x : Option KeySlot) : (s.setKeySlot n x).ftl = s.ftl := rfl
@[simp] theorem setKeySlot_dch (n : Nat) (x : Option KeySlot) : (s.setKeySlot n x).dch = s.dch := rfl
@[simp] theorem setKeySlot_srv (n : Nat) (x : Option KeySlot) : (s.setKeySlot n x).srv = s.srv := rfl
@[simp] theorem setKeySlot_eng (n : Nat) (x : Option KeySlot) : (s.setKeySlot n x).eng = s.eng := rfl
@[simp] theorem setKeySlot_tsk (n : Nat) (x : Option KeySlot) : (s.setKeySlot n x).tsk = s.tsk := rfl
@[simp] theorem setKeySlot_pmx (n : Nat) (x : Option KeySlot) : (s.setKeySlot n x).pmx = s.pmx := rfl
@[simp] theorem setKeySlot_cmp (n : Nat) (x : Option KeySlot) : (s.setKeySlot n x).cmp = s.cmp := rfl
@[simp] theorem setKeySlot_mem (n : Nat) (x : Option KeySlot) : (s.setKeySlot n x).mem = s.mem := rfl
@[simp] theorem setKeySlot_cnt (n : Nat) (x : Option KeySlot) : (s.setKeySlot n x).cnt = s.cnt := rfl
@[simp] theorem setKeySlot_mgt (n : Nat) (x : Option KeySlot) : (s.setKeySlot n x).mgt = s.mgt := rfl
@[simp] theorem setKeySlot_nvs (n : Nat) (x : Option KeySlot) : (s.setKeySlot n x).nvs = s.nvs := rfl
@[simp] theorem setKeySlot_upd (n : Nat) (x : Option KeySlot) : (s.setKeySlot n x).upd = s.upd := rfl
@[simp] theorem setKeySlot_pwr (n : Nat) (x : Option KeySlot) : (s.setKeySlot n x).pwr = s.pwr := rfl
@[simp] theorem setKeySlot_freeCtr (n : Nat) (x : Option KeySlot) : (s.setKeySlot n x).freeCtr = s.freeCtr := rfl
@[simp] theorem setKeySlot_pending (n : Nat) (x : Option KeySlot) : (s.setKeySlot n x).pending = s.pending := rfl
@[simp] theorem setKeySlot_reg (n : Nat) (x : Option KeySlot) (a : Nat) : (s.setKeySlot n x).reg a = s.reg a := rfl
@[simp] theorem setKeySlot_getF (n : Nat) (x : Option KeySlot) (f : Field) : (s.setKeySlot n x).getF f = s.getF f := rfl
@[simp] theorem setKeySlot_tick (n : Nat) (x : Option KeySlot) : (s.setKeySlot n x).tick = s.tick := rfl

@[simp] theorem setSubch_regs (n : Nat) (x : Subchannel) : (s.setSubch n x).regs = s.regs := rfl
@[simp] theorem setSubch_fab (n : Nat) (x : Subchannel) : (s.setSubch n x).fab = s.fab := rfl
@[simp] theorem setSubch_slt (n : Nat) (x : Subchannel) : (s.setSubch n x).slt = s.slt := rfl
@[simp] theorem setSubch_host (n : Nat) (x : Subchannel) : (s.setSubch n x).host = s.host := rfl
@[simp] theorem setSubch_ten (n : Nat) (x : Subchannel) : (s.setSubch n x).ten = s.ten := rfl
@[simp] theorem setSubch_fch (n : Nat) (x : Subchannel) : (s.setSubch n x).fch = s.fch := rfl
@[simp] theorem setSubch_ftl (n : Nat) (x : Subchannel) : (s.setSubch n x).ftl = s.ftl := rfl
@[simp] theorem setSubch_dch (n : Nat) (x : Subchannel) : (s.setSubch n x).dch = s.dch := rfl
@[simp] theorem setSubch_srv (n : Nat) (x : Subchannel) : (s.setSubch n x).srv = s.srv := rfl
@[simp] theorem setSubch_eng (n : Nat) (x : Subchannel) : (s.setSubch n x).eng = s.eng := rfl
@[simp] theorem setSubch_tsk (n : Nat) (x : Subchannel) : (s.setSubch n x).tsk = s.tsk := rfl
@[simp] theorem setSubch_pmx (n : Nat) (x : Subchannel) : (s.setSubch n x).pmx = s.pmx := rfl
@[simp] theorem setSubch_cmp (n : Nat) (x : Subchannel) : (s.setSubch n x).cmp = s.cmp := rfl
@[simp] theorem setSubch_sec (n : Nat) (x : Subchannel) : (s.setSubch n x).sec = s.sec := rfl
@[simp] theorem setSubch_cnt (n : Nat) (x : Subchannel) : (s.setSubch n x).cnt = s.cnt := rfl
@[simp] theorem setSubch_mgt (n : Nat) (x : Subchannel) : (s.setSubch n x).mgt = s.mgt := rfl
@[simp] theorem setSubch_nvs (n : Nat) (x : Subchannel) : (s.setSubch n x).nvs = s.nvs := rfl
@[simp] theorem setSubch_upd (n : Nat) (x : Subchannel) : (s.setSubch n x).upd = s.upd := rfl
@[simp] theorem setSubch_pwr (n : Nat) (x : Subchannel) : (s.setSubch n x).pwr = s.pwr := rfl
@[simp] theorem setSubch_freeCtr (n : Nat) (x : Subchannel) : (s.setSubch n x).freeCtr = s.freeCtr := rfl
@[simp] theorem setSubch_pending (n : Nat) (x : Subchannel) : (s.setSubch n x).pending = s.pending := rfl
@[simp] theorem setSubch_reg (n : Nat) (x : Subchannel) (a : Nat) : (s.setSubch n x).reg a = s.reg a := rfl
@[simp] theorem setSubch_getF (n : Nat) (x : Subchannel) (f : Field) : (s.setSubch n x).getF f = s.getF f := rfl
@[simp] theorem setSubch_tick (n : Nat) (x : Subchannel) : (s.setSubch n x).tick = s.tick := rfl

@[simp] theorem modSubch_regs (n : Nat) (g : Subchannel → Subchannel) : (s.modSubch n g).regs = s.regs := rfl
@[simp] theorem modSubch_fab (n : Nat) (g : Subchannel → Subchannel) : (s.modSubch n g).fab = s.fab := rfl
@[simp] theorem modSubch_slt (n : Nat) (g : Subchannel → Subchannel) : (s.modSubch n g).slt = s.slt := rfl
@[simp] theorem modSubch_host (n : Nat) (g : Subchannel → Subchannel) : (s.modSubch n g).host = s.host := rfl
@[simp] theorem modSubch_ten (n : Nat) (g : Subchannel → Subchannel) : (s.modSubch n g).ten = s.ten := rfl
@[simp] theorem modSubch_fch (n : Nat) (g : Subchannel → Subchannel) : (s.modSubch n g).fch = s.fch := rfl
@[simp] theorem modSubch_ftl (n : Nat) (g : Subchannel → Subchannel) : (s.modSubch n g).ftl = s.ftl := rfl
@[simp] theorem modSubch_dch (n : Nat) (g : Subchannel → Subchannel) : (s.modSubch n g).dch = s.dch := rfl
@[simp] theorem modSubch_srv (n : Nat) (g : Subchannel → Subchannel) : (s.modSubch n g).srv = s.srv := rfl
@[simp] theorem modSubch_eng (n : Nat) (g : Subchannel → Subchannel) : (s.modSubch n g).eng = s.eng := rfl
@[simp] theorem modSubch_tsk (n : Nat) (g : Subchannel → Subchannel) : (s.modSubch n g).tsk = s.tsk := rfl
@[simp] theorem modSubch_pmx (n : Nat) (g : Subchannel → Subchannel) : (s.modSubch n g).pmx = s.pmx := rfl
@[simp] theorem modSubch_cmp (n : Nat) (g : Subchannel → Subchannel) : (s.modSubch n g).cmp = s.cmp := rfl
@[simp] theorem modSubch_sec (n : Nat) (g : Subchannel → Subchannel) : (s.modSubch n g).sec = s.sec := rfl
@[simp] theorem modSubch_cnt (n : Nat) (g : Subchannel → Subchannel) : (s.modSubch n g).cnt = s.cnt := rfl
@[simp] theorem modSubch_mgt (n : Nat) (g : Subchannel → Subchannel) : (s.modSubch n g).mgt = s.mgt := rfl
@[simp] theorem modSubch_nvs (n : Nat) (g : Subchannel → Subchannel) : (s.modSubch n g).nvs = s.nvs := rfl
@[simp] theorem modSubch_upd (n : Nat) (g : Subchannel → Subchannel) : (s.modSubch n g).upd = s.upd := rfl
@[simp] theorem modSubch_pwr (n : Nat) (g : Subchannel → Subchannel) : (s.modSubch n g).pwr = s.pwr := rfl
@[simp] theorem modSubch_freeCtr (n : Nat) (g : Subchannel → Subchannel) : (s.modSubch n g).freeCtr = s.freeCtr := rfl
@[simp] theorem modSubch_pending (n : Nat) (g : Subchannel → Subchannel) : (s.modSubch n g).pending = s.pending := rfl
@[simp] theorem modSubch_reg (n : Nat) (g : Subchannel → Subchannel) (a : Nat) : (s.modSubch n g).reg a = s.reg a := rfl
@[simp] theorem modSubch_getF (n : Nat) (g : Subchannel → Subchannel) (f : Field) : (s.modSubch n g).getF f = s.getF f := rfl
@[simp] theorem modSubch_tick (n : Nat) (g : Subchannel → Subchannel) : (s.modSubch n g).tick = s.tick := rfl

@[simp] theorem modFab_regs (g : Fabric → Fabric) : (s.modFab g).regs = s.regs := rfl
@[simp] theorem modFab_slt (g : Fabric → Fabric) : (s.modFab g).slt = s.slt := rfl
@[simp] theorem modFab_host (g : Fabric → Fabric) : (s.modFab g).host = s.host := rfl
@[simp] theorem modFab_ten (g : Fabric → Fabric) : (s.modFab g).ten = s.ten := rfl
@[simp] theorem modFab_fch (g : Fabric → Fabric) : (s.modFab g).fch = s.fch := rfl
@[simp] theorem modFab_ftl (g : Fabric → Fabric) : (s.modFab g).ftl = s.ftl := rfl
@[simp] theorem modFab_dch (g : Fabric → Fabric) : (s.modFab g).dch = s.dch := rfl
@[simp] theorem modFab_srv (g : Fabric → Fabric) : (s.modFab g).srv = s.srv := rfl
@[simp] theorem modFab_eng (g : Fabric → Fabric) : (s.modFab g).eng = s.eng := rfl
@[simp] theorem modFab_tsk (g : Fabric → Fabric) : (s.modFab g).tsk = s.tsk := rfl
@[simp] theorem modFab_pmx (g : Fabric → Fabric) : (s.modFab g).pmx = s.pmx := rfl
@[simp] theorem modFab_cmp (g : Fabric → Fabric) : (s.modFab g).cmp = s.cmp := rfl
@[simp] theorem modFab_sec (g : Fabric → Fabric) : (s.modFab g).sec = s.sec := rfl
@[simp] theorem modFab_mem (g : Fabric → Fabric) : (s.modFab g).mem = s.mem := rfl
@[simp] theorem modFab_cnt (g : Fabric → Fabric) : (s.modFab g).cnt = s.cnt := rfl
@[simp] theorem modFab_mgt (g : Fabric → Fabric) : (s.modFab g).mgt = s.mgt := rfl
@[simp] theorem modFab_nvs (g : Fabric → Fabric) : (s.modFab g).nvs = s.nvs := rfl
@[simp] theorem modFab_upd (g : Fabric → Fabric) : (s.modFab g).upd = s.upd := rfl
@[simp] theorem modFab_pwr (g : Fabric → Fabric) : (s.modFab g).pwr = s.pwr := rfl
@[simp] theorem modFab_freeCtr (g : Fabric → Fabric) : (s.modFab g).freeCtr = s.freeCtr := rfl
@[simp] theorem modFab_pending (g : Fabric → Fabric) : (s.modFab g).pending = s.pending := rfl
@[simp] theorem modFab_fab (g : Fabric → Fabric) : (s.modFab g).fab = g s.fab := rfl
@[simp] theorem modFab_reg (g : Fabric → Fabric) (a : Nat) : (s.modFab g).reg a = s.reg a := rfl
@[simp] theorem modFab_getF (g : Fabric → Fabric) (f : Field) : (s.modFab g).getF f = s.getF f := rfl

@[simp] theorem modSlt_regs (g : Slate → Slate) : (s.modSlt g).regs = s.regs := rfl
@[simp] theorem modSlt_fab (g : Slate → Slate) : (s.modSlt g).fab = s.fab := rfl
@[simp] theorem modSlt_host (g : Slate → Slate) : (s.modSlt g).host = s.host := rfl
@[simp] theorem modSlt_ten (g : Slate → Slate) : (s.modSlt g).ten = s.ten := rfl
@[simp] theorem modSlt_fch (g : Slate → Slate) : (s.modSlt g).fch = s.fch := rfl
@[simp] theorem modSlt_ftl (g : Slate → Slate) : (s.modSlt g).ftl = s.ftl := rfl
@[simp] theorem modSlt_dch (g : Slate → Slate) : (s.modSlt g).dch = s.dch := rfl
@[simp] theorem modSlt_srv (g : Slate → Slate) : (s.modSlt g).srv = s.srv := rfl
@[simp] theorem modSlt_eng (g : Slate → Slate) : (s.modSlt g).eng = s.eng := rfl
@[simp] theorem modSlt_tsk (g : Slate → Slate) : (s.modSlt g).tsk = s.tsk := rfl
@[simp] theorem modSlt_pmx (g : Slate → Slate) : (s.modSlt g).pmx = s.pmx := rfl
@[simp] theorem modSlt_cmp (g : Slate → Slate) : (s.modSlt g).cmp = s.cmp := rfl
@[simp] theorem modSlt_sec (g : Slate → Slate) : (s.modSlt g).sec = s.sec := rfl
@[simp] theorem modSlt_mem (g : Slate → Slate) : (s.modSlt g).mem = s.mem := rfl
@[simp] theorem modSlt_cnt (g : Slate → Slate) : (s.modSlt g).cnt = s.cnt := rfl
@[simp] theorem modSlt_mgt (g : Slate → Slate) : (s.modSlt g).mgt = s.mgt := rfl
@[simp] theorem modSlt_nvs (g : Slate → Slate) : (s.modSlt g).nvs = s.nvs := rfl
@[simp] theorem modSlt_upd (g : Slate → Slate) : (s.modSlt g).upd = s.upd := rfl
@[simp] theorem modSlt_pwr (g : Slate → Slate) : (s.modSlt g).pwr = s.pwr := rfl
@[simp] theorem modSlt_freeCtr (g : Slate → Slate) : (s.modSlt g).freeCtr = s.freeCtr := rfl
@[simp] theorem modSlt_pending (g : Slate → Slate) : (s.modSlt g).pending = s.pending := rfl
@[simp] theorem modSlt_slt (g : Slate → Slate) : (s.modSlt g).slt = g s.slt := rfl
@[simp] theorem modSlt_reg (g : Slate → Slate) (a : Nat) : (s.modSlt g).reg a = s.reg a := rfl
@[simp] theorem modSlt_getF (g : Slate → Slate) (f : Field) : (s.modSlt g).getF f = s.getF f := rfl
@[simp] theorem modSlt_tick (g : Slate → Slate) : (s.modSlt g).tick = s.tick := rfl

@[simp] theorem modHost_regs (g : HostIf → HostIf) : (s.modHost g).regs = s.regs := rfl
@[simp] theorem modHost_fab (g : HostIf → HostIf) : (s.modHost g).fab = s.fab := rfl
@[simp] theorem modHost_slt (g : HostIf → HostIf) : (s.modHost g).slt = s.slt := rfl
@[simp] theorem modHost_ten (g : HostIf → HostIf) : (s.modHost g).ten = s.ten := rfl
@[simp] theorem modHost_fch (g : HostIf → HostIf) : (s.modHost g).fch = s.fch := rfl
@[simp] theorem modHost_ftl (g : HostIf → HostIf) : (s.modHost g).ftl = s.ftl := rfl
@[simp] theorem modHost_dch (g : HostIf → HostIf) : (s.modHost g).dch = s.dch := rfl
@[simp] theorem modHost_srv (g : HostIf → HostIf) : (s.modHost g).srv = s.srv := rfl
@[simp] theorem modHost_eng (g : HostIf → HostIf) : (s.modHost g).eng = s.eng := rfl
@[simp] theorem modHost_tsk (g : HostIf → HostIf) : (s.modHost g).tsk = s.tsk := rfl
@[simp] theorem modHost_pmx (g : HostIf → HostIf) : (s.modHost g).pmx = s.pmx := rfl
@[simp] theorem modHost_cmp (g : HostIf → HostIf) : (s.modHost g).cmp = s.cmp := rfl
@[simp] theorem modHost_sec (g : HostIf → HostIf) : (s.modHost g).sec = s.sec := rfl
@[simp] theorem modHost_mem (g : HostIf → HostIf) : (s.modHost g).mem = s.mem := rfl
@[simp] theorem modHost_cnt (g : HostIf → HostIf) : (s.modHost g).cnt = s.cnt := rfl
@[simp] theorem modHost_mgt (g : HostIf → HostIf) : (s.modHost g).mgt = s.mgt := rfl
@[simp] theorem modHost_nvs (g : HostIf → HostIf) : (s.modHost g).nvs = s.nvs := rfl
@[simp] theorem modHost_upd (g : HostIf → HostIf) : (s.modHost g).upd = s.upd := rfl
@[simp] theorem modHost_pwr (g : HostIf → HostIf) : (s.modHost g).pwr = s.pwr := rfl
@[simp] theorem modHost_freeCtr (g : HostIf → HostIf) : (s.modHost g).freeCtr = s.freeCtr := rfl
@[simp] theorem modHost_pending (g : HostIf → HostIf) : (s.modHost g).pending = s.pending := rfl
@[simp] theorem modHost_host (g : HostIf → HostIf) : (s.modHost g).host = g s.host := rfl
@[simp] theorem modHost_reg (g : HostIf → HostIf) (a : Nat) : (s.modHost g).reg a = s.reg a := rfl
@[simp] theorem modHost_getF (g : HostIf → HostIf) (f : Field) : (s.modHost g).getF f = s.getF f := rfl
@[simp] theorem modHost_tick (g : HostIf → HostIf) : (s.modHost g).tick = s.tick := rfl

@[simp] theorem modFch_regs (g : Flash → Flash) : (s.modFch g).regs = s.regs := rfl
@[simp] theorem modFch_fab (g : Flash → Flash) : (s.modFch g).fab = s.fab := rfl
@[simp] theorem modFch_slt (g : Flash → Flash) : (s.modFch g).slt = s.slt := rfl
@[simp] theorem modFch_host (g : Flash → Flash) : (s.modFch g).host = s.host := rfl
@[simp] theorem modFch_ten (g : Flash → Flash) : (s.modFch g).ten = s.ten := rfl
@[simp] theorem modFch_ftl (g : Flash → Flash) : (s.modFch g).ftl = s.ftl := rfl
@[simp] theorem modFch_dch (g : Flash → Flash) : (s.modFch g).dch = s.dch := rfl
@[simp] theorem modFch_srv (g : Flash → Flash) : (s.modFch g).srv = s.srv := rfl
@[simp] theorem modFch_eng (g : Flash → Flash) : (s.modFch g).eng = s.eng := rfl
@[simp] theorem modFch_tsk (g : Flash → Flash) : (s.modFch g).tsk = s.tsk := rfl
@[simp] theorem modFch_pmx (g : Flash → Flash) : (s.modFch g).pmx = s.pmx := rfl
@[simp] theorem modFch_cmp (g : Flash → Flash) : (s.modFch g).cmp = s.cmp := rfl
@[simp] theorem modFch_sec (g : Flash → Flash) : (s.modFch g).sec = s.sec := rfl
@[simp] theorem modFch_mem (g : Flash → Flash) : (s.modFch g).mem = s.mem := rfl
@[simp] theorem modFch_cnt (g : Flash → Flash) : (s.modFch g).cnt = s.cnt := rfl
@[simp] theorem modFch_mgt (g : Flash → Flash) : (s.modFch g).mgt = s.mgt := rfl
@[simp] theorem modFch_nvs (g : Flash → Flash) : (s.modFch g).nvs = s.nvs := rfl
@[simp] theorem modFch_upd (g : Flash → Flash) : (s.modFch g).upd = s.upd := rfl
@[simp] theorem modFch_pwr (g : Flash → Flash) : (s.modFch g).pwr = s.pwr := rfl
@[simp] theorem modFch_freeCtr (g : Flash → Flash) : (s.modFch g).freeCtr = s.freeCtr := rfl
@[simp] theorem modFch_pending (g : Flash → Flash) : (s.modFch g).pending = s.pending := rfl
@[simp] theorem modFch_fch (g : Flash → Flash) : (s.modFch g).fch = g s.fch := rfl
@[simp] theorem modFch_reg (g : Flash → Flash) (a : Nat) : (s.modFch g).reg a = s.reg a := rfl
@[simp] theorem modFch_getF (g : Flash → Flash) (f : Field) : (s.modFch g).getF f = s.getF f := rfl
@[simp] theorem modFch_tick (g : Flash → Flash) : (s.modFch g).tick = s.tick := rfl

@[simp] theorem modFtl_regs (g : Ftl → Ftl) : (s.modFtl g).regs = s.regs := rfl
@[simp] theorem modFtl_fab (g : Ftl → Ftl) : (s.modFtl g).fab = s.fab := rfl
@[simp] theorem modFtl_slt (g : Ftl → Ftl) : (s.modFtl g).slt = s.slt := rfl
@[simp] theorem modFtl_host (g : Ftl → Ftl) : (s.modFtl g).host = s.host := rfl
@[simp] theorem modFtl_ten (g : Ftl → Ftl) : (s.modFtl g).ten = s.ten := rfl
@[simp] theorem modFtl_fch (g : Ftl → Ftl) : (s.modFtl g).fch = s.fch := rfl
@[simp] theorem modFtl_dch (g : Ftl → Ftl) : (s.modFtl g).dch = s.dch := rfl
@[simp] theorem modFtl_srv (g : Ftl → Ftl) : (s.modFtl g).srv = s.srv := rfl
@[simp] theorem modFtl_eng (g : Ftl → Ftl) : (s.modFtl g).eng = s.eng := rfl
@[simp] theorem modFtl_tsk (g : Ftl → Ftl) : (s.modFtl g).tsk = s.tsk := rfl
@[simp] theorem modFtl_pmx (g : Ftl → Ftl) : (s.modFtl g).pmx = s.pmx := rfl
@[simp] theorem modFtl_cmp (g : Ftl → Ftl) : (s.modFtl g).cmp = s.cmp := rfl
@[simp] theorem modFtl_sec (g : Ftl → Ftl) : (s.modFtl g).sec = s.sec := rfl
@[simp] theorem modFtl_mem (g : Ftl → Ftl) : (s.modFtl g).mem = s.mem := rfl
@[simp] theorem modFtl_cnt (g : Ftl → Ftl) : (s.modFtl g).cnt = s.cnt := rfl
@[simp] theorem modFtl_mgt (g : Ftl → Ftl) : (s.modFtl g).mgt = s.mgt := rfl
@[simp] theorem modFtl_nvs (g : Ftl → Ftl) : (s.modFtl g).nvs = s.nvs := rfl
@[simp] theorem modFtl_upd (g : Ftl → Ftl) : (s.modFtl g).upd = s.upd := rfl
@[simp] theorem modFtl_pwr (g : Ftl → Ftl) : (s.modFtl g).pwr = s.pwr := rfl
@[simp] theorem modFtl_freeCtr (g : Ftl → Ftl) : (s.modFtl g).freeCtr = s.freeCtr := rfl
@[simp] theorem modFtl_pending (g : Ftl → Ftl) : (s.modFtl g).pending = s.pending := rfl
@[simp] theorem modFtl_ftl (g : Ftl → Ftl) : (s.modFtl g).ftl = g s.ftl := rfl
@[simp] theorem modFtl_reg (g : Ftl → Ftl) (a : Nat) : (s.modFtl g).reg a = s.reg a := rfl
@[simp] theorem modFtl_getF (g : Ftl → Ftl) (f : Field) : (s.modFtl g).getF f = s.getF f := rfl
@[simp] theorem modFtl_tick (g : Ftl → Ftl) : (s.modFtl g).tick = s.tick := rfl

@[simp] theorem modDch_regs (g : Disk → Disk) : (s.modDch g).regs = s.regs := rfl
@[simp] theorem modDch_fab (g : Disk → Disk) : (s.modDch g).fab = s.fab := rfl
@[simp] theorem modDch_slt (g : Disk → Disk) : (s.modDch g).slt = s.slt := rfl
@[simp] theorem modDch_host (g : Disk → Disk) : (s.modDch g).host = s.host := rfl
@[simp] theorem modDch_ten (g : Disk → Disk) : (s.modDch g).ten = s.ten := rfl
@[simp] theorem modDch_fch (g : Disk → Disk) : (s.modDch g).fch = s.fch := rfl
@[simp] theorem modDch_ftl (g : Disk → Disk) : (s.modDch g).ftl = s.ftl := rfl
@[simp] theorem modDch_srv (g : Disk → Disk) : (s.modDch g).srv = s.srv := rfl
@[simp] theorem modDch_eng (g : Disk → Disk) : (s.modDch g).eng = s.eng := rfl
@[simp] theorem modDch_tsk (g : Disk → Disk) : (s.modDch g).tsk = s.tsk := rfl
@[simp] theorem modDch_pmx (g : Disk → Disk) : (s.modDch g).pmx = s.pmx := rfl
@[simp] theorem modDch_cmp (g : Disk → Disk) : (s.modDch g).cmp = s.cmp := rfl
@[simp] theorem modDch_sec (g : Disk → Disk) : (s.modDch g).sec = s.sec := rfl
@[simp] theorem modDch_mem (g : Disk → Disk) : (s.modDch g).mem = s.mem := rfl
@[simp] theorem modDch_cnt (g : Disk → Disk) : (s.modDch g).cnt = s.cnt := rfl
@[simp] theorem modDch_mgt (g : Disk → Disk) : (s.modDch g).mgt = s.mgt := rfl
@[simp] theorem modDch_nvs (g : Disk → Disk) : (s.modDch g).nvs = s.nvs := rfl
@[simp] theorem modDch_upd (g : Disk → Disk) : (s.modDch g).upd = s.upd := rfl
@[simp] theorem modDch_pwr (g : Disk → Disk) : (s.modDch g).pwr = s.pwr := rfl
@[simp] theorem modDch_freeCtr (g : Disk → Disk) : (s.modDch g).freeCtr = s.freeCtr := rfl
@[simp] theorem modDch_pending (g : Disk → Disk) : (s.modDch g).pending = s.pending := rfl
@[simp] theorem modDch_dch (g : Disk → Disk) : (s.modDch g).dch = g s.dch := rfl
@[simp] theorem modDch_reg (g : Disk → Disk) (a : Nat) : (s.modDch g).reg a = s.reg a := rfl
@[simp] theorem modDch_getF (g : Disk → Disk) (f : Field) : (s.modDch g).getF f = s.getF f := rfl
@[simp] theorem modDch_tick (g : Disk → Disk) : (s.modDch g).tick = s.tick := rfl

@[simp] theorem modSrv_regs (g : Servo → Servo) : (s.modSrv g).regs = s.regs := rfl
@[simp] theorem modSrv_fab (g : Servo → Servo) : (s.modSrv g).fab = s.fab := rfl
@[simp] theorem modSrv_slt (g : Servo → Servo) : (s.modSrv g).slt = s.slt := rfl
@[simp] theorem modSrv_host (g : Servo → Servo) : (s.modSrv g).host = s.host := rfl
@[simp] theorem modSrv_ten (g : Servo → Servo) : (s.modSrv g).ten = s.ten := rfl
@[simp] theorem modSrv_fch (g : Servo → Servo) : (s.modSrv g).fch = s.fch := rfl
@[simp] theorem modSrv_ftl (g : Servo → Servo) : (s.modSrv g).ftl = s.ftl := rfl
@[simp] theorem modSrv_dch (g : Servo → Servo) : (s.modSrv g).dch = s.dch := rfl
@[simp] theorem modSrv_eng (g : Servo → Servo) : (s.modSrv g).eng = s.eng := rfl
@[simp] theorem modSrv_tsk (g : Servo → Servo) : (s.modSrv g).tsk = s.tsk := rfl
@[simp] theorem modSrv_pmx (g : Servo → Servo) : (s.modSrv g).pmx = s.pmx := rfl
@[simp] theorem modSrv_cmp (g : Servo → Servo) : (s.modSrv g).cmp = s.cmp := rfl
@[simp] theorem modSrv_sec (g : Servo → Servo) : (s.modSrv g).sec = s.sec := rfl
@[simp] theorem modSrv_mem (g : Servo → Servo) : (s.modSrv g).mem = s.mem := rfl
@[simp] theorem modSrv_cnt (g : Servo → Servo) : (s.modSrv g).cnt = s.cnt := rfl
@[simp] theorem modSrv_mgt (g : Servo → Servo) : (s.modSrv g).mgt = s.mgt := rfl
@[simp] theorem modSrv_nvs (g : Servo → Servo) : (s.modSrv g).nvs = s.nvs := rfl
@[simp] theorem modSrv_upd (g : Servo → Servo) : (s.modSrv g).upd = s.upd := rfl
@[simp] theorem modSrv_pwr (g : Servo → Servo) : (s.modSrv g).pwr = s.pwr := rfl
@[simp] theorem modSrv_freeCtr (g : Servo → Servo) : (s.modSrv g).freeCtr = s.freeCtr := rfl
@[simp] theorem modSrv_pending (g : Servo → Servo) : (s.modSrv g).pending = s.pending := rfl
@[simp] theorem modSrv_srv (g : Servo → Servo) : (s.modSrv g).srv = g s.srv := rfl
@[simp] theorem modSrv_reg (g : Servo → Servo) (a : Nat) : (s.modSrv g).reg a = s.reg a := rfl
@[simp] theorem modSrv_getF (g : Servo → Servo) (f : Field) : (s.modSrv g).getF f = s.getF f := rfl
@[simp] theorem modSrv_tick (g : Servo → Servo) : (s.modSrv g).tick = s.tick := rfl

@[simp] theorem modEng_regs (g : Engines → Engines) : (s.modEng g).regs = s.regs := rfl
@[simp] theorem modEng_fab (g : Engines → Engines) : (s.modEng g).fab = s.fab := rfl
@[simp] theorem modEng_slt (g : Engines → Engines) : (s.modEng g).slt = s.slt := rfl
@[simp] theorem modEng_host (g : Engines → Engines) : (s.modEng g).host = s.host := rfl
@[simp] theorem modEng_ten (g : Engines → Engines) : (s.modEng g).ten = s.ten := rfl
@[simp] theorem modEng_fch (g : Engines → Engines) : (s.modEng g).fch = s.fch := rfl
@[simp] theorem modEng_ftl (g : Engines → Engines) : (s.modEng g).ftl = s.ftl := rfl
@[simp] theorem modEng_dch (g : Engines → Engines) : (s.modEng g).dch = s.dch := rfl
@[simp] theorem modEng_srv (g : Engines → Engines) : (s.modEng g).srv = s.srv := rfl
@[simp] theorem modEng_tsk (g : Engines → Engines) : (s.modEng g).tsk = s.tsk := rfl
@[simp] theorem modEng_pmx (g : Engines → Engines) : (s.modEng g).pmx = s.pmx := rfl
@[simp] theorem modEng_cmp (g : Engines → Engines) : (s.modEng g).cmp = s.cmp := rfl
@[simp] theorem modEng_sec (g : Engines → Engines) : (s.modEng g).sec = s.sec := rfl
@[simp] theorem modEng_mem (g : Engines → Engines) : (s.modEng g).mem = s.mem := rfl
@[simp] theorem modEng_cnt (g : Engines → Engines) : (s.modEng g).cnt = s.cnt := rfl
@[simp] theorem modEng_mgt (g : Engines → Engines) : (s.modEng g).mgt = s.mgt := rfl
@[simp] theorem modEng_nvs (g : Engines → Engines) : (s.modEng g).nvs = s.nvs := rfl
@[simp] theorem modEng_upd (g : Engines → Engines) : (s.modEng g).upd = s.upd := rfl
@[simp] theorem modEng_pwr (g : Engines → Engines) : (s.modEng g).pwr = s.pwr := rfl
@[simp] theorem modEng_freeCtr (g : Engines → Engines) : (s.modEng g).freeCtr = s.freeCtr := rfl
@[simp] theorem modEng_pending (g : Engines → Engines) : (s.modEng g).pending = s.pending := rfl
@[simp] theorem modEng_eng (g : Engines → Engines) : (s.modEng g).eng = g s.eng := rfl
@[simp] theorem modEng_reg (g : Engines → Engines) (a : Nat) : (s.modEng g).reg a = s.reg a := rfl
@[simp] theorem modEng_getF (g : Engines → Engines) (f : Field) : (s.modEng g).getF f = s.getF f := rfl
@[simp] theorem modEng_tick (g : Engines → Engines) : (s.modEng g).tick = s.tick := rfl

@[simp] theorem modTsk_regs (g : Takes → Takes) : (s.modTsk g).regs = s.regs := rfl
@[simp] theorem modTsk_fab (g : Takes → Takes) : (s.modTsk g).fab = s.fab := rfl
@[simp] theorem modTsk_slt (g : Takes → Takes) : (s.modTsk g).slt = s.slt := rfl
@[simp] theorem modTsk_host (g : Takes → Takes) : (s.modTsk g).host = s.host := rfl
@[simp] theorem modTsk_ten (g : Takes → Takes) : (s.modTsk g).ten = s.ten := rfl
@[simp] theorem modTsk_fch (g : Takes → Takes) : (s.modTsk g).fch = s.fch := rfl
@[simp] theorem modTsk_ftl (g : Takes → Takes) : (s.modTsk g).ftl = s.ftl := rfl
@[simp] theorem modTsk_dch (g : Takes → Takes) : (s.modTsk g).dch = s.dch := rfl
@[simp] theorem modTsk_srv (g : Takes → Takes) : (s.modTsk g).srv = s.srv := rfl
@[simp] theorem modTsk_eng (g : Takes → Takes) : (s.modTsk g).eng = s.eng := rfl
@[simp] theorem modTsk_pmx (g : Takes → Takes) : (s.modTsk g).pmx = s.pmx := rfl
@[simp] theorem modTsk_cmp (g : Takes → Takes) : (s.modTsk g).cmp = s.cmp := rfl
@[simp] theorem modTsk_sec (g : Takes → Takes) : (s.modTsk g).sec = s.sec := rfl
@[simp] theorem modTsk_mem (g : Takes → Takes) : (s.modTsk g).mem = s.mem := rfl
@[simp] theorem modTsk_cnt (g : Takes → Takes) : (s.modTsk g).cnt = s.cnt := rfl
@[simp] theorem modTsk_mgt (g : Takes → Takes) : (s.modTsk g).mgt = s.mgt := rfl
@[simp] theorem modTsk_nvs (g : Takes → Takes) : (s.modTsk g).nvs = s.nvs := rfl
@[simp] theorem modTsk_upd (g : Takes → Takes) : (s.modTsk g).upd = s.upd := rfl
@[simp] theorem modTsk_pwr (g : Takes → Takes) : (s.modTsk g).pwr = s.pwr := rfl
@[simp] theorem modTsk_freeCtr (g : Takes → Takes) : (s.modTsk g).freeCtr = s.freeCtr := rfl
@[simp] theorem modTsk_pending (g : Takes → Takes) : (s.modTsk g).pending = s.pending := rfl
@[simp] theorem modTsk_tsk (g : Takes → Takes) : (s.modTsk g).tsk = g s.tsk := rfl
@[simp] theorem modTsk_reg (g : Takes → Takes) (a : Nat) : (s.modTsk g).reg a = s.reg a := rfl
@[simp] theorem modTsk_getF (g : Takes → Takes) (f : Field) : (s.modTsk g).getF f = s.getF f := rfl
@[simp] theorem modTsk_tick (g : Takes → Takes) : (s.modTsk g).tick = s.tick := rfl

@[simp] theorem modPmx_regs (g : Pmx → Pmx) : (s.modPmx g).regs = s.regs := rfl
@[simp] theorem modPmx_fab (g : Pmx → Pmx) : (s.modPmx g).fab = s.fab := rfl
@[simp] theorem modPmx_slt (g : Pmx → Pmx) : (s.modPmx g).slt = s.slt := rfl
@[simp] theorem modPmx_host (g : Pmx → Pmx) : (s.modPmx g).host = s.host := rfl
@[simp] theorem modPmx_ten (g : Pmx → Pmx) : (s.modPmx g).ten = s.ten := rfl
@[simp] theorem modPmx_fch (g : Pmx → Pmx) : (s.modPmx g).fch = s.fch := rfl
@[simp] theorem modPmx_ftl (g : Pmx → Pmx) : (s.modPmx g).ftl = s.ftl := rfl
@[simp] theorem modPmx_dch (g : Pmx → Pmx) : (s.modPmx g).dch = s.dch := rfl
@[simp] theorem modPmx_srv (g : Pmx → Pmx) : (s.modPmx g).srv = s.srv := rfl
@[simp] theorem modPmx_eng (g : Pmx → Pmx) : (s.modPmx g).eng = s.eng := rfl
@[simp] theorem modPmx_tsk (g : Pmx → Pmx) : (s.modPmx g).tsk = s.tsk := rfl
@[simp] theorem modPmx_cmp (g : Pmx → Pmx) : (s.modPmx g).cmp = s.cmp := rfl
@[simp] theorem modPmx_sec (g : Pmx → Pmx) : (s.modPmx g).sec = s.sec := rfl
@[simp] theorem modPmx_mem (g : Pmx → Pmx) : (s.modPmx g).mem = s.mem := rfl
@[simp] theorem modPmx_cnt (g : Pmx → Pmx) : (s.modPmx g).cnt = s.cnt := rfl
@[simp] theorem modPmx_mgt (g : Pmx → Pmx) : (s.modPmx g).mgt = s.mgt := rfl
@[simp] theorem modPmx_nvs (g : Pmx → Pmx) : (s.modPmx g).nvs = s.nvs := rfl
@[simp] theorem modPmx_upd (g : Pmx → Pmx) : (s.modPmx g).upd = s.upd := rfl
@[simp] theorem modPmx_pwr (g : Pmx → Pmx) : (s.modPmx g).pwr = s.pwr := rfl
@[simp] theorem modPmx_freeCtr (g : Pmx → Pmx) : (s.modPmx g).freeCtr = s.freeCtr := rfl
@[simp] theorem modPmx_pending (g : Pmx → Pmx) : (s.modPmx g).pending = s.pending := rfl
@[simp] theorem modPmx_pmx (g : Pmx → Pmx) : (s.modPmx g).pmx = g s.pmx := rfl
@[simp] theorem modPmx_reg (g : Pmx → Pmx) (a : Nat) : (s.modPmx g).reg a = s.reg a := rfl
@[simp] theorem modPmx_getF (g : Pmx → Pmx) (f : Field) : (s.modPmx g).getF f = s.getF f := rfl
@[simp] theorem modPmx_tick (g : Pmx → Pmx) : (s.modPmx g).tick = s.tick := rfl

@[simp] theorem modCmp_regs (g : Cmp → Cmp) : (s.modCmp g).regs = s.regs := rfl
@[simp] theorem modCmp_fab (g : Cmp → Cmp) : (s.modCmp g).fab = s.fab := rfl
@[simp] theorem modCmp_slt (g : Cmp → Cmp) : (s.modCmp g).slt = s.slt := rfl
@[simp] theorem modCmp_host (g : Cmp → Cmp) : (s.modCmp g).host = s.host := rfl
@[simp] theorem modCmp_ten (g : Cmp → Cmp) : (s.modCmp g).ten = s.ten := rfl
@[simp] theorem modCmp_fch (g : Cmp → Cmp) : (s.modCmp g).fch = s.fch := rfl
@[simp] theorem modCmp_ftl (g : Cmp → Cmp) : (s.modCmp g).ftl = s.ftl := rfl
@[simp] theorem modCmp_dch (g : Cmp → Cmp) : (s.modCmp g).dch = s.dch := rfl
@[simp] theorem modCmp_srv (g : Cmp → Cmp) : (s.modCmp g).srv = s.srv := rfl
@[simp] theorem modCmp_eng (g : Cmp → Cmp) : (s.modCmp g).eng = s.eng := rfl
@[simp] theorem modCmp_tsk (g : Cmp → Cmp) : (s.modCmp g).tsk = s.tsk := rfl
@[simp] theorem modCmp_pmx (g : Cmp → Cmp) : (s.modCmp g).pmx = s.pmx := rfl
@[simp] theorem modCmp_sec (g : Cmp → Cmp) : (s.modCmp g).sec = s.sec := rfl
@[simp] theorem modCmp_mem (g : Cmp → Cmp) : (s.modCmp g).mem = s.mem := rfl
@[simp] theorem modCmp_cnt (g : Cmp → Cmp) : (s.modCmp g).cnt = s.cnt := rfl
@[simp] theorem modCmp_mgt (g : Cmp → Cmp) : (s.modCmp g).mgt = s.mgt := rfl
@[simp] theorem modCmp_nvs (g : Cmp → Cmp) : (s.modCmp g).nvs = s.nvs := rfl
@[simp] theorem modCmp_upd (g : Cmp → Cmp) : (s.modCmp g).upd = s.upd := rfl
@[simp] theorem modCmp_pwr (g : Cmp → Cmp) : (s.modCmp g).pwr = s.pwr := rfl
@[simp] theorem modCmp_freeCtr (g : Cmp → Cmp) : (s.modCmp g).freeCtr = s.freeCtr := rfl
@[simp] theorem modCmp_pending (g : Cmp → Cmp) : (s.modCmp g).pending = s.pending := rfl
@[simp] theorem modCmp_cmp (g : Cmp → Cmp) : (s.modCmp g).cmp = g s.cmp := rfl
@[simp] theorem modCmp_reg (g : Cmp → Cmp) (a : Nat) : (s.modCmp g).reg a = s.reg a := rfl
@[simp] theorem modCmp_getF (g : Cmp → Cmp) (f : Field) : (s.modCmp g).getF f = s.getF f := rfl
@[simp] theorem modCmp_tick (g : Cmp → Cmp) : (s.modCmp g).tick = s.tick := rfl

@[simp] theorem modSec_regs (g : Sec → Sec) : (s.modSec g).regs = s.regs := rfl
@[simp] theorem modSec_fab (g : Sec → Sec) : (s.modSec g).fab = s.fab := rfl
@[simp] theorem modSec_slt (g : Sec → Sec) : (s.modSec g).slt = s.slt := rfl
@[simp] theorem modSec_host (g : Sec → Sec) : (s.modSec g).host = s.host := rfl
@[simp] theorem modSec_ten (g : Sec → Sec) : (s.modSec g).ten = s.ten := rfl
@[simp] theorem modSec_fch (g : Sec → Sec) : (s.modSec g).fch = s.fch := rfl
@[simp] theorem modSec_ftl (g : Sec → Sec) : (s.modSec g).ftl = s.ftl := rfl
@[simp] theorem modSec_dch (g : Sec → Sec) : (s.modSec g).dch = s.dch := rfl
@[simp] theorem modSec_srv (g : Sec → Sec) : (s.modSec g).srv = s.srv := rfl
@[simp] theorem modSec_eng (g : Sec → Sec) : (s.modSec g).eng = s.eng := rfl
@[simp] theorem modSec_tsk (g : Sec → Sec) : (s.modSec g).tsk = s.tsk := rfl
@[simp] theorem modSec_pmx (g : Sec → Sec) : (s.modSec g).pmx = s.pmx := rfl
@[simp] theorem modSec_cmp (g : Sec → Sec) : (s.modSec g).cmp = s.cmp := rfl
@[simp] theorem modSec_mem (g : Sec → Sec) : (s.modSec g).mem = s.mem := rfl
@[simp] theorem modSec_cnt (g : Sec → Sec) : (s.modSec g).cnt = s.cnt := rfl
@[simp] theorem modSec_mgt (g : Sec → Sec) : (s.modSec g).mgt = s.mgt := rfl
@[simp] theorem modSec_nvs (g : Sec → Sec) : (s.modSec g).nvs = s.nvs := rfl
@[simp] theorem modSec_upd (g : Sec → Sec) : (s.modSec g).upd = s.upd := rfl
@[simp] theorem modSec_pwr (g : Sec → Sec) : (s.modSec g).pwr = s.pwr := rfl
@[simp] theorem modSec_freeCtr (g : Sec → Sec) : (s.modSec g).freeCtr = s.freeCtr := rfl
@[simp] theorem modSec_pending (g : Sec → Sec) : (s.modSec g).pending = s.pending := rfl
@[simp] theorem modSec_sec (g : Sec → Sec) : (s.modSec g).sec = g s.sec := rfl
@[simp] theorem modSec_reg (g : Sec → Sec) (a : Nat) : (s.modSec g).reg a = s.reg a := rfl
@[simp] theorem modSec_getF (g : Sec → Sec) (f : Field) : (s.modSec g).getF f = s.getF f := rfl
@[simp] theorem modSec_tick (g : Sec → Sec) : (s.modSec g).tick = s.tick := rfl

@[simp] theorem modMem_regs (g : Mem → Mem) : (s.modMem g).regs = s.regs := rfl
@[simp] theorem modMem_fab (g : Mem → Mem) : (s.modMem g).fab = s.fab := rfl
@[simp] theorem modMem_slt (g : Mem → Mem) : (s.modMem g).slt = s.slt := rfl
@[simp] theorem modMem_host (g : Mem → Mem) : (s.modMem g).host = s.host := rfl
@[simp] theorem modMem_ten (g : Mem → Mem) : (s.modMem g).ten = s.ten := rfl
@[simp] theorem modMem_fch (g : Mem → Mem) : (s.modMem g).fch = s.fch := rfl
@[simp] theorem modMem_ftl (g : Mem → Mem) : (s.modMem g).ftl = s.ftl := rfl
@[simp] theorem modMem_dch (g : Mem → Mem) : (s.modMem g).dch = s.dch := rfl
@[simp] theorem modMem_srv (g : Mem → Mem) : (s.modMem g).srv = s.srv := rfl
@[simp] theorem modMem_eng (g : Mem → Mem) : (s.modMem g).eng = s.eng := rfl
@[simp] theorem modMem_tsk (g : Mem → Mem) : (s.modMem g).tsk = s.tsk := rfl
@[simp] theorem modMem_pmx (g : Mem → Mem) : (s.modMem g).pmx = s.pmx := rfl
@[simp] theorem modMem_cmp (g : Mem → Mem) : (s.modMem g).cmp = s.cmp := rfl
@[simp] theorem modMem_sec (g : Mem → Mem) : (s.modMem g).sec = s.sec := rfl
@[simp] theorem modMem_cnt (g : Mem → Mem) : (s.modMem g).cnt = s.cnt := rfl
@[simp] theorem modMem_mgt (g : Mem → Mem) : (s.modMem g).mgt = s.mgt := rfl
@[simp] theorem modMem_nvs (g : Mem → Mem) : (s.modMem g).nvs = s.nvs := rfl
@[simp] theorem modMem_upd (g : Mem → Mem) : (s.modMem g).upd = s.upd := rfl
@[simp] theorem modMem_pwr (g : Mem → Mem) : (s.modMem g).pwr = s.pwr := rfl
@[simp] theorem modMem_freeCtr (g : Mem → Mem) : (s.modMem g).freeCtr = s.freeCtr := rfl
@[simp] theorem modMem_pending (g : Mem → Mem) : (s.modMem g).pending = s.pending := rfl
@[simp] theorem modMem_mem (g : Mem → Mem) : (s.modMem g).mem = g s.mem := rfl
@[simp] theorem modMem_reg (g : Mem → Mem) (a : Nat) : (s.modMem g).reg a = s.reg a := rfl
@[simp] theorem modMem_getF (g : Mem → Mem) (f : Field) : (s.modMem g).getF f = s.getF f := rfl
@[simp] theorem modMem_tick (g : Mem → Mem) : (s.modMem g).tick = s.tick := rfl

@[simp] theorem modCnt_regs (g : Cnt → Cnt) : (s.modCnt g).regs = s.regs := rfl
@[simp] theorem modCnt_fab (g : Cnt → Cnt) : (s.modCnt g).fab = s.fab := rfl
@[simp] theorem modCnt_slt (g : Cnt → Cnt) : (s.modCnt g).slt = s.slt := rfl
@[simp] theorem modCnt_host (g : Cnt → Cnt) : (s.modCnt g).host = s.host := rfl
@[simp] theorem modCnt_ten (g : Cnt → Cnt) : (s.modCnt g).ten = s.ten := rfl
@[simp] theorem modCnt_fch (g : Cnt → Cnt) : (s.modCnt g).fch = s.fch := rfl
@[simp] theorem modCnt_ftl (g : Cnt → Cnt) : (s.modCnt g).ftl = s.ftl := rfl
@[simp] theorem modCnt_dch (g : Cnt → Cnt) : (s.modCnt g).dch = s.dch := rfl
@[simp] theorem modCnt_srv (g : Cnt → Cnt) : (s.modCnt g).srv = s.srv := rfl
@[simp] theorem modCnt_eng (g : Cnt → Cnt) : (s.modCnt g).eng = s.eng := rfl
@[simp] theorem modCnt_tsk (g : Cnt → Cnt) : (s.modCnt g).tsk = s.tsk := rfl
@[simp] theorem modCnt_pmx (g : Cnt → Cnt) : (s.modCnt g).pmx = s.pmx := rfl
@[simp] theorem modCnt_cmp (g : Cnt → Cnt) : (s.modCnt g).cmp = s.cmp := rfl
@[simp] theorem modCnt_sec (g : Cnt → Cnt) : (s.modCnt g).sec = s.sec := rfl
@[simp] theorem modCnt_mem (g : Cnt → Cnt) : (s.modCnt g).mem = s.mem := rfl
@[simp] theorem modCnt_mgt (g : Cnt → Cnt) : (s.modCnt g).mgt = s.mgt := rfl
@[simp] theorem modCnt_nvs (g : Cnt → Cnt) : (s.modCnt g).nvs = s.nvs := rfl
@[simp] theorem modCnt_upd (g : Cnt → Cnt) : (s.modCnt g).upd = s.upd := rfl
@[simp] theorem modCnt_pwr (g : Cnt → Cnt) : (s.modCnt g).pwr = s.pwr := rfl
@[simp] theorem modCnt_freeCtr (g : Cnt → Cnt) : (s.modCnt g).freeCtr = s.freeCtr := rfl
@[simp] theorem modCnt_pending (g : Cnt → Cnt) : (s.modCnt g).pending = s.pending := rfl
@[simp] theorem modCnt_cnt (g : Cnt → Cnt) : (s.modCnt g).cnt = g s.cnt := rfl
@[simp] theorem modCnt_reg (g : Cnt → Cnt) (a : Nat) : (s.modCnt g).reg a = s.reg a := rfl
@[simp] theorem modCnt_getF (g : Cnt → Cnt) (f : Field) : (s.modCnt g).getF f = s.getF f := rfl
@[simp] theorem modCnt_tick (g : Cnt → Cnt) : (s.modCnt g).tick = s.tick := rfl

@[simp] theorem modMgt_regs (g : Mgmt → Mgmt) : (s.modMgt g).regs = s.regs := rfl
@[simp] theorem modMgt_fab (g : Mgmt → Mgmt) : (s.modMgt g).fab = s.fab := rfl
@[simp] theorem modMgt_slt (g : Mgmt → Mgmt) : (s.modMgt g).slt = s.slt := rfl
@[simp] theorem modMgt_host (g : Mgmt → Mgmt) : (s.modMgt g).host = s.host := rfl
@[simp] theorem modMgt_ten (g : Mgmt → Mgmt) : (s.modMgt g).ten = s.ten := rfl
@[simp] theorem modMgt_fch (g : Mgmt → Mgmt) : (s.modMgt g).fch = s.fch := rfl
@[simp] theorem modMgt_ftl (g : Mgmt → Mgmt) : (s.modMgt g).ftl = s.ftl := rfl
@[simp] theorem modMgt_dch (g : Mgmt → Mgmt) : (s.modMgt g).dch = s.dch := rfl
@[simp] theorem modMgt_srv (g : Mgmt → Mgmt) : (s.modMgt g).srv = s.srv := rfl
@[simp] theorem modMgt_eng (g : Mgmt → Mgmt) : (s.modMgt g).eng = s.eng := rfl
@[simp] theorem modMgt_tsk (g : Mgmt → Mgmt) : (s.modMgt g).tsk = s.tsk := rfl
@[simp] theorem modMgt_pmx (g : Mgmt → Mgmt) : (s.modMgt g).pmx = s.pmx := rfl
@[simp] theorem modMgt_cmp (g : Mgmt → Mgmt) : (s.modMgt g).cmp = s.cmp := rfl
@[simp] theorem modMgt_sec (g : Mgmt → Mgmt) : (s.modMgt g).sec = s.sec := rfl
@[simp] theorem modMgt_mem (g : Mgmt → Mgmt) : (s.modMgt g).mem = s.mem := rfl
@[simp] theorem modMgt_cnt (g : Mgmt → Mgmt) : (s.modMgt g).cnt = s.cnt := rfl
@[simp] theorem modMgt_nvs (g : Mgmt → Mgmt) : (s.modMgt g).nvs = s.nvs := rfl
@[simp] theorem modMgt_upd (g : Mgmt → Mgmt) : (s.modMgt g).upd = s.upd := rfl
@[simp] theorem modMgt_pwr (g : Mgmt → Mgmt) : (s.modMgt g).pwr = s.pwr := rfl
@[simp] theorem modMgt_freeCtr (g : Mgmt → Mgmt) : (s.modMgt g).freeCtr = s.freeCtr := rfl
@[simp] theorem modMgt_pending (g : Mgmt → Mgmt) : (s.modMgt g).pending = s.pending := rfl
@[simp] theorem modMgt_mgt (g : Mgmt → Mgmt) : (s.modMgt g).mgt = g s.mgt := rfl
@[simp] theorem modMgt_reg (g : Mgmt → Mgmt) (a : Nat) : (s.modMgt g).reg a = s.reg a := rfl
@[simp] theorem modMgt_getF (g : Mgmt → Mgmt) (f : Field) : (s.modMgt g).getF f = s.getF f := rfl
@[simp] theorem modMgt_tick (g : Mgmt → Mgmt) : (s.modMgt g).tick = s.tick := rfl

@[simp] theorem modNvs_regs (g : Nvs → Nvs) : (s.modNvs g).regs = s.regs := rfl
@[simp] theorem modNvs_fab (g : Nvs → Nvs) : (s.modNvs g).fab = s.fab := rfl
@[simp] theorem modNvs_slt (g : Nvs → Nvs) : (s.modNvs g).slt = s.slt := rfl
@[simp] theorem modNvs_host (g : Nvs → Nvs) : (s.modNvs g).host = s.host := rfl
@[simp] theorem modNvs_ten (g : Nvs → Nvs) : (s.modNvs g).ten = s.ten := rfl
@[simp] theorem modNvs_fch (g : Nvs → Nvs) : (s.modNvs g).fch = s.fch := rfl
@[simp] theorem modNvs_ftl (g : Nvs → Nvs) : (s.modNvs g).ftl = s.ftl := rfl
@[simp] theorem modNvs_dch (g : Nvs → Nvs) : (s.modNvs g).dch = s.dch := rfl
@[simp] theorem modNvs_srv (g : Nvs → Nvs) : (s.modNvs g).srv = s.srv := rfl
@[simp] theorem modNvs_eng (g : Nvs → Nvs) : (s.modNvs g).eng = s.eng := rfl
@[simp] theorem modNvs_tsk (g : Nvs → Nvs) : (s.modNvs g).tsk = s.tsk := rfl
@[simp] theorem modNvs_pmx (g : Nvs → Nvs) : (s.modNvs g).pmx = s.pmx := rfl
@[simp] theorem modNvs_cmp (g : Nvs → Nvs) : (s.modNvs g).cmp = s.cmp := rfl
@[simp] theorem modNvs_sec (g : Nvs → Nvs) : (s.modNvs g).sec = s.sec := rfl
@[simp] theorem modNvs_mem (g : Nvs → Nvs) : (s.modNvs g).mem = s.mem := rfl
@[simp] theorem modNvs_cnt (g : Nvs → Nvs) : (s.modNvs g).cnt = s.cnt := rfl
@[simp] theorem modNvs_mgt (g : Nvs → Nvs) : (s.modNvs g).mgt = s.mgt := rfl
@[simp] theorem modNvs_upd (g : Nvs → Nvs) : (s.modNvs g).upd = s.upd := rfl
@[simp] theorem modNvs_pwr (g : Nvs → Nvs) : (s.modNvs g).pwr = s.pwr := rfl
@[simp] theorem modNvs_freeCtr (g : Nvs → Nvs) : (s.modNvs g).freeCtr = s.freeCtr := rfl
@[simp] theorem modNvs_pending (g : Nvs → Nvs) : (s.modNvs g).pending = s.pending := rfl
@[simp] theorem modNvs_nvs (g : Nvs → Nvs) : (s.modNvs g).nvs = g s.nvs := rfl
@[simp] theorem modNvs_reg (g : Nvs → Nvs) (a : Nat) : (s.modNvs g).reg a = s.reg a := rfl
@[simp] theorem modNvs_getF (g : Nvs → Nvs) (f : Field) : (s.modNvs g).getF f = s.getF f := rfl
@[simp] theorem modNvs_tick (g : Nvs → Nvs) : (s.modNvs g).tick = s.tick := rfl

@[simp] theorem modUpd_regs (g : Upd → Upd) : (s.modUpd g).regs = s.regs := rfl
@[simp] theorem modUpd_fab (g : Upd → Upd) : (s.modUpd g).fab = s.fab := rfl
@[simp] theorem modUpd_slt (g : Upd → Upd) : (s.modUpd g).slt = s.slt := rfl
@[simp] theorem modUpd_host (g : Upd → Upd) : (s.modUpd g).host = s.host := rfl
@[simp] theorem modUpd_ten (g : Upd → Upd) : (s.modUpd g).ten = s.ten := rfl
@[simp] theorem modUpd_fch (g : Upd → Upd) : (s.modUpd g).fch = s.fch := rfl
@[simp] theorem modUpd_ftl (g : Upd → Upd) : (s.modUpd g).ftl = s.ftl := rfl
@[simp] theorem modUpd_dch (g : Upd → Upd) : (s.modUpd g).dch = s.dch := rfl
@[simp] theorem modUpd_srv (g : Upd → Upd) : (s.modUpd g).srv = s.srv := rfl
@[simp] theorem modUpd_eng (g : Upd → Upd) : (s.modUpd g).eng = s.eng := rfl
@[simp] theorem modUpd_tsk (g : Upd → Upd) : (s.modUpd g).tsk = s.tsk := rfl
@[simp] theorem modUpd_pmx (g : Upd → Upd) : (s.modUpd g).pmx = s.pmx := rfl
@[simp] theorem modUpd_cmp (g : Upd → Upd) : (s.modUpd g).cmp = s.cmp := rfl
@[simp] theorem modUpd_sec (g : Upd → Upd) : (s.modUpd g).sec = s.sec := rfl
@[simp] theorem modUpd_mem (g : Upd → Upd) : (s.modUpd g).mem = s.mem := rfl
@[simp] theorem modUpd_cnt (g : Upd → Upd) : (s.modUpd g).cnt = s.cnt := rfl
@[simp] theorem modUpd_mgt (g : Upd → Upd) : (s.modUpd g).mgt = s.mgt := rfl
@[simp] theorem modUpd_nvs (g : Upd → Upd) : (s.modUpd g).nvs = s.nvs := rfl
@[simp] theorem modUpd_pwr (g : Upd → Upd) : (s.modUpd g).pwr = s.pwr := rfl
@[simp] theorem modUpd_freeCtr (g : Upd → Upd) : (s.modUpd g).freeCtr = s.freeCtr := rfl
@[simp] theorem modUpd_pending (g : Upd → Upd) : (s.modUpd g).pending = s.pending := rfl
@[simp] theorem modUpd_upd (g : Upd → Upd) : (s.modUpd g).upd = g s.upd := rfl
@[simp] theorem modUpd_reg (g : Upd → Upd) (a : Nat) : (s.modUpd g).reg a = s.reg a := rfl
@[simp] theorem modUpd_getF (g : Upd → Upd) (f : Field) : (s.modUpd g).getF f = s.getF f := rfl
@[simp] theorem modUpd_tick (g : Upd → Upd) : (s.modUpd g).tick = s.tick := rfl

@[simp] theorem modPwr_regs (g : Power → Power) : (s.modPwr g).regs = s.regs := rfl
@[simp] theorem modPwr_fab (g : Power → Power) : (s.modPwr g).fab = s.fab := rfl
@[simp] theorem modPwr_slt (g : Power → Power) : (s.modPwr g).slt = s.slt := rfl
@[simp] theorem modPwr_host (g : Power → Power) : (s.modPwr g).host = s.host := rfl
@[simp] theorem modPwr_ten (g : Power → Power) : (s.modPwr g).ten = s.ten := rfl
@[simp] theorem modPwr_fch (g : Power → Power) : (s.modPwr g).fch = s.fch := rfl
@[simp] theorem modPwr_ftl (g : Power → Power) : (s.modPwr g).ftl = s.ftl := rfl
@[simp] theorem modPwr_dch (g : Power → Power) : (s.modPwr g).dch = s.dch := rfl
@[simp] theorem modPwr_srv (g : Power → Power) : (s.modPwr g).srv = s.srv := rfl
@[simp] theorem modPwr_eng (g : Power → Power) : (s.modPwr g).eng = s.eng := rfl
@[simp] theorem modPwr_tsk (g : Power → Power) : (s.modPwr g).tsk = s.tsk := rfl
@[simp] theorem modPwr_pmx (g : Power → Power) : (s.modPwr g).pmx = s.pmx := rfl
@[simp] theorem modPwr_cmp (g : Power → Power) : (s.modPwr g).cmp = s.cmp := rfl
@[simp] theorem modPwr_sec (g : Power → Power) : (s.modPwr g).sec = s.sec := rfl
@[simp] theorem modPwr_mem (g : Power → Power) : (s.modPwr g).mem = s.mem := rfl
@[simp] theorem modPwr_cnt (g : Power → Power) : (s.modPwr g).cnt = s.cnt := rfl
@[simp] theorem modPwr_mgt (g : Power → Power) : (s.modPwr g).mgt = s.mgt := rfl
@[simp] theorem modPwr_nvs (g : Power → Power) : (s.modPwr g).nvs = s.nvs := rfl
@[simp] theorem modPwr_upd (g : Power → Power) : (s.modPwr g).upd = s.upd := rfl
@[simp] theorem modPwr_freeCtr (g : Power → Power) : (s.modPwr g).freeCtr = s.freeCtr := rfl
@[simp] theorem modPwr_pending (g : Power → Power) : (s.modPwr g).pending = s.pending := rfl
@[simp] theorem modPwr_pwr (g : Power → Power) : (s.modPwr g).pwr = g s.pwr := rfl
@[simp] theorem modPwr_reg (g : Power → Power) (a : Nat) : (s.modPwr g).reg a = s.reg a := rfl
@[simp] theorem modPwr_getF (g : Power → Power) (f : Field) : (s.modPwr g).getF f = s.getF f := rfl
@[simp] theorem modPwr_tick (g : Power → Power) : (s.modPwr g).tick = s.tick := rfl

end Sys2Proof.Machine.State
end

