-- ==== Sys2Proof/Tests/Slice0.lean ====
section
/-! SUPPORT. Tests: the words of the listing of chapter 09, known answers of the checksums and ciphers, an ill-formed
term for each check of WellFormed, and for every statement with hypotheses a theorem that shows a state and operands
that meet them, clause by clause. -/

namespace Sys2Proof.Tests
open Sys2Proof Sys2Proof.Machine
set_option Elab.async false
set_option linter.unusedVariables false

/-! ## Hypotheses that are no plain decidable proposition -/

theorem forall_some {α : Type} {o : Option α} {P : α → Prop} [DecidablePred P]
    (h : (o.all fun a => decide (P a)) = true) : ∀ a, o = some a → P a := by
  intro a e
  subst e
  simpa using h

theorem exists_some {α : Type} {o : Option α} {P : α → Prop} [DecidablePred P]
    (h : (o.any fun a => decide (P a)) = true) : ∃ a, o = some a ∧ P a := by
  cases o with
  | none => simp at h
  | some a => exact ⟨a, rfl, by simpa using h⟩

theorem not_exists_some {α : Type} {o : Option α} {P : α → Prop} [DecidablePred P]
    (h : (o.any fun a => decide (P a)) = false) : ¬ ∃ a, o = some a ∧ P a := by
  rintro ⟨a, e, p⟩
  subst e
  simp [p] at h

theorem exists_mem_some {α β : Type} {l : List (α × Option β)} {P : β → Prop} [DecidablePred P]
    (h : (l.any fun e => e.2.any fun q => decide (P q)) = true) : ∃ e ∈ l, ∃ q, e.2 = some q ∧ P q := by
  obtain ⟨e, m, p⟩ := List.any_eq_true.1 h
  exact ⟨e, m, exists_some p⟩

theorem not_exists_mem_some {α β : Type} {l : List (α × Option β)} {P : β → Prop} [DecidablePred P]
    (h : (l.any fun e => e.2.any fun q => decide (P q)) = false) : ¬ ∃ e ∈ l, ∃ q, e.2 = some q ∧ P q := by
  rintro ⟨e, m, q, eq, p⟩
  have := List.any_eq_false.1 h e m
  simp [eq, p] at this

/-- Whether a result is the given one. -/
def resultIs {ε α : Type} [DecidableEq ε] [DecidableEq α] : Except ε α → Except ε α → Bool
  | .ok a, .ok b => decide (a = b)
  | .error a, .error b => decide (a = b)
  | .ok _, .error _ => false
  | .error _, .ok _ => false

theorem except_eq {ε α : Type} [DecidableEq ε] [DecidableEq α] {x y : Except ε α} (h : resultIs x y = true) : x = y := by
  cases x <;> cases y <;> simp_all [resultIs]

theorem pair_ext {α β : Type} {p : α × β} {a : α} {b : β} (h : p.1 = a) (k : p.2 = b) : p = (a, b) := by
  subst h
  subst k
  rfl

theorem forall_pair {P : Nat → Prop} {a b : Nat} (h : P a) (k : P b) : ∀ i, i = a ∨ i = b → P i := by
  rintro i (rfl | rfl) <;> assumption

theorem forall_range {P : Nat → Prop} {a b : Nat} (h : ∀ g < b, a ≤ g → P g) : ∀ g, a ≤ g → g < b → P g :=
  fun g l u => h g u l

/-- No function holds the command as an Asynchronous Event Request. -/
theorem no_aer {s : State} {key : CmdKey} (h : (s.host.ctrls.all fun e => !e.2.aers.contains key) = true) :
    ∀ fn, key ∉ (s.ctrl fn).aers := by
  intro fn
  unfold State.ctrl
  generalize s.host.ctrls = l at h ⊢
  induction l with
  | nil => simp [sparseGet, Ctrl.reset]
  | cons e m ih =>
    simp only [List.all_cons, Bool.and_eq_true] at h
    simp only [sparseGet]
    split
    · simpa using h.1
    · exact ih h.2

/-- The answer of a result that is one. -/
def resultOf {ε α : Type} (x : Except ε α) (d : α) : α := match x with
  | .ok a => a
  | .error _ => d

theorem eq_resultOf {ε α : Type} {x : Except ε α} {d : α} (h : x.isOk = true) : x = .ok (resultOf x d) := by
  cases x with
  | ok a => rfl
  | error e => simp [Except.isOk, Except.toBool] at h

/-- The CRC register after a list of bytes, its value computed before each further byte. -/
def crcRun : List Byte → Nat → Nat
  | [], c => c
  | b :: t, c => match (let c := BitVec.ofNat 32 c ^^^ b.setWidth 32
      let p : BitVec 32 := 0x82F63B78
      crcStep p (crcStep p (crcStep p (crcStep p (crcStep p (crcStep p (crcStep p (crcStep p c)))))))).toNat with
    | 0 => crcRun t 0
    | n + 1 => crcRun t (n + 1)

theorem crcRun_eq (l : List Byte) (c : BitVec 32) :
    l.foldl (fun (c : BitVec 32) b =>
      let c := c ^^^ b.setWidth 32
      let p : BitVec 32 := 0x82F63B78
      crcStep p (crcStep p (crcStep p (crcStep p (crcStep p (crcStep p (crcStep p (crcStep p c)))))))) c
    = BitVec.ofNat 32 (crcRun l c.toNat) := by
  induction l generalizing c with
  | nil => simp [crcRun]
  | cons b t ih =>
    rw [List.foldl_cons, ih]
    simp only [crcRun, BitVec.ofNat_toNat, BitVec.setWidth_eq]
    split
    · rename_i h
      rw [h]
    · rename_i h
      rw [h]

theorem crc32c_eq (l : List Byte) : crc32c l = (BitVec.ofNat 32 (crcRun l 0xFFFFFFFF) ^^^ 0xFFFFFFFF#32).toNat := by
  have h := crcRun_eq l 0xFFFFFFFF#32
  simp only [BitVec.toNat_ofNat] at h
  simp only [crc32c, crc32With]
  exact congrArg (fun x : BitVec 32 => (x ^^^ 0xFFFFFFFF#32).toNat) h

theorem crc32c_lt (l : List Byte) : crc32c l < 2 ^ 32 := by
  unfold crc32c crc32With
  exact BitVec.isLt _

theorem crc_word (l : List Byte) : (BitVec.ofNat 32 (crc32c l)).toNat = crc32c l :=
  Nat.mod_eq_of_lt (crc32c_lt l)

theorem crc_ne {n : Nat} {l : List Byte} (h : n ≠ (BitVec.ofNat 32 (crcRun l 0xFFFFFFFF) ^^^ 0xFFFFFFFF#32).toNat) :
    ¬ n = crc32c l := by
  rw [crc32c_eq]
  exact h

/-- A unit of an extent that no data was written to is not sent as data. -/
theorem class_unwritten {s : State} {nsid u : Nat} (h : s.isZoned nsid = false ∧ s.ftl.wb = [] ∧ s.ftl.extents = []) :
    s.unitClass nsid u ≠ 0 := by
  obtain ⟨hz, hw, he⟩ := h
  have hx : s.extent nsid (u / 256) = Extent.reset := by simp [State.extent, he, sparseGet]
  have hu : s.unitHeld nsid u = false := by
    unfold State.isZoned at hz
    unfold State.unitHeld State.wbFind State.unitEmpty
    rw [hw, hx]
    cases e : s.ns nsid with
    | none => rfl
    | some n =>
      rw [e] at hz
      have : n.type ≠ .zoned := by simpa using hz
      simp [this, Extent.reset]
  unfold State.unitClass
  rw [hz, hu]
  simp only [Bool.false_eq_true, if_false]
  split <;> decide

/-- A value that is there is the one it is taken for. -/
theorem some_getD {α : Type} {o : Option α} {d : α} (h : o.isSome = true) : o = some (o.getD d) := by
  cases o <;> simp_all

/-- A write finds its path open. -/
theorem admits_of {s : State} {path : Path} {a : Nat} (h : (s.admitWrite path a).1 = true) : s.admits path a := by
  have k : s.admitWrite path a = (true, s) ∨ (s.admitWrite path a).1 = false := by
    unfold State.admitWrite
    repeat' split
    all_goals simp
  rcases k with k | k
  · exact k
  · rw [k] at h
    cases h

/-- Memories with no error mask, none armed. -/
theorem noErrors_of {s : State} (h : s.mem.masks = [] ∧ s.onF F.memFlipCtrlArm = false) : s.noErrors := h

/-- A DRAM that nothing has written is in order. -/
theorem dramOk_of_reset {s : State} (h : s.mem = Mem.reset) (f : s.onF F.memFlipCtrlArm = false) : s.dramOk := by
  have hs : ∀ i, s.subch i = Subchannel.reset := by
    intro i
    simp [State.subch, h, Mem.reset, sparseGet]
  refine ⟨⟨by rw [h]; rfl, f⟩, ?_, ?_, by rw [h]; rfl, by rw [h]; rfl, by rw [h]; rfl⟩
  · intro i
    rw [hs]
    simp [Subchannel.reset]
  · intro b _ j _
    simp [h, Mem.reset, sparseGet]

/-! ## Messages -/

/-- A message sealed under the session key opens. -/
theorem opens_wire {s : State} {m : LinkMsg} (h : s.cnt.proven = true ∧ s.cnt.keys = some (zeros 32, zeros 32) ∧ s.ownDir = 0
      ∧ linkFits m = true ∧ ((aesKeys (zeros 32)).getD 14 []).length = 16)
    (hc : ceilDiv (48 + m.body.length) 512 ≤ s.cellsGranted { col := colSec, owner := ownMirror, count := 0 })
    (hd : ceilDiv (48 + m.body.length) 512 ≤ s.cellsGranted { col := colDram 0, owner := ownMirror, count := 0, wr := true }
      ∧ ceilDiv (48 + m.body.length) 512 ≤ s.cellsGranted { col := colDram 1, owner := ownMirror, count := 0, wr := true }) :
    s.Opens (sealMsg (zeros 32) 1 m) m := by
  obtain ⟨hp, hk, ho, hf, ha⟩ := h
  have hl : msgLen (sealMsg (zeros 32) 1 m) = m.body.length := by
    unfold sealMsg
    simp only [List.append_assoc]
    exact (msgHead_fields hf _ []).1
  refine ⟨hp, ?_, ?_⟩
  · unfold State.recvNeeds
    rw [hl]
    refine draw_append ?_ (draw_dram hd)
    unfold State.need
    rw [if_neg (by omega)]
    simp only [State.canDraw, List.all_cons, List.all_nil, Bool.and_true, decide_eq_true_eq]
    exact hc
  · simp only [State.openMsg, hk, Option.bind_some, ho]
    exact openSealed_sealMsg 1 ha hf

/-- The next state of a command. -/
def after (i : Instr) (s : State) : State := match exec i s with
  | .next t => t
  | .fault _ => s
  | .refused _ => s

/-! ## Words, known answers, ill-formed terms -/

/-- Words of the listing of the spec (Table 09.12) decode to the instructions that it prints beside them. -/
theorem test_listing_decodes :
    decodeDruot 0 0xA1081000 = some (.lui 0 0x081000) ∧ decodeDruot 0 0xA1101004 = some (.lui 0 0x101004)
    ∧ decodeDruot 0 0x20180000 = some (.addi 0 0x180000) ∧ decodeDruot 0 0x42204008 = some (.lw 0 0x204008)
    ∧ decodeDruot 0 0x22290002 = some (.andi 0 0x290002) ∧ decodeDruot 0 0x81280005 = some (.bnez 0 0x280005)
    ∧ decodeDruot 0 0x44304000 = some (.lbu 0 0x304000) ∧ decodeDruot 0 0x2839800A = some (.seqi 0 0x39800A)
    ∧ decodeDruot 0 0x0018CE00 = some (.add 0 0x18CE00) ∧ decodeDruot 0 0x8207FFFA = some (.jal 0 0x07FFFA)
    ∧ decodeDruot 0 0x62188000 = some (.sw 0 0x188000) ∧ decodeDruot 0 0xE1000000 = some (.tend 0 0x000000) :=
  ⟨rfl, rfl, rfl, rfl, rfl, rfl, rfl, rfl, rfl, rfl, rfl, rfl⟩

/-- The check values of the CRC catalogues, for the ASCII digits 1 to 9. -/
theorem test_crc :
    let digits : List Byte := [0x31, 0x32, 0x33, 0x34, 0x35, 0x36, 0x37, 0x38, 0x39]
    crc32c digits = 0xE3069283 ∧ crc32 digits = 0xCBF43926 ∧ crc8 digits = 0xF4 := by decide +kernel

/-- FIPS 180-4: SHA-256 of abc. -/
theorem test_sha256 : sha256 [0x61, 0x62, 0x63] =
    [0xba, 0x78, 0x16, 0xbf, 0x8f, 0x01, 0xcf, 0xea, 0x41, 0x41, 0x40, 0xde, 0x5d, 0xae, 0x22, 0x23,
     0xb0, 0x03, 0x61, 0xa3, 0x96, 0x17, 0x7a, 0x9c, 0xb4, 0x10, 0xff, 0x61, 0xf2, 0x00, 0x15, 0xad] := by
  decide +kernel

/-- FIPS 197, appendix C.3: AES-256 of one block. -/
theorem test_aes256 : aesEnc ((List.range 32).map (BitVec.ofNat 8)) ((List.range 16).map fun i => BitVec.ofNat 8 (17 * i)) =
    [0x8e, 0xa2, 0xb7, 0xca, 0x51, 0x67, 0x45, 0xbf, 0xea, 0xfc, 0x49, 0x90, 0x4b, 0x49, 0x60, 0x89] := by
  decide +kernel

/-- Each check of WellFormed refuses a term. -/
theorem test_ill_formed : ∀ i ∈ ([.spliceWordArrive .toDrive 16 .clean .idle, .applyStampMatch 8, .discardedCommandLimit 8,
    .spliceTrained (2 ^ 33), .cellDecision 28 0 false, .cellDecision 2 128 false, .fabricClockUngate 512 0,
    .fabricClockUngate 0 28, .functionLevelReset 512, .sqTailDoorbell 513 0 0, .takePrepare 262144,
    .takePieceCharge 0 (some 8) 1, .rebuildComplete 16, .programFail 0 32, .softDecodeDone 4 true true, .gcCollect 4,
    .rowPadTimeout 4 0, .preampFault 2, .seekRead 0 10 0 .core, .engineAckTimeout 32, .wfeWake 33, .overflowDrain 4 0,
    .overflowDrain 0 4, .jobUnitAssign 4, .scan 0 4, .mergeEntryDrain 0 16, .bankOwnerWrite .core 16 0, .zqCalibration 2,
    .dramCommandIssue 4, .refresh 0 2, .setnewda 128, .i3cReadSame 256 1 0 0, .i3cReadSame 1 256 0 0, .lbPoll 16 false 0,
    .flush { fn := 513, sq := 0, cid := 0 }, .flush { fn := 0, sq := 65536, cid := 0 }] : List Instr),
    WellFormed i = false := by decide +kernel

/-! ## Small states -/

/-- The machine just after reset, in a mode, its start over. -/
abbrev inM (m : Mode) : State :=
  { State.reset.setF F.pwrModeMode m.code with pwr := { State.reset.pwr with starting := none, pathOpen := true } }
abbrev svc : State := inM .service
abbrev rdy : State := (inM .ready).setF F.devSpliceStatusUp 1
abbrev act : State := (inM .active).setF F.devSpliceStatusUp 1
abbrev sqeOf (opc : Nat) : Sqe :=
  { opc := opc, nsid := 1, cid := 1, psdt := 0, dw10 := 0, dw11 := 0, dw12 := 0, dw13 := 0, dw14 := 0, dw15 := 0, prpOk := true, data := [], fuse := 0, dw2 := 0, dw3 := 0, mptr := 0 }
abbrev adm : CmdKey := { fn := 0, sq := 0, cid := 1 }
abbrev io : CmdKey := { fn := 0, sq := 1, cid := 1 }
abbrev cmdOf (key : CmdKey) (q : Sqe) (st : CmdSt) : Cmd :=
  { key := key, sqe := q, st := st, gen := 0, seq := 0, arrival := 0, charged := 0, ranges := [], held := false,
    reserved := false, fallback := none, dataIn := false, image := none, fetching := false, ordered := false,
    won := false, sct := 0, sc := 0, dw0 := 0, dw1 := 0, out := [], caught := false }
abbrev withCmds (s : State) (l : List Cmd) : State := { s with host := { s.host with cmds := l } }
abbrev withCmd (s : State) (key : CmdKey) (q : Sqe) : State := withCmds s [cmdOf key q .executing]
abbrev nsOf (t : NsType) : Namespace :=
  { type := t, block := 4096, size := 65536 * 4, attached := [0], degraded := false, notReady := false, zones := [], lost := [] }
/-- A namespace 1 with its key, and room in the write buffer. -/
abbrev withNs (s : State) (n : Namespace) : State :=
  { s.setF F.ftlWbEff 512 with
    host := { s.host with nss := [(1, some n)] }
    sec := { s.sec with nsKeys := [(1, some 0)], slots := [(0, some { cls := clsXts, label := 0, key := List.replicate 64 1 })] } }
abbrev zone0 : ZoneRec := { firstBand := 3, bandCount := 8, tracks := 4, firstTrack := 0, wedgeBits := 1000, slots := 64, bitRate := 100, phase := 0, act := 0, head := 0, spares := 2 }
/-- Every cell of an owner is granted. -/
abbrev cellsFor (s : State) (o : Nat) : State :=
  let l := (List.range 28).map fun c => ((c * 1024 + o) * 2, 1000000)
  let l' := l.flatMap fun e => [e, (e.1 + 1, 1000000)]
  { s with slt := { s.slt with granted := l'.foldl (fun m e => sparsePut (fun _ => 0) m e.1 e.2) s.slt.granted } }
abbrev rec0 : InstRec := { ioqPairs := 2, queueEntries := 64, msixVectors := 2, lockLimit := 8, contextQuota := 16, taskQuota := 16, keyFirst := 0, keyCount := 4, dramBase := 20, dramSize := 1, scriptQuota := 2, takesAllowed := true, byteRate := 0, byteBurst := 1, cmdRate := 0, cmdBurst := 1 }
abbrev tb : State :=
  let s := { ((act.setF (F.instStatusState 0) 3).setF (F.instStatusTakesAllowed 0) 1).setF F.vinDramFreeLastG 100 with ten := [(0, { Tenant.reset with record := some rec0 })] }
  { withNs s { nsOf .flash with attached := [0, 1] } with host := { (withNs s { nsOf .flash with attached := [0, 1] }).host with vfEnable := true, numVfs := 1, ctrls := [(0, { Ctrl.reset with cc := 1, rdy := true }), (1, { Ctrl.reset with cc := 1, rdy := true })] } }
abbrev vk : CmdKey := { fn := 1, sq := 1, cid := 3 }
abbrev ts : Sqe := { sqeOf 0x81 with nsid := 0, dw10 := 64 }
abbrev fe : Cmd := { cmdOf vk ts .fetched with fetching := true }
abbrev desc0 : TakeDesc := { sealed := false, clusters := 0xF, shared := 65536, budget := 100000, sealKey := 0, report := 0, digest := [], ins := [], outs := [], regions := [], tasks := [{ entry := 0, prio := 0, arg := 7, after := 0, delay := 0 }] }
abbrev cx (st : TakeSt) : Ctx := { tenant := 0, gen := 0, st := st, cluster := 0, total := 1, done := 0, budgetLeft := 100000, restarts := 0, reason := 0, retired := 0, retiredAll := 0, script := 0, tasks := [0], key := vk, sharedBase := 0, sharedSize := 0, faultTask := 0, faultPc := 0, faultAddr := 0, result := 0, desc := desc0, locked := false, waiting := none, consumed := [], staged := [], produced := [], portError := [], portShort := [], portOver := [], fencedBy := 0, issued := [], outCharged := 0, outData := none, outMsgs := 0, timeStart := 0, timeEnd := 0, detail := 0, cancelled := false, restarted := false, silent := false, noHost := false }
abbrev u0 : TaskEntry := { ctx := 5, prio := 0, entry := 0, st := .waiting, arg := 7, deps := 0, index := 0, engine := 0, wake := 0, succ := 0, result := 0 }
abbrev txs (x : Ctx) (u : TaskEntry) : State := { withCmd tb vk ts with tsk := { Takes.reset with ctxs := [(5, some x)], tasks := [(0, some u)] } }
abbrev xn : Ctx := { cx .preparing with desc := { desc0 with clusters := 0 } }
abbrev xg : Ctx := { cx .preparing with desc := { desc0 with shared := 65536 * 65 } }
abbrev u1 : TaskEntry := { u0 with st := .ready }
abbrev rdS : State := { txs (cx .running) u1 with tsk := { (txs (cx .running) u1).tsk with ready := [(0, [0])] } }
abbrev enS (r : Nat) : State := { txs (cx .running) { u1 with st := .running } with eng := { Engines.reset with procs := [(4, { Proc.reset with running := true, stall := some (.tend r), ctx := 5, task := 0 })] } }
abbrev dlS : State := { txs (cx .running) { u1 with st := .delayed, wake := 0 } with tsk := { (txs (cx .running) { u1 with st := .delayed }).tsk with delay := [(0, [0])] } }
abbrev ovS : State := { txs (cx .running) { u1 with st := .overflow } with tsk := { (txs (cx .running) { u1 with st := .overflow }).tsk with chain := [(0, [0])] } }
abbrev rg : TakeRange := { kind := 0, port := 1, nsid := 1, addr := 16, span := 4, length := 16384, stage := 0 }
abbrev xi : Ctx := { cx .running with desc := { desc0 with ins := [rg] }, issued := [] }
abbrev xc : Ctx := { cx .committing with outData := some [] }
abbrev tst : Sqe := { sqeOf 0x82 with dw10 := 5 }
abbrev wk : CmdKey := { fn := 1, sq := 1, cid := 9 }
abbrev two (q : Sqe) (x : Ctx) : State := withCmds (txs x u1) [cmdOf wk q .executing, cmdOf vk ts .executing]
abbrev tcn (h : Nat) : Sqe := { sqeOf 0x84 with dw10 := h }
abbrev np := (txs xi u1).nextPiece xi rg
abbrev xis : Ctx := { xi with issued := [(1, np.2.2)] }
abbrev rgH : TakeRange := { rg with kind := 2, port := 2 }
abbrev xo2 : Ctx := { cx .committing with desc := { desc0 with outs := [rgH] }, outData := some [zeros 300] }
abbrev xo : Ctx := { cx .committing with desc := { desc0 with outs := [rgH] }, produced := [(2, 300)] }
abbrev oS : State := cellsFor (txs xo u1) 0
abbrev xo1 : Ctx := ((oS.gatherOutputs 5).ctx 5).getD xo
abbrev no := ((oS.gatherOutputs 5).nextOutput xo1 100).getD (rgH, [], 0, 0)
abbrev fR (d a b : Nat) (n : Nat := 0) : BitVec 24 := BitVec.ofNat 24 (d * 2^19 + a * 2^14 + b * 2^9 + n)
abbrev fI (d a i : Nat) : BitVec 24 := BitVec.ofNat 24 (d * 2^19 + a * 2^14 + i % 2^14)
abbrev fJ (d i : Nat) : BitVec 24 := BitVec.ofNat 24 (d * 2^19 + i % 2^19)
abbrev pr (regs : Sparse Word) : Proc := { Proc.reset with running := true, textLen := 4096, profile := 0x0102, grant := 100, grantSize := 100, regs := regs, pc := 256, ctx := 5, mpu := [(0, { base := 0, limit := 0xFFFFFF83 })] }
abbrev sp (p : Nat) (x : Proc) : State := { txs (cx .running) { u1 with st := .running } with eng := { Engines.reset with procs := [(p, x)] } }
abbrev vals : Sparse Word := [(1, 7), (2, 0xFFFFFFFD), (3, 0x80000000), (4, 0xFFFFFFFF), (5,33)]
abbrev ctxIO (k : Nat) : Ctx := { cx .running with desc := { desc0 with shared := 65536 }, sharedBase := 0, sharedSize := 1 }
abbrev rgI : TakeRange := { kind := 1, port := 1, nsid := 1, addr := 16, span := 4, length := 16384, stage := 0 }
abbrev rgO : TakeRange := { kind := 1, port := 2, nsid := 1, addr := 0, span := 4, length := 16384, stage := 0 }
abbrev cIO : Ctx := { ctxIO 0 with desc := { desc0 with ins := [rgI, { rgI with port := 3, kind := 0 }], outs := [rgO, { rgO with port := 3, kind := 0 }] } }
abbrev spx (p : Nat) (x : Proc) (c : Ctx) : State := { txs c { u1 with st := .running } with eng := { Engines.reset with procs := [(p, x)] } }
abbrev at_ (a : Nat) : State := spx 4 (pr [(5, BitVec.ofNat 32 a), (6, 0xABCD1234)]) cIO
abbrev fr : BitVec 24 := fI 6 5 0
abbrev atc (a : Nat) : State := spx 0x3E (pr [(5, BitVec.ofNat 32 a), (6, 0xABCD1234)]) cIO
abbrev ml (s : State) (p : Nat) (pl : Place) (n : Nat) := (s.memLoad p pl n)
abbrev me : MergeEntry := { shared := false, word := 3, bytes := [some 1, none, none, none], last := 0 }
abbrev popS : State := spx 4 { pr vals with stall := some (.pop 9 1 4 false), ctx := 5 } cIO
abbrev drS : State := let s := sp 4 { pr vals with merge := [me] }; { s with fab := { s.fab with timecode := 5000 } }
abbrev popC : State := cellsFor popS 0
abbrev popP : State := popC.spend (popC.popNeeds 4 1 4)
abbrev job0 : AccJob := { proc := 4, page := 0, slot := 1, owner := 0, ctx := some 5, gen := 0, order := 0, win := 20 * 2^26, desc := zeros 32, unit := some 0, pos := 0, dfa := 0, hits := 0, dropped := 0, eos := false, consumed := 0, produced := 0, blocks := 0, raws := 0, blockIn := [], blockOut := none, bits := [], taken := [], key := [], expect := [], saved := none, code := none }
abbrev withJobs (s : State) (page : Nat) (l : List AccJob) : State := s.setJobs page l
abbrev bS : State := sp 4 (pr [])
abbrev pre (states : Nat) : List Byte := leBytes 2 0x4155 ++ leBytes 2 0x0100 ++ leBytes 4 (autLength states 1 0) ++ leBytes 4 states ++ leBytes 2 1 ++ leBytes 2 0 ++ leBytes 4 0 ++ leBytes 4 0 ++ leBytes 4 7 ++ leBytes 4 0 ++ zeros 28
abbrev post (states : Nat) : List Byte := zeros (autLength states 1 0 - 0x40)
abbrev img1 : List Byte := pre 1 ++ leBytes 4 1221583933 ++ post 1
abbrev aset : AutoSet := { handle := 2048 + 7, pages := 1, ctx := some 5, pub := false, image := img1 }
abbrev scD : List Byte := [1, 0, 0, 0] ++ leBytes 2 (2048+7) ++ zeros 2 ++ leBytes 4 0x80000000 ++ leBytes 4 100 ++ zeros 4 ++ zeros 12
abbrev js : AccJob := { job0 with desc := scD, pos := 20 }
abbrev scS : State := let s := withJobs bS 0 [js]; { s with pmx := { s.pmx with sets := [(7, some aset)] } }
abbrev inD : List Byte := [2, 0, 0, 0] ++ leBytes 4 0x80000000 ++ leBytes 4 328 ++ zeros 4
abbrev ji : AccJob := { job0 with desc := inD, pos := 0, ctx := none, proc := 0x3E, owner := 511 }
abbrev srcL (x : State.Source × State) : List Byte := match x.1 with | .data l _ => l | _ => []
abbrev srcE (x : State.Source × State) : Bool := match x.1 with | .data _ e => e | _ => false
abbrev inD2 : List Byte := [2, 0, 0, 0] ++ leBytes 4 0x80000000 ++ leBytes 4 1000 ++ zeros 4
abbrev ji2 : AccJob := { ji with desc := inD2 }
abbrev jl : AccJob := { job0 with desc := [0x10, 1] ++ leBytes 2 1 ++ leBytes 4 0x80000000 ++ leBytes 4 1 ++ leBytes 4 0x80001000 }
abbrev lkS : State := (withJobs bS 0 [jl]).setF (F.pmxBankOwnerOwner 0) 0
abbrev upD (op : Nat) : List Byte := [BitVec.ofNat 8 op, 0, 0, 0] ++ leBytes 4 0x80000000 ++ leBytes 4 3 ++ zeros 4
abbrev jp (op : Nat) : AccJob := { job0 with desc := upD op, pos := 2, hits := 1 }
abbrev upS (op : Nat) : State := (withJobs bS 0 [jp op])
abbrev mv : Mover := { bank := 0, entry := 2, next := 5, newRec := AssocEntry.reset, proc := 4, slot := 1 }
abbrev cD : List Byte := [1, 0, 1, 0, 0, 0, 0, 0] ++ leBytes 4 0x80000000 ++ leBytes 4 1000 ++ leBytes 4 0x80008000 ++ leBytes 4 1 ++ leBytes 4 0 ++ leBytes 4 0x80009000
abbrev jc : AccJob := { job0 with page := 1, desc := cD, saved := some (leBytes 4 0x8000A000 ++ leBytes 4 4096) }
abbrev cS : State := withJobs bS 1 [jc]
abbrev jv : AccJob := { jc with blockOut := some [true, false, true], blocks := 1, taken := zeros 100, blockIn := zeros 100 }
abbrev dD : List Byte := [2, 0, 0, 0, 0, 0, 0, 0] ++ leBytes 4 0x80000000 ++ leBytes 4 1000 ++ leBytes 4 0x80008000 ++ leBytes 4 1 ++ leBytes 4 100 ++ leBytes 4 0x80009000
abbrev jdc : AccJob := { jc with desc := dD }
abbrev dS : State := withJobs bS 1 [jdc]
abbrev aD (op : Nat) (len : Nat) : List Byte := [BitVec.ofNat 8 op, 0, 0, 0] ++ leBytes 2 2 ++ zeros 2 ++ leBytes 4 0x80000000 ++ leBytes 4 len ++ leBytes 4 0x80010000 ++ leBytes 4 0x80020000 ++ leBytes 4 0 ++ leBytes 2 0 ++ leBytes 2 (len / 16)
abbrev ja (op len : Nat) : AccJob := { job0 with page := 2, desc := aD op len, key := List.replicate (if op ≤ 2 then 32 else 64) 7, saved := some (List.replicate (if op ≤ 2 then 12 else 8) 1) }
abbrev aS (j : AccJob) : State := withJobs bS 2 [j]
abbrev jx (op : Nat) : AccJob := { ja op 4096 with pos := 4096 }
abbrev jh (op : Nat) (eos : Bool) (dfa : Nat := 0) : AccJob := { ja op 64 with hits := 65, eos := eos, dfa := dfa, taken := zeros 64 }
abbrev gD (op len : Nat) : List Byte := [BitVec.ofNat 8 op, 0, 0, 0] ++ leBytes 2 0 ++ zeros 2 ++ leBytes 4 0x80000000 ++ leBytes 4 len ++ zeros 16
abbrev jg (op len : Nat) : AccJob := { job0 with page := 3, desc := gD op len, key := zeros 32, slot := 1 }
abbrev gS (j : AccJob) (k : Option AccJob := none) : State := (withJobs bS 3 (j :: k.toList)).setF F.secDigestCfgSlice 2

namespace Registers

theorem witness_RegisterWriteSetsFieldsByAccessCode :
    ∃ (path : Path) (a : Nat) (v : Word) (s : State) (r : RegDesc), s.regsWf ∧ State.ctrlPlace path a = none ∧ a ≠
      A.srvLoopFlags ∧ a ≠ A.mgtAlertStatus ∧ s.admits path a ∧ regDesc? a = some r :=
  ⟨.core, A.updService, 0x12345678#32, svc, (regDesc? A.updService).get (by decide +kernel), by decide +kernel⟩

theorem witness_RegisterAccesses :
    (∃ (path : Path) (a : Nat) (v : Word) (s : State) (r : RegDesc) (f : Field), s.regsWf ∧ s.admits path a ∧
      State.ctrlPlace path a = none ∧ regDesc? a = some r ∧ lockField a = some f ∧ f.addr = a ∧ f.get v = 1 ∧
      writeActions s path a (State.withoutLock a v) = []) ∧
    (∃ (path : Path) (s : State), s.logicOn = true ∧ path ≠ Path.vf) ∧
    (∃ (path : Path) (a : Nat) (v : Word) (s : State), State.ctrlPlace path a = none ∧ a ≠ A.srvLoopFlags ∧ a ≠
      A.mgtAlertStatus ∧ s.admits path a ∧ regDesc? a = none) ∧
    (∃ (path : Path) (a : Nat) (v : Word) (s : State), s.logicOn = false ∧ onDriveDie a = false) ∧
    (∃ (vf off : Nat) (s : State), s.vfExists vf = true ∧ 6144 ≤ off) ∧
    (∃ (vf off : Nat) (wr : Bool) (s : State), s.vfExists vf = false) :=
  ⟨⟨.core, A.sltCtrl, 0x80000004#32, svc, (regDesc? A.sltCtrl).get (by decide +kernel), F.sltCtrlLock, by
     decide +kernel⟩,
   ⟨.core, svc, by decide +kernel⟩,
   ⟨.core, 0x7FFFC, 5#32, svc, by decide +kernel⟩,
   ⟨.core, A.sltCtrl, 5#32, State.reset, by decide +kernel⟩,
   ⟨0, 0x1800, { svc with host := { svc.host with vfEnable := true, numVfs := 2 } }, by decide +kernel⟩,
   ⟨3, 0, true, svc, by decide +kernel⟩⟩

theorem witness_SpliceLostKeptOutsideService :
    ∃ (path : Path) (s : State), s.regsWf ∧ s.inMode Mode.service = false :=
  ⟨.core, rdy, by decide +kernel⟩

end Registers

namespace Splice

abbrev flying : State := (((rdy.setF (F.srvActStatusState 0) 3).setF (F.srvStatusSpinState) 5).setF (F.srvActStatusState 1) 8)
abbrev cyc (s : State) : State := { s with fab := { s.fab with cycleDrive := 50, cycleLogic := 70, seqDrive := 6, seqLogic := 7, failsDrive := 3, failsLogic := 4 } }
abbrev heldS : State := { rdy with fab := { rdy.fab with held := [(2, [{ stamp := 5, value := 9 }])], cycleDrive := 5 } }

theorem witness_SpliceTakesEffect :
    (∃ (s : State) (cause : Nat), s.regsWf ∧ cause < 256 ∧ s.onF F.drvStatusRetract = false) ∧
    (∃ (s : State), s.regsWf ∧ (8 ≤ s.fab.failsDrive ∨ 8 ≤ s.fab.failsLogic) ∧ s.onF F.devSpliceStatusUp = true ∧
      s.onF F.drvStatusRetract = false ∧ s.inMode Mode.safe = false) ∧
    (∃ (dir : SpliceDir) (pos : Nat) (w : SpliceWord) (s : State), wordFits w dir pos = true ∧ s.regsWf ∧ pos = 15 ∧
      dir = SpliceDir.toDrive) ∧
    (∃ (path : Path) (s : State), s.regsWf ∧ s.inMode Mode.service = true ∧ s.admits path A.devSpliceStatus) ∧
    (∃ (pos stamp value : Nat) (s : State), pos < 7 ∧ s.regsWf ∧ s.onF F.devSpliceStatusUp = true ∧ s.onF
      F.drvStatusRetract = false ∧ 32767 < (stamp + 65536 - s.fab.cycleDrive % 65536) % 65536) ∧
    (∃ (dir : SpliceDir) (w : SpliceWord) (s : State), (w = SpliceWord.idle ∨ w = SpliceWord.ack) ∧ wordFits w dir 14
      = true ∧ s.regsWf) ∧
    (∃ (s : State) (cause : Nat), s.regsWf ∧ cause < 256 ∧ s.onF F.drvStatusRetract = true) ∧
    (∃ (pos stamp value : Nat) (s : State), pos < 7 ∧ s.onF F.devSpliceStatusUp = true ∧ s.onF F.drvStatusRetract =
      false ∧ (stamp + 65536 - s.fab.cycleDrive % 65536) % 65536 ≤ 32767) ∧
    (∃ (pos stamp value : Nat) (s : State), pos ≤ 7 ∧ s.onF F.devSpliceStatusUp = false) ∧
    (∃ (dir : SpliceDir) (pos : Nat) (w : SpliceWord) (s : State), wordFits w dir pos = true ∧ s.regsWf ∧ pos = 15 ∧
      ¬dir = SpliceDir.toDrive) ∧
    (∃ (count : Nat) (s : State), (count + 24) % 2 ^ 32 = s.fab.cycleDrive) ∧
    (∃ (count : Nat) (s : State), (count + 24) % 2 ^ 32 = s.fab.cycleLogic) ∧
    (∃ (seq count : Nat) (s : State), (seq ≠ s.fab.seqDrive ∨ (count + 24) % 2 ^ 32 ≠ s.fab.cycleDrive)) ∧
    (∃ (out : Nat) (h : HeldOutput) (l : List HeldOutput) (s : State), s.heldCmds out = h :: l ∧ (s.fab.cycleDrive %
      65536 + 65536 - h.stamp) % 65536 ≤ 32767) ∧
    (∃ (out : Nat) (s : State), 4 ≤ sparseGet (fun x => 0) s.fab.discards out) ∧
    (∃ (s : State), (s.fab.lfRc = true ∧ s.logicOn = true) ∧ (∀ (t0 : Nat), s.fab.rcTrimAt = some t0 → t0 +
      64000000000 ≤ s.fab.timecode)) ∧
    (∃ (toLogic : Bool) (count : Nat) (s : State), s.fab.logicKeeps ≠ toLogic ∧ s.logicOn = toLogic) :=
  ⟨⟨flying, 3, by decide +kernel⟩,
   ⟨{ flying with fab := { rdy.fab with failsDrive := 8 } }, by decide +kernel⟩,
   ⟨.toDrive, 15, .link 3 4, rdy, by decide +kernel⟩,
   ⟨.core, (svc.setF F.devSpliceStatusLost 1).setF F.devSpliceStatusUp 1, by decide +kernel⟩,
   ⟨6, 32768, 77, rdy, by decide +kernel⟩,
   ⟨.toDrive, .ack, { rdy with fab := { rdy.fab with events := [.tamper] } }, by decide +kernel⟩,
   ⟨flying.setF F.drvStatusRetract 1, 3, by decide +kernel⟩,
   ⟨6, 32767, 77, rdy, by decide +kernel⟩,
   ⟨7, 5, 77, svc, by decide +kernel⟩,
   ⟨.toLogic, 15, .link 3 4, rdy, by decide +kernel⟩,
   ⟨26, cyc rdy, by decide +kernel⟩,
   ⟨46, cyc rdy, by decide +kernel⟩,
   ⟨5, 26, cyc rdy, by decide +kernel⟩,
   ⟨2, { stamp := 5, value := 9 }, [], heldS, by decide +kernel⟩,
   ⟨2, { rdy with fab := { rdy.fab with discards := [(2, 4)] } }, by decide +kernel⟩,
   ⟨{ rdy with fab := { rdy.fab with lfRc := true, rcTrimAt := some 0, timecode := 64000000000 } }, by decide +kernel,
     forall_some (by decide +kernel)⟩,
   ⟨true, 9, rdy, by decide +kernel⟩⟩

end Splice

namespace Slates

abbrev badJob : State := { rdy.setF F.sltStatusBusy 1 with slt := { Slate.reset with job := some { swap := true, cmd := some adm, partner := none } } }
abbrev badJobC : State := withCmd badJob adm (sqeOf 0xC1)
abbrev swapS : State := { (rdy.setF F.sltStatusSwapPending 1).setF F.sltFrameFrame 4 with slt := { Slate.reset with running := true, swapDue := some 4, shadow := [(3,7)], job := some { swap := true, cmd := none, partner := none } } }
abbrev runS : State := { rdy with slt := { Slate.reset with running := true } }
abbrev healS : State := { rdy with slt := { Slate.reset with running := true, dramCopy := some [(3, 5)] } }
abbrev gateS : State := { runS with slt := { runS.slt with gated := true, frameCycle := 0, posted := [(cellKey 0 1008 false, 1)] } }
abbrev colOf (a b : Byte) : State := { runS with slt := { Slate.reset with running := true, frameCycle := 16380, active := [(800, a), (801, b)] } }
abbrev ownS : State := { colOf 0xF0 3 with slt := { (colOf 0xF0 3).slt with posted := [(cellKey 0 1008 false, 3)] } }

/-! ## A slate that passes validation

Each column is its owners' minimum cells and then spares; the checks are read off the runs, so that no list of a
whole image is computed. -/

/-- The runs of column `c`: each system owner's minimum, the rest spare. -/
def slateRuns (c : Nat) : List (Nat × Nat) :=
  (systemOwners.map fun o => (ownerMinimum o c, o))
    ++ [(colCells c - (systemOwners.map fun o => ownerMinimum o c).sum, ownSpare)]

def slateColumn (c : Nat) : List Nat := (slateRuns c).flatMap fun r => List.replicate r.1 r.2

/-- The cells of the first `n` columns. -/
def slateColumns : Nat → List Nat
  | 0 => []
  | n + 1 => slateColumns n ++ slateColumn n

theorem runs_length (rs : List (Nat × Nat)) :
    (rs.flatMap fun r => List.replicate r.1 r.2).length = (rs.map (·.1)).sum := by
  induction rs with
  | nil => rfl
  | cons r t ih => simp [ih]

theorem runs_count (p : Nat → Bool) (rs : List (Nat × Nat)) :
    (rs.flatMap fun r => List.replicate r.1 r.2).countP p = (rs.map fun r => if p r.2 then r.1 else 0).sum := by
  induction rs with
  | nil => rfl
  | cons r t ih => simp [ih, List.countP_replicate]

theorem mem_runs {w : Nat} {rs : List (Nat × Nat)} (h : w ∈ rs.flatMap fun r => List.replicate r.1 r.2) :
    ∃ r ∈ rs, r.1 ≠ 0 ∧ r.2 = w := by
  obtain ⟨r, m, e⟩ := List.mem_flatMap.1 h
  exact ⟨r, m, (List.mem_replicate.1 e).1, (List.mem_replicate.1 e).2.symm⟩

theorem slateColumn_length {c : Nat} (h : c < 28) : (slateColumn c).length = colCells c := by
  rw [slateColumn, runs_length]
  revert c
  decide +kernel

theorem colFirst_succ (n : Nat) : colFirst (n + 1) = colFirst n + colCells n := by
  simp [colFirst, List.range_succ]

theorem slateColumns_length {n : Nat} (h : n ≤ 28) : (slateColumns n).length = colFirst n := by
  induction n with
  | zero => rfl
  | succ n ih => rw [slateColumns, List.length_append, ih (by omega), slateColumn_length (by omega), colFirst_succ]

theorem slateColumns_split {n c : Nat} (h : c < n) :
    ∃ t, slateColumns n = slateColumns c ++ (slateColumn c ++ t) := by
  induction n with
  | zero => omega
  | succ n ih =>
    by_cases e : c = n
    · subst e
      exact ⟨[], by simp [slateColumns]⟩
    · obtain ⟨t, e⟩ := ih (by omega)
      exact ⟨t ++ slateColumn n, by simp [slateColumns, e]⟩

theorem slateColumns_column {c : Nat} (h : c < 28) :
    ((slateColumns 28).drop (colFirst c)).take (colCells c) = slateColumn c := by
  obtain ⟨t, e⟩ := slateColumns_split h
  rw [e, ← slateColumns_length (by omega : c ≤ 28), List.drop_left, ← slateColumn_length h, List.take_left]

theorem slateColumns_at {n i w : Nat} (hn : n ≤ 28) (h : (slateColumns n)[i]? = some w) :
    ∃ c < n, colFirst c ≤ i ∧ i < colFirst c + colCells c ∧ w ∈ slateColumn c := by
  induction n with
  | zero => simp [slateColumns] at h
  | succ n ih =>
    rw [slateColumns, List.getElem?_append] at h
    split at h
    · obtain ⟨c, a, b⟩ := ih (by omega) h
      exact ⟨c, by omega, b⟩
    · rename_i k
      rw [slateColumns_length (by omega)] at h k
      have l := (List.getElem?_eq_some_iff.1 h).1
      rw [slateColumn_length (by omega)] at l
      exact ⟨n, by omega, by omega, by omega, List.mem_of_getElem? h⟩

theorem colOfIndex_eq {c i : Nat} (hc : c < 28) (h : colFirst c ≤ i) (k : i < colFirst c + colCells c) :
    colOfIndex i = c := by
  have m : ∀ c < 28, ∀ j < c, colFirst j + colCells j ≤ colFirst c := by decide +kernel
  have f : (List.range 28).find? (fun c => decide (i < colFirst c + colCells c)) = some c := by
    rw [List.find?_range_eq_some]
    refine ⟨by simpa using k, by simpa using hc, fun j hj => ?_⟩
    have := m c hc j hj
    simp
    omega
  rw [colOfIndex, f]
  rfl

/-- What the checks ask of a cell of a column holds of every run. -/
theorem slateRuns_ok : ∀ c < 28, ∀ r ∈ slateRuns c, r.1 ≠ 0 →
    r.2 < 65536 ∧ r.2 / 2 ^ 11 = 0 ∧ cellDonate r.2 = false ∧ ownerDefined (cellOwner r.2) = true
    ∧ ownerAdmitted (cellOwner r.2) c = true := by decide +kernel

theorem slateCells_ok {i w : Nat} (h : (w, i) ∈ (slateColumns 28).zipIdx) :
    w < 65536 ∧ w / 2 ^ 11 = 0 ∧ cellDonate w = false ∧ ownerDefined (cellOwner w) = true
    ∧ ownerAdmitted (cellOwner w) (colOfIndex i) = true := by
  obtain ⟨c, hc, a, b, m⟩ := slateColumns_at (Nat.le_refl 28) (List.mem_zipIdx_iff_getElem?.1 h)
  obtain ⟨r, mr, z, e⟩ := mem_runs m
  have e : r.2 = w := e
  rw [colOfIndex_eq hc a b, ← e]
  exact slateRuns_ok c hc r mr z

theorem firstCell_none {cells : List Nat} {bad : Nat → Nat → Bool}
    (h : ∀ w i, (w, i) ∈ cells.zipIdx → bad w i = false) : firstCell cells bad = none := by
  rw [firstCell, List.find?_eq_none.2 (by rintro ⟨w, i⟩ m; simp [h w i m])]
  rfl

theorem belowMinimum_column {c : Nat} (h : c < 28) : belowMinimum (slateColumns 28) c = false := by
  simp only [belowMinimum, slateColumns_column h, slateColumn, runs_count]
  revert c
  decide +kernel

/-! Its bytes. -/

theorem leNat_of_lt (n v : Nat) (h : v < 256 ^ n) : leNat (leBytes n v) = v := by
  rw [leNat_leBytes, Nat.mod_eq_of_lt h]

theorem cellWords_bytes (ws : List Nat) (h : ∀ w ∈ ws, w < 65536) :
    cellWords ws.length (ws.flatMap (leBytes 2)) = ws := by
  induction ws with
  | nil => rfl
  | cons w t ih =>
    have e : (leBytes 2 w ++ t.flatMap (leBytes 2)).take 2 = leBytes 2 w := rfl
    have d : (leBytes 2 w ++ t.flatMap (leBytes 2)).drop 2 = t.flatMap (leBytes 2) := rfl
    rw [List.flatMap_cons, List.length_cons, cellWords, e, d, ih (fun x m => h x (by simp [m])),
      leNat_of_lt _ _ (by simpa using h w (by simp))]

theorem cellBytes_length (ws : List Nat) : (ws.flatMap (leBytes 2)).length = 2 * ws.length := by
  induction ws with
  | nil => rfl
  | cons w t ih => simp [ih, leBytes_length]; omega

def slateHead : List Byte :=
  leBytes 2 0x534C ++ leBytes 2 0x0100 ++ leBytes 4 slateLen ++ leBytes 4 1
    ++ leBytes 2 1024 ++ leBytes 1 28 ++ leBytes 1 0 ++ leBytes 4 0x40 ++ leBytes 4 0x120
    ++ leBytes 4 0x320 ++ leBytes 4 9472 ++ zeros 28

def slateDir : List Byte :=
  (List.range 28).flatMap fun c => leBytes 1 c ++ leBytes 1 (colStride c)
    ++ leBytes 2 (colQuantum c) ++ leBytes 2 (colFirst c) ++ leBytes 2 (colCells c)

def slateRest : List Byte := slateDir ++ (List.replicate 512 1 ++ (slateColumns 28).flatMap (leBytes 2))

def slateSum : List Byte := leBytes 4 (crc32c (slateHead ++ slateRest))

/-- SLATE_ID 1, every weight 1, no cell with DONATE. -/
def goodSlate : List Byte := slateHead ++ (slateSum ++ slateRest)

theorem slateHead_length : slateHead.length = 60 := by decide +kernel
theorem slateDir_length : slateDir.length = 224 := by decide +kernel
theorem slateSum_length : slateSum.length = 4 := leBytes_length _ _
theorem slateRest_length : slateRest.length = 19680 := by
  have : colFirst 28 = 9472 := by decide +kernel
  rw [slateRest, List.length_append, List.length_append, slateDir_length, List.length_replicate, cellBytes_length,
    slateColumns_length (Nat.le_refl _), this]
theorem goodSlate_length : goodSlate.length = slateLen := by
  rw [goodSlate, List.length_append, List.length_append, slateHead_length, slateSum_length, slateRest_length]
  rfl

theorem slice_left {l : List Byte} (r : List Byte) {o n : Nat} (h : o + n ≤ l.length) :
    slice (l ++ r) o n = slice l o n := by
  rw [slice, slice, List.drop_append_of_le_length (by omega), List.take_append_of_le_length (by simp; omega)]

theorem slice_right {l : List Byte} (r : List Byte) {o k n : Nat} (h : l.length + k = o) :
    slice (l ++ r) o n = slice r k n := by
  rw [slice, slice, ← h, List.drop_append, List.drop_of_length_le (by omega)]
  simp

theorem headField {o n : Nat} (h : o + n ≤ 60) : field goodSlate o n = field slateHead o n := by
  rw [field, goodSlate, slice_left _ (by rw [slateHead_length]; exact h), field]

theorem goodSlate_header : slateHeaderOk goodSlate = true := by
  unfold slateHeaderOk allZero
  rw [headField (by omega), headField (by omega), headField (by omega), headField (by omega), headField (by omega),
    headField (by omega), headField (by omega), headField (by omega), headField (by omega), goodSlate,
    slice_left _ (by have := slateHead_length; omega)]
  decide +kernel

theorem slice_whole (l : List Byte) {n : Nat} (h : l.length = n) : slice l 0 n = l := by
  simp [slice, ← h]

theorem goodSlate_sum : field goodSlate 0x3C 4 = slateCrc goodSlate := by
  have a : field goodSlate 0x3C 4 = crc32c (slateHead ++ slateRest) := by
    rw [field, goodSlate, slice_right (k := 0) _ (by have := slateHead_length; omega),
      slice_left _ (by have := slateSum_length; omega),
      slice_whole _ slateSum_length, slateSum, leNat_of_lt _ _ (crc32c_lt _)]
  have b : goodSlate.take 0x3C = slateHead := by
    rw [goodSlate, ← slateHead_length, List.take_left]
  have c : slice goodSlate 0x40 (slateLen - 0x40) = slateRest := by
    rw [goodSlate, slice_right (k := 4) _ (by have := slateHead_length; omega),
      slice_right (k := 0) _ (by have := slateSum_length; omega), slice_whole _ (by rw [slateRest_length]; rfl)]
  rw [a, slateCrc, b, c]

theorem goodSlate_dir {c : Nat} (h : c < 28) : slateDirOk goodSlate c = true := by
  have e : slice goodSlate (0x40 + 8 * c) 8 = slice slateDir (8 * c) 8 := by
    rw [goodSlate, slice_right (k := 4 + 8 * c) _ (by have := slateHead_length; omega),
      slice_right (k := 8 * c) _ (by have := slateSum_length; omega), slateRest,
      slice_left _ (by have := slateDir_length; omega)]
  rw [slateDirOk, e]
  revert c
  decide +kernel

theorem goodSlate_cells : slateCells goodSlate = slateColumns 28 := by
  have l : (slateColumns 28).length = 9472 := by
    rw [slateColumns_length (Nat.le_refl _)]
    decide +kernel
  have e : goodSlate.drop 0x320 = (slateColumns 28).flatMap (leBytes 2) := by
    have p : (slateHead ++ slateSum ++ slateDir ++ List.replicate 512 1).length = 0x320 := by
      rw [List.length_append, List.length_append, List.length_append, slateHead_length, slateSum_length, slateDir_length,
        List.length_replicate]
    rw [← p, goodSlate, slateRest]
    simp only [← List.append_assoc]
    exact List.drop_left
  rw [slateCells, e, ← l, cellWords_bytes]
  intro w m
  obtain ⟨i, h⟩ := List.mem_iff_getElem?.1 m
  exact (slateCells_ok (List.mem_zipIdx_iff_getElem?.2 h)).1

theorem goodSlate_passes {minV maxV : Nat} (h : minV ≤ 0x100) (k : 0x100 ≤ maxV) :
    slateReject goodSlate minV maxV = none := by
  have i : field goodSlate 0 2 = 0x534C := by rw [headField (by omega)]; decide +kernel
  have v : field goodSlate 0x02 2 = 0x100 := by rw [headField (by omega)]; decide +kernel
  have d : (List.range 28).find? (fun c => !slateDirOk goodSlate c) = none :=
    List.find?_eq_none.2 fun c m => by simp [goodSlate_dir (List.mem_range.1 m)]
  have m : (List.range 28).find? (fun c => belowMinimum (slateColumns 28) c) = none :=
    List.find?_eq_none.2 fun c m => by simp [belowMinimum_column (List.mem_range.1 m)]
  have a := firstCell_none (cells := slateColumns 28)
    (bad := fun w _ => w / 2 ^ 11 ≠ 0 || (cellDonate w && cellOwner w = ownSpare))
    (fun w i e => by obtain ⟨-, z, n, -⟩ := slateCells_ok e; simp only [z, n]; rfl)
  have b := firstCell_none (cells := slateColumns 28) (bad := fun w _ => !ownerDefined (cellOwner w))
    (fun w i e => by simp [(slateCells_ok e).2.2.2.1])
  have c := firstCell_none (cells := slateColumns 28) (bad := fun w i => !ownerAdmitted (cellOwner w) (colOfIndex i))
    (fun w i e => by simp [(slateCells_ok e).2.2.2.2])
  simp only [slateReject, goodSlate_cells, goodSlate_header, goodSlate_sum, i, v]
  rw [d, a, b, c, m]
  simp
  omega

/-! The table of its bytes holds the list. -/

theorem dense_sparse (l : List Byte) (i : Nat) :
    denseFrom i l.length (((l.zipIdx i).filter fun e => e.1 != 0).map fun e => (e.2, e.1)) = l
    ∧ ∀ e ∈ ((l.zipIdx i).filter fun e => e.1 != 0).map (fun e => (e.2, e.1)), i ≤ e.1 := by
  induction l generalizing i with
  | nil => simp [denseFrom]
  | cons b t ih =>
    obtain ⟨a, c⟩ := ih (i + 1)
    constructor
    · by_cases h : b = 0
      · subst h
        simp only [List.zipIdx_cons, List.length_cons, List.filter_cons, bne_self_eq_false, Bool.false_eq_true,
          if_false]
        revert a c
        cases (((t.zipIdx (i + 1)).filter fun e => e.1 != 0).map fun e => (e.2, e.1)) with
        | nil =>
          intro a c
          simp [denseFrom, a]
        | cons e r =>
          intro a c
          have := c e (by simp)
          simp only [denseFrom, if_neg (by omega : ¬ e.1 = i), a]
      · simp only [List.zipIdx_cons, List.length_cons, List.filter_cons, bne_iff_ne, ne_eq, h, not_false_eq_true,
          if_true, List.map_cons, denseFrom, a]
    · intro e m
      by_cases h : b = 0
      · simp only [List.zipIdx_cons, List.filter_cons, h, bne_self_eq_false, Bool.false_eq_true, if_false] at m
        have := c e m
        omega
      · simp only [List.zipIdx_cons, List.filter_cons, bne_iff_ne, ne_eq, h, not_false_eq_true, if_true,
          List.map_cons, List.mem_cons] at m
        rcases m with rfl | m
        · exact Nat.le_refl _
        · have := c e m
          omega

theorem denseBytes_goodSlate : denseBytes slateLen (sparseBytes goodSlate) = goodSlate := by
  rw [← goodSlate_length]
  exact (dense_sparse goodSlate 0).1

/-- The passing slate stands in the shadow while its validation runs. -/
abbrev goodJob : State := { badJob with slt := { badJob.slt with shadow := sparseBytes goodSlate } }

theorem goodJob_passes : goodJob.rejectOf goodJob.shadowImage = none := by
  have e : goodJob.shadowImage = goodSlate := denseBytes_goodSlate
  have lo : goodJob.getF F.sltVersionMinVersion ≤ 0x100 := by decide +kernel
  have hi : 0x100 ≤ goodJob.getF F.sltVersionMaxVersion := by decide +kernel
  rw [State.rejectOf, e]
  exact goodSlate_passes lo hi

theorem witness_SlatesAreValidatedAndSwapped_validation :
    (∃ (s : State) (j : SlateJob), (s.regsWf ∧ s.slt.job = some j ∧ s.onF F.sltStatusBusy = true ∧ j.swap = true) ∧
      s.rejectOf s.shadowImage = none) ∧
    (∃ (s : State) (j : SlateJob), (s.regsWf ∧ s.slt.job = some j ∧ s.onF F.sltStatusBusy = true ∧ j.swap = false) ∧
      s.rejectOf s.shadowImage = none) :=
  ⟨⟨goodJob, { swap := true, cmd := some adm, partner := none }, by decide +kernel, goodJob_passes⟩,
   ⟨{ goodJob with slt := { goodJob.slt with job := some { swap := false, cmd := some adm, partner := none } } },
     { swap := false, cmd := some adm, partner := none }, by decide +kernel, goodJob_passes⟩⟩

theorem witness_RejectedSlateNeverBecomesActive :
    (∃ (s : State) (j : SlateJob) (r : Nat × Nat × Nat), s.regsWf ∧ s.slt.job = some j ∧ j.partner = none ∧ s.onF
      F.sltStatusBusy = true ∧ s.rejectOf s.shadowImage = some r ∧ r.fst < 256) ∧
    (∃ (s : State), s.slt.job = none) :=
  ⟨⟨badJobC, { swap := true, cmd := some adm, partner := none }, (badJobC.rejectOf badJobC.shadowImage).getD default,
     by decide +kernel⟩,
   ⟨rdy, by decide +kernel⟩⟩

theorem witness_SlatesAreValidatedAndSwapped :
    (∃ (s : State) (j : SlateJob), s.regsWf ∧ s.slt.job = some j ∧ s.slt.swapDue = some (s.getF F.sltFrameFrame) ∧
      s.slt.frameCycle = 0 ∧ s.onF F.sltStatusSwapPending = true ∧ s.columnsRun = true ∧ s.slt.ringsNew = false ∧
      s.onF F.sltCtrlPersist = false) ∧
    (∃ (s : State), (s.slt.frameCycle ≠ 0 ∨ s.slt.swapDue ≠ some (s.getF F.sltFrameFrame))) :=
  ⟨⟨swapS, { swap := true, cmd := none, partner := none }, by decide +kernel⟩,
   ⟨{ swapS with slt := { swapS.slt with frameCycle := 1 } }, by decide +kernel⟩⟩

theorem witness_SlateAndCellCommandsComplete :
    (∃ (path : Path) (v : Word) (s : State), s.regsWf ∧ s.admits path A.sltCtrl ∧ s.onF F.sltCtrlLock = false ∧
      s.slateBusy = false ∧ s.inMode Mode.safe = false ∧ s.logicOn = true ∧ (s.orderBarred fun x => decide (x ≠
      Mode.safe)) = false ∧ F.sltCtrlSwap.get v = 1 ∧ F.sltCtrlLock.get v = 0) ∧
    (∃ (path : Path) (v : Word) (s : State), s.regsWf ∧ s.admits path A.sltCtrl ∧ s.onF F.sltCtrlLock = false ∧
      s.slateBusy = false ∧ F.sltCtrlSwap.get v = 0 ∧ F.sltCtrlValidate.get v = 1) ∧
    (∃ (path : Path) (v : Word) (s : State), (s.regsWf ∧ s.admits path A.sltShadowData ∧ s.onF F.sltCtrlLock = false ∧
      s.slateBusy = false ∧ Sparse.wf (fun x => 0) s.slt.shadow = true) ∧ (s.noErrors)) ∧
    (∃ (path : Path) (v : Word) (s : State), s.regsWf ∧ s.admits path A.sltCtrl ∧ F.sltCtrlSwap.get v = 0 ∧
      F.sltCtrlValidate.get v = 0 ∧ F.sltCtrlLock.get v = 1) ∧
    (∃ (col k n : Nat) (wr : Bool) (s : State), ((s.columnsRun = true ∧ col < 28 ∧ k < colCells col ∧ inWindow
      s.slt.frameCycle = true ∧ (s.slt.frameCycle / 16 + 1) % 1024 = k * colStride col ∧ s.slt.decided.contains col =
      false) ∧ s.regsWf ∧ s.swapWindow = false ∧ s.ftl.dumping = false ∧ cellOwner (leNat [sparseGet (fun x => 0)
      s.slt.active (800 + 2 * (colFirst col + k)), sparseGet (fun x => 0) s.slt.active (801 + 2 * (colFirst col +
      k))]) ≠ ownSpare ∧ s.ownerPresent (cellOwner (leNat [sparseGet (fun x => 0) s.slt.active (800 + 2 * (colFirst
      col + k)), sparseGet (fun x => 0) s.slt.active (801 + 2 * (colFirst col + k))])) = true ∧ s.postedOf col =
      [cellKey col (cellOwner (leNat [sparseGet (fun x => 0) s.slt.active (800 + 2 * (colFirst col + k)), sparseGet
      (fun x => 0) s.slt.active (801 + 2 * (colFirst col + k))])) wr] ∧ Sparse.wf (fun x => 0) s.slt.posted = true ∧
      Sparse.wf (fun x => 0) s.slt.granted = true ∧ sparseGet (fun x => 0) s.slt.posted (cellKey col (cellOwner (leNat
      [sparseGet (fun x => 0) s.slt.active (800 + 2 * (colFirst col + k)), sparseGet (fun x => 0) s.slt.active (801 +
      2 * (colFirst col + k))])) wr) = n + 1) ∧ (s.noErrors)) ∧
    (∃ (s : State), s.inMode Mode.ready = true ∧ s.slt.running = true ∧ s.slt.gated = false ∧ s.dataWork = false ∧
      s.slt.frameCycle = 0) ∧
    (∃ (col k : Nat) (s : State), (s.columnsRun = true ∧ col < 28 ∧ k < colCells col ∧ inWindow s.slt.frameCycle =
      true ∧ (s.slt.frameCycle / 16 + 1) % 1024 = k * colStride col ∧ s.slt.decided.contains col = false) ∧ s.postedOf
      col = [] ∧ (col < 2 ∨ 20 ≤ col ∧ col ≠ 27)) ∧
    (∃ (s : State) (img : Sparse Byte), (s.slt.dramCopy = some img ∧ s.slt.running = true ∧ s.slt.frameCycle = 0) ∧
      (s.noErrors)) ∧
    (∃ (owner col : Nat) (s : State), s.slt.gated = true ∧ (s.joinFresh.colWork col).contains owner = true) ∧
    (∃ (path : Path) (s : State), (s.admits path A.sltShadowData) ∧ (s.noErrors)) ∧
    (∃ (col k : Nat) (work : List Nat) (s : State), (s.regsWf ∧ s.columnsRun = true ∧ col < 28 ∧ k < colCells col ∧
      s.swapWindow = false ∧ cellOwner (leNat [sparseGet (fun x => 0) s.slt.active (800 + 2 * (colFirst col + k)),
      sparseGet (fun x => 0) s.slt.active (801 + 2 * (colFirst col + k))]) ≠ ownSpare ∧ s.ownerPresent (cellOwner
      (leNat [sparseGet (fun x => 0) s.slt.active (800 + 2 * (colFirst col + k)), sparseGet (fun x => 0) s.slt.active
      (801 + 2 * (colFirst col + k))])) = true ∧ work.contains (cellOwner (leNat [sparseGet (fun x => 0) s.slt.active
      (800 + 2 * (colFirst col + k)), sparseGet (fun x => 0) s.slt.active (801 + 2 * (colFirst col + k))])) = true) ∧
      (s.noErrors)) ∧
    (∃ (col k : Nat) (uncorr : Bool) (s : State), inWindow s.slt.frameCycle = false) :=
  ⟨⟨.core, 0x1#32, rdy, by decide +kernel⟩,
   ⟨.core, 0x2#32, rdy, by decide +kernel⟩,
   ⟨.core, 0x01020304#32, { rdy with slt := { Slate.reset with shadow := [(1, 5)] } }, by decide +kernel, noErrors_of
     (by decide +kernel)⟩,
   ⟨.core, (F.sltCtrlLock.put 0 1), rdy, by decide +kernel⟩,
   ⟨0, 0, 2, false, ownS, by decide +kernel, noErrors_of (by decide +kernel)⟩,
   ⟨runS, by decide +kernel⟩,
   ⟨0, 0, colOf 0xF0 3, by decide +kernel⟩,
   ⟨healS, [(3, 5)], by decide +kernel, noErrors_of (by decide +kernel)⟩,
   ⟨1008, 0, gateS, by decide +kernel⟩,
   ⟨.core, { rdy with slt := { Slate.reset with shadow := [(1, 5)] } }, by decide +kernel, noErrors_of (by
     decide +kernel)⟩,
   ⟨0, 0, [1008], colOf 0xF0 3, by decide +kernel, noErrors_of (by decide +kernel)⟩,
   ⟨27, 3, false, runS, by decide +kernel⟩⟩

end Slates

namespace Queues

abbrev sq1 : Sq := { size := 8, head := 1, tail := 3, cq := 1, base := 0 }
abbrev cq1 : Cq := { size := 8, head := 0, tail := 0, phase := true, vector := 0, ien := false, base := 0, entries := [] }
abbrev sq0 : Sq := { size := 8, head := 1, tail := 1, cq := 0, base := 0 }
abbrev ctl : Ctrl := { Ctrl.reset with cc := 1, rdy := true, sqs := [(0, some sq0), (1, some sq1)], cqs := [(0, some cq1), (1, some cq1)] }
abbrev hst (s : State) : State := { s with host := { s.host with ctrls := [(0, ctl)] } }
abbrev hs : State := withNs (hst act) (nsOf .flash)
abbrev cqe1 : Cqe := { sq := 1, cid := 1, sqHead := 0, sct := 0, sc := 0, dw0 := 0, dw1 := 0, phase := true, data := [] }
abbrev cq2 : Cq := { cq1 with entries := [cqe1, cqe1] }
abbrev hs2 : State := { hs with host := { hs.host with ctrls := [(0, { ctl with cqs := [(0, some cq1), (1, some cq2)] })] } }
abbrev wr : Sqe := sqeOf 0x01
abbrev adw : Cmd := { cmdOf io wr .admitWait with ranges := State.lockRanges wr }
abbrev lkw : Cmd := { adw with st := .lockWait }
abbrev ccq : Sqe := { sqeOf 0x05 with dw10 := 2 + 65536 * 7, dw11 := 1 }
abbrev ccq1 : Sqe := { sqeOf 0x05 with dw10 := 2, dw11 := 1 }
abbrev csq : Sqe := { sqeOf 0x01 with dw10 := 2 + 65536 * 4095, dw11 := 1 + 65536 }
abbrev csq1 : Sqe := { sqeOf 0x01 with dw10 := 2 + 65536 * 4096, dw11 := 1 + 65536 }
abbrev dsq : Sqe := { sqeOf 0x00 with dw10 := 1 }
abbrev dcq : Sqe := { sqeOf 0x04 with dw10 := 1 }
abbrev hs3 : State := { hs with host := { hs.host with ctrls := [(0, { ctl with sqs := [(0, some sq0)] })] } }
abbrev hs4 : State := { hs with host := { hs.host with ctrls := [(0, { ctl with sqs := [(0, some sq0)], cqs := [(0, some cq1)] })] } }
abbrev sf (fid v : Nat) : Sqe := { sqeOf 0x09 with dw10 := fid, dw11 := v }
abbrev gf (fid : Nat) : Sqe := { sqeOf 0x0A with dw10 := fid }
abbrev ky (n : Nat) : CmdKey := { adm with cid := n }
abbrev hs5 : State := { hs with host := { hs.host with ctrls := [(0, { ctl with aers := [ky 4, ky 5, ky 6, ky 7] })] } }

theorem witness_CommandsEndAndArePosted :
    (∃ (key : CmdKey) (c : Cmd) (n : Nat) (q : Sq) (w : Cq) (s : State), Sparse.wf (fun x => Ctrl.reset) s.host.ctrls
      = true ∧ Sparse.wf (fun x => none) (s.ctrl key.fn).cqs = true ∧ s.cmd? key = some c ∧ c.st = CmdSt.completing ∧
      s.host.fwHold = false ∧ s.hostUp = true ∧ s.waitsCaught c = false ∧ s.cqOf key.fn key.sq = some (n, q) ∧ 0 <
      s.cqRoom key.fn n ∧ sparseGet (fun x => none) (s.ctrl key.fn).cqs n = some w ∧ s.canDraw (s.postNeeds c) = true) ∧
    (∃ (s : State) (key : CmdKey) (sct sc dw0 dw1 : Nat) (out : List Byte) (i : Nat) (c : Cmd), s.host.cmds[i]? = some
      c) :=
  ⟨⟨io, cmdOf io (sqeOf 2) .completing, 1, sq1, cq1, cellsFor (withCmds hs [cmdOf io (sqeOf 2) .completing]) 1008, by
     decide +kernel⟩,
   ⟨withCmds hs [cmdOf io (sqeOf 2) .executing, cmdOf adm (sqeOf 2) .executing, cmdOf io (sqeOf 2) .posted], io, 2,
     0x81, 3, 4, [7], 0, cmdOf io (sqeOf 2) .executing, by decide +kernel⟩⟩

theorem witness_DoorbellsAndFetch :
    (∃ (fn y tail : Nat) (q : Sq) (s : State), doorbellOk s fn y = true ∧ sparseGet (fun x => none) (s.ctrl fn).sqs y
      = some q ∧ tail < q.size ∧ s.pwr.trans = none ∧ s.inMode Mode.ready = false) ∧
    (∃ (fn y tail : Nat) (s : State), (doorbellOk s fn y = true) ∧ (∀ (q : Sq), sparseGet (fun x => none) (s.ctrl
      fn).sqs y = some q → q.size ≤ tail)) ∧
    (∃ (fn y head : Nat) (q : Cq) (s : State), doorbellOk s fn y = true ∧ sparseGet (fun x => none) (s.ctrl fn).cqs y
      = some q ∧ head < q.size ∧ (head + q.size - q.head) % q.size ≤ q.entries.length) ∧
    (∃ (fn y head : Nat) (s : State), (doorbellOk s fn y = true) ∧ (∀ (q : Cq), sparseGet (fun x => none) (s.ctrl
      fn).cqs y = some q → q.size ≤ head)) ∧
    (∃ (fn sq : Nat) (e : Sqe) (q : Sq) (s : State), s.inMode Mode.ready = false ∧ s.pwr.trans = none ∧ Sparse.wf (fun
      x => Ctrl.reset) s.host.ctrls = true ∧ Sparse.wf (fun x => none) (s.ctrl fn).sqs = true ∧ s.arbiterPick fn =
      some sq ∧ s.cmd? { fn := fn, sq := sq, cid := e.cid } = none ∧ sparseGet (fun x => none) (s.ctrl fn).sqs sq =
      some q ∧ s.canDraw [{ col := colHdr, owner := fnTraffic fn, count := 1 }] = false) ∧
    (∃ (fn sq : Nat) (e : Sqe) (q : Sq) (s : State), s.inMode Mode.ready = false ∧ s.pwr.trans = none ∧ Sparse.wf (fun
      x => Ctrl.reset) s.host.ctrls = true ∧ Sparse.wf (fun x => none) (s.ctrl fn).sqs = true ∧ s.arbiterPick fn =
      some sq ∧ s.cmd? { fn := fn, sq := sq, cid := e.cid } = none ∧ sparseGet (fun x => none) (s.ctrl fn).sqs sq =
      some q ∧ s.canDraw [{ col := colHdr, owner := fnTraffic fn, count := 1 }] = true) :=
  ⟨⟨0, 1, 7, sq1, hs, by decide +kernel⟩,
   ⟨0, 1, 8, hs, by decide +kernel, forall_some (by decide +kernel)⟩,
   ⟨0, 1, 2, cq2, hs2, by decide +kernel⟩,
   ⟨0, 1, 8, hs2, by decide +kernel, forall_some (by decide +kernel)⟩,
   ⟨0, 1, sqeOf 0, sq1, hs, by decide +kernel⟩,
   ⟨0, 1, sqeOf 0, sq1, cellsFor hs 1008, by decide +kernel⟩⟩

theorem witness_DecodeAdmissionAndLocks :
    (∃ (key : CmdKey) (c : Cmd) (s : State), s.cmd? key = some c ∧ c.st = CmdSt.admitWait ∧ s.admitOk c = true ∧
      c.sqe.opc ≠ 129 ∧ c.sqe.opc ≠ 2 ∧ c.sqe.opc ≠ 12) ∧
    (∃ (key : CmdKey) (c : Cmd) (s : State), s.cmd? key = some c ∧ c.st = CmdSt.lockWait ∧ c.held = false ∧ s.canTake
      c = true ∧ s.tfConflicts { c with held := true, reserved := s.reservedFree c } = false ∧ s.earlierConflicts
      { c with held := true, reserved := s.reservedFree c } = [] ∧ c.sqe.opc ≠ 129 ∧ c.sqe.opc ≠ 2 ∧ c.sqe.opc ≠ 12) ∧
    (∃ (key : CmdKey) (q : Sqe) (c : Cmd) (s : State), s.cmd? key = some c ∧ c.st = CmdSt.fetched ∧ (key.sq = 0 ∨
      q.opc ≠ 129)) :=
  ⟨⟨io, adw, withCmds hs [adw], by decide +kernel⟩,
   ⟨io, lkw, withCmds hs [lkw], by decide +kernel⟩,
   ⟨io, sqeOf 0x02, cmdOf io (sqeOf 0x02) .fetched, withCmds hs [cmdOf io (sqeOf 0x02) .fetched], by decide +kernel⟩⟩

theorem witness_QueueAndFeatureCommandsComplete :
    (∃ (key : CmdKey) (c : Cmd) (s : State), Sparse.wf (fun x => Ctrl.reset) s.host.ctrls = true ∧ s.executing key 5
      true = some c ∧ s.queueIdOk key.fn (c.sqe.dw10 % 65536) (s.ctrl key.fn).numCq (decide (s.pfPairs ≤ List.countP
      (fun x => decide (x.fst ≠ 0)) (s.ctrl key.fn).cqs)) = true ∧ sparseGet (fun x => none) (s.ctrl key.fn).cqs
      (c.sqe.dw10 % 65536) = none ∧ (bit c.sqe.dw11 1 = true → c.sqe.dw11 / 65536 < s.vectorsOf key.fn) ∧
      (¬(c.sqe.dw10 / 65536 + 1 < 2 ∨ s.queueMax key.fn < c.sqe.dw10 / 65536 + 1))) ∧
    (∃ (key : CmdKey) (c : Cmd) (s : State), Sparse.wf (fun x => Ctrl.reset) s.host.ctrls = true ∧ s.executing key 1
      true = some c ∧ s.queueIdOk key.fn (c.sqe.dw10 % 65536) (s.ctrl key.fn).numSq (decide (s.pfPairs ≤ List.countP
      (fun x => decide (x.fst ≠ 0)) (s.ctrl key.fn).sqs)) = true ∧ sparseGet (fun x => none) (s.ctrl key.fn).sqs
      (c.sqe.dw10 % 65536) = none ∧ c.sqe.dw11 / 65536 ≠ 0 ∧ sparseGet (fun x => none) (s.ctrl key.fn).cqs (c.sqe.dw11
      / 65536) ≠ none ∧ (¬(c.sqe.dw10 / 65536 + 1 < 2 ∨ s.queueMax key.fn < c.sqe.dw10 / 65536 + 1))) ∧
    (∃ (key : CmdKey) (c : Cmd) (q : Sq) (s : State), Sparse.wf (fun x => Ctrl.reset) s.host.ctrls = true ∧
      s.executing key 0 true = some c ∧ c.sqe.dw10 % 65536 ≠ 0 ∧ sparseGet (fun x => none) (s.ctrl key.fn).sqs
      (c.sqe.dw10 % 65536) = some q ∧ (∀ (x : Cmd), x ∈ s.host.cmds → x.key.fn = key.fn → x.key.sq ≠ c.sqe.dw10 %
      65536)) ∧
    (∃ (key : CmdKey) (c : Cmd) (s : State), (Sparse.wf (fun x => Ctrl.reset) s.host.ctrls = true ∧ s.executing key 4
      true = some c ∧ c.sqe.dw10 % 65536 ≠ 0 ∧ sparseGet (fun x => none) (s.ctrl key.fn).cqs (c.sqe.dw10 % 65536) ≠
      none) ∧ (¬∃ e, e ∈ (s.ctrl key.fn).sqs ∧ ∃ q, e.snd = some q ∧ q.cq = c.sqe.dw10 % 65536)) ∧
    (∃ (key : CmdKey) (c : Cmd) (s : State), Sparse.wf (fun x => Ctrl.reset) s.host.ctrls = true ∧ s.executing key 9
      true = some c ∧ bit c.sqe.dw10 31 = false ∧ c.sqe.dw10 % 256 = 1) ∧
    (∃ (key : CmdKey) (c : Cmd) (s : State), s.executing key 9 true = some c ∧ bit c.sqe.dw10 31 = true ∧ c.sqe.dw10 %
      256 ∈ [1, 2, 4, 7, 8, 9, 10, 11]) ∧
    (∃ (key : CmdKey) (c : Cmd) (s : State), s.executing key 10 true = some c ∧ c.sqe.dw10 % 256 = 1) ∧
    (∃ (key : CmdKey) (c : Cmd) (s : State), Sparse.wf (fun x => Ctrl.reset) s.host.ctrls = true ∧ s.executing key 5
      true = some c ∧ s.queueIdOk key.fn (c.sqe.dw10 % 65536) (s.ctrl key.fn).numCq (decide (s.pfPairs ≤ List.countP
      (fun x => decide (x.fst ≠ 0)) (s.ctrl key.fn).cqs)) = true ∧ sparseGet (fun x => none) (s.ctrl key.fn).cqs
      (c.sqe.dw10 % 65536) = none ∧ (bit c.sqe.dw11 1 = true → c.sqe.dw11 / 65536 < s.vectorsOf key.fn) ∧ (c.sqe.dw10
      / 65536 + 1 < 2 ∨ s.queueMax key.fn < c.sqe.dw10 / 65536 + 1)) ∧
    (∃ (key : CmdKey) (c : Cmd) (s : State), Sparse.wf (fun x => Ctrl.reset) s.host.ctrls = true ∧ s.executing key 1
      true = some c ∧ s.queueIdOk key.fn (c.sqe.dw10 % 65536) (s.ctrl key.fn).numSq (decide (s.pfPairs ≤ List.countP
      (fun x => decide (x.fst ≠ 0)) (s.ctrl key.fn).sqs)) = true ∧ sparseGet (fun x => none) (s.ctrl key.fn).sqs
      (c.sqe.dw10 % 65536) = none ∧ c.sqe.dw11 / 65536 ≠ 0 ∧ sparseGet (fun x => none) (s.ctrl key.fn).cqs (c.sqe.dw11
      / 65536) ≠ none ∧ (c.sqe.dw10 / 65536 + 1 < 2 ∨ s.queueMax key.fn < c.sqe.dw10 / 65536 + 1)) ∧
    (∃ (key : CmdKey) (c : Cmd) (s : State), (Sparse.wf (fun x => Ctrl.reset) s.host.ctrls = true ∧ s.executing key 4
      true = some c ∧ c.sqe.dw10 % 65536 ≠ 0 ∧ sparseGet (fun x => none) (s.ctrl key.fn).cqs (c.sqe.dw10 % 65536) ≠
      none) ∧ (∃ e, e ∈ (s.ctrl key.fn).sqs ∧ ∃ q, e.snd = some q ∧ q.cq = c.sqe.dw10 % 65536)) ∧
    (∃ (key : CmdKey) (c : Cmd) (s : State), Sparse.wf (fun x => Ctrl.reset) s.host.ctrls = true ∧ s.executing key 9
      true = some c ∧ bit c.sqe.dw10 31 = false ∧ c.sqe.dw10 % 256 = 8) ∧
    (∃ (key : CmdKey) (c : Cmd) (s : State), Sparse.wf (fun x => Ctrl.reset) s.host.ctrls = true ∧ s.executing key 9
      true = some c ∧ bit c.sqe.dw10 31 = false ∧ c.sqe.dw10 % 256 = 10) ∧
    (∃ (key : CmdKey) (c : Cmd) (s : State), Sparse.wf (fun x => Ctrl.reset) s.host.ctrls = true ∧ s.executing key 9
      true = some c ∧ bit c.sqe.dw10 31 = false ∧ c.sqe.dw10 % 256 = 11) ∧
    (∃ (key : CmdKey) (c : Cmd) (s : State), Sparse.wf (fun x => Ctrl.reset) s.host.ctrls = true ∧ s.executing key 9
      true = some c ∧ bit c.sqe.dw10 31 = false ∧ c.sqe.dw10 % 256 = 7 ∧ c.sqe.dw11 % 65536 ≠ 65535 ∧ c.sqe.dw11 /
      65536 ≠ 65535 ∧ (∀ (e : Nat × Option Sq), e ∈ (s.ctrl key.fn).sqs → e.fst = 0) ∧ (∀ (e : Nat × Option Cq), e ∈
      (s.ctrl key.fn).cqs → e.fst = 0)) ∧
    (∃ (key : CmdKey) (c : Cmd) (s : State), Sparse.wf (fun x => Ctrl.reset) s.host.ctrls = true ∧ s.executing key 9
      true = some c ∧ bit c.sqe.dw10 31 = false ∧ ¬c.sqe.dw10 % 256 ∈ [1, 2, 4, 7, 8, 9, 10, 11]) ∧
    (∃ (key : CmdKey) (c : Cmd) (s : State), Sparse.wf (fun x => Ctrl.reset) s.host.ctrls = true ∧ s.executing key 12
      true = some c ∧ (s.ctrl key.fn).aers.contains key = false ∧ 4 ≤ (s.ctrl key.fn).aers.length) ∧
    (∃ (key : CmdKey) (c : Cmd) (s : State), s.executing key 9 true = some c ∧ bit c.sqe.dw10 31 = true ∧ ¬c.sqe.dw10
      % 256 ∈ [1, 2, 4, 7, 8, 9, 10, 11]) ∧
    (∃ (key : CmdKey) (c : Cmd) (s : State), s.executing key 10 true = some c ∧ c.sqe.dw10 % 256 = 7) ∧
    (∃ (key : CmdKey) (c : Cmd) (s : State), s.executing key 10 true = some c ∧ c.sqe.dw10 % 256 = 8) ∧
    (∃ (key : CmdKey) (c : Cmd) (s : State), s.executing key 10 true = some c ∧ c.sqe.dw10 % 256 = 10) ∧
    (∃ (key : CmdKey) (c : Cmd) (s : State), s.executing key 10 true = some c ∧ c.sqe.dw10 % 256 = 11) ∧
    (∃ (key : CmdKey) (c : Cmd) (s : State), s.executing key 10 true = some c ∧ ¬c.sqe.dw10 % 256 ∈ [1, 2, 4, 7, 8, 9,
      10, 11]) ∧
    (∃ (key : CmdKey) (c : Cmd) (s : State), Sparse.wf (fun x => Ctrl.reset) s.host.ctrls = true ∧ s.executing key 12
      true = some c ∧ (s.ctrl key.fn).aers.contains key = false ∧ ¬4 ≤ (s.ctrl key.fn).aers.length ∧ (s.ctrl
      key.fn).events = []) :=
  ⟨⟨adm, cmdOf adm ccq .executing, withCmd hs adm ccq, by decide +kernel⟩,
   ⟨adm, cmdOf adm csq .executing, withCmd hs adm csq, by decide +kernel⟩,
   ⟨adm, cmdOf adm dsq .executing, sq1, withCmd hs adm dsq, by decide +kernel⟩,
   ⟨adm, cmdOf adm dcq .executing, withCmd hs3 adm dcq, by decide +kernel, not_exists_mem_some (by decide +kernel)⟩,
   ⟨adm, cmdOf adm (sf 1 0xFFFF) .executing, withCmd hs adm (sf 1 0xFFFF), by decide +kernel⟩,
   ⟨adm, cmdOf adm (sf (2^31 + 1) 3) .executing, withCmd hs adm (sf (2^31 + 1) 3), by decide +kernel⟩,
   ⟨adm, cmdOf adm (gf 1) .executing, withCmd hs adm (gf 1), by decide +kernel⟩,
   ⟨adm, cmdOf adm ccq1 .executing, withCmd hs adm ccq1, by decide +kernel⟩,
   ⟨adm, cmdOf adm csq1 .executing, withCmd hs adm csq1, by decide +kernel⟩,
   ⟨adm, cmdOf adm dcq .executing, withCmd hs adm dcq, by decide +kernel, exists_mem_some (by decide +kernel)⟩,
   ⟨adm, cmdOf adm (sf 8 0x12345) .executing, withCmd hs adm (sf 8 0x12345), by decide +kernel⟩,
   ⟨adm, cmdOf adm (sf 10 3) .executing, withCmd hs adm (sf 10 3), by decide +kernel⟩,
   ⟨adm, cmdOf adm (sf 11 3) .executing, withCmd hs adm (sf 11 3), by decide +kernel⟩,
   ⟨adm, cmdOf adm (sf 7 0x30003) .executing, withCmd hs4 adm (sf 7 0x30003), by decide +kernel⟩,
   ⟨adm, cmdOf adm (sf 3 3) .executing, withCmd hs adm (sf 3 3), by decide +kernel⟩,
   ⟨adm, cmdOf adm (sqeOf 0x0C) .executing, withCmd hs5 adm (sqeOf 0x0C), by decide +kernel⟩,
   ⟨adm, cmdOf adm (sf (2^31 + 3) 3) .executing, withCmd hs adm (sf (2^31 + 3) 3), by decide +kernel⟩,
   ⟨adm, cmdOf adm (gf 7) .executing, withCmd hs adm (gf 7), by decide +kernel⟩,
   ⟨adm, cmdOf adm (gf 8) .executing, withCmd hs adm (gf 8), by decide +kernel⟩,
   ⟨adm, cmdOf adm (gf 10) .executing, withCmd hs adm (gf 10), by decide +kernel⟩,
   ⟨adm, cmdOf adm (gf 11) .executing, withCmd hs adm (gf 11), by decide +kernel⟩,
   ⟨adm, cmdOf adm (gf 99) .executing, withCmd hs adm (gf 99), by decide +kernel⟩,
   ⟨adm, cmdOf adm (sqeOf 0x0C) .executing, withCmd hs adm (sqeOf 0x0C), by decide +kernel⟩⟩

end Queues

namespace Admin

abbrev hst (s : State) : State := { s with host := { s.host with ctrls := [(0, { Ctrl.reset with cc := 1, rdy := true })] } }
abbrev hs : State := withNs (hst act) (nsOf .flash)
abbrev fmt (o : Nat) : Cmd := { cmdOf adm (sqeOf o) .executing with won := true, ordered := true }
abbrev wbe : WbEntry := { nsid := 1, unit := 5, data := [], lo := 0, hi := 4096, key := io, gen := 0, order := 0, complete := true, age := 0, flushing := false, mapped := none, slot := none }
abbrev fs : State := { hs with ftl := { hs.ftl with wb := [wbe] } }
abbrev ky (n : Nat) : CmdKey := { adm with cid := n }
abbrev abt (sq cid : Nat) : Sqe := { sqeOf 0x08 with dw10 := sq + 65536 * cid }
abbrev c5 : List Cmd := [ky 4, ky 5, ky 6, ky 7].map fun k => cmdOf k (sqeOf 8) .executing
abbrev abt5 : Cmd := { cmdOf adm (abt 1 9) .executing with seq := 1 }
abbrev abtC : List Cmd := [cmdOf adm (abt 1 1) .executing, cmdOf io (sqeOf 1) .admitWait]
abbrev abtD : List Cmd := [cmdOf adm (abt 1 1) .executing, cmdOf io (sqeOf 1) .executing]
abbrev fid : Sqe := { sqeOf 0x11 with dw10 := 3, data := List.replicate 16 7 }
abbrev fidS : State := withCmd hs adm fid
abbrev dst (n : Nat) : Sqe := { sqeOf 0x14 with dw10 := n }
abbrev stS (e : Bool) (n : Nat) (f : Option (Nat × Nat)) : State := { hs with pwr := { hs.pwr with selfTest := some { extended := e, segment := n, failed := f } } }
abbrev drS : State := { hs.setF (F.instStatusState 0) 3 with tsk := { Takes.reset with slots := [(3, some 0)] } }
abbrev dr : Sqe := { sqeOf 0xC8 with dw10 := 3 }
abbrev glp : Sqe := { sqeOf 0x02 with dw10 := 0x03 + 32768 + 65536 * 15, dw12 := 8 }
abbrev idf : Sqe := { sqeOf 0x06 with dw10 := 1, nsid := 0 }

theorem witness_AdminOrdersEnterTheWindow :
    (∃ (key : CmdKey) (c : Cmd) (s : State), (s.executing key 16 true = some c ∧ c.ordered = false ∧ c.won = false) ∧
      (∀ (x : Transition), s.pwr.trans = some x → x.idle = false)) ∧
    (∃ (key : CmdKey) (c : Cmd) (s : State), (s.executing key 13 true = some c ∧ c.ordered = false ∧ c.won = false) ∧
      (∀ (x : Transition), s.pwr.trans = some x → x.idle = false)) ∧
    (∃ (key : CmdKey) (c : Cmd) (s : State), (s.executing key 21 true = some c ∧ c.ordered = false ∧ c.won = false) ∧
      (∀ (x : Transition), s.pwr.trans = some x → x.idle = false)) ∧
    (∃ (key : CmdKey) (c : Cmd) (s : State), (s.executing key 128 true = some c ∧ c.ordered = false ∧ c.won = false) ∧
      (∀ (x : Transition), s.pwr.trans = some x → x.idle = false)) ∧
    (∃ (key : CmdKey) (c : Cmd) (s : State), (s.executing key 132 true = some c ∧ c.ordered = false ∧ c.won = false) ∧
      (∀ (x : Transition), s.pwr.trans = some x → x.idle = false)) ∧
    (∃ (s : State) (op : OrderOp) (mgmt : Bool) (targets : List Target) (prec : Nat) (side : Side), (∀ (x :
      Transition), s.pwr.trans = some x → x.idle = false)) :=
  ⟨⟨adm, cmdOf adm (sqeOf 0x10) .executing, withCmd hs adm (sqeOf 0x10), by decide +kernel, forall_some (by
     decide +kernel)⟩,
   ⟨adm, cmdOf adm (sqeOf 0x0D) .executing, withCmd hs adm (sqeOf 0x0D), by decide +kernel, forall_some (by
     decide +kernel)⟩,
   ⟨adm, cmdOf adm (sqeOf 0x15) .executing, withCmd hs adm (sqeOf 0x15), by decide +kernel, forall_some (by
     decide +kernel)⟩,
   ⟨adm, cmdOf adm (sqeOf 0x80) .executing, withCmd hs adm (sqeOf 0x80), by decide +kernel, forall_some (by
     decide +kernel)⟩,
   ⟨adm, cmdOf adm (sqeOf 0x84) .executing, withCmd hs adm (sqeOf 0x84), by decide +kernel, forall_some (by
     decide +kernel)⟩,
   ⟨hs, .powerDown, true, [.mode], 3, .device, forall_some (by decide +kernel)⟩⟩

theorem witness_FormatSanitizeAndAbortEnd :
    (∃ (key : CmdKey) (c : Cmd) (s : State), (c.won = true ∧ Sparse.wf (fun x => Ctrl.reset) s.host.ctrls = true ∧
      Sparse.wf (fun x => none) s.host.nss = true ∧ s.executing key 128 true = some c) ∧ (∀ (fn : Nat), ¬key ∈ (s.ctrl
      fn).aers)) ∧
    (∃ (key : CmdKey) (c : Cmd) (s : State), (c.won = true ∧ Sparse.wf (fun x => Ctrl.reset) s.host.ctrls = true ∧
      Sparse.wf (fun x => none) s.host.nss = true ∧ s.executing key 132 true = some c ∧ c.sqe.dw10 % 8 ≠ 4) ∧ (∀ (fn :
      Nat), ¬key ∈ (s.ctrl fn).aers)) ∧
    (∃ (key : CmdKey) (c : Cmd) (s : State) (d : Cmd), s.executing key 8 true = some c ∧ List.countP (fun x => decide
      (x.key.fn = key.fn) && decide (x.key.sq = 0) && decide (x.sqe.opc = 8) && decide (x.seq < c.seq)) s.host.cmds <
      4 ∧ s.cmd? { fn := key.fn, sq := c.sqe.dw10 % 65536, cid := c.sqe.dw10 / 65536 } = some d ∧
      { fn := key.fn, sq := c.sqe.dw10 % 65536, cid := c.sqe.dw10 / 65536 } ≠ key ∧ (d.st = CmdSt.admitWait ∨ d.st =
      CmdSt.lockWait) ∧ d.sqe.opc ≠ 129 ∧ s.ctxsOf
      { fn := key.fn, sq := c.sqe.dw10 % 65536, cid := c.sqe.dw10 / 65536 } = []) ∧
    (∃ (key : CmdKey) (c : Cmd) (s : State) (d : Cmd), s.executing key 8 true = some c ∧ List.countP (fun x => decide
      (x.key.fn = key.fn) && decide (x.key.sq = 0) && decide (x.sqe.opc = 8) && decide (x.seq < c.seq)) s.host.cmds <
      4 ∧ s.cmd? { fn := key.fn, sq := c.sqe.dw10 % 65536, cid := c.sqe.dw10 / 65536 } = some d ∧ s.catchCmd d = none) ∧
    (∃ (key : CmdKey) (c : Cmd) (s : State), s.executing key 8 true = some c ∧ List.countP (fun x => decide (x.key.fn
      = key.fn) && decide (x.key.sq = 0) && decide (x.sqe.opc = 8) && decide (x.seq < c.seq)) s.host.cmds < 4 ∧ s.cmd?
      { fn := key.fn, sq := c.sqe.dw10 % 65536, cid := c.sqe.dw10 / 65536 } = none) ∧
    (∃ (key : CmdKey) (c : Cmd) (s : State), s.executing key 8 true = some c ∧ 4 ≤ List.countP (fun x => decide
      (x.key.fn = key.fn) && decide (x.key.sq = 0) && decide (x.sqe.opc = 8) && decide (x.seq < c.seq)) s.host.cmds) :=
  ⟨⟨adm, fmt 0x80, withCmds fs [fmt 0x80], by decide +kernel, no_aer (by decide +kernel)⟩,
   ⟨adm, fmt 0x84, withCmds fs [fmt 0x84], by decide +kernel, no_aer (by decide +kernel)⟩,
   ⟨adm, cmdOf adm (abt 1 1) .executing, withCmds hs abtC, abtC[1], by decide +kernel⟩,
   ⟨adm, cmdOf adm (abt 1 1) .executing, withCmds hs abtD, abtD[1], by decide +kernel⟩,
   ⟨adm, cmdOf adm (abt 1 9) .executing, withCmd hs adm (abt 1 9), by decide +kernel⟩,
   ⟨adm, abt5, withCmds hs (abt5 :: c5), by decide +kernel⟩⟩

theorem witness_AdminCommandsComplete :
    (∃ (s : State), Sparse.wf (fun x => Ctrl.reset) s.host.ctrls = true) ∧
    (∃ (key : CmdKey) (c : Cmd) (s : State), (s.executing key 193 true = some c ∧ c.ordered = false ∧ s.slt.job = none
      ∧ s.slateBusy = false ∧ bit c.sqe.dw11 0 = false ∧ ¬s.onF F.sltCtrlLock = true) ∧ (s.noErrors)) ∧
    (∃ (key : CmdKey) (c : Cmd) (u s : State), s.executing key 17 true = some c ∧ s.stageDownload (4 * c.sqe.dw11)
      (fit (4 * (c.sqe.dw10 + 1)) c.sqe.data) = some u) ∧
    (∃ (key : CmdKey) (c : Cmd) (s : State), s.executing key 20 true = some c ∧ c.sqe.dw10 % 16 ≠ 15 ∧
      ¬s.pwr.selfTest.isSome = true ∧ Sparse.wf (fun x => LongOp.reset) s.pwr.longOps = true) ∧
    (∃ (key : CmdKey) (c : Cmd) (e : Nat × Nat) (s : State), s.executing key 200 true = some c ∧ s.instSt (c.sqe.dw11
      % 512) ≠ 0 ∧ List.find? (fun e => decide (e.fst = c.sqe.dw10)) (s.registrations (c.sqe.dw11 % 512)) = some e) ∧
    (∃ (key : CmdKey) (c : Cmd) (x : SelfTest) (s : State), s.executing key 20 true = some c ∧ c.sqe.dw10 % 16 = 15 ∧
      s.pwr.selfTest = some x) ∧
    (∃ (key : CmdKey) (c : Cmd) (s : State), s.executing key 20 true = some c ∧ c.sqe.dw10 % 16 ≠ 15 ∧
      s.pwr.selfTest.isSome = true) ∧
    (∃ (key : CmdKey) (c : Cmd) (s : State), (s.executing key 193 true = some c ∧ c.ordered = false ∧ s.slt.job = none
      ∧ s.slateBusy = false ∧ bit c.sqe.dw11 0 = false ∧ s.onF F.sltCtrlLock = true) ∧ (s.noErrors)) ∧
    (∃ (key : CmdKey) (c : Cmd) (l : List Byte) (s : State), (s.executing key 2 true = some c ∧ bit c.sqe.dw10 15 =
      true ∧ (c.sqe.dw12 + 2 ^ 32 * c.sqe.dw13) % 4 = 0 ∧ c.sqe.dw12 + 2 ^ 32 * c.sqe.dw13 < l.length) ∧ (s.logPage
      key.fn c.sqe.nsid (c.sqe.dw10 % 256) = some l)) ∧
    (∃ (seg unit : Nat) (x : SelfTest) (s : State), s.pwr.selfTest = some x ∧ x.segment = seg ∧ s.selfTestMode
      x.extended = true ∧ seg < State.SelfTest.last x) ∧
    (∃ (key : CmdKey) (c : Cmd) (s : State), s.executing key 194 true = some c) ∧
    (∃ (key : CmdKey) (c : Cmd) (s : State), s.executing key 197 true = some c) ∧
    (∃ (key : CmdKey) (c : Cmd) (l : List Byte) (s : State), (s.executing key 6 true = some c) ∧ (s.identifyData
      key.fn c.sqe.nsid (c.sqe.dw10 % 256) (c.sqe.dw10 / 65536) (c.sqe.dw11 / 2 ^ 24) = Except.ok l)) :=
  ⟨⟨withCmd hs adm idf, by decide +kernel⟩,
   ⟨adm, cmdOf adm (sqeOf 0xC1) .executing, withCmd hs adm (sqeOf 0xC1), by decide +kernel, noErrors_of (by
     decide +kernel)⟩,
   ⟨adm, cmdOf adm fid .executing, (fidS.stageDownload 0 (fit 16 fid.data)).getD State.reset, fidS, by decide +kernel⟩,
   ⟨adm, cmdOf adm (dst 2) .executing, withCmd hs adm (dst 2), by decide +kernel⟩,
   ⟨adm, cmdOf adm dr .executing, ((drS.registrations 0).headD default), withCmd drS adm dr, by decide +kernel⟩,
   ⟨adm, cmdOf adm (dst 15) .executing, { extended := true, segment := 1, failed := none }, withCmd (stS true 1 none)
     adm (dst 15), by decide +kernel⟩,
   ⟨adm, cmdOf adm (dst 2) .executing, withCmd (stS true 1 none) adm (dst 2), by decide +kernel⟩,
   ⟨adm, cmdOf adm (sqeOf 0xC1) .executing, (withCmd hs adm (sqeOf 0xC1)).setF F.sltCtrlLock 1, by decide +kernel,
     noErrors_of (by decide +kernel)⟩,
   ⟨adm, cmdOf adm glp .executing, ((withCmd hs adm glp).logPage 0 1 3).get (by decide +kernel), withCmd hs adm glp,
     by decide +kernel, (Option.some_get _).symm⟩,
   ⟨1, 0, { extended := false, segment := 1, failed := none }, stS false 1 none, by decide +kernel⟩,
   ⟨adm, cmdOf adm (sqeOf 0xC2) .executing, withCmd hs adm (sqeOf 0xC2), by decide +kernel⟩,
   ⟨adm, cmdOf adm (sqeOf 0xC5) .executing, withCmd hs adm (sqeOf 0xC5), by decide +kernel⟩,
   ⟨adm, cmdOf adm idf .executing, resultOf ((withCmd hs adm idf).identifyData 0 0 1 0 0) [], withCmd hs adm idf, by
     decide +kernel, eq_resultOf (by decide +kernel)⟩⟩

end Admin

namespace Tenants

abbrev rec0 : InstRec := { ioqPairs := 2, queueEntries := 64, msixVectors := 2, lockLimit := 8, contextQuota := 16, taskQuota := 16, keyFirst := 0, keyCount := 4, dramBase := 20, dramSize := 1, scriptQuota := 2, takesAllowed := true, byteRate := 0, byteBurst := 1, cmdRate := 0, cmdBurst := 1 }
abbrev ten (st : Nat) (t : Tenant) : State :=
  let s := { ((act.setF (F.instStatusState 0) st).setF F.vinDramFreeFirstG 16).setF F.vinDramFreeLastG 100 with ten := [(0, t)] }
  { s with host := { s.host with vfEnable := true, numVfs := 1, ctrls := [(0, { Ctrl.reset with cc := 1, rdy := true }), (1, { Ctrl.reset with cc := 1, rdy := true })] } }
abbrev t0 : Tenant := { Tenant.reset with record := some rec0 }
abbrev q (o : Nat) : Sqe := { sqeOf o with dw11 := 5, dw12 := 1, dw13 := 6, dw14 := 1, data := recordBytes 0 rec0 }
abbrev vk : CmdKey := { fn := 1, sq := 1, cid := 3 }
abbrev od : Order := { op := .nvme adm, mgmt := false, targets := [.inst 0], prec := 3, side := .nvme, arrival := 0 }
abbrev win (s : State) : State := { s with fab := { s.fab with timecode := 2000000 }, pwr := { s.pwr with window := [od] } }

theorem witness_InstanceCommandsTakeEffect :
    (∃ (key : CmdKey) (c : Cmd) (s : State), s.regsWf ∧ Sparse.wf (fun x => Tenant.reset) s.ten = true ∧ s.cmd? key =
      some c ∧ c.st = CmdSt.executing ∧ c.sqe.opc = 208 ∧ s.instSt (c.sqe.dw10 % 512) ≤ 1 ∧ s.recordBad (c.sqe.dw10 %
      512) (fit 64 c.sqe.data) = none ∧ s.poolBad (c.sqe.dw10 % 512) (parseRecord (fit 64 c.sqe.data)) = none) ∧
    (∃ (key : CmdKey) (c : Cmd) (s : State), s.regsWf ∧ Sparse.wf (fun x => Tenant.reset) s.ten = true ∧ s.cmd? key =
      some c ∧ c.st = CmdSt.executing ∧ c.sqe.opc = 211 ∧ s.instSt (c.sqe.dw10 % 512) = 2) ∧
    (∃ (key : CmdKey) (c : Cmd) (s : State), (s.executing key 208 true = some c ∧ c.ordered = false) ∧ (∀ (x :
      Transition), s.pwr.trans = some x → x.idle = false)) ∧
    (∃ (key : CmdKey) (c : Cmd) (s : State), (s.executing key 209 true = some c ∧ c.ordered = false) ∧ (∀ (x :
      Transition), s.pwr.trans = some x → x.idle = false)) ∧
    (∃ (key : CmdKey) (c : Cmd) (s : State), (s.executing key 210 true = some c ∧ c.ordered = false) ∧ (∀ (x :
      Transition), s.pwr.trans = some x → x.idle = false)) ∧
    (∃ (key : CmdKey) (c : Cmd) (s : State), (s.executing key 211 true = some c ∧ c.ordered = false) ∧ (∀ (x :
      Transition), s.pwr.trans = some x → x.idle = false)) ∧
    (∃ (key : CmdKey) (c : Cmd) (s : State), (s.executing key 212 true = some c ∧ c.ordered = false) ∧ (∀ (x :
      Transition), s.pwr.trans = some x → x.idle = false)) ∧
    (∃ (key : CmdKey) (c : Cmd) (s : State), (s.executing key 213 true = some c ∧ c.ordered = false) ∧ (∀ (x :
      Transition), s.pwr.trans = some x → x.idle = false)) ∧
    (∃ (key : CmdKey) (c : Cmd) (s : State), (s.executing key 214 true = some c ∧ c.ordered = false) ∧ (∀ (x :
      Transition), s.pwr.trans = some x → x.idle = false)) ∧
    (∃ (key : CmdKey) (c : Cmd) (s : State), (s.executing key 215 true = some c ∧ c.ordered = false) ∧ (∀ (x :
      Transition), s.pwr.trans = some x → x.idle = false)) ∧
    (∃ (key : CmdKey) (c : Cmd) (s : State), s.regsWf ∧ Sparse.wf (fun x => Tenant.reset) s.ten = true ∧ s.cmd? key =
      some c ∧ c.st = CmdSt.executing ∧ c.sqe.opc = 208 ∧ 1 < s.instSt (c.sqe.dw10 % 512)) ∧
    (∃ (key : CmdKey) (c : Cmd) (s : State), s.regsWf ∧ Sparse.wf (fun x => Tenant.reset) s.ten = true ∧ s.cmd? key =
      some c ∧ c.st = CmdSt.executing ∧ c.sqe.opc = 209) ∧
    (∃ (key : CmdKey) (c : Cmd) (s : State), s.regsWf ∧ Sparse.wf (fun x => Tenant.reset) s.ten = true ∧ s.cmd? key =
      some c ∧ c.st = CmdSt.executing ∧ c.sqe.opc = 210 ∧ (s.instSt (c.sqe.dw10 % 512) = 1 ∧ s.vfExists (c.sqe.dw10 %
      512) = true)) ∧
    (∃ (key : CmdKey) (c : Cmd) (s : State), s.regsWf ∧ Sparse.wf (fun x => Tenant.reset) s.ten = true ∧ s.cmd? key =
      some c ∧ c.st = CmdSt.executing ∧ c.sqe.opc = 210 ∧ (¬(s.instSt (c.sqe.dw10 % 512) = 1 ∧ s.vfExists (c.sqe.dw10
      % 512) = true))) ∧
    (∃ (key : CmdKey) (c : Cmd) (s : State), s.regsWf ∧ Sparse.wf (fun x => Tenant.reset) s.ten = true ∧ s.cmd? key =
      some c ∧ c.st = CmdSt.executing ∧ c.sqe.opc = 211 ∧ s.instSt (c.sqe.dw10 % 512) = 0) ∧
    (∃ (key : CmdKey) (c : Cmd) (s : State), s.regsWf ∧ Sparse.wf (fun x => Tenant.reset) s.ten = true ∧ s.cmd? key =
      some c ∧ c.st = CmdSt.executing ∧ c.sqe.opc = 211 ∧ s.instSt (c.sqe.dw10 % 512) = 1) ∧
    (∃ (key : CmdKey) (c : Cmd) (s : State), s.regsWf ∧ Sparse.wf (fun x => Tenant.reset) s.ten = true ∧ s.cmd? key =
      some c ∧ c.st = CmdSt.executing ∧ c.sqe.opc = 212 ∧ s.instSt (c.sqe.dw10 % 512) < 3) ∧
    (∃ (key : CmdKey) (c : Cmd) (s : State), s.regsWf ∧ Sparse.wf (fun x => Tenant.reset) s.ten = true ∧ s.cmd? key =
      some c ∧ c.st = CmdSt.executing ∧ c.sqe.opc = 213 ∧ s.instSt (c.sqe.dw10 % 512) ≠ 0 ∧ firstFail (rateTests
      c.sqe.dw11 c.sqe.dw12 c.sqe.dw13 c.sqe.dw14) = none) ∧
    (∃ (key : CmdKey) (c : Cmd) (s : State), s.regsWf ∧ Sparse.wf (fun x => Tenant.reset) s.ten = true ∧ s.cmd? key =
      some c ∧ c.st = CmdSt.executing ∧ c.sqe.opc = 214 ∧ s.instSt (c.sqe.dw10 % 512) = 3) ∧
    (∃ (key : CmdKey) (c : Cmd) (s : State), s.regsWf ∧ Sparse.wf (fun x => Tenant.reset) s.ten = true ∧ s.cmd? key =
      some c ∧ c.st = CmdSt.executing ∧ c.sqe.opc = 214 ∧ ¬s.instSt (c.sqe.dw10 % 512) = 3) ∧
    (∃ (key : CmdKey) (c : Cmd) (s : State), s.regsWf ∧ Sparse.wf (fun x => Tenant.reset) s.ten = true ∧ s.cmd? key =
      some c ∧ c.st = CmdSt.executing ∧ c.sqe.opc = 215 ∧ ¬s.instSt (c.sqe.dw10 % 512) = 5) ∧
    (∃ (s : State) (o : Order), s.pwr.window = [o] ∧ s.windowOf o.arrival < s.windowOf s.tick) ∧
    (∃ (key : CmdKey) (c : Cmd) (s : State), s.regsWf ∧ Sparse.wf (fun x => Tenant.reset) s.ten = true ∧ s.cmd? key =
      some c ∧ c.st = CmdSt.executing ∧ c.sqe.opc = 215 ∧ s.instSt (c.sqe.dw10 % 512) = 5) :=
  ⟨⟨adm, cmdOf adm (q 0xD0) .executing, { withCmd (ten 0 t0) adm (q 0xD0) with ten := [] }, by decide +kernel⟩,
   ⟨adm, cmdOf adm (q 0xD3) .executing, withCmd (ten 2 t0) adm (q 0xD3), by decide +kernel⟩,
   ⟨adm, cmdOf adm (q 0xD0) .executing, withCmd (ten 0 t0) adm (q 0xD0), by decide +kernel, forall_some (by
     decide +kernel)⟩,
   ⟨adm, cmdOf adm (q 0xD1) .executing, withCmd (ten 0 t0) adm (q 0xD1), by decide +kernel, forall_some (by
     decide +kernel)⟩,
   ⟨adm, cmdOf adm (q 0xD2) .executing, withCmd (ten 0 t0) adm (q 0xD2), by decide +kernel, forall_some (by
     decide +kernel)⟩,
   ⟨adm, cmdOf adm (q 0xD3) .executing, withCmd (ten 0 t0) adm (q 0xD3), by decide +kernel, forall_some (by
     decide +kernel)⟩,
   ⟨adm, cmdOf adm (q 0xD4) .executing, withCmd (ten 0 t0) adm (q 0xD4), by decide +kernel, forall_some (by
     decide +kernel)⟩,
   ⟨adm, cmdOf adm (q 0xD5) .executing, withCmd (ten 0 t0) adm (q 0xD5), by decide +kernel, forall_some (by
     decide +kernel)⟩,
   ⟨adm, cmdOf adm (q 0xD6) .executing, withCmd (ten 0 t0) adm (q 0xD6), by decide +kernel, forall_some (by
     decide +kernel)⟩,
   ⟨adm, cmdOf adm (q 0xD7) .executing, withCmd (ten 0 t0) adm (q 0xD7), by decide +kernel, forall_some (by
     decide +kernel)⟩,
   ⟨adm, cmdOf adm (q 0xD0) .executing, withCmd (ten 2 t0) adm (q 0xD0), by decide +kernel⟩,
   ⟨adm, cmdOf adm (q 0xD1) .executing, withCmd (ten 6 t0) adm (q 0xD1), by decide +kernel⟩,
   ⟨adm, cmdOf adm (q 0xD2) .executing, withCmd (ten 1 t0) adm (q 0xD2), by decide +kernel⟩,
   ⟨adm, cmdOf adm (q 0xD2) .executing, withCmd (ten 3 t0) adm (q 0xD2), by decide +kernel⟩,
   ⟨adm, cmdOf adm (q 0xD3) .executing, { withCmd (ten 0 t0) adm (q 0xD3) with ten := [] }, by decide +kernel⟩,
   ⟨adm, cmdOf adm (q 0xD3) .executing, withCmd (ten 1 t0) adm (q 0xD3), by decide +kernel⟩,
   ⟨adm, cmdOf adm (q 0xD4) .executing, withCmd (ten 2 t0) adm (q 0xD4), by decide +kernel⟩,
   ⟨adm, cmdOf adm (q 0xD5) .executing, withCmd (ten 6 t0) adm (q 0xD5), by decide +kernel⟩,
   ⟨adm, cmdOf adm (q 0xD6) .executing, withCmd (ten 3 t0) adm (q 0xD6), by decide +kernel⟩,
   ⟨adm, cmdOf adm (q 0xD6) .executing, withCmd (ten 5 t0) adm (q 0xD6), by decide +kernel⟩,
   ⟨adm, cmdOf adm (q 0xD7) .executing, withCmd (ten 4 t0) adm (q 0xD7), by decide +kernel⟩,
   ⟨win (withCmd (ten 1 t0) adm (q 0xD2)), od, by decide +kernel⟩,
   ⟨adm, cmdOf adm (q 0xD7) .executing, withCmd (ten 5 t0) adm (q 0xD7), by decide +kernel⟩⟩

theorem witness_ResetsAndTenancyEventsComplete :
    (∃ (n : Nat) (s : State), n < 512 ∧ s.regsWf ∧ Sparse.wf (fun x => Ctrl.reset) s.host.ctrls = true ∧ Sparse.wf
      (fun x => Tenant.reset) s.ten = true ∧ s.vfExists n = true ∧ s.instEnabled n = true ∧ bit (s.ctrl (n + 1)).cc 0
      = true) ∧
    (∃ (s : State), Sparse.wf (fun x => Ctrl.reset) s.host.ctrls = true) ∧
    (∃ (n gen : Nat) (s : State), n < 512 ∧ s.regsWf ∧ Sparse.wf (fun x => Tenant.reset) s.ten = true ∧ gen ∈
      (s.tenant n).staleOps) ∧
    (∃ (fn cc : Nat) (s : State), Sparse.wf (fun x => Ctrl.reset) s.host.ctrls = true ∧ s.hostUp = true ∧ (s.ctrl
      fn).rdy = false ∧ (fn ≠ 0 → s.vfExists (fn - 1) = true) ∧ (fn = 0 ∨ s.instEnabled (fn - 1) = true)) ∧
    (∃ (n t0 : Nat) (s : State), Sparse.wf (fun x => Tenant.reset) s.ten = true ∧ (s.tenant n).staleSince = some t0 ∧
      t0 + 64000000 ≤ s.fab.timecode) ∧
    (∃ (n : Nat) (s : State), n < 512 ∧ s.regsWf ∧ s.instSt n = 6 ∧ s.resetEnds n = true ∧ (s.tenant n).eraseDue =
      false) ∧
    (∃ (num : Nat) (s : State), num ≤ Config.totalVfs ∧ (s.host.vfEnable = true → s.host.numVfs ≤ num)) ∧
    (∃ (s : State), s.regsWf ∧ s.fab.logicKeeps = true ∧ s.fab.tickMark < s.now / 1000) ∧
    (∃ (n : Nat) (s : State), n < 512 ∧ s.regsWf ∧ s.instSt n = 2 ∧ ((s.tenant n).fillAtStart = true → s.pwr.pathOpen
      = true)) ∧
    (∃ (s : State), s.upd.dirty = true ∧ s.logicOn = true) ∧
    (∃ (fn cc : Nat) (s : State), Sparse.wf (fun x => Ctrl.reset) s.host.ctrls = true ∧ s.hostUp = true ∧ (s.ctrl
      fn).rdy = false ∧ (fn ≠ 0 → s.vfExists (fn - 1) = true) ∧ (¬(fn = 0 ∨ s.instEnabled (fn - 1) = true))) ∧
    (∃ (num : Nat) (s : State), num < s.host.numVfs) ∧
    (∃ (n : Nat) (s : State), n < 512 ∧ s.regsWf ∧ s.instSt n = 4 ∧ (∀ (c : Cmd), c ∈ s.host.cmds → c.key.fn = n + 1 →
      c.key ∈ (s.ctrl (n + 1)).aers) ∧ (s.tenant n).commits = 0) :=
  ⟨⟨0, withCmd (ten 3 t0) vk (sqeOf 2), by decide +kernel⟩,
   ⟨withCmd (ten 3 t0) adm (sqeOf 2), by decide +kernel⟩,
   ⟨0, 7, ten 3 { t0 with staleOps := [6, 7, 7] }, by decide +kernel⟩,
   ⟨0, 0x460001, { ten 3 t0 with host := { (ten 3 t0).host with ctrls := [] } }, by decide +kernel⟩,
   ⟨0, 0,
     { ten 3 { t0 with staleSince := some 0, staleCount := 4 } with fab := { Fabric.reset with timecode := 64000000 } },
     by decide +kernel⟩,
   ⟨0, ten 6 t0, by decide +kernel⟩,
   ⟨512, ten 3 t0, by decide +kernel⟩,
   ⟨{ ten 3 t0 with fab := { Fabric.reset with logicKeeps := true, timecode := 64 * 5000, tickMark := 2 } }, by
     decide +kernel⟩,
   ⟨0, { ten 2 t0 with mem := { Mem.reset with dram := [(20 * 2 ^ 26, 5)] } }, by decide +kernel⟩,
   ⟨{ ten 4 t0 with upd := { Upd.reset with dirty := true } }, by decide +kernel⟩,
   ⟨1, 0x460001, { ten 1 t0 with host := { (ten 3 t0).host with ctrls := [] } }, by decide +kernel⟩,
   ⟨0, ten 3 t0, by decide +kernel⟩,
   ⟨0, ten 4 t0, by decide +kernel⟩⟩

end Tenants

namespace BlockIo

abbrev hst (s : State) : State := { s with host := { s.host with ctrls := [(0, { Ctrl.reset with cc := 1, rdy := true })] } }
abbrev hs : State := withNs (hst act) (nsOf .flash)
abbrev hz : State := { withNs (hst act) { nsOf .zoned with zones := [(0, 3)], size := 65536 } with dch := { act.dch with zones := [zone0], bands := [(3, { Band.reset with st := .empty, capacity := 65536 })] } }
abbrev ky (n : Nat) : CmdKey := { io with cid := n }
abbrev fl : Cmd := { cmdOf io (sqeOf 0) .executing with seq := 5 }
abbrev wrq : Sqe := { sqeOf 1 with dw10 := 3, data := List.replicate 16 7 }
abbrev zap : Sqe := { sqeOf 0x7D with data := List.replicate 16 7 }
abbrev cs : State := cellsFor hs 1008
abbrev wbe : WbEntry := { nsid := 1, unit := 3, data := [], lo := 0, hi := 4096, key := io, gen := 0, order := 0, complete := false, age := 0, flushing := false, mapped := none, slot := none }
abbrev wf : State := { hs with ftl := { hs.ftl with wb := [wbe] } }
abbrev wf2 : State := { hs with ftl := { hs.ftl with wb := [{ wbe with key := ky 5, complete := true }] } }
abbrev rd : Sqe := { sqeOf 2 with dw10 := 3 }
abbrev vf : Sqe := { sqeOf 0x0C with dw10 := 3 }
abbrev wz : Sqe := { sqeOf 8 with dw10 := 3 }
abbrev dsm : Sqe := { sqeOf 9 with dw11 := 4, data := leBytes 4 0 ++ leBytes 4 8 ++ leBytes 8 16 }
abbrev zm (a : Nat) : Sqe := { sqeOf 0x79 with dw13 := a }
abbrev zr (a : Nat) : Sqe := { sqeOf 0x7A with dw13 := a, dw12 := 63 }
abbrev pdz : State := { (((hz.setF F.cntStatusRole 1).setF F.cntStatusPairState 5).setF F.cntCtrlLinkEn 1).setF F.cntCfgPolicy 1 with cnt := { hz.cnt with role := 1 } }

theorem witness_WritesEnterTheBufferAndComplete :
    (∃ (key : CmdKey) (c : Cmd) (s : State) (e : FetchEnd), (s.writeStarted c = false ∧ s.executing key 1 false = some
      c ∧ ((s.keyDenied c.sqe.nsid).or (s.pairDenied.or ((s.zoneDenied c.sqe).or (s.promoteDenied c.sqe.nsid
      (s.writeLba c.sqe) c.sqe.blocks))) = none ∧ s.writeRoom c.sqe.nsid (s.writeLba c.sqe) c.sqe.blocks = true) ∧ e ≠
      FetchEnd.ok) ∧ (s.noErrors)) ∧
    (∃ (key : CmdKey) (c : Cmd) (s : State) (e : FetchEnd), (s.writeStarted c = false ∧ s.executing key 125 false =
      some c ∧ ((s.keyDenied c.sqe.nsid).or (s.pairDenied.or ((s.zoneDenied c.sqe).or (s.promoteDenied c.sqe.nsid
      (s.writeLba c.sqe) c.sqe.blocks))) = none ∧ s.writeRoom c.sqe.nsid (s.writeLba c.sqe) c.sqe.blocks = true) ∧ e ≠
      FetchEnd.ok) ∧ (s.noErrors)) ∧
    (∃ (key : CmdKey) (c : Cmd) (s : State) (n : Namespace), (s.writeStarted c = false ∧ s.executing key 1 false =
      some c ∧ ((s.keyDenied c.sqe.nsid).or (s.pairDenied.or ((s.zoneDenied c.sqe).or (s.promoteDenied c.sqe.nsid
      (s.writeLba c.sqe) c.sqe.blocks))) = none ∧ s.writeRoom c.sqe.nsid (s.writeLba c.sqe) c.sqe.blocks = true) ∧
      s.ns c.sqe.nsid = some n ∧ 0 < n.block ∧ n.block ≤ 4096) ∧ (s.noErrors) ∧ (s.canDraw (s.writeNeeds c) = true)) ∧
    (∃ (key : CmdKey) (c : Cmd) (s : State) (n : Namespace), (s.writeStarted c = false ∧ s.executing key 125 false =
      some c ∧ ((s.keyDenied c.sqe.nsid).or (s.pairDenied.or ((s.zoneDenied c.sqe).or (s.promoteDenied c.sqe.nsid
      (s.writeLba c.sqe) c.sqe.blocks))) = none ∧ s.writeRoom c.sqe.nsid (s.writeLba c.sqe) c.sqe.blocks = true) ∧
      s.ns c.sqe.nsid = some n ∧ 0 < n.block ∧ n.block ≤ 4096) ∧ (s.noErrors) ∧ (s.canDraw (s.writeNeeds c) = true)) ∧
    (∃ (key : CmdKey) (c : Cmd) (s : State), ((s.executing key 1 false = some c ∨ s.executing key 1 false = none ∧
      s.executing key 125 false = some c) ∧ (∃ e, e ∈ s.ftl.wb ∧ e.key = key ∧ e.complete = false) ∧ s.role =
      roleNone) ∧ (∀ (fn : Nat), ¬key ∈ (s.ctrl fn).aers)) ∧
    (∃ (key : CmdKey) (c : Cmd) (s : State) (st : Status) (e : FetchEnd), (s.writeStarted c = false ∧ s.executing key
      1 false = some c ∧ (s.keyDenied c.sqe.nsid).or (s.pairDenied.or ((s.zoneDenied c.sqe).or (s.promoteDenied
      c.sqe.nsid (s.writeLba c.sqe) c.sqe.blocks))) = some st) ∧ (s.noErrors)) ∧
    (∃ (key : CmdKey) (c : Cmd) (s : State) (st : Status) (e : FetchEnd), (s.writeStarted c = false ∧ s.executing key
      125 false = some c ∧ (s.keyDenied c.sqe.nsid).or (s.pairDenied.or ((s.zoneDenied c.sqe).or (s.promoteDenied
      c.sqe.nsid (s.writeLba c.sqe) c.sqe.blocks))) = some st) ∧ (s.noErrors)) ∧
    (∃ (key : CmdKey) (c : Cmd) (s : State), s.executing key 0 false = some c ∧ (¬∃ x, x ∈ s.host.cmds ∧ x.key.fn =
      key.fn ∧ x.key.sq = key.sq ∧ x.seq < c.seq ∧ x.st ≠ CmdSt.completing ∧ (c.sqe.nsid = 4294967295 ∨ x.sqe.nsid =
      c.sqe.nsid) ∧ (x.sqe.opc = 1 ∨ x.sqe.opc = 8 ∨ x.sqe.opc = 125))) ∧
    (∃ (key : CmdKey) (c : Cmd) (s : State), s.executing key 0 false = some c ∧ (∃ x, x ∈ s.host.cmds ∧ x.key.fn =
      key.fn ∧ x.key.sq = key.sq ∧ x.seq < c.seq ∧ x.st ≠ CmdSt.completing ∧ (c.sqe.nsid = 4294967295 ∨ x.sqe.nsid =
      c.sqe.nsid) ∧ (x.sqe.opc = 1 ∨ x.sqe.opc = 8 ∨ x.sqe.opc = 125))) :=
  ⟨⟨io, cmdOf io wrq .executing, withCmd hs io wrq, .poisoned, by decide +kernel, noErrors_of (by decide +kernel)⟩,
   ⟨io, cmdOf io zap .executing, withCmd hs io zap, .poisoned, by decide +kernel, noErrors_of (by decide +kernel)⟩,
   ⟨io, cmdOf io wrq .executing, withCmd cs io wrq, nsOf .flash, by decide +kernel, noErrors_of (by decide +kernel),
     draw_append (by decide +kernel) (draw_dram (by decide +kernel))⟩,
   ⟨io, cmdOf io zap .executing, withCmd cs io zap, nsOf .flash, by decide +kernel, noErrors_of (by decide +kernel),
     draw_append (by decide +kernel) (draw_dram (by decide +kernel))⟩,
   ⟨io, cmdOf io wrq .executing, withCmd wf io wrq, by decide +kernel, no_aer (by decide +kernel)⟩,
   ⟨io, cmdOf io wrq .executing, { withCmd hs io wrq with sec := Sec.reset }, (7, 0xCE, 0), .ok, by decide +kernel,
     noErrors_of (by decide +kernel)⟩,
   ⟨io, cmdOf io zap .executing, { withCmd hs io zap with sec := Sec.reset }, (7, 0xCE, 0), .ok, by decide +kernel,
     noErrors_of (by decide +kernel)⟩,
   ⟨io, cmdOf io (sqeOf 0) .executing, withCmd hs io (sqeOf 0), by decide +kernel⟩,
   ⟨io, fl, withCmds hs [fl, cmdOf (ky 2) (sqeOf 1) .executing], by decide +kernel⟩⟩

theorem witness_ReadsAndDeallocations :
    (∃ (key : CmdKey) (c : Cmd) (s : State), (s.readWaits c = false ∧ s.executing key 2 false = some c ∧ s.readDenied
      c = false) ∧ (s.noErrors) ∧ (s.canDraw (s.readNeeds c) = true)) ∧
    (∃ (key : CmdKey) (c : Cmd) (s : State), s.executing key 9 false = some c ∧ c.sqe.deallocates = true ∧
      s.pairDenied = none) ∧
    (∃ (key : CmdKey) (c : Cmd) (s : State), (s.executing key 8 false = some c ∧ (∀ (e : WbEntry), e ∈ s.ftl.wb →
      e.key ≠ key) ∧ (s.keyDenied c.sqe.nsid).or (s.pairDenied.or (s.promoteDenied c.sqe.nsid c.sqe.lba c.sqe.blocks))
      = none ∧ s.wbRoom 2 = true) ∧ (s.noErrors) ∧ (∀ (fn : Nat), ¬key ∈ (s.ctrl fn).aers)) ∧
    (∃ (key : CmdKey) (c : Cmd) (s : State) (ok : Bool), (s.readWaits c = false ∧ s.executing key 2 false = some c ∧
      s.readDenied c = true) ∧ (s.noErrors)) ∧
    (∃ (key : CmdKey) (c : Cmd) (s : State), (s.readWaits c = false ∧ s.executing key 12 false = some c ∧ s.readDenied
      c = false) ∧ (s.noErrors)) ∧
    (∃ (key : CmdKey) (c : Cmd) (s : State), (s.readWaits c = false ∧ s.executing key 12 false = some c ∧ s.readDenied
      c = true) ∧ (s.noErrors)) ∧
    (∃ (key : CmdKey) (c : Cmd) (s : State) (ok : Bool), (s.readWaits c = false ∧ s.executing key 2 false = some c ∧
      s.readDenied c = false) ∧ (s.noErrors) ∧ (s.canDraw (s.readNeeds c) = false)) ∧
    (∃ (key : CmdKey) (c : Cmd) (s : State), (s.executing key 8 false = some c ∧ (∀ (e : WbEntry), e ∈ s.ftl.wb →
      e.key ≠ key) ∧ (s.keyDenied c.sqe.nsid).or (s.pairDenied.or (s.promoteDenied c.sqe.nsid c.sqe.lba c.sqe.blocks))
      = none ∧ ¬s.wbRoom 2 = true) ∧ (s.noErrors) ∧ (∀ (fn : Nat), ¬key ∈ (s.ctrl fn).aers)) ∧
    (∃ (key : CmdKey) (c : Cmd) (s : State), s.executing key 9 false = some c ∧ c.sqe.deallocates = false) :=
  ⟨⟨io, cmdOf io rd .executing, withCmd cs io rd, by decide +kernel, noErrors_of (by decide +kernel), draw_append
     (draw_append (draw_append (draw_dram (by decide +kernel)) (draw_dram (by decide +kernel))) (by decide +kernel))
     (by decide +kernel)⟩,
   ⟨io, cmdOf io dsm .executing, withCmd hs io dsm, by decide +kernel⟩,
   ⟨io, cmdOf io wz .executing, withCmd wf2 io wz, by decide +kernel, noErrors_of (by decide +kernel), no_aer (by
     decide +kernel)⟩,
   ⟨io, cmdOf io rd .executing, { withCmd wf2 io rd with sec := Sec.reset }, true, by decide +kernel, noErrors_of (by
     decide +kernel)⟩,
   ⟨io, cmdOf io vf .executing, withCmd hs io vf, by decide +kernel, noErrors_of (by decide +kernel)⟩,
   ⟨io, cmdOf io vf .executing, { withCmd wf2 io vf with sec := Sec.reset }, by decide +kernel, noErrors_of (by
     decide +kernel)⟩,
   ⟨io, cmdOf io rd .executing, withCmd wf io rd, true, by decide +kernel, noErrors_of (by decide +kernel),
     draw_append_right (by decide +kernel)⟩,
   ⟨io, cmdOf io wz .executing, withCmd (hs.setF F.ftlWbEff 0) io wz, by decide +kernel, noErrors_of (by
     decide +kernel), no_aer (by decide +kernel)⟩,
   ⟨io, cmdOf io (sqeOf 9) .executing, withCmd hs io (sqeOf 9), by decide +kernel⟩⟩

theorem witness_ZoneManagement :
    (∃ (key : CmdKey) (c : Cmd) (s : State), (s.executing key 121 false = some c ∧ bit c.sqe.dw13 8 = false ∧
      s.pairDenied = none) ∧ (∀ (fn : Nat), ¬key ∈ (s.ctrl fn).aers)) ∧
    (∃ (key : CmdKey) (c : Cmd) (s : State) (st : Status), (s.executing key 121 false = some c ∧ s.pairDenied = some
      st) ∧ (∀ (fn : Nat), ¬key ∈ (s.ctrl fn).aers)) ∧
    (∃ (key : CmdKey) (c : Cmd) (s : State), (s.executing key 121 false = some c ∧ bit c.sqe.dw13 8 = true ∧
      s.pairDenied = none) ∧ (∀ (fn : Nat), ¬key ∈ (s.ctrl fn).aers)) ∧
    (∃ (key : CmdKey) (c : Cmd) (s : State), s.executing key 122 false = some c) ∧
    (∃ (fn : Nat) (q : Sqe) (n : Namespace) (s : State), s.roleClosed = false ∧ (q.opc = 121 ∨ q.opc = 122) ∧ s.ns
      q.nsid = some n ∧ n.type = NsType.zoned ∧ q.zoneFieldsOk = false) :=
  ⟨⟨io, cmdOf io (zm 0) .executing, withCmd hz io (zm 0), by decide +kernel, no_aer (by decide +kernel)⟩,
   ⟨io, cmdOf io (zm 3) .executing, withCmd pdz io (zm 3), (7, 0xCD, 0), by decide +kernel, no_aer (by
     decide +kernel)⟩,
   ⟨io, cmdOf io (zm 259) .executing, withCmd hz io (zm 259), by decide +kernel, no_aer (by decide +kernel)⟩,
   ⟨io, cmdOf io (zr 0) .executing, withCmd hz io (zr 0), by decide +kernel⟩,
   ⟨0, zm 0x200, { nsOf .zoned with zones := [(0, 3)], size := 65536 }, hz, by decide +kernel⟩⟩

end BlockIo

namespace TakeRuns

theorem witness_TakesAreSubmittedAndPlaced :
    (∃ (h : Nat) (x : Ctx) (s : State), (Sparse.wf (fun x => none) s.tsk.ctxs = true ∧ s.ctx h = some x ∧ x.st =
      TakeSt.preparing ∧ x.waiting = none ∧ s.takeKeyGone x.desc = false ∧ ((x.desc.nsRanges.any fun x => x.fst) &&
      s.mirrorRequired) = false ∧ List.filter (fun c => bit x.desc.clusters c && s.clusterRuns c) (List.range 4) = [])
      ∧ (s.canDraw (s.dramNeeds x.tenant (Config.bufferPlace 6) ((Option.map Script.consts (sparseGet (fun x => none)
      s.tsk.images x.script)).getD []).length false) = true)) ∧
    (∃ (key : CmdKey) (c : Cmd) (s : State), s.cmd? key = some c ∧ c.st = CmdSt.fetched ∧ c.fetching = false ∧
      c.sqe.opc = 129 ∧ key.sq ≠ 0) ∧
    (∃ (key : CmdKey) (c : Cmd) (s : State), s.cmd? key = some c ∧ c.st = CmdSt.fetched ∧ c.fetching = true) ∧
    (∃ (key : CmdKey) (c : Cmd) (s : State), s.cmd? key = some c ∧ c.st = CmdSt.fetched ∧ c.fetching = true ∧
      s.canDraw (State.need colHdr (fnTraffic key.fn) c.sqe.dw10 256) = true) ∧
    (∃ (key : CmdKey) (c : Cmd) (s : State), s.cmd? key = some c ∧ c.st = CmdSt.fetched ∧ c.fetching = true ∧
      s.canDraw (State.need colHdr (fnTraffic key.fn) c.sqe.dw10 256) = false) ∧
    (∃ (h : Nat) (x : Ctx) (s : State), (Sparse.wf (fun x => none) s.tsk.ctxs = true ∧ s.ctx h = some x ∧ x.st =
      TakeSt.preparing ∧ x.waiting = none ∧ s.takeKeyGone x.desc = false ∧ ((x.desc.nsRanges.any fun x => x.fst) &&
      s.mirrorRequired) = false ∧ List.filter (fun c => bit x.desc.clusters c && s.clusterRuns c) (List.range 4) ≠ []
      ∧ (∀ (c : Nat), c ∈ List.filter (fun c => bit x.desc.clusters c && s.clusterRuns c) (List.range 4) → s.sharedRun
      c (x.desc.shared / 65536) = none)) ∧ (s.canDraw (s.dramNeeds x.tenant (Config.bufferPlace 6) ((Option.map
      Script.consts (sparseGet (fun x => none) s.tsk.images x.script)).getD []).length false) = true)) :=
  ⟨⟨5, xn, txs xn u0, by decide +kernel, draw_dram (by decide +kernel)⟩,
   ⟨vk, cmdOf vk ts .fetched, withCmds tb [cmdOf vk ts .fetched], by decide +kernel⟩,
   ⟨vk, fe, withCmds tb [fe], by decide +kernel⟩,
   ⟨vk, fe, cellsFor (withCmds tb [fe]) 0, by decide +kernel⟩,
   ⟨vk, fe, withCmds tb [fe], by decide +kernel⟩,
   ⟨5, xg, txs xg u0, by decide +kernel, draw_dram (by decide +kernel)⟩⟩

theorem witness_TaskScheduling :
    (∃ (cluster n i p : Nat) (u : TaskEntry) (x : Ctx) (s : State), (cluster < 4 ∧ s.pickTask cluster n = some i ∧
      s.pickEngine cluster n = some p ∧ s.task i = some u ∧ s.ctx u.ctx = some x ∧ s.canDraw
      [{ col := colEngine cluster, owner := n, count := 1 }] = true ∧ Sparse.wf (fun x => none) s.tsk.ctxs = true ∧
      Sparse.wf (fun x => none) s.tsk.tasks = true ∧ Sparse.wf (fun x => Proc.reset) s.eng.procs = true) ∧
      (s.noErrors)) ∧
    (∃ (p r i : Nat) (c : Ctx) (u : TaskEntry) (s : State), isEngine p = true ∧ (s.proc p).running = true ∧ (s.proc
      p).stall = some (Stall.tend r) ∧ (s.proc p).anyBusy = false ∧ Sparse.wf (fun x => none) s.tsk.ctxs = true ∧
      Sparse.wf (fun x => none) s.tsk.tasks = true ∧ Sparse.wf (fun x => Proc.reset) s.eng.procs = true ∧ s.ctx
      (s.proc p).ctx = some c ∧ c.st = TakeSt.running ∧ c.tasks[(s.proc p).task]? = some i ∧ s.task i = some u ∧ bit r
      31 = false) ∧
    (∃ (cluster prio i : Nat) (u : TaskEntry) (s : State), (s.readyList cluster prio).length < 8192 ∧ List.find? (fun
      j => decide (s.taskPrio j = prio)) (s.chainList cluster) = some i ∧ s.task i = some u ∧ Sparse.wf (fun x =>
      none) s.tsk.tasks = true) ∧
    (∃ (p r i : Nat) (c : Ctx) (u : TaskEntry) (s : State), isEngine p = true ∧ (s.proc p).running = true ∧ (s.proc
      p).stall = some (Stall.tend r) ∧ (s.proc p).anyBusy = false ∧ Sparse.wf (fun x => none) s.tsk.ctxs = true ∧
      Sparse.wf (fun x => none) s.tsk.tasks = true ∧ Sparse.wf (fun x => Proc.reset) s.eng.procs = true ∧ s.ctx
      (s.proc p).ctx = some c ∧ c.st = TakeSt.running ∧ c.tasks[(s.proc p).task]? = some i ∧ s.task i = some u ∧ bit r
      31 = true) ∧
    (∃ (s : State) (c i : Nat) (u : TaskEntry), c < 4 ∧ Sparse.wf (fun x => none) s.tsk.tasks = true ∧ s.delayList c =
      [i] ∧ (∀ (d : Nat), d < 4 → d ≠ c → s.delayList d = []) ∧ s.task i = some u ∧ s.wakeIn u.wake ≤ 0) :=
  ⟨⟨0, 0, 0, ((cellsFor rdS 0).pickEngine 0 0).getD 0, u1, cx .running, cellsFor rdS 0, by decide +kernel, noErrors_of
     (by decide +kernel)⟩,
   ⟨4, 3, 0, cx .running, { u1 with st := .running }, enS 3, by decide +kernel⟩,
   ⟨0, 0, 0, { u1 with st := .overflow }, ovS, by decide +kernel⟩,
   ⟨4, 2^31, 0, cx .running, { u1 with st := .running }, enS (2^31), by decide +kernel⟩,
   ⟨dlS, 0, 0, { u1 with st := .delayed, wake := 0 }, by decide +kernel⟩⟩

theorem witness_TakeDataAndEndings :
    (∃ (h : Nat) (x : Ctx) (l : List (List Byte)) (s : State), Sparse.wf (fun x => none) s.tsk.ctxs = true ∧ s.ctx h =
      some x ∧ x.st = TakeSt.committing ∧ x.outData = some l ∧ State.outputAt (x.desc.outs.zip l) x.outCharged = none
      ∧ s.role = roleNone ∧ x.silent = false ∧ (s.canDraw (if (decide (x.desc.report = 0) || x.noHost) = true then []
      else State.need colHdw x.tenant 128 256) = true)) ∧
    (∃ (h most pos : Nat) (x : Ctx) (r : TakeRange) (l : List Byte) (ls : List (List Byte)) (s : State), (Sparse.wf
      (fun x => none) s.tsk.ctxs = true ∧ s.ctx h = some x ∧ x.st = TakeSt.committing ∧ x.outData = some ls ∧
      State.outputAt (x.desc.outs.zip ls) x.outCharged = some (r, l, pos) ∧ r.kind ≠ 0 ∧ x.noHost = false ∧ 0 < most ∧
      (s.getF (F.instByteRateRate x.tenant) = 0 ∨ 0 < s.byteLevel x.tenant)) ∧ (s.canDraw (s.outputNeeds x r pos (min
      (l.length - pos) (min most (2 ^ 20)))) = true)) ∧
    (∃ (h : Nat) (x : Ctx) (s : State), Sparse.wf (fun x => none) s.tsk.ctxs = true ∧ s.ctx h = some x ∧ x.st =
      TakeSt.faulting) ∧
    (∃ (h port most lba count n : Nat) (x : Ctx) (r : TakeRange) (s : State), s.regsWf ∧ Sparse.wf (fun x => none)
      s.tsk.ctxs = true ∧ s.ctx h = some x ∧ x.inRange port = some r ∧ s.nextPiece x r = (lba, count, n) ∧ x.st =
      TakeSt.running ∧ r.kind = 0 ∧ n ≠ 0 ∧ sparseGet (fun x => 0) x.issued port = 0 ∧ x.stagedAt port + n ≤
      x.consumedAt port + 2 ^ 21 ∧ s.keyDenied r.nsid = none ∧ (s.getF (F.instByteRateRate x.tenant) ≠ 0 → 0 <
      s.byteLevel x.tenant)) ∧
    (∃ (h port lba count n : Nat) (x : Ctx) (r : TakeRange) (s : State), (Sparse.wf (fun x => none) s.tsk.ctxs = true
      ∧ s.ctx h = some x ∧ x.inRange port = some r ∧ r.port = port ∧ s.nextPiece x r = (lba, count, n) ∧ x.st =
      TakeSt.running ∧ sparseGet (fun x => 0) x.issued port ≠ 0 ∧ s.mediaWaits (ReadFor.take h port) x.gen = false ∧
      s.lostUnits (ReadFor.take h port) x.gen = [] ∧ (∀ (q : PairRead), q ∈ s.cnt.reads → ¬(q.key = x.key ∧ q.gen =
      x.gen ∧ q.nsid = r.nsid ∧ q.lba = lba))) ∧ (s.canDraw (s.dramNeeds x.tenant (Config.bufferPlace 2) (4096 *
      List.countP (fun u => (s.wbFind r.nsid u).isNone && !s.unitEmpty r.nsid u) (List.map (fun x => (s.unitRun r.nsid
      lba count).fst + x) (List.range (s.unitRun r.nsid lba count).snd))) false ++ State.need colSec x.tenant (4096 *
      List.countP (fun u => (s.wbFind r.nsid u).isNone && !s.unitEmpty r.nsid u) (List.map (fun x => (s.unitRun r.nsid
      lba count).fst + x) (List.range (s.unitRun r.nsid lba count).snd))) 512 ++ s.dramNeeds x.tenant (s.windowAddr
      x.tenant (r.stage + x.stagedAt port % 2 ^ 21)) n true) = true)) ∧
    (∃ (h most pos n : Nat) (x y : Ctx) (r : TakeRange) (l : List Byte) (s : State), (s.ctx h = some x ∧ x.st =
      TakeSt.committing ∧ (s.getF (F.instByteRateRate x.tenant) = 0 ∨ 0 < s.byteLevel x.tenant) ∧ (s.gatherOutputs
      h).ctx h = some y ∧ y.st = TakeSt.committing ∧ (s.gatherOutputs h).nextOutput y most = some (r, l, pos, n) ∧ n ≠
      0) ∧ ((s.gatherOutputs h).canDraw ((s.gatherOutputs h).outputNeeds y r pos n) = true)) ∧
    (∃ (h : Nat) (x : Ctx) (s : State), Sparse.wf (fun x => none) s.tsk.ctxs = true ∧ s.ctx h = some x ∧ x.st =
      TakeSt.restarting) ∧
    (∃ (h port most lba count n : Nat) (x : Ctx) (r : TakeRange) (s : State), s.regsWf ∧ Sparse.wf (fun x => none)
      s.tsk.ctxs = true ∧ s.ctx h = some x ∧ x.inRange port = some r ∧ s.nextPiece x r = (lba, count, n) ∧ x.st =
      TakeSt.running ∧ r.kind = 0 ∧ n ≠ 0 ∧ sparseGet (fun x => 0) x.issued port = 0 ∧ x.stagedAt port + n ≤
      x.consumedAt port + 2 ^ 21 ∧ s.keyDenied r.nsid = none ∧ s.getF (F.instByteRateRate x.tenant) ≠ 0 ∧ s.byteLevel
      x.tenant ≤ 0) ∧
    (∃ (h port lba count n : Nat) (x : Ctx) (r : TakeRange) (s : State), (Sparse.wf (fun x => none) s.tsk.ctxs = true
      ∧ s.ctx h = some x ∧ x.inRange port = some r ∧ r.port = port ∧ s.nextPiece x r = (lba, count, n) ∧ x.st =
      TakeSt.running ∧ sparseGet (fun x => 0) x.issued port ≠ 0 ∧ s.mediaWaits (ReadFor.take h port) x.gen = false ∧
      s.lostUnits (ReadFor.take h port) x.gen = [] ∧ (∀ (q : PairRead), q ∈ s.cnt.reads → ¬(q.key = x.key ∧ q.gen =
      x.gen ∧ q.nsid = r.nsid ∧ q.lba = lba))) ∧ (s.canDraw (s.dramNeeds x.tenant (Config.bufferPlace 2) (4096 *
      List.countP (fun u => (s.wbFind r.nsid u).isNone && !s.unitEmpty r.nsid u) (List.map (fun x => (s.unitRun r.nsid
      lba count).fst + x) (List.range (s.unitRun r.nsid lba count).snd))) false ++ State.need colSec x.tenant (4096 *
      List.countP (fun u => (s.wbFind r.nsid u).isNone && !s.unitEmpty r.nsid u) (List.map (fun x => (s.unitRun r.nsid
      lba count).fst + x) (List.range (s.unitRun r.nsid lba count).snd))) 512 ++ s.dramNeeds x.tenant (s.windowAddr
      x.tenant (r.stage + x.stagedAt port % 2 ^ 21)) n true) = false)) ∧
    (∃ (key : CmdKey) (c : Cmd) (s : State), s.executing key 130 false = some c) ∧
    (∃ (key : CmdKey) (c : Cmd) (s : State), (s.executing key 132 false = some c) ∧ (∀ (x : Ctx), s.ctx (c.sqe.dw10 %
      2 ^ 18) = some x → x.tenant ≠ State.fnTenant key.fn ∨ x.silent = true)) ∧
    (∃ (key : CmdKey) (c d : Cmd) (x : Ctx) (u s : State), s.executing key 132 false = some c ∧ s.ctx (c.sqe.dw10 % 2
      ^ 18) = some x ∧ x.tenant = State.fnTenant key.fn ∧ x.silent = false ∧ s.cmd? x.key = some d ∧ s.catchCmd d =
      some u) :=
  ⟨⟨5, xc, [], cellsFor (txs xc u1) 0, by decide +kernel⟩,
   ⟨5, 100, 0, xo2, rgH, zeros 300, [zeros 300], cellsFor (txs xo2 u1) 0, by decide +kernel, draw_append (draw_append
     (draw_dram (by decide +kernel)) (by decide +kernel)) (by decide +kernel)⟩,
   ⟨5, cx .faulting, txs (cx .faulting) u1, by decide +kernel⟩,
   ⟨5, 1, 0, np.1, np.2.1, np.2.2, xi, rg, txs xi u1, by decide +kernel⟩,
   ⟨5, 1, np.1, np.2.1, np.2.2, xis, rg, cellsFor (txs xis u1) 0, by decide +kernel, draw_append (draw_append
     (draw_dram (by decide +kernel)) (by decide +kernel)) (draw_dram (by decide +kernel))⟩,
   ⟨5, 100, no.2.2.1, no.2.2.2, xo, xo1, no.1, no.2.1, oS, by decide +kernel, draw_append (draw_append (draw_dram (by
     decide +kernel)) (by decide +kernel)) (by decide +kernel)⟩,
   ⟨5, cx .restarting, txs (cx .restarting) u1, by decide +kernel⟩,
   ⟨5, 1, 0, np.1, np.2.1, np.2.2, xi, rg, (txs xi u1).setF (F.instByteRateRate 0) 5, by decide +kernel⟩,
   ⟨5, 1, np.1, np.2.1, np.2.2, xis, rg, txs xis u1, by decide +kernel, draw_append_right (by decide +kernel)⟩,
   ⟨wk, cmdOf wk tst .executing, two tst (cx .running), by decide +kernel⟩,
   ⟨wk, cmdOf wk (tcn 6) .executing, two (tcn 6) (cx .running), by decide +kernel, forall_some (by decide +kernel)⟩,
   ⟨wk, cmdOf wk (tcn 5) .executing, cmdOf vk ts .executing, cx .running, ((two (tcn 5) (cx .running)).catchCmd (cmdOf
     vk ts .executing)).getD State.reset, two (tcn 5) (cx .running), by decide +kernel⟩⟩

end TakeRuns

namespace Processors

abbrev pushG : State := let s : State := spx 4 { pr vals with stall := some (.push 2 4 0x1234), ctx := 5 } cIO; (s.setF (State.chStateF 0) 2).setF (State.chStateF 1) 2

theorem witness_DruotArithmetic :
    (∃ (p : Nat) (f : BitVec 24) (s : State), s.Issues p 256 ∧ usesAB f = true) ∧
    (∃ (p : Nat) (f : BitVec 24) (s : State), s.Issues p 256 ∧ (BitVec.extractLsb' 0 14 f).toNat < 32) ∧
    (∃ (p : Nat) (f : BitVec 24) (s : State), s.Issues p 257 ∧ usesAB f = true) ∧
    (∃ (p : Nat) (f : BitVec 24) (s : State), s.Issues p 257 ∧ usesA f = true) ∧
    (∃ (p : Nat) (f : BitVec 24) (s : State), s.Issues p 258) :=
  ⟨⟨4, fR 6 1 2, sp 4 (pr vals), by decide +kernel⟩,
   ⟨4, fI 6 2 5, sp 4 (pr vals), by decide +kernel⟩,
   ⟨4, fR 6 1 2, sp 4 (pr vals), by decide +kernel⟩,
   ⟨4, fR 6 1 0, sp 4 (pr vals), by decide +kernel⟩,
   ⟨4, fJ 6 0x7F123, sp 4 (pr vals), by decide +kernel⟩⟩

theorem witness_DivisionNeverTraps :
    (∃ (p : Nat) (f : BitVec 24) (s : State), s.Issues p 256 ∧ usesAB f = true ∧ s.gReg p (fieldA f) = 2147483648 ∧
      s.gReg p (fieldB f) = 4294967295 ∧ s.gReg p (fieldB f) ≠ 0) ∧
    (∃ (p : Nat) (f : BitVec 24) (s : State), s.Issues p 256 ∧ usesAB f = true ∧ s.gReg p (fieldB f) = 0) :=
  ⟨⟨4, fR 6 3 4, sp 4 (pr vals), by decide +kernel⟩,
   ⟨4, fR 6 2 0, sp 4 (pr vals), by decide +kernel⟩⟩

theorem witness_BranchesReachTheirTargets :
    (∃ (p : Nat) (f : BitVec 24) (s : State), s.Issues p 256 ∧ s.gReg p (fieldD f) = 0 ∧ (BitVec.toNat ((s.proc p).pc
      + BitVec.signExtend 32 (BitVec.extractLsb' 0 19 f) * 4) % 4 = 0 ∧ BitVec.toNat ((s.proc p).pc +
      BitVec.signExtend 32 (BitVec.extractLsb' 0 19 f) * 4) < (s.proc p).textLen)) ∧
    (∃ (p : Nat) (f : BitVec 24) (s : State), s.Issues p 256 ∧ s.gReg p (fieldD f) ≠ 0 ∧ (BitVec.toNat ((s.proc p).pc
      + BitVec.signExtend 32 (BitVec.extractLsb' 0 19 f) * 4) % 4 = 0 ∧ BitVec.toNat ((s.proc p).pc +
      BitVec.signExtend 32 (BitVec.extractLsb' 0 19 f) * 4) < (s.proc p).textLen)) ∧
    (∃ (p : Nat) (f : BitVec 24) (s : State), s.Issues p 256 ∧ (BitVec.toNat (s.gReg p (fieldA f) + BitVec.signExtend
      32 (BitVec.extractLsb' 0 14 f)) % 4 = 0 ∧ BitVec.toNat (s.gReg p (fieldA f) + BitVec.signExtend 32
      (BitVec.extractLsb' 0 14 f)) < (s.proc p).textLen)) :=
  ⟨⟨4, fJ 0 0x7FFFA, sp 4 (pr vals), by decide +kernel⟩,
   ⟨4, fJ 1 0x7FFFA, sp 4 (pr vals), by decide +kernel⟩,
   ⟨4, fI 1 5 3, sp 4 (pr vals), by decide +kernel⟩⟩

theorem witness_BadTargetTrapsAtTheBranch :
    (∃ (p : Nat) (f : BitVec 24) (s : State), s.Issues p 256 ∧ (BitVec.toNat (s.gReg p (fieldA f) + BitVec.signExtend
      32 (BitVec.extractLsb' 0 14 f)) % 4 ≠ 0 ∨ (s.proc p).textLen ≤ BitVec.toNat (s.gReg p (fieldA f) +
      BitVec.signExtend 32 (BitVec.extractLsb' 0 14 f))) ∧ isCore p = true ∧ BitVec.getLsbD (s.proc p).status 0 =
      false ∧ (s.proc p).textLen ≤ BitVec.toNat ((s.proc p).pc + BitVec.signExtend 32 (BitVec.extractLsb' 0 19 f) * 4)
      ∧ s.gReg p (fieldD f) ≠ 0) ∧
    (∃ (p : Nat) (f : BitVec 24) (s : State), s.Issues p 256 ∧ s.gReg p (fieldD f) = 0 ∧ (s.proc p).textLen ≤
      BitVec.toNat ((s.proc p).pc + BitVec.signExtend 32 (BitVec.extractLsb' 0 19 f) * 4) ∧ isCore p = true ∧
      BitVec.getLsbD (s.proc p).status 0 = false) ∧
    (∃ (p : Nat) (f : BitVec 24) (s : State) (c : Ctx), s.Issues p 256 ∧ (BitVec.toNat (s.gReg p (fieldA f) +
      BitVec.signExtend 32 (BitVec.extractLsb' 0 14 f)) % 4 ≠ 0 ∨ (s.proc p).textLen ≤ BitVec.toNat (s.gReg p (fieldA
      f) + BitVec.signExtend 32 (BitVec.extractLsb' 0 14 f))) ∧ isEngine p = true ∧ Sparse.wf (fun x => none)
      s.tsk.ctxs = true ∧ s.ctx (s.proc p).ctx = some c ∧ (c.st = TakeSt.running ∨ c.st = TakeSt.preparing)) ∧
    (∃ (p : Nat) (f : BitVec 24) (s : State) (c : Ctx), s.Issues p 256 ∧ (s.proc p).textLen ≤ BitVec.toNat ((s.proc
      p).pc + BitVec.signExtend 32 (BitVec.extractLsb' 0 19 f) * 4) ∧ isEngine p = true ∧ Sparse.wf (fun x => none)
      s.tsk.ctxs = true ∧ s.ctx (s.proc p).ctx = some c ∧ (c.st = TakeSt.running ∨ c.st = TakeSt.preparing)) ∧
    (∃ (p : Nat) (f : BitVec 24) (s : State) (c : Ctx), s.Issues p 256 ∧ s.gReg p (fieldD f) = 0 ∧ (s.proc p).textLen
      ≤ BitVec.toNat ((s.proc p).pc + BitVec.signExtend 32 (BitVec.extractLsb' 0 19 f) * 4) ∧ isEngine p = true ∧
      Sparse.wf (fun x => none) s.tsk.ctxs = true ∧ s.ctx (s.proc p).ctx = some c ∧ (c.st = TakeSt.running ∨ c.st =
      TakeSt.preparing)) ∧
    (∃ (p : Nat) (f : BitVec 24) (s : State) (c : Ctx), s.Issues p 256 ∧ s.gReg p (fieldD f) ≠ 0 ∧ (s.proc p).textLen
      ≤ BitVec.toNat ((s.proc p).pc + BitVec.signExtend 32 (BitVec.extractLsb' 0 19 f) * 4) ∧ isEngine p = true ∧
      Sparse.wf (fun x => none) s.tsk.ctxs = true ∧ s.ctx (s.proc p).ctx = some c ∧ (c.st = TakeSt.running ∨ c.st =
      TakeSt.preparing)) :=
  ⟨⟨0x3E, fI 1 5 4, sp 0x3E (pr vals), by decide +kernel⟩,
   ⟨0x3E, fJ 0 0x40000, sp 0x3E (pr vals), by decide +kernel⟩,
   ⟨4, fI 1 5 4, sp 4 (pr vals), cx .running, by decide +kernel⟩,
   ⟨4, fJ 0 0x40000, sp 4 (pr vals), cx .running, by decide +kernel⟩,
   ⟨4, fJ 0 0x40000, sp 4 (pr vals), cx .running, by decide +kernel⟩,
   ⟨4, fJ 1 0x40000, sp 4 (pr vals), cx .running, by decide +kernel⟩⟩

theorem witness_DruotSystem :
    (∃ (p : Nat) (f : BitVec 24) (s : State), s.Issues p 256 ∧ fieldD f = 0 ∧ fieldB f = 0 ∧ fieldFn f = 0 ∧ isEngine
      p = true) ∧
    (∃ (p : Nat) (f : BitVec 24) (s : State) (v : Nat), s.Issues p 256 ∧ fieldA f = 0 ∧ s.sysT p (BitVec.extractLsb' 0
      14 f).toNat = some v) ∧
    (∃ (p : Nat) (f : BitVec 24) (s : State), s.Issues p 258 ∧ usesA f = true ∧ (s.proc p).events % 4 ≠ 0) ∧
    (∃ (p : Nat) (f : BitVec 24) (s : State) (v : Word), s.Issues p 256 ∧ isCore p = true ∧ fieldD f = 0 ∧ s.gReg p
      (fieldA f) = v ∧ (BitVec.extractLsb' 0 14 f).toNat = 256) ∧
    (∃ (p : Nat) (f : BitVec 24) (s : State) (v : Word), s.Issues p 256 ∧ isCore p = true ∧ fieldD f = 0 ∧ s.gReg p
      (fieldA f) = v ∧ (BitVec.extractLsb' 0 14 f).toNat = 257) ∧
    (∃ (p : Nat) (f : BitVec 24) (s : State) (v : Word), s.Issues p 256 ∧ isCore p = true ∧ fieldD f = 0 ∧ s.gReg p
      (fieldA f) = v ∧ (BitVec.extractLsb' 0 14 f).toNat = 258) ∧
    (∃ (p : Nat) (f : BitVec 24) (s : State) (v : Word), s.Issues p 256 ∧ isCore p = true ∧ fieldD f = 0 ∧ s.gReg p
      (fieldA f) = v ∧ (BitVec.extractLsb' 0 14 f).toNat = 259) ∧
    (∃ (p : Nat) (f : BitVec 24) (s : State) (v : Word), s.Issues p 256 ∧ isCore p = true ∧ fieldD f = 0 ∧ s.gReg p
      (fieldA f) = v ∧ (BitVec.extractLsb' 0 14 f).toNat = 260) ∧
    (∃ (p : Nat) (f : BitVec 24) (s : State) (v : Word), s.Issues p 256 ∧ isCore p = true ∧ fieldD f = 0 ∧ s.gReg p
      (fieldA f) = v ∧ (BitVec.extractLsb' 0 14 f).toNat = 320) ∧
    (∃ (p : Nat) (f : BitVec 24) (s : State) (v : Word), s.Issues p 256 ∧ isCore p = true ∧ fieldD f = 0 ∧ s.gReg p
      (fieldA f) = v ∧ (BitVec.extractLsb' 0 14 f).toNat = 0) ∧
    (∃ (p : Nat) (f : BitVec 24) (s : State), s.Issues p 256 ∧ isCore p = true ∧ f = 0) ∧
    (∃ (p : Nat) (f : BitVec 24) (s : State), s.Issues p 258 ∧ usesA f = true ∧ (s.proc p).events % 4 = 0) ∧
    (∃ (p : Nat) (f : BitVec 24) (s : State), s.Issues p 256 ∧ fieldD f = 0 ∧ fieldA f = 0 ∧ fieldB f = 0 ∧ fieldFn f
      < 8) ∧
    (∃ (p : Nat) (f : BitVec 24) (s : State), s.Issues p 256 ∧ fieldD f = 0 ∧ fieldB f = 0 ∧ fieldFn f = 0 ∧ isCore p
      = true) ∧
    (∃ (p : Nat) (f : BitVec 24) (s : State), s.Issues p 256 ∧ fieldD f = 0 ∧ fieldA f = 0 ∧ isCore p = true ∧
      BitVec.getLsbD (s.proc p).status 0 = false) ∧
    (∃ (p : Nat) (f : BitVec 24) (s : State), s.Issues p 256 ∧ fieldD f = 0 ∧ fieldA f = 0 ∧ isEngine p = true) ∧
    (∃ (p : Nat) (f : BitVec 24) (s : State), s.Issues p 256 ∧ isEngine p = true ∧ f = 0) ∧
    (∃ (p : Nat) (f : BitVec 24) (s : State), s.Issues p 256 ∧ usesAB f = false) ∧
    (∃ (p : Nat) (f : BitVec 24) (s : State), s.Issues p 256 ∧ (s.proc p).profile < 257) :=
  ⟨⟨4, fR 0 1 0 0, sp 4 { pr vals with merge := [me] }, by decide +kernel⟩,
   ⟨4, fI 9 0 4, sp 4 { pr vals with tvec := 0x201 }, 100, by decide +kernel⟩,
   ⟨4, fR 9 1 0 0, sp 4 { pr vals with events := 3 }, by decide +kernel⟩,
   ⟨0x3E, fI 0 2 0x100, sp 0x3E (pr vals), 0xFFFFFFFD, by decide +kernel⟩,
   ⟨0x3E, fI 0 2 0x101, sp 0x3E (pr vals), 0xFFFFFFFD, by decide +kernel⟩,
   ⟨0x3E, fI 0 2 0x102, sp 0x3E (pr vals), 0xFFFFFFFD, by decide +kernel⟩,
   ⟨0x3E, fI 0 2 0x103, sp 0x3E (pr vals), 0xFFFFFFFD, by decide +kernel⟩,
   ⟨0x3E, fI 0 2 0x104, sp 0x3E (pr vals), 0xFFFFFFFD, by decide +kernel⟩,
   ⟨0x3E, fI 0 2 0x140, sp 0x3E (pr vals), 0xFFFFFFFD, by decide +kernel⟩,
   ⟨0x3E, fI 0 2 0, sp 0x3E (pr vals), 0xFFFFFFFD, by decide +kernel⟩,
   ⟨0x3E, 0, sp 0x3E { pr vals with epc := 0x20, status := 3 }, by decide +kernel⟩,
   ⟨4, fR 9 1 0 0, sp 4 { pr vals with events := 0 }, by decide +kernel⟩,
   ⟨4, fR 0 0 0 1, sp 4 { pr vals with merge := [me] }, by decide +kernel⟩,
   ⟨0x3E, fR 0 1 0 0, sp 0x3E { pr vals with merge := [me] }, by decide +kernel⟩,
   ⟨0x3E, fI 0 0 77, sp 0x3E { pr vals with tvec := 0x201 }, by decide +kernel⟩,
   ⟨4, fI 0 0 77, sp 4 { pr vals with tvec := 0x201 }, by decide +kernel⟩,
   ⟨4, 0, sp 4 { pr vals with epc := 0x20, status := 3 }, by decide +kernel⟩,
   ⟨4, fR 1 2 3 1, sp 4 (pr vals), by decide +kernel⟩,
   ⟨4, fR 1 2 3 0, sp 4 { pr vals with profile := 0x100 }, by decide +kernel⟩⟩

theorem witness_EngineEventsComplete :
    (∃ (p d u : Nat) (s : State), s.procRuns p = true ∧ (s.proc p).stall = some (Stall.wfe d u) ∧ Sparse.wf (fun x =>
      Proc.reset) s.eng.procs = true ∧ Sparse.wf (fun x => 0) (s.proc p).regs = true ∧ ((s.proc p).events % 4 ≠ 0 ∨ u
      ≤ s.tick)) ∧
    (∃ (p d port n : Nat) (sext : Bool) (c : Ctx) (r : TakeRange) (l : List Byte) (u s : State), s.procRuns p = true ∧
      (s.proc p).stall = some (Stall.pop d port n sext) ∧ s.popReady p port n = true ∧ s.ctx (s.proc p).ctx = some c ∧
      c.inRange port = some r ∧ s.canDraw (s.popNeeds p port n) = true ∧ (s.spend (s.popNeeds p port n)).popBytes
      (s.proc p).ctx r (min n (r.length - c.consumedAt port)) = (some l, u) ∧ Sparse.wf (fun x => Proc.reset)
      s.eng.procs = true ∧ Sparse.wf (fun x => 0) (s.proc p).regs = true ∧ u.proc p = s.proc p ∧ u.eng = s.eng) ∧
    (∃ (p : Nat) (c : Ctx) (s : State), s.procRuns p = true ∧ (s.proc p).stall = some Stall.grant ∧ s.ctx (s.proc
      p).ctx = some c ∧ Sparse.wf (fun x => Proc.reset) s.eng.procs = true ∧ Sparse.wf (fun x => none) s.tsk.ctxs =
      true) ∧
    (∃ (e : Nat) (w : Bool) (s : State), e < 32 ∧ s.logicOn = true ∧ s.regsWf ∧ (s.proc e).running = false ∧ (s.getF
      F.engFencedFenced).testBit e = false) ∧
    (∃ (p : Nat) (s : State), (s.procRuns p = true ∧ (s.proc p).stall = none ∧ BitVec.toNat (s.proc p).pc < (s.proc
      p).textLen ∧ ¬BitVec.toNat (s.proc p).pc / 64 ∈ (s.proc p).icache ∧ Sparse.wf (fun x => Proc.reset) s.eng.procs
      = true) ∧ (s.canDraw (s.dramNeeds (s.procOwner p) (Config.bufferPlace 6 + BitVec.toNat (s.proc p).pc / 64 * 64)
      64 false) = true)) ∧
    (∃ (path : Path) (w : Word) (s : State), s.regsWf ∧ s.admits path A.engUnfence ∧ s.inMode Mode.service = true) ∧
    (∃ (p port n v : Nat) (c : Ctx) (r : TakeRange) (s : State), s.procRuns p = true ∧ (s.proc p).stall = some
      (Stall.push port n v) ∧ s.pushReady p port = true ∧ s.ctx (s.proc p).ctx = some c ∧ c.outRange port = some r ∧
      s.canDraw (s.pushNeeds p port n) = true) ∧
    (∃ (p n : Nat) (e : MergeEntry) (s : State), (s.proc p).merge[n]? = some e ∧ e.last + 64 * 32 ≤ s.tick) :=
  ⟨⟨4, 9, 40, sp 4 { pr vals with stall := some (.wfe 9 40), events := 2 }, by decide +kernel⟩,
   ⟨4, 9, 1, 4, false, cIO, rgI, ((popP.popBytes 5 rgI 4).1.getD []), (popP.popBytes 5 rgI 4).2, popC, by
     decide +kernel⟩,
   ⟨4, (cx .running), sp 4 { pr vals with stall := some .grant, grant := 0 }, by decide +kernel⟩,
   ⟨4, true, txs (cx .running) u1, by decide +kernel⟩,
   ⟨4, cellsFor (sp 4 (pr vals)) 0, by decide +kernel, draw_dram (by decide +kernel)⟩,
   ⟨.core, 0x110, svc.setF F.engFencedFenced 0x150, by decide +kernel⟩,
   ⟨4, 2, 4, 0x1234, cIO, rgO, cellsFor pushG 0, by decide +kernel⟩,
   ⟨4, 0, me, drS, by decide +kernel⟩⟩

end Processors

namespace Accelerators

abbrev job0 : AccJob := { proc := 4, page := 0, slot := 1, owner := 0, ctx := some 5, gen := 0, order := 0, win := 20 * 2^26, desc := zeros 32, unit := some 0, pos := 0, dfa := 0, hits := 0, dropped := 0, eos := false, consumed := 0, produced := 0, blocks := 0, raws := 0, blockIn := [], blockOut := none, bits := [], taken := [], key := [], expect := [], saved := none, code := none }
abbrev withJobs (s : State) (page : Nat) (l : List AccJob) : State := s.setJobs page l
abbrev bS : State := sp 4 (pr [])
abbrev slotS (d : Doorbell) (s : State := bS) : State := s.modProc 4 fun x => x.setSlot 0 1 d
abbrev rc0 := (bS.modProc 4 fun x => x.setSlot 0 1 { x.slot 0 1 with state := 1, refused := false, code := 0 }).ringCheck 4 0 1 32
/-- memory with an uninstall / lookup descriptor at local 0x100 -/
abbrev dU : List Byte := [0x10, 1] ++ leBytes 2 1 ++ leBytes 4 0x200 ++ leBytes 4 1 ++ leBytes 4 0x400
abbrev bM : State := (slotS { Doorbell.reset with desc := 0x100 }).putSram 4 false 0x100 dU
abbrev u0_ : State := bM.modProc 4 fun x => x.setSlot 0 1 { x.slot 0 1 with state := 1, refused := false, code := 0 }
abbrev okJ : AccJob := match (u0_.ringCheck 4 0 1 16).1 with | .ok j => j | _ => job0
abbrev jw : AccJob := { job0 with unit := none, desc := [0x03] ++ zeros 15 }
abbrev jd : AccJob := { job0 with code := some (0x112, 3, 4) }
/-- image: one class, one state, no lists -/
abbrev pre (states : Nat) : List Byte := leBytes 2 0x4155 ++ leBytes 2 0x0100 ++ leBytes 4 (autLength states 1 0) ++ leBytes 4 states ++ leBytes 2 1 ++ leBytes 2 0 ++ leBytes 4 0 ++ leBytes 4 0 ++ leBytes 4 7 ++ leBytes 4 0 ++ zeros 28
abbrev post (states : Nat) : List Byte := zeros (autLength states 1 0 - 0x40)
abbrev img1 : List Byte := pre 1 ++ leBytes 4 1221583933 ++ post 1
abbrev aset : AutoSet := { handle := 2048 + 7, pages := 1, ctx := some 5, pub := false, image := img1 }
abbrev scD : List Byte := [1, 0, 0, 0] ++ leBytes 2 (2048+7) ++ zeros 2 ++ leBytes 4 0x80000000 ++ leBytes 4 100 ++ zeros 4 ++ zeros 12
abbrev js : AccJob := { job0 with desc := scD, pos := 20 }
abbrev scS : State := let s := withJobs bS 0 [js]; { s with pmx := { s.pmx with sets := [(7, some aset)] } }
abbrev scSrc := scS.jobSource js none 0x80000000 100 512
abbrev scL : List Byte := match scSrc.1 with | .data l _ => l | _ => []
abbrev scR := scanRun img1 false 20 scL { state := 0, matched := [], n := 0, read := [] }
abbrev scE : Bool := match scSrc.1 with | .data _ e => e | _ => false
abbrev je : AccJob := { js with eos := true }
abbrev inD : List Byte := [2, 0, 0, 0] ++ leBytes 4 0x80000000 ++ leBytes 4 328 ++ zeros 4
abbrev ji : AccJob := { job0 with desc := inD, pos := 0, ctx := none, proc := 0x3E, owner := 511 }
abbrev inSrc (s : State) (j : AccJob) (n : Nat) := s.jobSource j none 0x80000000 n 512
abbrev srcL (x : State.Source × State) : List Byte := match x.1 with | .data l _ => l | _ => []
abbrev srcE (x : State.Source × State) : Bool := match x.1 with | .data _ e => e | _ => false
abbrev inD2 : List Byte := [2, 0, 0, 0] ++ leBytes 4 0x80000000 ++ leBytes 4 1000 ++ zeros 4
abbrev ji2 : AccJob := { ji with desc := inD2 }
abbrev ji3 : AccJob := { ji with pos := 328, taken := img1 }
abbrev ju : AccJob := { job0 with desc := [3,0,0,0] ++ leBytes 2 (2048+7) ++ zeros 10 }
abbrev jl : AccJob := { job0 with desc := [0x10, 1] ++ leBytes 2 1 ++ leBytes 4 0x80000000 ++ leBytes 4 1 ++ leBytes 4 0x80001000 }
abbrev lkS : State := (withJobs bS 0 [jl]).setF (F.pmxBankOwnerOwner 0) 0
abbrev upD (op : Nat) : List Byte := [BitVec.ofNat 8 op, 0, 0, 0] ++ leBytes 4 0x80000000 ++ leBytes 4 3 ++ zeros 4
abbrev jp (op : Nat) : AccJob := { job0 with desc := upD op, pos := 2, hits := 1 }
abbrev upS (op : Nat) : State := (withJobs bS 0 [jp op])
abbrev upL (op : Nat) (s : State) := s.updateRecords (jp op) 2 1
abbrev upE (op : Nat) (s : State) : Nat × AssocEntry := ((upL op s).1.getD []).headD (0, AssocEntry.reset)
abbrev mv : Mover := { bank := 0, entry := 2, next := 5, newRec := AssocEntry.reset, proc := 4, slot := 1 }
abbrev ent (n : Nat) : AssocEntry := { AssocEntry.reset with valid := true, prio := n }
abbrev mvS (m : Mover) : State := let s := upS 0x12; { s with pmx := { s.pmx with mover := some m, search := [(2, ent 2), (3, ent 3), (4, ent 4)], shadow := [(2, ent 2), (3, ent 3), (4, ent 4)] } }
abbrev cD : List Byte := [1, 0, 1, 0, 0, 0, 0, 0] ++ leBytes 4 0x80000000 ++ leBytes 4 1000 ++ leBytes 4 0x80008000 ++ leBytes 4 1 ++ leBytes 4 0 ++ leBytes 4 0x80009000
abbrev jc : AccJob := { job0 with page := 1, desc := cD, saved := some (leBytes 4 0x8000A000 ++ leBytes 4 4096) }
abbrev cS : State := withJobs bS 1 [jc]
abbrev cSrc := cS.jobSource jc none 0x80000000 1000 512
abbrev jv : AccJob := { jc with blockOut := some [true, false, true], blocks := 1, taken := zeros 100, blockIn := zeros 100 }
abbrev dD : List Byte := [2, 0, 0, 0, 0, 0, 0, 0] ++ leBytes 4 0x80000000 ++ leBytes 4 1000 ++ leBytes 4 0x80008000 ++ leBytes 4 1 ++ leBytes 4 100 ++ leBytes 4 0x80009000
abbrev jdc : AccJob := { jc with desc := dD }
abbrev dS : State := withJobs bS 1 [jdc]
abbrev dSrc := dS.jobSource jdc none 0x80000000 1000 512

/-- `imageBad` with the CRC computed byte by byte. -/
def imageBadRun (l : List Byte) (len : Nat) (system : Bool) : Option Nat :=
  let f := fun o n => field l o n
  let states := f 8 4
  let classes := f 0xC 2
  let lists := f 0x14 4
  let t := autIndex states classes
  let m := autList states classes
  let total := autLength states classes lists
  match firstBad [(f 0 2 ≠ 0x4155, 0), (f 2 2 ≠ 0x0100, 2),
      (f 4 4 ≠ len || f 4 4 ≠ total || (if system then 2 ^ 21 else 2 ^ 20) < f 4 4, 4),
      (states = 0 || 262144 < states, 8), (classes = 0 || 256 < classes, 0xC),
      (1 < f 0xE 2 || (f 0xE 2 = 1 && !system), 0xE), (states ≤ f 0x10 4, 0x10), (1048576 < lists, 0x14),
      (!allZero l 0x20 28, 0x20), ((BitVec.ofNat 32 (crcRun (l.take 0x3C ++ l.drop 0x40) 0xFFFFFFFF) ^^^ 0xFFFFFFFF#32).toNat ≠ f 0x3C 4, 0x3C)] with
  | some o => some o
  | none =>
    let count := fun s => f (t + 4 * s) 4 / 2 ^ 24
    let first := fun s => f (t + 4 * s) 4 % 2 ^ 24
    let transBad := fun i =>
      let e := f (0x140 + 4 * i) 4
      let nx := e % 2 ^ 18
      states ≤ nx || bits e 18 13 ≠ 0 || bit e 31 != (0 < count nx)
    let runBad := fun s => (List.range (count s - 1)).find? fun k =>
      f (m + 2 * (first s + k + 1)) 2 ≤ f (m + 2 * (first s + k)) 2
    match firstAt 256 (fun b => classes ≤ f (0x40 + b) 1) (0x40 + ·) with
    | some o => some o
    | none => match firstAt (states * classes) transBad (fun i => 0x140 + 4 * i) with
      | some o => some o
      | none => match firstAt states (fun s => lists < first s + count s) (fun s => t + 4 * s) with
        | some o => some o
        | none =>
          match (List.range states).findSome? fun s => (runBad s).map fun k => m + 2 * (first s + k + 1) with
          | some o => some o
          | none => if lists % 2 = 1 && f (m + 2 * lists) 2 ≠ 0 then some (m + 2 * lists) else none

theorem imageBad_eq (l : List Byte) (len : Nat) (system : Bool) : imageBad l len system = imageBadRun l len system := by
  unfold imageBad imageBadRun
  simp only [crc32c_eq]
  try rfl

/-- The image passes the checks of an install. -/
theorem ji3_ok : imageBad (ji3.taken ++ []) (field ji3.desc 8 4) true = none := by
  rw [imageBad_eq]
  decide +kernel

theorem witness_AcceleratorsServeDoorbells :
    (∃ (p page slot c r r2 : Nat) (j : AccJob) (s : State), page < 4 ∧ slot < 4 ∧ s.job? page p slot = some j ∧ j.code
      = some (c, r, r2) ∧ Sparse.wf (fun x => Proc.reset) s.eng.procs = true ∧ Sparse.wf (fun x => Doorbell.reset)
      (s.proc p).slots = true ∧ (s.canDraw (if page = 1 then s.jobDram j (field j.desc 28 4) 32 true else []) = true)) ∧
    (∃ (path : Path) (bank : Nat) (v : Word) (s : State), s.regsWf ∧ bank < 16 ∧ s.admits path (A.pmxBankOwner bank) ∧
      BitVec.toNat v / 2 ^ 16 % 1024 < 512 ∧ BitVec.toNat v / 2 ^ 16 % 1024 ≠ s.bankOwner bank) ∧
    (∃ (p page slot len : Nat) (s : State) (j : AccJob) (v : State), ((isEngine p || isCore p) = true ∧ page < 4 ∧
      slot < 4 ∧ s.logicOn = true ∧ (s.proc p).merge = [] ∧ ((s.proc p).slot page slot).state ≠ 1 ∧ page ≠ 3) ∧
      ((s.modProc p fun x => x.setSlot page slot
      ({ x.slot page slot with state := 1, refused := false, code := 0 })).ringCheck p page slot len = (Except.ok j,
      v))) ∧
    (∃ (page u : Nat) (j : AccJob) (s : State), page < 4 ∧ s.freeUnit page = some u ∧ s.nextJob page = some j ∧ j.page
      = page ∧ page < 2) ∧
    (∃ (path : Path) (v : Word) (s : State), s.regsWf ∧ s.admits path A.cmpInject) ∧
    (∃ (p page slot len : Nat) (s : State), (isEngine p || isCore p) = true ∧ page < 4 ∧ slot < 4 ∧ s.logicOn = true ∧
      (s.proc p).merge = [] ∧ ((s.proc p).slot page slot).state = 1) ∧
    (∃ (p page slot len : Nat) (s : State) (c r : Nat) (v : State), ((isEngine p || isCore p) = true ∧ page < 4 ∧ slot
      < 4 ∧ s.logicOn = true ∧ (s.proc p).merge = [] ∧ ((s.proc p).slot page slot).state ≠ 1 ∧ page ≠ 3) ∧ ((s.modProc
      p fun x => x.setSlot page slot ({ x.slot page slot with state := 1, refused := false, code := 0 })).ringCheck p
      page slot len = (Except.error (c, r), v))) :=
  ⟨⟨4, 0, 1, 0x112, 3, 4, jd, withJobs bS 0 [jd], by decide +kernel⟩,
   ⟨.core, 2, 0x00050000,
     { svc with pmx := { svc.pmx with search := [(8192, { AssocEntry.reset with valid := true}), (100, { AssocEntry.reset with valid := true})] } },
     by decide +kernel⟩,
   ⟨4, 0, 1, 16, bM, okJ, (u0_.ringCheck 4 0 1 16).2, by decide +kernel, pair_ext (except_eq (by decide +kernel)) (by
     decide +kernel)⟩,
   ⟨0, 0, jw, withJobs bS 0 [jw], by decide +kernel⟩,
   ⟨.core, 5, svc, by decide +kernel⟩,
   ⟨4, 0, 1, 32, slotS { Doorbell.reset with state := 1 }, by decide +kernel⟩,
   ⟨4, 0, 1, 32, bS, 0xFF02, 0, rc0.2, by decide +kernel, pair_ext (except_eq (by decide +kernel)) (by
     decide +kernel)⟩⟩

theorem witness_PatternJobsTakeEffect :
    (∃ (p slot : Nat) (j : AccJob) (a : AutoSet) (s : State), s.runningJob 0 p slot 3 = some j ∧ j.page = 0 ∧ s.setOf
      j.ctx (field j.desc 4 2) = some a ∧ a.ctx = j.ctx ∧ Sparse.wf (fun x => none) s.pmx.sets = true) ∧
    (∃ (p slot pos : Nat) (e : AssocEntry) (j : AccJob) (u s : State), s.pmx.mover = none ∧ j.page = 0 ∧ j.pos ≠ 0 ∧
      State.updateCount j = j.pos + 1 ∧ s.updateRecords j j.pos 1 = (some [(pos, e)], u) ∧ u.pmx = s.pmx ∧ Sparse.wf
      (fun x => AssocEntry.reset) s.pmx.search = true ∧ s.assocJob p slot 17 = some j) ∧
    (∃ (p slot pos : Nat) (e : AssocEntry) (j : AccJob) (u s : State), s.pmx.mover = none ∧ j.page = 0 ∧ j.pos ≠ 0 ∧
      State.updateCount j = j.pos + 1 ∧ s.updateRecords j j.pos 1 = (some [(pos, e)], u) ∧ u.pmx = s.pmx ∧ Sparse.wf
      (fun x => AssocEntry.reset) s.pmx.search = true ∧ s.assocJob p slot 19 = some j) ∧
    (∃ (m : Mover) (s : State), (s.pmx.mover = some m ∧ Sparse.wf (fun x => AssocEntry.reset) s.pmx.search = true ∧
      m.entry < m.next) ∧ (s.noErrors)) ∧
    (∃ (m : Mover) (s : State), (s.pmx.mover = some m ∧ Sparse.wf (fun x => AssocEntry.reset) s.pmx.search = true ∧
      ¬m.entry < m.next) ∧ (s.noErrors)) ∧
    (∃ (p slot : Nat) (j : AccJob) (s : State), s.runningJob 0 p slot 1 = some j ∧ j.page = 0 ∧ (j.eos = true ∨ field
      j.desc 12 4 ≤ j.pos) ∧ 0 < j.pos ∧ s.canDraw (s.jobDram j (field j.desc 24 4) 16 true) = true) ∧
    (∃ (p slot pos f : Nat) (e : AssocEntry) (j : AccJob) (u s : State), (s.assocJob p slot 18 = some j ∧ s.pmx.mover
      = none ∧ j.pos ≠ 0 ∧ s.updateRecords j j.pos 1 = (some [(pos, e)], u) ∧ u.pmx = s.pmx ∧ pos % 4096 ≤ f ∧ f <
      4096 ∧ (s.searchAt (pos / 4096 * 4096 + f)).valid = false) ∧ (∀ (g : Nat), pos % 4096 ≤ g → g < f → (s.searchAt
      (pos / 4096 * 4096 + g)).valid = true)) ∧
    (∃ (p slot : Nat) (j : AccJob) (a : AutoSet) (l : List Byte) (ended : Bool) (u v s : State), s.runningJob 0 p slot
      1 = some j ∧ j.eos = false ∧ j.pos < field j.desc 12 4 ∧ scanOnce j = false ∧ s.setOf j.ctx (field j.desc 4 2) =
      some a ∧ portOf (field j.desc 1 1) (field j.desc 2 1) = none ∧ s.jobSource j none (field j.desc 8 4) (field
      j.desc 12 4) 512 = (State.Source.data l ended, u) ∧ 0 < j.pos ∧ u.automatonRead a (scanRun a.image (bit (field
      j.desc 1 1) 1) j.pos l { state := j.dfa, matched := [], n := 0, read := [] }).read = (true, v) ∧ (scanRun
      a.image (bit (field j.desc 1 1) 1) j.pos l { state := j.dfa, matched := [], n := 0, read := [] }).matched = []) ∧
    (∃ (p slot pg : Nat) (j : AccJob) (l : List Byte) (e : Bool) (u s : State), s.runningJob 0 p slot 2 = some j ∧
      j.page = 0 ∧ s.jobSource j none (field j.desc 4 4) (field j.desc 8 4) 512 = (State.Source.data l e, u) ∧ j.pos +
      l.length < field j.desc 8 4) ∧
    (∃ (p slot pg : Nat) (j : AccJob) (l : List Byte) (e : Bool) (u s : State), (s.runningJob 0 p slot 2 = some j ∧
      j.page = 0 ∧ s.jobSource j none (field j.desc 4 4) (field j.desc 8 4) 512 = (State.Source.data l e, u) ∧ field
      j.desc 8 4 ≤ j.pos + l.length ∧ j.ctx = none ∧ u.pmx = s.pmx ∧ s.freeRun 0 512 (ceilDiv (field j.desc 8 4) 4096)
      = some pg ∧ Sparse.wf (fun x => none) s.pmx.sets = true) ∧ (imageBad (j.taken ++ l) (field j.desc 8 4) true =
      none)) ∧
    (∃ (p slot : Nat) (j : AccJob) (l : List Byte) (u s : State) (k : AccJob), s.assocJob p slot 16 = some j ∧ (∀ (b :
      Nat), b < 16 → bit (field j.desc 2 2) b = true → s.bankOwner b = j.owner) ∧ s.jobRead j (field j.desc 4 4 + 24 *
      j.pos) 24 = (some l, u) ∧ field j.desc 8 4 = j.pos + 1 ∧ l.length = 24 ∧ (u.lookupKey j j.pos (bits144
      (List.take 18 l))).job? 0 p slot = some k ∧ k.pos = j.pos + 1) :=
  ⟨⟨4, 1, ju, aset, withJobs scS 0 [ju], by decide +kernel⟩,
   ⟨4, 1, (upE 0x11 (upS 0x11)).1, (upE 0x11 (upS 0x11)).2, jp 0x11, (upL 0x11 (upS 0x11)).2, upS 0x11, by
     decide +kernel⟩,
   ⟨4, 1, (upE 0x13 (upS 0x13)).1, (upE 0x13 (upS 0x13)).2, jp 0x13, (upL 0x13 (upS 0x13)).2, upS 0x13, by
     decide +kernel⟩,
   ⟨mv, mvS mv, by decide +kernel, noErrors_of (by decide +kernel)⟩,
   ⟨{ mv with next := 2 }, mvS { mv with next := 2 }, by decide +kernel, noErrors_of (by decide +kernel)⟩,
   ⟨4, 1, je, withJobs scS 0 [je], by decide +kernel⟩,
   ⟨4, 1, (upE 0x12 (upS 0x12)).1, 0, (upE 0x12 (upS 0x12)).2, jp 0x12, (upL 0x12 (upS 0x12)).2, upS 0x12, by
     decide +kernel, forall_range (by decide +kernel)⟩,
   ⟨4, 1, js, aset, scL, scE, scSrc.2, (scSrc.2.automatonRead aset scR.read).2, scS, by decide +kernel⟩,
   ⟨0x3E, 1, 0, ji2, srcL (inSrc (withJobs bS 0 [ji2]) ji2 1000), srcE (inSrc (withJobs bS 0 [ji2]) ji2 1000), (inSrc
     (withJobs bS 0 [ji2]) ji2 1000).2, withJobs bS 0 [ji2], by decide +kernel⟩,
   ⟨0x3E, 1, 0, ji3, [], true, (inSrc (withJobs bS 0 [ji3]) ji3 328).2, withJobs bS 0 [ji3], by decide +kernel,
     ji3_ok⟩,
   ⟨4, 1, jl, (lkS.jobRead jl 0x80000000 24).1.getD [], (lkS.jobRead jl 0x80000000 24).2, lkS, ((((lkS.jobRead jl
     0x80000000 24).2.lookupKey jl 0 (bits144 (((lkS.jobRead jl 0x80000000 24).1.getD []).take 18))).job? 0 4 1).getD
     job0), by decide +kernel⟩⟩

theorem witness_CompressionJobsTakeEffect :
    (∃ (p slot : Nat) (j : AccJob) (b : List Bool) (s : State), s.runningJob 1 p slot 1 = some j ∧ j.blockOut = some b
      ∧ j.eos = false ∧ 0 < j.blocks ∧ j.unit = some 0 ∧ s.regsWf ∧ (s.getF F.cmpInjectLane).testBit 0 = false) ∧
    (∃ (p slot : Nat) (j : AccJob) (l : List Byte) (ended : Bool) (u s : State), s.runningJob 1 p slot 1 = some j ∧
      j.blockOut = none ∧ j.eos = false ∧ s.jobSource j (portOf (field j.desc 3 1) (field j.desc 4 1)) (field j.desc 8
      4) (field j.desc 12 4) (min 512 (blockSize (field j.desc 1 1) - j.blockIn.length)) = (State.Source.data l ended,
      u) ∧ (j.blockIn ++ l).length ≠ blockSize (field j.desc 1 1) ∧ ended = false) ∧
    (∃ (p slot : Nat) (j : AccJob) (l : List Byte) (ended : Bool) (u s : State), s.runningJob 1 p slot 2 = some j ∧
      s.jobSource j (portOf (field j.desc 3 1) (field j.desc 4 1)) (field j.desc 8 4) (field j.desc 12 4) 512 =
      (State.Source.data l ended, u)) ∧
    (∃ (level flags limit : Nat) (l : List Byte), l.length ≤ 131072 ∧ l.length ≤ limit) :=
  ⟨⟨4, 1, jv, [true,false,true], withJobs bS 1 [jv], by decide +kernel⟩,
   ⟨4, 1, jc, srcL cSrc, srcE cSrc, cSrc.2, cS, by decide +kernel⟩,
   ⟨4, 1, jdc, srcL dSrc, srcE dSrc, dSrc.2, dS, by decide +kernel⟩,
   ⟨3, 0, 1000, [0x41#8, 0x42#8, 0x43#8], by decide +kernel⟩⟩

end Accelerators

namespace AcceleratorCells

abbrev stop (s : State) (page : Nat) (j : AccJob) : State := s.setJobs page [{ j with unit := none }]
abbrev jp0 : AccJob := { jp 0x12 with pos := 0 }
abbrev jcode : Option (Nat × Nat × Nat) := some (0x112, 3, 4)

abbrev dD0 : List Byte := [2, 0, 0, 0, 0, 0, 0, 0] ++ leBytes 4 0x80000000 ++ leBytes 4 1000 ++ leBytes 4 0x80008000 ++ leBytes 4 1 ++ leBytes 4 0 ++ leBytes 4 0x80009000
abbrev jd0 : AccJob := { jc with desc := dD0, saved := some [] }
abbrev dS0 : State := withJobs bS 1 [jd0]

/-- The slot of the decompression after a piece of it. -/
abbrev movedTo (s : State) : AccJob := ((s.decompressPiece 4 1).job? 1 4 1).getD jd0

theorem witness_JobsMoveInTheirCells_decompress :
    (∃ (p slot : Nat) (s : State) (j k : AccJob), s.job? 1 p slot = some j ∧ (s.decompressPiece p slot).job? 1 p slot
      = some k ∧ (¬(k.pos = j.pos ∧ k.produced = j.produced ∧ k.eos = j.eos)) ∧ s.canDraw (State.joinNeeds (s.cmpNeeds
      j k)) = false) ∧
    (∃ (p slot : Nat) (s : State) (j k : AccJob), s.job? 1 p slot = some j ∧ (s.decompressPiece p slot).job? 1 p slot
      = some k ∧ (¬(k.pos = j.pos ∧ k.produced = j.produced ∧ k.eos = j.eos)) ∧ s.canDraw (State.joinNeeds (s.cmpNeeds
      j k)) = true) :=
  ⟨⟨4, 1, dS0, jd0, movedTo dS0, by decide +kernel⟩, ⟨4, 1, cellsFor dS0 0, jd0, movedTo (cellsFor dS0 0), by decide +kernel⟩⟩

theorem witness_JobsMoveInTheirCells :
    (∃ (p slot : Nat) (equal : Bool) (s : State) (j k : AccJob), s.job? 2 p slot = some j ∧ (s.xtsPiece p slot 3).job?
      2 p slot = some k ∧ (k.pos = j.pos ∧ k.produced = j.produced ∧ k.eos = j.eos ∨ State.joinNeeds (s.aesNeeds j k)
      = []) ∧ (¬(k.pos = j.pos ∧ k.produced = j.produced ∧ k.eos = j.eos)) ∧ s.canDraw (State.joinNeeds (s.aesNeeds j
      k)) = true) ∧
    (∃ (p slot : Nat) (equal : Bool) (s : State) (j k : AccJob), s.job? 2 p slot = some j ∧ (s.xtsPiece p slot 4).job?
      2 p slot = some k ∧ (k.pos = j.pos ∧ k.produced = j.produced ∧ k.eos = j.eos ∨ State.joinNeeds (s.aesNeeds j k)
      = []) ∧ (¬(k.pos = j.pos ∧ k.produced = j.produced ∧ k.eos = j.eos)) ∧ s.canDraw (State.joinNeeds (s.aesNeeds j
      k)) = true) ∧
    (∃ (p slot : Nat) (equal : Bool) (s : State) (j k : AccJob), s.job? 0 p slot = some j ∧ (s.scanPiece p slot).job?
      0 p slot = some k ∧ (¬(k.pos = j.pos ∧ k.produced = j.produced ∧ k.eos = j.eos)) ∧ s.canDraw (State.joinNeeds
      (s.scanNeeds j k)) = false) ∧
    (∃ (p slot : Nat) (equal : Bool) (s : State) (j k : AccJob), s.job? 0 p slot = some j ∧ (s.scanPiece p slot).job?
      0 p slot = some k ∧ (¬(k.pos = j.pos ∧ k.produced = j.produced ∧ k.eos = j.eos)) ∧ s.canDraw (State.joinNeeds
      (s.scanNeeds j k)) = true) ∧
    (∃ (p slot : Nat) (equal : Bool) (s : State) (j k : AccJob), s.job? 0 p slot = some j ∧ (s.scanPiece p slot).job?
      0 p slot = some k ∧ (k.pos = j.pos ∧ k.produced = j.produced ∧ k.eos = j.eos ∨ State.joinNeeds (s.scanNeeds j k)
      = [])) ∧
    (∃ (p slot : Nat) (equal : Bool) (s : State) (j k : AccJob), s.job? 0 p slot = some j ∧ (s.installPiece p
      slot).job? 0 p slot = some k ∧ (¬(k.pos = j.pos ∧ k.produced = j.produced ∧ k.eos = j.eos)) ∧ s.canDraw
      (State.joinNeeds (s.installNeeds j k)) = false) ∧
    (∃ (p slot : Nat) (equal : Bool) (s : State) (j k : AccJob), s.job? 0 p slot = some j ∧ (s.installPiece p
      slot).job? 0 p slot = some k ∧ (¬(k.pos = j.pos ∧ k.produced = j.produced ∧ k.eos = j.eos)) ∧ s.canDraw
      (State.joinNeeds (s.installNeeds j k)) = true) ∧
    (∃ (p slot : Nat) (equal : Bool) (s : State) (j k : AccJob), s.job? 0 p slot = some j ∧ (s.installPiece p
      slot).job? 0 p slot = some k ∧ (k.pos = j.pos ∧ k.produced = j.produced ∧ k.eos = j.eos ∨ State.joinNeeds
      (s.installNeeds j k) = [])) ∧
    (∃ (p slot : Nat) (equal : Bool) (s : State) (j k : AccJob), s.job? 0 p slot = some j ∧ (s.lookupPiece p
      slot).job? 0 p slot = some k ∧ (¬(k.pos = j.pos ∧ k.produced = j.produced ∧ k.eos = j.eos)) ∧ s.canDraw
      (State.joinNeeds (s.lookupNeeds j k)) = false) ∧
    (∃ (p slot : Nat) (equal : Bool) (s : State) (j k : AccJob), s.job? 0 p slot = some j ∧ (s.lookupPiece p
      slot).job? 0 p slot = some k ∧ (¬(k.pos = j.pos ∧ k.produced = j.produced ∧ k.eos = j.eos)) ∧ s.canDraw
      (State.joinNeeds (s.lookupNeeds j k)) = true) ∧
    (∃ (p slot : Nat) (equal : Bool) (s : State) (j k : AccJob), s.job? 0 p slot = some j ∧ (s.updatePiece p slot 17
      false).job? 0 p slot = some k ∧ (¬(k.pos = j.pos ∧ k.produced = j.produced ∧ k.eos = j.eos)) ∧ s.canDraw
      (State.joinNeeds (s.updateNeeds j (k.pos - j.pos))) = false) ∧
    (∃ (p slot : Nat) (equal : Bool) (s : State) (j k : AccJob), s.job? 0 p slot = some j ∧ (s.updatePiece p slot 17
      false).job? 0 p slot = some k ∧ (¬(k.pos = j.pos ∧ k.produced = j.produced ∧ k.eos = j.eos)) ∧ s.canDraw
      (State.joinNeeds (s.updateNeeds j (k.pos - j.pos))) = true) ∧
    (∃ (p slot : Nat) (equal : Bool) (s : State) (j k : AccJob), s.job? 0 p slot = some j ∧ (s.updatePiece p slot 19
      true).job? 0 p slot = some k ∧ (¬(k.pos = j.pos ∧ k.produced = j.produced ∧ k.eos = j.eos)) ∧ s.canDraw
      (State.joinNeeds (s.updateNeeds j (k.pos - j.pos))) = false) ∧
    (∃ (p slot : Nat) (equal : Bool) (s : State) (j k : AccJob), s.job? 0 p slot = some j ∧ (s.updatePiece p slot 19
      true).job? 0 p slot = some k ∧ (¬(k.pos = j.pos ∧ k.produced = j.produced ∧ k.eos = j.eos)) ∧ s.canDraw
      (State.joinNeeds (s.updateNeeds j (k.pos - j.pos))) = true) ∧
    (∃ (p slot : Nat) (equal : Bool) (s : State) (j k : AccJob), s.job? 1 p slot = some j ∧ (s.compressPiece p
      slot).job? 1 p slot = some k ∧ (¬(k.pos = j.pos ∧ k.produced = j.produced ∧ k.eos = j.eos)) ∧ s.canDraw
      (State.joinNeeds (s.cmpNeeds j k)) = false) ∧
    (∃ (p slot : Nat) (equal : Bool) (s : State) (j k : AccJob), s.job? 1 p slot = some j ∧ (s.compressPiece p
      slot).job? 1 p slot = some k ∧ (¬(k.pos = j.pos ∧ k.produced = j.produced ∧ k.eos = j.eos)) ∧ s.canDraw
      (State.joinNeeds (s.cmpNeeds j k)) = true) ∧
    (∃ (p slot : Nat) (equal : Bool) (s : State) (j k : AccJob), s.job? 1 p slot = some j ∧ (s.compressPiece p
      slot).job? 1 p slot = some k ∧ (k.pos = j.pos ∧ k.produced = j.produced ∧ k.eos = j.eos ∨ State.joinNeeds
      (s.cmpNeeds j k) = [])) ∧
    (∃ (p slot : Nat) (equal : Bool) (s : State) (j k : AccJob), s.job? 1 p slot = some j ∧ (s.verifiedPiece p slot
      equal).job? 1 p slot = some k ∧ (k.pos = j.pos ∧ k.produced = j.produced ∧ k.eos = j.eos ∨ State.joinNeeds
      (s.cmpNeeds j k) = [])) ∧
    (∃ (p slot : Nat) (equal : Bool) (s : State) (j k : AccJob), s.job? 1 p slot = some j ∧ (s.decompressPiece p
      slot).job? 1 p slot = some k ∧ (k.pos = j.pos ∧ k.produced = j.produced ∧ k.eos = j.eos ∨ State.joinNeeds
      (s.cmpNeeds j k) = [])) ∧
    (∃ (p slot : Nat) (equal : Bool) (s : State) (j k : AccJob), s.job? 2 p slot = some j ∧ (s.gcmEncryptPiece p
      slot).job? 2 p slot = some k ∧ (¬(k.pos = j.pos ∧ k.produced = j.produced ∧ k.eos = j.eos)) ∧ s.canDraw
      (State.joinNeeds (s.aesNeeds j k)) = false) ∧
    (∃ (p slot : Nat) (equal : Bool) (s : State) (j k : AccJob), s.job? 2 p slot = some j ∧ (s.gcmEncryptPiece p
      slot).job? 2 p slot = some k ∧ (¬(k.pos = j.pos ∧ k.produced = j.produced ∧ k.eos = j.eos)) ∧ s.canDraw
      (State.joinNeeds (s.aesNeeds j k)) = true) ∧
    (∃ (p slot : Nat) (equal : Bool) (s : State) (j k : AccJob), s.job? 2 p slot = some j ∧ (s.gcmEncryptPiece p
      slot).job? 2 p slot = some k ∧ (k.pos = j.pos ∧ k.produced = j.produced ∧ k.eos = j.eos ∨ State.joinNeeds
      (s.aesNeeds j k) = [])) ∧
    (∃ (p slot : Nat) (equal : Bool) (s : State) (j k : AccJob), s.job? 2 p slot = some j ∧ (s.gcmDecryptPiece p
      slot).job? 2 p slot = some k ∧ (¬(k.pos = j.pos ∧ k.produced = j.produced ∧ k.eos = j.eos)) ∧ s.canDraw
      (State.joinNeeds (s.aesNeeds j k)) = false) ∧
    (∃ (p slot : Nat) (equal : Bool) (s : State) (j k : AccJob), s.job? 2 p slot = some j ∧ (s.gcmDecryptPiece p
      slot).job? 2 p slot = some k ∧ (¬(k.pos = j.pos ∧ k.produced = j.produced ∧ k.eos = j.eos)) ∧ s.canDraw
      (State.joinNeeds (s.aesNeeds j k)) = true) ∧
    (∃ (p slot : Nat) (equal : Bool) (s : State) (j k : AccJob), s.job? 2 p slot = some j ∧ (s.gcmDecryptPiece p
      slot).job? 2 p slot = some k ∧ (k.pos = j.pos ∧ k.produced = j.produced ∧ k.eos = j.eos ∨ State.joinNeeds
      (s.aesNeeds j k) = [])) ∧
    (∃ (p slot : Nat) (equal : Bool) (s : State) (j k : AccJob), s.job? 3 p slot = some j ∧ (s.digestSlice p slot
      1).job? 3 p slot = some k ∧ (¬(k.pos = j.pos ∧ k.produced = j.produced ∧ k.eos = j.eos)) ∧ s.canDraw
      (State.joinNeeds (s.digestNeeds j k)) = false) ∧
    (∃ (p slot : Nat) (equal : Bool) (s : State) (j k : AccJob), s.job? 3 p slot = some j ∧ (s.digestSlice p slot
      1).job? 3 p slot = some k ∧ (¬(k.pos = j.pos ∧ k.produced = j.produced ∧ k.eos = j.eos)) ∧ s.canDraw
      (State.joinNeeds (s.digestNeeds j k)) = true) ∧
    (∃ (p slot : Nat) (equal : Bool) (s : State) (j k : AccJob), s.job? 3 p slot = some j ∧ (s.digestSlice p slot
      1).job? 3 p slot = some k ∧ (k.pos = j.pos ∧ k.produced = j.produced ∧ k.eos = j.eos ∨ State.joinNeeds
      (s.digestNeeds j k) = [])) ∧
    (∃ (p slot : Nat) (equal : Bool) (s : State) (j k : AccJob), s.job? 3 p slot = some j ∧ (s.digestSlice p slot
      2).job? 3 p slot = some k ∧ (¬(k.pos = j.pos ∧ k.produced = j.produced ∧ k.eos = j.eos)) ∧ s.canDraw
      (State.joinNeeds (s.digestNeeds j k)) = false) ∧
    (∃ (p slot : Nat) (equal : Bool) (s : State) (j k : AccJob), s.job? 3 p slot = some j ∧ (s.digestSlice p slot
      2).job? 3 p slot = some k ∧ (¬(k.pos = j.pos ∧ k.produced = j.produced ∧ k.eos = j.eos)) ∧ s.canDraw
      (State.joinNeeds (s.digestNeeds j k)) = true) ∧
    (∃ (p slot : Nat) (equal : Bool) (s : State) (j k : AccJob), s.job? 3 p slot = some j ∧ (s.digestSlice p slot
      2).job? 3 p slot = some k ∧ (k.pos = j.pos ∧ k.produced = j.produced ∧ k.eos = j.eos ∨ State.joinNeeds
      (s.digestNeeds j k) = [])) ∧
    (∃ (p slot : Nat) (equal : Bool) (s : State) (j : AccJob), s.job? 2 p slot = some j ∧ j.hits ≠ 0 ∧ j.code = none ∧
      j.unit.isSome = true ∧ s.canDraw (s.pieceEndNeeds j) = false) ∧
    (∃ (p slot : Nat) (equal : Bool) (s : State) (j : AccJob), s.job? 2 p slot = some j ∧ j.hits ≠ 0 ∧ j.code = none ∧
      j.unit.isSome = true ∧ s.canDraw (s.pieceEndNeeds j) = true) ∧
    (∃ (p slot : Nat) (equal : Bool) (s : State) (j : AccJob), s.assocJob p slot 18 = some j ∧ (¬(s.pmx.mover = none ∧
      (s.insertPiece p slot).pmx.mover.isSome = true ∧ j.pos % 8 = 0))) ∧
    (∃ (p slot : Nat) (equal : Bool) (s : State) (j : AccJob), s.assocJob p slot 18 = some j ∧ (s.pmx.mover = none ∧
      (s.insertPiece p slot).pmx.mover.isSome = true ∧ j.pos % 8 = 0) ∧ s.canDraw (s.updateNeeds j (min 8
      (State.updateCount j - j.pos))) = false) ∧
    (∃ (p slot : Nat) (equal : Bool) (s : State) (j : AccJob), s.assocJob p slot 18 = some j ∧ (s.pmx.mover = none ∧
      (s.insertPiece p slot).pmx.mover.isSome = true ∧ j.pos % 8 = 0) ∧ s.canDraw (s.updateNeeds j (min 8
      (State.updateCount j - j.pos))) = true) ∧
    (∃ (p slot : Nat) (equal : Bool) (s : State) (j k : AccJob), s.job? 0 p slot = some j ∧ (s.lookupPiece p
      slot).job? 0 p slot = some k ∧ (k.pos = j.pos ∧ k.produced = j.produced ∧ k.eos = j.eos ∨ State.joinNeeds
      (s.lookupNeeds j k) = [])) ∧
    (∃ (p slot : Nat) (equal : Bool) (s : State) (j k : AccJob), s.job? 0 p slot = some j ∧ (s.updatePiece p slot 17
      false).job? 0 p slot = some k ∧ (k.pos = j.pos ∧ k.produced = j.produced ∧ k.eos = j.eos ∨ State.joinNeeds
      (s.updateNeeds j (k.pos - j.pos)) = [])) ∧
    (∃ (p slot : Nat) (equal : Bool) (s : State) (j k : AccJob), s.job? 0 p slot = some j ∧ (s.updatePiece p slot 19
      true).job? 0 p slot = some k ∧ (k.pos = j.pos ∧ k.produced = j.produced ∧ k.eos = j.eos ∨ State.joinNeeds
      (s.updateNeeds j (k.pos - j.pos)) = [])) ∧
    (∃ (p slot : Nat) (equal : Bool) (s : State) (j k : AccJob), s.job? 2 p slot = some j ∧ (s.xtsPiece p slot 3).job?
      2 p slot = some k ∧ (¬(k.pos = j.pos ∧ k.produced = j.produced ∧ k.eos = j.eos)) ∧ s.canDraw (State.joinNeeds
      (s.aesNeeds j k)) = false) ∧
    (∃ (p slot : Nat) (equal : Bool) (s : State) (j k : AccJob), s.job? 2 p slot = some j ∧ (s.xtsPiece p slot 4).job?
      2 p slot = some k ∧ (¬(k.pos = j.pos ∧ k.produced = j.produced ∧ k.eos = j.eos)) ∧ s.canDraw (State.joinNeeds
      (s.aesNeeds j k)) = false) :=
  ⟨⟨4, 1, false, (aS (jx 3)), (jx 3), (((aS (jx 3)).xtsPiece 4 1 3).job? 2 4 1).getD job0, by decide +kernel⟩,
   ⟨4, 1, false, (aS (jx 4)), (jx 4), (((aS (jx 4)).xtsPiece 4 1 4).job? 2 4 1).getD job0, by decide +kernel⟩,
   ⟨4, 1, false, scS, js, ((scS.scanPiece 4 1).job? 0 4 1).getD job0, by decide +kernel⟩,
   ⟨4, 1, false, (cellsFor scS 0), js, (((cellsFor scS 0).scanPiece 4 1).job? 0 4 1).getD job0, by decide +kernel⟩,
   ⟨4, 1, false, (stop scS 0 js), { js with unit := none }, (((stop scS 0 js).scanPiece 4 1).job? 0 4 1).getD job0, by
     decide +kernel⟩,
   ⟨62, 1, false, (withJobs bS 0 [ji2]), ji2, (((withJobs bS 0 [ji2]).installPiece 0x3E 1).job? 0 62 1).getD job0, by
     decide +kernel⟩,
   ⟨62, 1, false, (cellsFor (withJobs bS 0 [ji2]) 511), ji2, (((cellsFor (withJobs bS 0 [ji2]) 511).installPiece 0x3E
     1).job? 0 62 1).getD job0, by decide +kernel⟩,
   ⟨62, 1, false, (stop (withJobs bS 0 [ji2]) 0 ji2), { ji2 with unit := none }, (((stop (withJobs bS 0 [ji2]) 0
     ji2).installPiece 0x3E 1).job? 0 62 1).getD job0, by decide +kernel⟩,
   ⟨4, 1, false, lkS, jl, ((lkS.lookupPiece 4 1).job? 0 4 1).getD job0, by decide +kernel⟩,
   ⟨4, 1, false, (cellsFor lkS 0), jl, (((cellsFor lkS 0).lookupPiece 4 1).job? 0 4 1).getD job0, by decide +kernel⟩,
   ⟨4, 1, false, (upS 0x11), (jp 0x11), (((upS 0x11).updatePiece 4 1 0x11 false).job? 0 4 1).getD job0, by
     decide +kernel⟩,
   ⟨4, 1, false, (cellsFor (upS 0x11) 0), (jp 0x11), (((cellsFor (upS 0x11) 0).updatePiece 4 1 0x11 false).job? 0 4
     1).getD job0, by decide +kernel⟩,
   ⟨4, 1, false, (upS 0x13), (jp 0x13), (((upS 0x13).updatePiece 4 1 0x13 true).job? 0 4 1).getD job0, by
     decide +kernel⟩,
   ⟨4, 1, false, (cellsFor (upS 0x13) 0), (jp 0x13), (((cellsFor (upS 0x13) 0).updatePiece 4 1 0x13 true).job? 0 4
     1).getD job0, by decide +kernel⟩,
   ⟨4, 1, false, cS, jc, ((cS.compressPiece 4 1).job? 1 4 1).getD job0, by decide +kernel⟩,
   ⟨4, 1, false, (cellsFor cS 0), jc, (((cellsFor cS 0).compressPiece 4 1).job? 1 4 1).getD job0, by decide +kernel⟩,
   ⟨4, 1, false, (stop cS 1 jc), { jc with unit := none }, (((stop cS 1 jc).compressPiece 4 1).job? 1 4 1).getD job0,
     by decide +kernel⟩,
   ⟨4, 1, false, (stop (withJobs bS 1 [jv]) 1 jv), { jv with unit := none }, (((stop (withJobs bS 1 [jv]) 1
     jv).verifiedPiece 4 1 false).job? 1 4 1).getD job0, by decide +kernel⟩,
   ⟨4, 1, false, (stop dS 1 jdc), { jdc with unit := none }, (((stop dS 1 jdc).decompressPiece 4 1).job? 1 4 1).getD
     job0, by decide +kernel⟩,
   ⟨4, 1, false, (aS (ja 1 64)), (ja 1 64), (((aS (ja 1 64)).gcmEncryptPiece 4 1).job? 2 4 1).getD job0, by
     decide +kernel⟩,
   ⟨4, 1, false, (cellsFor (aS (ja 1 64)) 0), (ja 1 64), (((cellsFor (aS (ja 1 64)) 0).gcmEncryptPiece 4 1).job? 2 4
     1).getD job0, by decide +kernel⟩,
   ⟨4, 1, false, (stop (aS (ja 1 64)) 2 (ja 1 64)), { (ja 1 64) with unit := none }, (((stop (aS (ja 1 64)) 2 (ja 1
     64)).gcmEncryptPiece 4 1).job? 2 4 1).getD job0, by decide +kernel⟩,
   ⟨4, 1, false, (aS (ja 2 64)), (ja 2 64), (((aS (ja 2 64)).gcmDecryptPiece 4 1).job? 2 4 1).getD job0, by
     decide +kernel⟩,
   ⟨4, 1, false, (cellsFor (aS (ja 2 64)) 0), (ja 2 64), (((cellsFor (aS (ja 2 64)) 0).gcmDecryptPiece 4 1).job? 2 4
     1).getD job0, by decide +kernel⟩,
   ⟨4, 1, false, (stop (aS (ja 2 64)) 2 (ja 2 64)), { (ja 2 64) with unit := none }, (((stop (aS (ja 2 64)) 2 (ja 2
     64)).gcmDecryptPiece 4 1).job? 2 4 1).getD job0, by decide +kernel⟩,
   ⟨4, 1, false, (gS (jg 1 4096)), (jg 1 4096), (((gS (jg 1 4096)).digestSlice 4 1 1).job? 3 4 1).getD job0, by
     decide +kernel⟩,
   ⟨4, 1, false, (cellsFor (gS (jg 1 4096)) 0), (jg 1 4096), (((cellsFor (gS (jg 1 4096)) 0).digestSlice 4 1 1).job? 3
     4 1).getD job0, by decide +kernel⟩,
   ⟨4, 1, false, (stop (gS (jg 1 4096)) 3 (jg 1 4096)), { (jg 1 4096) with unit := none }, (((stop (gS (jg 1 4096)) 3
     (jg 1 4096)).digestSlice 4 1 1).job? 3 4 1).getD job0, by decide +kernel⟩,
   ⟨4, 1, false, (gS (jg 2 4096)), (jg 2 4096), (((gS (jg 2 4096)).digestSlice 4 1 2).job? 3 4 1).getD job0, by
     decide +kernel⟩,
   ⟨4, 1, false, (cellsFor (gS (jg 2 4096)) 0), (jg 2 4096), (((cellsFor (gS (jg 2 4096)) 0).digestSlice 4 1 2).job? 3
     4 1).getD job0, by decide +kernel⟩,
   ⟨4, 1, false, (stop (gS (jg 2 4096)) 3 (jg 2 4096)), { (jg 2 4096) with unit := none }, (((stop (gS (jg 2 4096)) 3
     (jg 2 4096)).digestSlice 4 1 2).job? 3 4 1).getD job0, by decide +kernel⟩,
   ⟨4, 1, false, aS (jh 1 true), (jh 1 true), by decide +kernel⟩,
   ⟨4, 1, false, cellsFor (aS (jh 1 true)) 0, (jh 1 true), by decide +kernel⟩,
   ⟨4, 1, false, upS 0x12, jp 0x12, by decide +kernel⟩,
   ⟨4, 1, false, withJobs bS 0 [jp0], jp0, by decide +kernel⟩,
   ⟨4, 1, false, cellsFor (withJobs bS 0 [jp0]) 0, jp0, by decide +kernel⟩,
   ⟨4, 1, false, (lkS.setJobs 0 [{ jl with code := jcode }]), { jl with code := jcode }, (((lkS.setJobs 0
     [{ jl with code := jcode }]).lookupPiece 4 1).job? 0 4 1).getD job0, by decide +kernel⟩,
   ⟨4, 1, false, withJobs bS 0 [{ jp 0x11 with code := jcode }], { jp 0x11 with code := jcode }, (((withJobs bS 0
     [{ jp 0x11 with code := jcode }]).updatePiece 4 1 0x11 false).job? 0 4 1).getD job0, by decide +kernel⟩,
   ⟨4, 1, false, withJobs bS 0 [{ jp 0x13 with code := jcode }], { jp 0x13 with code := jcode }, (((withJobs bS 0
     [{ jp 0x13 with code := jcode }]).updatePiece 4 1 0x13 true).job? 0 4 1).getD job0, by decide +kernel⟩,
   ⟨4, 1, false, (aS (ja 3 64)), (ja 3 64), (((aS (ja 3 64)).xtsPiece 4 1 3).job? 2 4 1).getD job0, by decide +kernel⟩,
   ⟨4, 1, false, (aS (ja 4 64)), (ja 4 64), (((aS (ja 4 64)).xtsPiece 4 1 4).job? 2 4 1).getD job0, by decide +kernel⟩⟩

end AcceleratorCells

namespace Ciphers

abbrev aSrc (j : AccJob) := (aS j).jobSource j (State.aesIn j) 0x80000000 (field j.desc 0xC 4) 65536
abbrev ivOf (j : AccJob) : List Byte := j.saved.getD []
abbrev aV (j : AccJob) : State := ((aSrc j).2.useMasks (ceilDiv (srcL (aSrc j)).length 16)).modJob 2 4 1 fun k => { k with pos := k.pos + (srcL (aSrc j)).length, hits := (srcL (aSrc j)).length + 1, eos := srcE (aSrc j) }
abbrev j21 : AccJob := { ja 2 64 with dfa := 1 }
abbrev jt := (jh 2 true)
abbrev tagS : State := ((aS jt).modJob 2 4 1 fun k => { k with hits := 0 })
abbrev gSrc (j : AccJob) := (gS j).jobSource j (portOf 0 0) 0x80000000 (field j.desc 0xC 4) ((gS j).sliceBytes 0 j.pos)
abbrev jy : AccJob := { jg 1 4096 with hits := 1024, pos := 1024, taken := zeros 1024 }
abbrev jk : AccJob := { jg 1 4096 with unit := none, slot := 2 }
abbrev jr : AccJob := { jk with saved := some [1] }
abbrev ks5 : KeySlot := { cls := 2, label := 9, key := List.replicate 32 5 }
abbrev impH : List Byte := leBytes 2 0x4B42 ++ leBytes 2 0x0100 ++ [2, 5, 0, 0, 32, 0, 0, 0] ++ leBytes 4 9
abbrev impS : State := svc.setBlobWindow (impH ++ impH ++ List.replicate 32 5)

theorem witness_CipherAndDigestJobs :
    (∃ (p slot op : Nat) (j : AccJob) (s : State), (op = 1 ∨ op = 2) ∧ s.runningJob 3 p slot op = some j ∧ j.page = 3
      ∧ field j.desc 12 4 = 0 ∧ bit (field j.desc 2 1) 1 = false ∧ bit (field j.desc 2 1) 2 = false ∧ Sparse.wf (fun x
      => DigestWin.reset) s.sec.windows = true) ∧
    (∃ (j : AccJob) (rest : List AccJob) (s : State), s.sec.digests = j :: rest ∧ j.unit.isSome = true ∧ j.code = none
      ∧ j.op = 1 ∧ j.eos = false ∧ s.getF F.secDigestCfgSlice * 64 ≤ j.hits ∧ j.pos % digestBlock (field j.desc 1 1) =
      0 ∧ (∃ k, k ∈ rest ∧ k.unit = none ∧ k.code = none) ∧ (∀ (k : AccJob), k ∈ rest → k.proc ≠ j.proc ∨ k.slot ≠
      j.slot)) ∧
    (∃ (p slot : Nat) (s : State), slot < 4 ∧ ((s.proc p).slot 3 slot).state = 1 ∧ Sparse.wf (fun x =>
      DigestWin.reset) s.sec.windows = true) ∧
    (∃ (p slot : Nat) (j : AccJob) (iv l : List Byte) (ended : Bool) (u s w : State), (j.hits = 0 ∧ j.saved = some iv
      ∧ field j.desc 12 4 ≠ 0 ∧ s.jobSource j (State.aesIn j) (field j.desc 8 4) (field j.desc 12 4) 65536 =
      (State.Source.data l ended, u) ∧ s.runningJob 2 p slot 1 = some j) ∧ (((u.useMasks (ceilDiv l.length 16)).modJob
      2 p slot fun k => { k with pos := k.pos + l.length, hits := l.length + 1, eos := ended }).aesDeliver j (gcmPart
      j.key (List.take 12 iv) j.pos l) = (true, w))) ∧
    (∃ (p slot : Nat) (j : AccJob) (iv l : List Byte) (ended : Bool) (u s : State), j.hits = 0 ∧ j.saved = some iv ∧
      field j.desc 12 4 ≠ 0 ∧ s.jobSource j (State.aesIn j) (field j.desc 8 4) (field j.desc 12 4) 65536 =
      (State.Source.data l ended, u) ∧ s.runningJob 2 p slot 2 = some j ∧ j.dfa = 0) ∧
    (∃ (p slot : Nat) (j : AccJob) (iv l : List Byte) (ended : Bool) (u s : State), j.hits = 0 ∧ j.saved = some iv ∧
      field j.desc 12 4 ≠ 0 ∧ s.jobSource j (State.aesIn j) (field j.desc 8 4) (field j.desc 12 4) 65536 =
      (State.Source.data l ended, u) ∧ s.runningJob 2 p slot 2 = some j ∧ j.dfa = 1) ∧
    (∃ (p slot : Nat) (j : AccJob) (iv l : List Byte) (ended : Bool) (u s : State) (op : Nat) (w : State), (j.hits = 0
      ∧ j.saved = some iv ∧ field j.desc 12 4 ≠ 0 ∧ s.jobSource j (State.aesIn j) (field j.desc 8 4) (field j.desc 12
      4) 65536 = (State.Source.data l ended, u) ∧ (op = 3 ∨ op = 4) ∧ s.runningJob 2 p slot op = some j ∧ j.blockIn =
      [] ∧ l.length % 4096 = 0) ∧ (((u.useMasks (ceilDiv l.length 16)).modJob 2 p slot fun k =>
      { k with pos := k.pos + l.length, hits := l.length + 1, eos := ended }).aesDeliver j (xtsUnits (decide (op = 3))
      j.key (leNat iv + j.produced / 4096) (l.length / 4096) l) = (true, w))) ∧
    (∃ (p slot : Nat) (j : AccJob) (s : State), s.job? 2 p slot = some j ∧ j.hits ≠ 0 ∧ j.code = none ∧ j.unit.isSome
      = true ∧ j.eos = false) ∧
    (∃ (p slot : Nat) (j : AccJob) (s : State), s.job? 2 p slot = some j ∧ j.hits ≠ 0 ∧ j.code = none ∧ j.unit.isSome
      = true ∧ j.eos = true ∧ j.op = 1 ∧ State.aesOut j = none) ∧
    (∃ (p slot : Nat) (j : AccJob) (s : State) (x : List Byte) (v : State), s.job? 2 p slot = some j ∧ j.hits ≠ 0 ∧
      j.code = none ∧ j.unit.isSome = true ∧ j.eos = true ∧ j.op = 2 ∧ j.dfa = 0 ∧ (s.modJob 2 p slot fun k =>
      { k with hits := 0 }).jobRead j (field j.desc 8 4 + 16 * field j.desc 30 2) 16 = (some x, v) ∧ ¬x = gcmTag j.key
      (List.take 12 (j.saved.getD [])) (List.drop 12 (j.saved.getD [])) j.taken) ∧
    (∃ (p slot : Nat) (j : AccJob) (s : State), s.job? 2 p slot = some j ∧ j.hits ≠ 0 ∧ j.code = none ∧ j.unit.isSome
      = true ∧ j.eos = true ∧ j.op = 2 ∧ j.dfa = 1) ∧
    (∃ (p slot : Nat) (j : AccJob) (s : State), s.job? 2 p slot = some j ∧ j.hits ≠ 0 ∧ j.code = none ∧ j.unit.isSome
      = true ∧ j.eos = true ∧ (j.op = 3 ∨ j.op = 4)) ∧
    (∃ (p slot op : Nat) (j : AccJob) (s : State) (l : List Byte) (u : State), (op = 1 ∨ op = 2) ∧ s.runningJob 3 p
      slot op = some j ∧ j.page = 3 ∧ field j.desc 12 4 ≠ 0 ∧ s.jobSource j (portOf (field j.desc 2 1) (field j.desc 3
      1)) (field j.desc 8 4) (field j.desc 12 4) (s.sliceBytes (field j.desc 1 1) j.pos) = (State.Source.data l false,
      u)) ∧
    (∃ (u : Nat) (j : AccJob) (r : List Byte) (s : State), s.freeUnit 3 = some u ∧ s.nextJob 3 = some j ∧ j.saved =
      some r ∧ j.op = 1) :=
  ⟨⟨4, 1, 1, jg 1 0, gS (jg 1 0), by decide +kernel⟩,
   ⟨jy, [jk], gS jy (some jk), by decide +kernel⟩,
   ⟨4, 1, bS.modProc 4 fun x => x.setSlot 3 1 { Doorbell.reset with state := 1 }, by decide +kernel⟩,
   ⟨4, 1, ja 1 64, ivOf (ja 1 64), srcL (aSrc (ja 1 64)), srcE (aSrc (ja 1 64)), (aSrc (ja 1 64)).2, aS (ja 1 64),
     ((aV (ja 1 64)).aesDeliver (ja 1 64) (gcmPart (ja 1 64).key ((ivOf (ja 1 64)).take 12) 0 (srcL (aSrc (ja 1
     64))))).2, by decide +kernel, pair_ext (by decide +kernel) rfl⟩,
   ⟨4, 1, ja 2 64, ivOf (ja 2 64), srcL (aSrc (ja 2 64)), srcE (aSrc (ja 2 64)), (aSrc (ja 2 64)).2, aS (ja 2 64), by
     decide +kernel⟩,
   ⟨4, 1, j21, ivOf j21, srcL (aSrc j21), srcE (aSrc j21), (aSrc j21).2, aS j21, by decide +kernel⟩,
   ⟨4, 1, jx 3, ivOf (jx 3), srcL (aSrc (jx 3)), srcE (aSrc (jx 3)), (aSrc (jx 3)).2, aS (jx 3), 3, ((aV (jx
     3)).aesDeliver (jx 3) (xtsUnits true (jx 3).key (leNat (ivOf (jx 3)) + (jx 3).produced / 4096) ((srcL (aSrc (jx
     3))).length / 4096) (srcL (aSrc (jx 3))))).2, by decide +kernel, pair_ext (by decide +kernel) rfl⟩,
   ⟨4, 1, jh 1 false, aS (jh 1 false), by decide +kernel⟩,
   ⟨4, 1, jh 1 true, aS (jh 1 true), by decide +kernel⟩,
   ⟨4, 1, jt, aS jt, (tagS.jobRead jt (0x80000000 + 64) 16).1.getD [], (tagS.jobRead jt (0x80000000 + 64) 16).2, by
     decide +kernel⟩,
   ⟨4, 1, jh 2 true 1, aS (jh 2 true 1), by decide +kernel⟩,
   ⟨4, 1, jh 3 true, aS (jh 3 true), by decide +kernel⟩,
   ⟨4, 1, 1, jg 1 4096, gS (jg 1 4096), srcL (gSrc (jg 1 4096)), (gSrc (jg 1 4096)).2, by decide +kernel⟩,
   ⟨0, jr, [1], gS jr, by decide +kernel⟩⟩

theorem witness_SecurityCommandsTakeEffect :
    (∃ (cause : Nat) (s : State), cause < 5 ∧ s.tamperMasked cause = false ∧ s.logicOn = true ∧ s.regsWf) ∧
    (∃ (slot : Nat) (k : Option KeySlot) (s : State), s.sec.cmd = some { slot := slot, newKey := k, blob := none } ∧
      s.onF F.nvsStatusBusy = false ∧ s.sec.areaUsed < State.keyAreaRecords ∧ s.regsWf ∧ Sparse.wf (fun x => none)
      s.sec.slots = true) ∧
    (∃ (path : Path) (v : Word) (s : State), s.admits path A.secKeyCmd ∧ path ≠ Path.vf ∧ s.inMode Mode.safe = false ∧
      (s.orderBarred fun m => decide (m ≠ Mode.safe)) = false) ∧
    (∃ (path : Path) (v : Word) (s : State), s.admits path A.secBlobData ∧ s.regsWf) ∧
    (∃ (fails : Nat) (s : State), s.logicOn = true ∧ (65536 ≤ s.sec.requests ∨ s.since s.sec.reseedAt 1000000000 =
      true) ∧ s.regsWf) ∧
    (∃ (path : Path) (v : Word) (k : KeySlot) (s : State), s.admits path A.secNsKey ∧ 0 < s.getF F.secNsSelNsid ∧
      s.getF F.secNsSelNsid ≤ 1024 ∧ s.nsAttached (s.getF F.secNsSelNsid) = false ∧ s.keySlot (BitVec.toNat v % 4096)
      = some k ∧ k.cls = 1 ∧ s.isTenantSlot (BitVec.toNat v % 4096) = false ∧ Sparse.wf (fun x => none) s.sec.nsKeys =
      true) ∧
    (∃ (s : State), s.logicOn = true ∧ s.since s.sec.reseedAt 10000000000 = true ∧ s.onF F.secStatusEntropyFail =
      false ∧ s.regsWf) ∧
    (∃ (path : Path) (v : Word) (s : State), s.admits path A.secLifecycle ∧ s.regsWf ∧ s.inMode Mode.service = true ∧
      BitVec.toNat v / 2 ^ 16 = 19531 ∧ s.sec.lockAt = none) ∧
    (∃ (path : Path) (v : Word) (s : State) (a : Nat), s.admits path A.secLifecycle ∧ s.regsWf ∧ s.inMode Mode.service
      = true ∧ BitVec.toNat v / 2 ^ 16 = 19531 ∧ s.sec.lockAt = some a ∧ s.fab.timecode ≤ a + 64000000) ∧
    (∃ (side : Side) (cls wrap slot : Nat) (s : State), (s.onF F.secStatusKeysDisabled = false ∧ s.inMode Mode.safe =
      false ∧ s.slotBusy slot = false) ∧ (s.noErrors)) ∧
    (∃ (side : Side) (cls wrap slot : Nat) (s : State) (k : KeySlot), (s.onF F.secStatusKeysDisabled = false ∧
      s.inMode Mode.safe = false ∧ s.slotBusy slot = false) ∧ (s.noErrors) ∧ (s.loadKey side slot = Except.ok k)) ∧
    (∃ (s : State), 3 * State.keyAreaRecords ≤ 4 * s.sec.areaUsed) :=
  ⟨⟨2, rdy, by decide +kernel⟩,
   ⟨5, some ks5, { rdy with sec := { rdy.sec with cmd := some { slot := 5, newKey := some ks5, blob := none } } }, by
     decide +kernel⟩,
   ⟨.core, 0x02001005, rdy, by decide +kernel⟩,
   ⟨.core, 0x12345678, rdy.setF F.secBlobAddrWord 63, by decide +kernel⟩,
   ⟨1, { rdy with sec := { rdy.sec with requests := 65536 } }, by decide +kernel⟩,
   ⟨.core, 3, { ks5 with cls := 1 }, (({ rdy with sec := { rdy.sec with slots := [(3, some { ks5 with cls := 1 })] } }
     : State).setF F.secNsSelNsid 4), by decide +kernel⟩,
   ⟨{ rdy with fab := { rdy.fab with timecode := 10^12 } }, by decide +kernel⟩,
   ⟨.core, 0x4C4B0000, svc, by decide +kernel⟩,
   ⟨.core, 0x4C4B0000, { svc with sec := { svc.sec with lockAt := some 0 } }, 0, by decide +kernel⟩,
   ⟨.device, 1, 0, 5, rdy, by decide +kernel, noErrors_of (by decide +kernel)⟩,
   ⟨.i3c, 5, 2, 5, impS, { cls := 5, label := 9, key := List.replicate 32 5 }, by decide +kernel, noErrors_of (by
     decide +kernel), except_eq (by decide +kernel)⟩,
   ⟨{ rdy with sec := { rdy.sec with areaUsed := 4467 } }, by decide +kernel⟩⟩

end Ciphers

namespace Memories

abbrev mS : State := ((rdy.setF (State.chStateF 0) 2).setF (State.chStateF 1) 2)
abbrev late (s : State) (t : Nat := 10^14) : State := { s with fab := { s.fab with timecode := t } }
abbrev subS (x : Subchannel) : State := let s := late mS; { s with mem := { s.mem with subs := [(1, x)] } }
abbrev br : BankRow := { BankRow.reset with row := some 5 }
abbrev req : BurstReq := { order := 0, rank := 0, burst := 1, bytes := List.replicate 64 none, at_ := 0, passed := 0 }

theorem witness_DramReadsBackWhatWasWritten :
    ∃ (a : Nat) (l : List Byte) (s : State), (s.dramOk) :=
  ⟨100, [1,2,3], mS, dramOk_of_reset rfl (by decide +kernel)⟩

theorem witness_MemoryCommandsTakeEffect :
    (∃ (ch fails : Nat) (s : State), ch < 2 ∧ s.logicOn = true ∧ s.regsWf ∧ s.getF (State.chStateF ch) ≤ 1 ∧ s.getF
      F.memDdrCfgMaxRate + 2 ≤ fails) ∧
    (∃ (sub : Nat) (r : BurstReq) (s : State), (s.subch sub).alertLow = false ∧ (s.getF F.memStatusSubFailed).testBit
      sub = false ∧ s.getF (State.chStateF (sub / 2)) = 2 ∧ (s.subch sub).writes = [] ∧ (s.subch sub).reads = [r] ∧ 0
      < s.getF F.memWqHigh ∧ Sparse.wf (fun x => Subchannel.reset) s.mem.subs = true) ∧
    (∃ (sub : Nat) (ok : Bool) (s : State), (sub < 4 ∧ (s.subch sub).alertLow = false ∧ Sparse.wf (fun x =>
      Subchannel.reset) s.mem.subs = true ∧ s.regsWf ∧ 3 ≤ (s.subch sub).replays) ∧ (∃ t, (s.subch sub).replayEnd =
      some t ∧ s.fab.timecode ≤ t + 64000)) ∧
    (∃ (s : State), s.mem.rank1Training = true ∧ Sparse.wf (fun x => RankRefresh.reset) s.mem.ranks = true) ∧
    (∃ (ch fails : Nat) (s : State), ch < 2 ∧ s.logicOn = true ∧ s.regsWf ∧ s.getF (State.chStateF ch) ≤ 1 ∧ fails <
      s.getF F.memDdrCfgMaxRate + 2) ∧
    (∃ (ch : Nat) (s : State) (rank : Nat) (hot : Bool), s.getF (State.chStateF ch) = 2 ∧ Sparse.wf (fun x => 0)
      s.mem.zqAt = true ∧ Sparse.wf (fun x => 0) s.mem.dqsAt = true ∧ Sparse.wf (fun x => 0) s.mem.mr4At = true ∧
      Sparse.wf (fun x => RankRefresh.reset) s.mem.ranks = true ∧ s.since (sparseGet (fun x => 0) s.mem.mr4At (ch * 2
      + rank)) 32000000 = true) ∧
    (∃ (sub : Nat) (s : State), s.since (s.subch sub).seededAt 1000000 = true ∧ s.onF F.secStatusEntropyFail = false ∧
      Sparse.wf (fun x => Subchannel.reset) s.mem.subs = true) ∧
    (∃ (ch : Nat) (s : State), s.getF (State.chStateF ch) = 2 ∧ Sparse.wf (fun x => 0) s.mem.zqAt = true ∧ Sparse.wf
      (fun x => 0) s.mem.dqsAt = true ∧ Sparse.wf (fun x => 0) s.mem.mr4At = true ∧ Sparse.wf (fun x =>
      RankRefresh.reset) s.mem.ranks = true ∧ s.since (sparseGet (fun x => 0) s.mem.zqAt ch) 128000000 = true) ∧
    (∃ (ch : Nat) (s : State), s.getF (State.chStateF ch) = 2 ∧ Sparse.wf (fun x => 0) s.mem.zqAt = true ∧ Sparse.wf
      (fun x => 0) s.mem.dqsAt = true ∧ Sparse.wf (fun x => 0) s.mem.mr4At = true ∧ Sparse.wf (fun x =>
      RankRefresh.reset) s.mem.ranks = true ∧ s.since (sparseGet (fun x => 0) s.mem.dqsAt ch) 1000000 = true) ∧
    (∃ (ch : Nat) (s : State) (rank : Nat), s.getF (State.chStateF ch) = 2 ∧ Sparse.wf (fun x => 0) s.mem.zqAt = true
      ∧ Sparse.wf (fun x => 0) s.mem.dqsAt = true ∧ Sparse.wf (fun x => 0) s.mem.mr4At = true ∧ Sparse.wf (fun x =>
      RankRefresh.reset) s.mem.ranks = true ∧ (s.rankRefresh ch rank).selfRef = false ∧ (s.since (s.rankRefresh ch
      rank).lastAt (if (s.rankRefresh ch rank).hot = true then 1950 else 3900) = true)) ∧
    (∃ (sub bank row : Nat) (b : BankRow) (s : State), sparseGet (fun x => BankRow.reset) (s.subch sub).rows bank = b
      ∧ b.row = some row ∧ b.used + ckTime (s.getF (State.chRateF (sub / 2))) (s.getF F.memPageIdle) ≤ s.fab.timecode
      ∧ Sparse.wf (fun x => Subchannel.reset) s.mem.subs = true ∧ Sparse.wf (fun x => BankRow.reset) (s.subch
      sub).rows = true) ∧
    (∃ (sub : Nat) (s : State), (s.subch sub).alertLow = false ∧ (s.getF F.memStatusSubFailed).testBit sub = false ∧
      s.getF (State.chStateF (sub / 2)) = 2 ∧ (s.subch sub).writes = [] ∧ (s.subch sub).reads = [] ∧ 0 < s.getF
      F.memWqHigh ∧ Sparse.wf (fun x => Subchannel.reset) s.mem.subs = true) ∧
    (∃ (sub : Nat) (ok : Bool) (s : State), (sub < 4 ∧ (s.subch sub).alertLow = false ∧ Sparse.wf (fun x =>
      Subchannel.reset) s.mem.subs = true ∧ s.regsWf) ∧ (¬∃ t, (s.subch sub).replayEnd = some t ∧ s.fab.timecode ≤ t +
      64000)) ∧
    (∃ (sub : Nat) (s : State), (s.subch sub).alertLow = true ∧ (s.getF F.memStatusSubFailed).testBit sub = false ∧
      Sparse.wf (fun x => Subchannel.reset) s.mem.subs = true) ∧
    (∃ (ch : Nat) (s : State), (ch < 2 ∧ s.getF (State.chStateF ch) = 2 ∧ 0 < s.blocksPerRank ∧ 0 < s.rankCount ∧
      s.mem.filled = []) ∧ (∀ (i : Nat), i = 2 * ch ∨ i = 2 * ch + 1 → (s.subch i).reads = [] ∧ (s.subch i).writes =
      [])) ∧
    (∃ (s : State), s.onF F.memCtrlScrubEn = true ∧ s.logicOn = true ∧ s.dramBytes ≠ 0 ∧ s.mem.masks = [] ∧ (s.canDraw
      (if s.isFilled (s.mem.scrubPos * 512) = true then s.dramNeeds ownMedia (s.mem.scrubPos * 512) 512 false else [])
      = true)) ∧
    (∃ (path : Path) (v : Word) (s : State), s.admits path A.memFlipCtrl ∧ s.regsWf ∧ F.memFlipCtrlArm.get v = 1) ∧
    (∃ (path : Path) (v : Word) (s : State), s.admits path A.memHealCtrl ∧ s.regsWf ∧ F.memHealCtrlGo.get v = 1 ∧
      s.mem.masks = []) ∧
    (∃ (path : Path) (v : Word) (s : State), s.admits path A.memCtrl ∧ s.regsWf ∧ s.inMode Mode.service = true) ∧
    (∃ (path : Path) (v : Word) (s : State), s.admits path A.memCtrl ∧ s.regsWf ∧ s.inMode Mode.service = false) ∧
    (∃ (ch : Nat) (s : State) (rank : Nat), s.getF (State.chStateF ch) = 2 ∧ Sparse.wf (fun x => 0) s.mem.zqAt = true
      ∧ Sparse.wf (fun x => 0) s.mem.dqsAt = true ∧ Sparse.wf (fun x => 0) s.mem.mr4At = true ∧ Sparse.wf (fun x =>
      RankRefresh.reset) s.mem.ranks = true ∧ (s.rankRefresh ch rank).selfRef = false ∧ (s.since (s.rankRefresh ch
      rank).lastAt (if (s.rankRefresh ch rank).hot = true then 1950 else 3900) = false) ∧ s.readsWait ch = false ∧ 0 <
      (s.rankRefresh ch rank).postponed) ∧
    (∃ (s : State), s.logicOn = true ∧ s.since s.mem.sramAt 1000000000 = true ∧ s.mem.masks = [] ∧ s.mem.ces = []) ∧
    (∃ (s : State), s.onF F.memCtrlScrubEn = true ∧ s.logicOn = true ∧ s.dramBytes ≠ 0 ∧ s.mem.masks = [] ∧ (s.canDraw
      (if s.isFilled (s.mem.scrubPos * 512) = true then s.dramNeeds ownMedia (s.mem.scrubPos * 512) 512 false else [])
      = false)) :=
  ⟨⟨1, 9, rdy.setF F.memDdrCfgMaxRate 3, by decide +kernel⟩,
   ⟨1, req, subS { Subchannel.reset with reads := [req], nextOrder := 1 }, by decide +kernel⟩,
   ⟨1, true, subS { Subchannel.reset with replayEnd := some (10^14 - 64000), replays := 3}, by decide +kernel,
     exists_some (by decide +kernel)⟩,
   ⟨{ mS with mem := { mS.mem with rank1Training := true } }, by decide +kernel⟩,
   ⟨0, 0, rdy, by decide +kernel⟩,
   ⟨0, late mS, 1, true, by decide +kernel⟩,
   ⟨1, subS { Subchannel.reset with rmwPart := 1 }, by decide +kernel⟩,
   ⟨0, late mS, by decide +kernel⟩,
   ⟨0, late mS, by decide +kernel⟩,
   ⟨0, late mS, 1, by decide +kernel⟩,
   ⟨1, 2, 5, br, subS { Subchannel.reset with rows := [(2, br)] }, by decide +kernel⟩,
   ⟨1, subS { Subchannel.reset with draining := true }, by decide +kernel⟩,
   ⟨1, true, subS { Subchannel.reset with rmwPart := 1 }, by decide +kernel, not_exists_some (by decide +kernel)⟩,
   ⟨1, subS { Subchannel.reset with alertLow := true }, by decide +kernel⟩,
   ⟨1, mS, by decide +kernel, forall_pair (by decide +kernel) (by decide +kernel)⟩,
   ⟨mS.setF F.memCtrlScrubEn 1, by decide +kernel⟩,
   ⟨.core, 0x80000000, mS, by decide +kernel⟩,
   ⟨.core, 0x80000000, mS, by decide +kernel⟩,
   ⟨.core, 0xFFFFFFFF, svc, by decide +kernel⟩,
   ⟨.core, 0xFFFFFFFF, mS, by decide +kernel⟩,
   ⟨0, { mS with mem := { mS.mem with ranks := [(1, { RankRefresh.reset with postponed := 2 })] } }, 1, by
     decide +kernel⟩,
   ⟨late mS, by decide +kernel⟩,
   ⟨{ mS.setF F.memCtrlScrubEn 1 with mem := { mS.mem with filled := [(0, true)] } }, by decide +kernel⟩⟩

end Memories

namespace FlashChannels

abbrev late (s : State) (t : Nat := 10^14) : State := { s with fab := { s.fab with timecode := t } }
abbrev fop (k : FlashKind) (q : Bool := false) : FlashOp := { kind := k, user := .ckpt, owner := 1009, own := true, block := 3, page := 2, cw := 1, planes := 1, began := if q then none else some 0, issued := if q then none else some 0, suspendedAt := none, suspends := 0, step := 0, ready := false, pollAt := 0, order := 0, at_ := 0, gen := 0, moved := 0, soft := 0, skip := 0 }
abbrev nrec : NandRec := { levels := 8, ageClasses := 1, loopFeature := 1, suspOp := 1, softDelta := 1, trMax := 1, tprogMax := 1, tbersMax := 1, peLimits := [], shiftFeature := 1, resumeOp := 1, defaultShift := [], retryShift := [] }
abbrev gm : NandGeom := { pageSize := 18432, dataArea := 16384, pages := 1024, blocks := 1000, planes := 1, bits := 3 }
abbrev tg (ce : Nat) : NandTarget := { ce := ce, luns := 3, geom := gm }
abbrev fS (l : List FlashOp) (s : State := rdy) : State := late { ((s.setF (F.fchStatusState 2) 2).setF (F.fchPresentPresent 2) 3) with fch := { s.fch with geom := some gm, nandRec := some nrec, chans := [(2, { Channel.reset with luns := if l = [] then [] else [(1, { Lun.reset with queue := l })] })] } }
abbrev fC (l : List FlashOp) (s : State := rdy) : State := cellsFor (fS l s) 1009
abbrev fE : State := { fS [] with fch := { (fS []).fch with chans := [] } }
abbrev chS (x : Channel) (st : Nat := 2) : State := let s := (fS []).setF (F.fchStatusState 2) st; { s with fch := { s.fch with chans := [(2, x)] } }
abbrev upS_ : State := { ((fS []).setF (F.fchStatusState 2) 0) with fch := { (fS []).fch with chans := [] } }
abbrev rop (n : Nat) : FlashOp := { fop .read with ready := true, step := n, moved := 1000 }
abbrev sS : State := let s := fS [rop 16]; { s with fch := { s.fch with softBusy := [{ ch := 2, lun := 1 }] } }
abbrev sus (k : FlashKind) : FlashOp := { fop k with suspendedAt := some 0 }

theorem witness_FlashChannelsTrainAndFence :
    (∃ (ch r : Nat) (s : State), ch < 16 ∧ (s.regsWf ∧ Sparse.wf (fun x => Channel.reset) s.fch.chans = true ∧
      Sparse.wf (fun x => Lun.reset) (s.chan ch).luns = true) ∧ (s.chan ch).fenced = false ∧ s.logicOn = true ∧ s.getF
      (F.fchStatusState ch) ≤ 1 ∧ (s.chan ch).keptRate = some r ∧ r < 8 ∧ (s.chan ch).present < 2 ^ 32) ∧
    (∃ (ch : Nat) (path : Path) (s : State), ch < 16 ∧ (s.regsWf ∧ Sparse.wf (fun x => Channel.reset) s.fch.chans =
      true ∧ Sparse.wf (fun x => Lun.reset) (s.chan ch).luns = true) ∧ s.admits path (A.fchCtrl ch) ∧ s.inMode
      Mode.service = true) ∧
    (∃ (ch fails : Nat) (targets : List NandTarget) (g : NandGeom) (s : State), ch < 16 ∧ (s.regsWf ∧ Sparse.wf (fun x
      => Channel.reset) s.fch.chans = true ∧ Sparse.wf (fun x => Lun.reset) (s.chan ch).luns = true) ∧ (s.chan
      ch).fenced = false ∧ s.logicOn = true ∧ s.getF (F.fchStatusState ch) ≤ 1 ∧ (s.chan ch).retraining = false ∧
      (s.chan ch).keptRate = none ∧ (ch ≠ 0 ∧ s.fch.geom = some g ∨ ch = 0 ∧ s.fch.nandRec = none ∧ Option.map (fun x
      => x.geom) (List.find? (fun t => State.geomSupported t.geom) targets) = some g) ∧ fails < max 1 (min 6 (s.getF
      (F.fchCfgMaxRate ch))) + 2) ∧
    (∃ (ch fails : Nat) (s : State), ch < 16 ∧ (s.regsWf ∧ Sparse.wf (fun x => Channel.reset) s.fch.chans = true ∧
      Sparse.wf (fun x => Lun.reset) (s.chan ch).luns = true) ∧ (s.chan ch).retraining = true ∧ fails < max 1 (min 6
      (s.getF (F.fchCfgMaxRate ch))) + 2) ∧
    (∃ (ch lun : Nat) (written idFails : Bool) (s : State), (ch < 16 ∧ lun < 32 ∧ (s.regsWf ∧ Sparse.wf (fun x =>
      Channel.reset) s.fch.chans = true ∧ Sparse.wf (fun x => Lun.reset) (s.chan ch).luns = true) ∧ (s.getF
      (F.fchLunFenceFenced ch)).testBit lun = false ∧ (s.lun ch lun).queue = [] ∧ (s.lun ch lun).held = [] ∧ s.ftl.sbs
      = [] ∧ s.ftl.map = []) ∧ (written = true ∨ idFails = true ∨ 3 ≤ List.countP (fun t => !s.since t 1000000000)
      (s.lun ch lun).timeouts ∧ (s.lun ch lun).resetBad = true ∨ ∃ g, s.fch.geom = some g ∧ 0 < g.blocks ∧ g.blocks <
      (s.lun ch lun).retired * 50)) ∧
    (∃ (ch : Nat) (written : Bool) (s : State), ch < 16 ∧ (s.regsWf ∧ Sparse.wf (fun x => Channel.reset) s.fch.chans =
      true ∧ Sparse.wf (fun x => Lun.reset) (s.chan ch).luns = true) ∧ (s.chan ch).fenced = false ∧ (written = true ∨
      8 ≤ List.countP (fun l => (s.getF (F.fchLunFenceFenced ch)).testBit l) (List.range 32)) ∧ (s.chan ch).luns = []
      ∧ s.ftl.sbs = [] ∧ s.ftl.map = []) ∧
    (∃ (ch : Nat) (s : State), ch < 16 ∧ (s.regsWf ∧ Sparse.wf (fun x => Channel.reset) s.fch.chans = true ∧ Sparse.wf
      (fun x => Lun.reset) (s.chan ch).luns = true) ∧ (s.chan ch).rebuilding = true ∧ (s.chan ch).rebuildLeft = 0) ∧
    (∃ (ch fails : Nat) (targets : List NandTarget) (g : NandGeom) (s : State), ch < 16 ∧ (s.regsWf ∧ Sparse.wf (fun x
      => Channel.reset) s.fch.chans = true ∧ Sparse.wf (fun x => Lun.reset) (s.chan ch).luns = true) ∧ (s.chan
      ch).fenced = false ∧ s.logicOn = true ∧ s.getF (F.fchStatusState ch) ≤ 1 ∧ (s.chan ch).retraining = false ∧
      (s.chan ch).keptRate = none ∧ (ch ≠ 0 ∧ s.fch.geom = some g ∨ ch = 0 ∧ s.fch.nandRec = none ∧ Option.map (fun x
      => x.geom) (List.find? (fun t => State.geomSupported t.geom) targets) = some g) ∧ max 1 (min 6 (s.getF
      (F.fchCfgMaxRate ch))) + 2 ≤ fails) ∧
    (∃ (ch fails : Nat) (s : State), ch < 16 ∧ (s.regsWf ∧ Sparse.wf (fun x => Channel.reset) s.fch.chans = true ∧
      Sparse.wf (fun x => Lun.reset) (s.chan ch).luns = true) ∧ (s.chan ch).retraining = true ∧ max 1 (min 6 (s.getF
      (F.fchCfgMaxRate ch))) + 2 ≤ fails) :=
  ⟨⟨2, 7, chS { Channel.reset with keptRate := some 7, present := 5 } 0, by decide +kernel⟩,
   ⟨2, .core, let s := (fS [] svc).setF (F.fchStatusState 2) 4;
     { s with fch := { s.fch with chans := [(2, { Channel.reset with fenced := true })] } }, by decide +kernel⟩,
   ⟨2, 0, [tg 0, tg 1], gm, upS_, by decide +kernel⟩,
   ⟨2, 3, chS { Channel.reset with retraining := true, timeouts := [(0, 1)] } 1, by decide +kernel⟩,
   ⟨2, 31, true, false, fE, by decide +kernel, Or.inl (by decide +kernel)⟩,
   ⟨2, true, fE, by decide +kernel⟩,
   ⟨2, chS { Channel.reset with rebuilding := true, rebuildDone := 2 } 4, by decide +kernel⟩,
   ⟨2, 8, [tg 0], gm, upS_, by decide +kernel⟩,
   ⟨2, 9, chS { Channel.reset with retraining := true, timeouts := [(0, 1)] } 1, by decide +kernel⟩⟩

theorem witness_FlashOperationsTakeEffect :
    (∃ (ch lun : Nat) (busy fail : Bool) (o : FlashOp) (s : State), s.runningOp ch lun = some o ∧ o.pollAt ≤
      s.fab.timecode ∧ s.chanOnline ch = true ∧ s.canDraw [{ col := colFlash ch, owner := o.owner, count := 1 }] =
      true ∧ o.kind = FlashKind.read) ∧
    (∃ (ch lun loops n : Nat) (r : NandRec) (s : State), s.fch.nandRec = some r ∧ r.loopFeature ≠ 0 ∧ (s.lun ch
      lun).programs = 64 * n ∧ (s.lun ch lun).sampled < 64 * n ∧ s.regsWf ∧ Sparse.wf (fun x => Channel.reset)
      s.fch.chans = true ∧ s.canDraw [{ col := colFlash ch, owner := ownMedia, count := 1 }] = true) ∧
    (∃ (ch lun : Nat) (busy fail : Bool) (o : FlashOp) (s : State), s.runningOp ch lun = some o ∧ o.pollAt ≤
      s.fab.timecode ∧ s.chanOnline ch = true ∧ s.canDraw [{ col := colFlash ch, owner := o.owner, count := 1 }] =
      true ∧ o.kind ≠ FlashKind.read) ∧
    (∃ (ch lun : Nat) (z c : Bool) (o : FlashOp) (s : State), (s.readyOp ch lun = some o ∧ o.step < 16 ∧ (z && c) =
      false) ∧ (s.canDraw (s.dramNeeds o.owner (Config.bufferPlace 2) 4096 true) = true)) ∧
    (∃ (slot : Nat) (z c : Bool) (r : SoftReq) (o : FlashOp) (s : State), s.fch.softBusy[slot]? = some r ∧ (s.nextSoft
      slot).readyOp r.ch r.lun = some o ∧ (z && c) = false) ∧
    (∃ (ch lun : Nat) (busy fail : Bool) (o : FlashOp) (s : State), s.runningOp ch lun = some o ∧ o.pollAt ≤
      s.fab.timecode ∧ s.chanOnline ch = true ∧ s.canDraw [{ col := colFlash ch, owner := o.owner, count := 1 }] =
      false) ∧
    (∃ (ch lun : Nat) (resetOk : Bool) (o : FlashOp) (s : State), s.runningOp ch lun = some o ∧ s.since (o.issued.getD
      s.tick) (s.opLimit o.kind * 2000) = true ∧ (s.lun ch lun).queue = [o] ∧ Sparse.wf (fun x => Channel.reset)
      s.fch.chans = true ∧ Sparse.wf (fun x => Lun.reset) (s.chan ch).luns = true) ∧
    (∃ (ch lun : Nat) (z c : Bool) (o : FlashOp) (s : State), (s.readyOp ch lun = some o ∧ o.step < 16) ∧ (s.canDraw
      (s.dramNeeds o.owner (Config.bufferPlace 2) 4096 true) = false)) ∧
    (∃ (ch lun : Nat) (o : FlashOp) (s : State), s.runningOp ch lun = some o ∧ o.kind = FlashKind.program) ∧
    (∃ (ch lun : Nat) (o : FlashOp) (s : State), s.runningOp ch lun = some o ∧ o.kind = FlashKind.erase) ∧
    (∃ (ch lun : Nat) (o q : FlashOp) (r : NandRec) (s : State), s.runningOp ch lun = some o ∧ o.kind ≠ FlashKind.read
      ∧ s.fch.nandRec = some r ∧ r.suspOp ≠ 0 ∧ s.fch.powerFail = false ∧ s.chanOnline ch = true ∧ List.find? (fun x
      => decide (x.kind = FlashKind.read) && x.began.isNone) (s.lun ch lun).queue = some q ∧ (s.since (o.began.getD
      s.tick) (if o.kind = FlashKind.program then s.getF (F.fchSuspendPgmMinRun ch) * 1000 else s.getF
      (F.fchSuspendErsMinRun ch) * 10000) = true) ∧ (o.suspends < if o.kind = FlashKind.program then s.getF
      (F.fchSuspendPgmMax ch) else s.getF (F.fchSuspendErsMax ch)) ∧ s.canDraw
      [{ col := colFlash ch, owner := q.owner, count := 1 }] = true) ∧
    (∃ (ch lun : Nat) (o : FlashOp) (s : State), List.find? (fun o => o.suspendedAt.isSome) (s.lun ch lun).queue =
      some o ∧ ((∀ (x : FlashOp), x ∈ (s.lun ch lun).queue → x.kind ≠ FlashKind.read) ∨ s.since (o.suspendedAt.getD 0)
      (s.getF (F.fchSuspend2HoldMax ch) * 1000) = true) ∧ (∀ (x : FlashOp), x ∈ (s.lun ch lun).queue → x.ready =
      false) ∧ s.runningOp ch lun = none ∧ (s.fch.powerFail = false ∨ o.kind ≠ FlashKind.erase) ∧ s.canDraw
      [{ col := colFlash ch, owner := o.owner, count := 1 }] = true) :=
  ⟨⟨2, 1, true, false, fop .read, fC [fop .read], by decide +kernel⟩,
   ⟨2, 1, 7, 1, nrec, cellsFor (chS { Channel.reset with luns := [(1, { Lun.reset with programs := 64 })] }) 1009, by
     decide +kernel⟩,
   ⟨2, 1, true, false, fop .program, fC [fop .program], by decide +kernel⟩,
   ⟨2, 1, true, false, rop 0, fC [rop 0], by decide +kernel, draw_dram (by decide +kernel)⟩,
   ⟨0, true, false, { ch := 2, lun := 1 }, rop 16, sS, by decide +kernel⟩,
   ⟨2, 1, true, false, fop .program, fS [fop .program], by decide +kernel⟩,
   ⟨2, 1, true, fop .read, fS [fop .read], by decide +kernel⟩,
   ⟨2, 1, true, true, rop 15, fS [rop 15], by decide +kernel, no_draw_dram (by decide +kernel)⟩,
   ⟨2, 1, fop .program, fS [fop .program], by decide +kernel⟩,
   ⟨2, 1, fop .erase, fS [fop .erase], by decide +kernel⟩,
   ⟨2, 1, fop .program, fop .read true, nrec, fC [fop .program, fop .read true], by decide +kernel⟩,
   ⟨2, 1, sus .program, fC [sus .program], by decide +kernel⟩⟩

end FlashChannels

namespace Mapping

abbrev late (s : State) (t : Nat := 10^16) : State := { s with fab := { s.fab with timecode := t } }
abbrev gm (s : State) : State :=
  let s := (List.range 4).foldl (fun (s : State) c => ((s.setF (F.fchStatusState c) 2).setF (F.fchPresentPresent c) 1).setF (F.fchCfgRainGroup c) 0) s
  { s with fch := { s.fch with geom := some { pageSize := 16384, dataArea := 16384, pages := 64, blocks := 8, planes := 1, bits := 3 } }, ftl := { s.ftl with groups := [[0,1,2,3]], groupLuns := [[0]] } }
abbrev g0 : State := late ((gm (withNs act (nsOf .flash))).setF F.ftlStatusState 3)
abbrev wbe : WbEntry := { nsid := 1, unit := 4, data := List.replicate 16 5, lo := 0, hi := 4096, key := io, gen := 0, complete := true, age := 0, order := 0, flushing := false, slot := none, mapped := none }
abbrev fl (f : Ftl → Ftl) (s : State := g0) : State := { s with ftl := f s.ftl }
abbrev fsS : State := (fl fun f => { f with wb := [wbe] }).setF (F.ftlFreeSbCount 0) 50
abbrev sbO : Superblock := { Superblock.reset with st := .opened, stream := some .hostHot, chans := [0,1,2,3], next := 5, slots := 768 }
abbrev rf : RowFill := { filled := 5, firstAt := 0, owner := 0 }
abbrev jr (n : Nat) : JrnRec := { seq := n, kind := .mapSet, ns := 1, count := 1, a := 0, b := 0, c := 0, time := 0 }
abbrev cw (n : Nat) : JrnCw := { pageSeq := n, recs := [jr (10 * n), jr (10 * n + 9)], bytes := [], left := [], passed := 2 }
abbrev sbC : Superblock := { Superblock.reset with st := .closed, stream := some .hostHot, chans := [0,1,2,3], next := 768, slots := 768, valid := 1 }
abbrev gcS : State := (fl fun f => { f with sbs := [(0, sbC)], map := [(2^40, 7)] }).setF (F.ftlFreeSbCount 0) 6
abbrev uc : UnitCopy := { nsid := 1, unit := 0, src := some 7, dst := some 16384, stream := .gcCold, data := [], ready := true }
abbrev erS (x : Superblock) : State := fl (fun f => { f with sbs := [(0, x)] })
abbrev da : Dealloc := { nsid := 1, first := 3, count := 1, time := 0 }
abbrev exT : Extent := { Extent.reset with st := .flash }
abbrev tS : State := let s := late ((gm (withNs act (nsOf .tiered))).setF F.ftlStatusState 3); { s with dch := { s.dch with zones := [{ zone0 with act := 0 }, { zone0 with act := 1, firstBand := 20, bandCount := 2 }] } }
abbrev ex (st : ExtSt) : Extent := { Extent.reset with st := st, heat := 3, classified := true, act := 0, band := 3, slot := 0 }
abbrev tf (f : Ftl → Ftl) (s : State := tS) : State := { s with ftl := f s.ftl }
abbrev demS : State := (tf (fun f => { f with extents := [(2^32+1, ex .flash)] })).setF F.ftlStatusEvacActive 1
abbrev bmv : BandMove := { act := 0, band := 3, extents := [(1,1)], old := none, done := 256, lastSeq := some 5 }
abbrev proS : State := (tf (fun f => { f with extents := [(2^32+1, ex .disk)], wb := [{ wbe with unit := 256 }], freeChunks := [9], chunks := 100, diskClear := (List.range 256).map fun i => (2^40+256+i, true) })).setF F.ftlTierCapChunks 50
abbrev bcS (e : Sparse Extent) : State := let s := tf (fun f => { f with extents := e}); { s with dch := { s.dch with bands := [(3, { Band.reset with st := .full, weak := true })] } }
abbrev duS : State := (fl (fun f => { f with dumping := true, wb := [wbe] })).queueOp 0 0 ((fl (fun f => { f with dumping := true })).newOp .program .dump ownMedia true 0 0 0 1)
abbrev gcP := (gcS.slotPlace 0 7).getD (0, 0, 0, 0, 0)

theorem witness_TranslationCommandsTakeEffect :
    (∃ (q : Nat) (s : State), s.ftl.ckptStart = some q ∧ s.ckptLeft = 0 ∧ s.regsWf) ∧
    (∃ (r : JrnRec) (rest : List JrnRec) (s : State), (s.ftl.tail = r :: rest ∧ (126 ≤ s.ftl.tail.length ∨ s.since
      r.time 200000 = true) ∧ s.pageLuns ≠ [] ∧ s.ftl.dumping = false) ∧ (s.canDraw (s.dramNeeds ownMedia
      (Config.bufferPlace 5) 4096 false) = true)) ∧
    (∃ (c : JrnCw) (rest : List JrnCw) (s : State), s.ftl.cws = c :: rest ∧ (∀ (d : JrnCw), d ∈ rest → d.pageSeq ≠
      c.pageSeq) ∧ c.left = [] ∧ 0 < c.passed ∧ s.ftl.moves = [] ∧ s.ftl.dump = none ∧ s.ftl.promos = [] ∧ s.regsWf) ∧
    (∃ (s : State), (s.ftl.ckptStart = none ∧ s.regsWf ∧ s.getF F.ftlStatusState = 3 ∧ s.pageLuns ≠ [] ∧ (8 * 2 ^ 30 <
      s.ftl.jrnBytes ∨ s.onF F.ftlCtrlCkptNow = true ∨ s.bestRoot = none ∨ s.since s.ftl.ckptAt 1800000000000 = true))
      ∧ (s.canDraw (s.dramNeeds ownMedia (Config.bufferPlace 3) (4096 * s.ckptSize) false) = true)) ∧
    (∃ (s : State), s.ftl.dumping = true ∧ s.dumpLeft = 0 ∧ s.regsWf) ∧
    (∃ (lane a : Nat) (s : State), sparseGet (fun x => none) s.ftl.openWait lane = some a ∧ s.since a 1000000000 =
      true ∧ s.slotWaiters lane = []) ∧
    (∃ (path : Path) (s : State), s.logicOn = true ∧ path ≠ Path.vf ∧ Sparse.wf (fun x => 0) s.ftl.durHi = true) ∧
    (∃ (path : Path) (v : Word) (s : State), s.regsWf ∧ s.admits path A.ftlCtrl ∧ F.ftlCtrlCkptNow.get v = 1) ∧
    (∃ (lane seg g l b : Nat) (s : State), s.sbPlace lane seg = some (g, l, b) ∧ (s.sb lane seg).st = SbSt.erasing ∧
      (s.sb lane seg).eraseSeq ≤ s.ftl.durable ∧ s.ftl.progs = [] ∧ List.filter (fun c => s.blockUsable c l b)
      (s.groupMembers g) ≠ []) ∧
    (∃ (nsid unit : Nat) (e : WbEntry) (n : Namespace) (s : State), (List.find? (fun e => decide (e.nsid = nsid) &&
      decide (e.unit = unit) && e.complete && e.mapped.isNone) s.ftl.wb = some e ∧ e.flushing = false ∧ s.since e.age
      100000000 = true ∧ s.ns nsid = some n ∧ n.type ≠ NsType.zoned ∧ (s.extent nsid (unit / 256)).st ≠ ExtSt.disk ∧
      s.getF F.ftlStatusState = 3 ∧ s.laneUrgent (unit % 4) = false ∧ s.flushBarred nsid unit = false ∧ (s.nsKey
      nsid).isSome = true) ∧ (s.noErrors) ∧ (s.canDraw (s.dramNeeds ownMedia (Config.bufferPlace 0) 4096 false ++
      State.need colSec (State.flushOwner e) 4096 512) = false)) ∧
    (∃ (nsid unit : Nat) (e : WbEntry) (n : Namespace) (s : State), (List.find? (fun e => decide (e.nsid = nsid) &&
      decide (e.unit = unit) && e.complete && e.mapped.isNone) s.ftl.wb = some e ∧ e.flushing = false ∧ s.since e.age
      100000000 = true ∧ s.ns nsid = some n ∧ n.type ≠ NsType.zoned ∧ (s.extent nsid (unit / 256)).st ≠ ExtSt.disk ∧
      s.getF F.ftlStatusState = 3 ∧ s.laneUrgent (unit % 4) = false ∧ s.flushBarred nsid unit = false ∧ (s.nsKey
      nsid).isSome = true) ∧ (s.noErrors) ∧ (s.canDraw (s.dramNeeds ownMedia (Config.bufferPlace 0) 4096 false ++
      State.need colSec (State.flushOwner e) 4096 512) = true)) ∧
    (∃ (stream lane seg : Nat) (x : Superblock) (s : State), lane < 4 ∧ stream < 4 ∧ List.filter (fun e => decide
      (e.snd.st = SbSt.opened) && decide (e.snd.stream = some (Stream.ofNum stream)) && match sparseGet (fun x =>
      none) s.ftl.rows (sbKey lane e.fst) with | some r => s.since r.firstAt 100000000 | none => false) (s.listedSbs
      lane) = [(seg, x)]) ∧
    (∃ (lane seg k v : Nat) (x : Superblock) (s : State), lane < 4 ∧ s.getF (F.ftlFreeSbCount lane) ≤ 8 ∧ s.getF
      F.ftlStatusState = 3 ∧ s.listedSbs lane = [(seg, x)] ∧ x.st = SbSt.closed ∧ 0 < x.valid ∧ s.copySources = [] ∧
      s.ftl.map = [(k, v)] ∧ k % 2 ^ 40 % 4 = lane ∧ v < mapZero - 15 ∧ s.sbOfSlot lane v = seg) ∧
    (∃ (c : UnitCopy) (src dst : Nat) (s : State), s.ftl.copies = [c] ∧ c.src = some src ∧ c.dst = some dst ∧ c.ready
      = true) ∧
    (∃ (lane seg g l b : Nat) (s : State), s.sbPlace lane seg = some (g, l, b) ∧ ((s.sb lane seg).st = SbSt.closed ∨
      (s.sb lane seg).st = SbSt.eraseIncomplete) ∧ (s.sb lane seg).valid = 0 ∧ (s.sb lane seg).lastSeq ≤
      s.ftl.durable) ∧
    (∃ (s : State), s.ftl.deallocs = []) ∧
    (∃ (d : Dealloc) (s : State), s.ftl.deallocs = [d] ∧ d.count = 1 ∧ s.ftl.wb = [] ∧ s.ftl.dumpWaits = [] ∧
      (({ s with ftl := { s.ftl with deallocs := [] } }.mapRun JrnKind.mapClear mapUnmapped d.nsid d.first 1).extent
      d.nsid (d.first / 256)).st = ExtSt.flash) ∧
    (∃ (s : State), s.ftl.dumping = true ∧ 0 < s.dumpLeft) ∧
    (∃ (lane seg k v : Nat) (x : Superblock) (s : State) (c l b p w : Nat), lane < 4 ∧ s.getF (F.ftlFreeSbCount lane)
      ≤ 8 ∧ s.getF F.ftlStatusState = 3 ∧ s.listedSbs lane = [(seg, x)] ∧ x.st = SbSt.closed ∧ 0 < x.valid ∧
      s.copySources = [] ∧ s.ftl.map = [(k, v)] ∧ k % 2 ^ 40 % 4 = lane ∧ v < mapZero - 15 ∧ s.sbOfSlot lane v = seg ∧
      s.slotPlace lane v = some (c, l, b, p, w) ∧ s.chanServes c = true ∧ s.lunUsable c l = true) :=
  ⟨⟨3, fl fun f => { f with ckptStart := some 3, ckptNext := some { map := [], extents := [] } }, by decide +kernel⟩,
   ⟨jr 1, [jr 2, jr 3], cellsFor (fl fun f => { f with tail := [jr 1, jr 2, jr 3] }) 1009, by decide +kernel,
     draw_dram (by decide +kernel)⟩,
   ⟨cw 1, [cw 2], fl fun f =>
     { f with cws := [cw 1, cw 2], wb := [wbe, {wbe with unit := 5, mapped := some 19}, {wbe with unit := 6, mapped := some 20} ] },
     by decide +kernel⟩,
   ⟨cellsFor (fl fun f => { f with map := [(2^40, 5)] }) 1009, by decide +kernel, draw_dram (by decide +kernel)⟩,
   ⟨fl (fun f => { f with dumping := true, wb := [wbe] }), by decide +kernel⟩,
   ⟨2, 7, fl fun f => { f with openWait := [(2, some 7)] }, by decide +kernel⟩,
   ⟨.core, fl fun f => { f with durable := 2^33+5 }, by decide +kernel⟩,
   ⟨.core, 1, g0, by decide +kernel⟩,
   ⟨0, 0, 0, 0, 0, erS { sbC with valid := 0, st := .erasing }, by decide +kernel⟩,
   ⟨1, 4, wbe, nsOf .flash, fsS, by decide +kernel, noErrors_of (by decide +kernel), draw_append_right (by
     decide +kernel)⟩,
   ⟨1, 4, wbe, nsOf .flash, cellsFor (cellsFor fsS 1009) 1008, by decide +kernel, noErrors_of (by decide +kernel),
     draw_append (draw_dram (by decide +kernel)) (by decide +kernel)⟩,
   ⟨0, 0, 1, sbO, fl fun f => { f with sbs := [(1, sbO)], rows := [(1, some rf)] }, by decide +kernel⟩,
   ⟨0, 0, 2^40, 7, sbC, gcS, by decide +kernel⟩,
   ⟨uc, 7, 16384, fl (fun f => { f with copies := [uc] }) gcS, by decide +kernel⟩,
   ⟨0, 0, 0, 0, 0, erS { sbC with valid := 0 }, by decide +kernel⟩,
   ⟨g0, by decide +kernel⟩,
   ⟨da, fl (fun f => { f with deallocs := [da], map := [(2^40+3, 8)], extents := [(2^32, exT)] }) gcS, by
     decide +kernel⟩,
   ⟨duS, by decide +kernel⟩,
   ⟨0, 0, 2^40, 7, sbC, gcS.setF (F.fchPresentPresent gcP.1) 15, gcP.1, gcP.2.1, gcP.2.2.1, gcP.2.2.2.1, gcP.2.2.2.2,
     by decide +kernel⟩⟩

theorem witness_TieringCommandsTakeEffect :
    (∃ (a b c : Int) (s : State), (s.regsWf ∧ 0 ≤ a ∧ a < 400 ∧ 0 ≤ b ∧ b < 400 ∧ 0 ≤ c ∧ c < 400) ∧ (∀ (x : Nat),
      s.ftl.sensorAt = some x → s.since x 1000000000 = true)) ∧
    (∃ (s : State), s.onF F.ftlStatusEvacActive = false ∧ s.sparePool * 50 < s.ftl.rawBlocks ∧ s.regsWf) ∧
    (∃ (s : State), s.since s.ftl.epochAt (s.getF F.ftlHeatEpochSeconds * 1000000000) = true) ∧
    (∃ (s : State), s.sparePool < s.getF F.ftlSpareFloorBlocks ∧ s.tieredChunks = 0 ∧ s.inMode Mode.readOnly = false ∧
      s.regsWf) ∧
    (∃ (a b : Nat) (e : Nat × Nat) (s : State), s.onF F.ftlStatusEvacActive = true ∧ a = 1 - s.ftl.lastAct % 2 ∧
      s.freeBand a = some b ∧ s.coldExtents = [e] ∧ 256 ≤ (s.band b).capacity) ∧
    (∃ (nsid ext q : Nat) (m : BandMove) (s : State), s.ftl.moves = [m] ∧ m.old = none ∧ m.extents = [(nsid, ext)] ∧
      m.lastSeq = some q ∧ q ≤ s.ftl.durable ∧ (s.extent nsid ext).st ≠ ExtSt.disk ∧ s.onF F.ftlStatusEvacActive =
      false) ∧
    (∃ (act band b : Nat) (s : State), Option.map (fun x => x.act) (s.bandRec band) = some act ∧ (s.band band).st =
      BandSt.full ∧ s.bandZoned band = false ∧ s.actOnline act = true ∧ s.ftl.moves = [] ∧ (s.band band).weak = true ∧
      s.freeBand act = some b) ∧
    (∃ (s : State), s.since s.ftl.binAt 60000000000 = true ∧ (∀ (i : Nat), i < 3 → s.onF (State.sensorValidF i) =
      false)) ∧
    (∃ (s : State), s.since s.ftl.tempsSavedAt 3600000000000 = true) ∧
    (∃ (s : State), s.ftl.dailiesAt = none) ∧
    (∃ (nsid ext c : Nat) (u s : State), (s.extent nsid ext).st = ExtSt.disk ∧ s.isTiered nsid = true ∧ (s.extWritten
      nsid ext = true ∨ s.getF F.ftlHeatCfgPromoteMin ≤ (s.extent nsid ext).heat ∧ s.tieredAbove (s.getF
      F.ftlMigrateCfgLow) = true ∧ s.writtenWaits = false) ∧ s.promoting nsid ext = false ∧ s.extOnline (s.extent nsid
      ext) = true ∧ s.chunkRoom nsid 1 = true ∧ s.getF F.ftlStatusState = 3 ∧ s.takeChunk = (some c, u) ∧ (∀ (i :
      Nat), i < 256 → (s.wbFind nsid (ext * 256 + i)).isSome = true ∨ s.unitEmpty nsid (ext * 256 + i) = true)) :=
  ⟨⟨300, 200, 0, tS, by decide +kernel, forall_some (by decide +kernel)⟩,
   ⟨tf fun f => { f with rawBlocks := 100 }, by decide +kernel⟩,
   ⟨fl fun f => { f with extents := [(2^32, { Extent.reset with st := .flash, heat := 100 })] }, by decide +kernel⟩,
   ⟨tS.setF F.ftlSpareFloorBlocks 5, by decide +kernel⟩,
   ⟨0, 3, (1, 1), demS, by decide +kernel⟩,
   ⟨1, 1, 5, bmv, tf fun f => { f with moves := [bmv], durable := 5 }, by decide +kernel⟩,
   ⟨0, 3, ((bcS []).freeBand 0).getD 0, bcS [], by decide +kernel⟩,
   ⟨tS, by decide +kernel⟩,
   ⟨tS, by decide +kernel⟩,
   ⟨tS, by decide +kernel⟩,
   ⟨1, 1, 9, proS.takeChunk.2, proS, by decide +kernel⟩⟩

end Mapping

namespace Disks

abbrev nsZ : Namespace := { nsOf .zoned with zones := [(0, 3), (1, 20)] }
abbrev dz (d : DiskAct) (b : Sparse Band := []) : State :=
  let s := ((((withNs act nsZ).setF (F.dchStatusState 0) 2).setF (F.dchStatusClkLock 0) 1).setF (F.srvActStatusOnTrack 0) 1).setF (F.srvActStatusWriteSafe 0) 1
  { s with dch := { s.dch with zones := [zone0, { zone0 with act := 1, firstBand := 20, bandCount := 2 }], acts := if d = DiskAct.reset then [] else [(0, d)], bands := b } }
abbrev d0 := DiskAct.reset
abbrev dzR : State := let s := dz d0; { s with ftl := { s.ftl with reads := [{ reader := .cmd io, inst := 600, gen := 4, nsid := 1, unit := 17, band := some (3, 17), lost := false }] } }
abbrev wbz : WbEntry := { nsid := 1, unit := 2, data := List.replicate 16 5, lo := 0, hi := 4096, key := io, gen := 0, complete := true, age := 0, order := 0, flushing := false, slot := none, mapped := none }
abbrev wqS : State := let s := dz d0 [(3, { Band.reset with st := .opened, nextPos := 2 })]; { s with ftl := { s.ftl with wb := [wbz] } }
abbrev svd : State := let s := dz d0; { s.setF F.pwrModeMode Mode.service.code with pwr := { s.pwr with starting := none } }
abbrev rd (st : ReadSt) : SectorRead := { user := .reader (.cmd io), inst := 0, gen := 0, band := 3, unit := 17, pos := 17, st := st, step := 1, dets := [], starts := [5, 6], start := 0, first := 0 }
abbrev syncAt : Nat := 0x8DA700
abbrev rd0 : SectorRead := { rd .decode with step := 0 }
abbrev wr (st : WriteSt) : SectorWrite := { user := .buffer 1 2, band := 3, unit := 2, orig := 2, pos := 2, st := st }
abbrev rdyZ : State := let s := dz d0; { s.setF F.pwrModeMode Mode.ready.code with pwr := { s.pwr with starting := none } }
abbrev bv : BandVerify := { first := 3, count := 4, done := 0, track := 0 }
abbrev zs0 : ZoneRec := { zone0 with slots := 0 }
abbrev bvS : State := let s := dz { d0 with verify := some bv } [(3, { Band.reset with st := .full })]; { s with dch := { s.dch with zones := [zs0] } }
abbrev bvB : State := let s := dz { d0 with verify := some bv, reads := [rd .wait] } [(3, { Band.reset with st := .full })]; { s with dch := { s.dch with zones := [zs0] } }

theorem witness_DiskCommandsTakeEffect :
    (∃ (act : Nat) (s : State), act < 2 ∧ 2 ≤ s.getF (F.dchStatusState act) ∧ s.getF (F.dchStatusState act) ≠ 5 ∧
      s.onF (F.dchStatusClkLock act) = true ∧ (s.diskAct act).writes = [] ∧ (s.diskAct act).reads = [] ∧ s.regsWf ∧
      (s.diskAct act).gate = false ∧ Sparse.wf (fun x => DiskAct.reset) s.dch.acts = true) ∧
    (∃ (act rdata : Nat) (path : Path) (s : State), act < 2 ∧ s.admits path (A.dchCtrl act) ∧ s.inMode Mode.service =
      true ∧ s.regsWf ∧ bit (s.getF (F.dchPreampFrame act)) 15 = true ∧ rdata < 2 ^ 8) ∧
    (∃ (act : Nat) (recovery z c : Bool) (r : SectorRead) (s : State), (List.find? (fun r => if recovery = true then
      decide (r.st = ReadSt.reframe) || decide (r.st = ReadSt.decode) && decide (0 < r.step) else decide (r.st =
      ReadSt.decode) && decide (r.step = 0)) (s.diskAct act).reads = some r) ∧ (z && c) = false ∧ (¬(r.st =
      ReadSt.decode ∧ r.step = 0 ∧ 4 ≤ (s.diskAct act).recovery))) ∧
    (∃ (act : Nat) (w : SectorWrite) (s : State), (List.find? (fun w => decide (w.st = WriteSt.waitSlot) && s.onPos
      act w.band w.pos) (s.diskAct act).writes = some w ∧ (s.diskAct act).gate = false ∧ s.onF
      (F.srvActStatusWriteSafe act) = true ∧ s.onF (F.dchStatusClkLock act) = true ∧ s.ftl.dumping = false) ∧
      (s.canDraw (s.dramNeeds ownDisk (Config.bufferPlace 0) 4096 false) = true)) ∧
    (∃ (act : Nat) (path : Path) (v : Word) (s : State), act < 2 ∧ s.admits path (A.dchVerifyCtrl act) ∧ s.inMode
      Mode.ready = true ∧ (s.diskAct 0).verify = none ∧ (s.diskAct 1).verify = none ∧ (F.dchVerifyCtrlGo act).get v =
      1 ∧ (F.dchVerifyCtrlCount act).get v ≠ 0 ∧ (F.dchVerifyCtrlAll act).get v = 0 ∧ s.regsWf) ∧
    (∃ (act : Nat) (path : Path) (s : State), act < 2 ∧ s.admits path (A.dchVerifyCtrl act) ∧ (s.diskAct
      act).verify.isSome = true ∧ Sparse.wf (fun x => DiskAct.reset) s.dch.acts = true) ∧
    (∃ (act band unit inst gen : Nat) (for_ : ReadFor) (s : State), (for_ = ReadFor.device ∧ inst = noTenant ∧ gen = 0
      ∨ for_ ≠ ReadFor.device ∧ Option.map (fun r => (r.inst, r.gen)) (List.find? (fun r => decide (r.reader = for_)
      && decide (r.band = some (band, unit)) && !r.lost && !s.isStale r.inst r.gen) s.ftl.reads) = some (inst, gen)) ∧
      s.bandAct band = some act ∧ unit < 65536 ∧ s.bandGone band = false ∧ 2 ≤ s.getF (F.dchStatusState act) ∧
      s.ftl.dumping = false ∧ (s.band band).st ≠ BandSt.clockBad ∧ (∀ (q : SectorRead), q ∈ (s.diskAct act).reads →
      q.user ≠ DiskUser.reader for_) ∧ (∀ (q : HeldSector), q ∈ (s.diskAct act).holding → q.user ≠ DiskUser.reader
      for_)) ∧
    (∃ (act band nsid unit : Nat) (e : WbEntry) (s : State), s.zoneBand nsid (unit / 65536) = some band ∧ s.wbFind
      nsid unit = some e ∧ s.flushBarred nsid unit = false ∧ s.bandAct band = some act ∧ unit % 65536 < (s.band
      band).capacity ∧ s.unitPos band (unit % 65536) = (s.band band).nextPos ∧ (∀ (v : Nat), v < unit % 65536 →
      s.unitPos band v < (s.band band).nextPos) ∧ ((s.band band).st = BandSt.empty ∨ (s.band band).st = BandSt.opened)
      ∧ s.bandHead band = HeadCond.good ∧ s.actOnline act = true ∧ s.ftl.dumping = false ∧ (∀ (w : SectorWrite), w ∈
      (s.diskAct act).writes → w.band = band) ∧ s.canDraw (State.need colSec (State.flushOwner e) 4096 512) = false) ∧
    (∃ (act band nsid unit : Nat) (e : WbEntry) (s : State), s.zoneBand nsid (unit / 65536) = some band ∧ s.wbFind
      nsid unit = some e ∧ s.flushBarred nsid unit = false ∧ s.bandAct band = some act ∧ unit % 65536 < (s.band
      band).capacity ∧ s.unitPos band (unit % 65536) = (s.band band).nextPos ∧ (∀ (v : Nat), v < unit % 65536 →
      s.unitPos band v < (s.band band).nextPos) ∧ ((s.band band).st = BandSt.empty ∨ (s.band band).st = BandSt.opened)
      ∧ s.bandHead band = HeadCond.good ∧ s.actOnline act = true ∧ s.ftl.dumping = false ∧ (∀ (w : SectorWrite), w ∈
      (s.diskAct act).writes → w.band = band) ∧ s.canDraw (State.need colSec (State.flushOwner e) 4096 512) = true) ∧
    (∃ (act : Nat) (r : SectorRead) (s : State), List.find? (fun x => decide (x.st = ReadSt.wait)) (s.diskAct
      act).reads = some r ∧ s.onPos act r.band r.pos = true ∧ (∀ (q : SectorRead), q ∈ (s.diskAct act).reads → q.st ≠
      ReadSt.capture)) ∧
    (∃ (act window : Nat) (r : SectorRead) (s : State), List.find? (fun x => decide (x.st = ReadSt.capture))
      (s.diskAct act).reads = some r) ∧
    (∃ (act : Nat) (recovery z c : Bool) (r : SectorRead) (s : State), (List.find? (fun r => if recovery = true then
      decide (r.st = ReadSt.reframe) || decide (r.st = ReadSt.decode) && decide (0 < r.step) else decide (r.st =
      ReadSt.decode) && decide (r.step = 0)) (s.diskAct act).reads = some r) ∧ (z && c) = false ∧ (r.st =
      ReadSt.decode ∧ r.step = 0 ∧ 4 ≤ (s.diskAct act).recovery)) ∧
    (∃ (act : Nat) (recovery z c : Bool) (r : SectorRead) (s : State), (List.find? (fun r => if recovery = true then
      decide (r.st = ReadSt.reframe) || decide (r.st = ReadSt.decode) && decide (0 < r.step) else decide (r.st =
      ReadSt.decode) && decide (r.step = 0)) (s.diskAct act).reads = some r) ∧ (z && c) = false ∧ (¬(r.st =
      ReadSt.decode ∧ r.step = 0 ∧ 4 ≤ (s.diskAct act).recovery)) ∧ r.starts = []) ∧
    (∃ (act : Nat) (w : SectorWrite) (s : State), (List.find? (fun w => decide (w.st = WriteSt.waitSlot) && s.onPos
      act w.band w.pos) (s.diskAct act).writes = some w ∧ (s.diskAct act).gate = false ∧ s.onF
      (F.srvActStatusWriteSafe act) = true ∧ s.onF (F.dchStatusClkLock act) = true ∧ s.ftl.dumping = false) ∧
      (s.canDraw (s.dramNeeds ownDisk (Config.bufferPlace 0) 4096 false) = false)) ∧
    (∃ (act : Nat) (w : SectorWrite) (s : State), List.find? (fun x => decide (x.st = WriteSt.writing)) (s.diskAct
      act).writes = some w) ∧
    (∃ (act pos window iters bits : Nat) (ok equal : Bool) (w : SectorWrite) (s : State), List.find? (fun w => decide
      (w.st = WriteSt.verifyWait) && decide (w.pos = pos)) (s.diskAct act).writes = some w ∧ ((∃ d, d ∈ detections
      window ∧ -2 ≤ d ∧ d ≤ 2) ∧ ok = true ∧ equal = true ∧ iters ≤ s.getF (F.dchCfgVerifyIterMax act) ∧ bits ≤ s.getF
      (F.dchCfgVerifyBitsMax act))) ∧
    (∃ (act : Nat) (reads : List SlotRead) (v : BandVerify) (s : State), (s.diskAct act).verify = some v ∧ s.bandRec
      (v.first + v.done) = none) ∧
    (∃ (act : Nat) (reads : List SlotRead) (v : BandVerify) (s : State) (z : ZoneRec), (s.diskAct act).verify = some v
      ∧ s.bandRec (v.first + v.done) = some z ∧ s.actIdle act = true) ∧
    (∃ (act : Nat) (reads : List SlotRead) (v : BandVerify) (s : State) (z : ZoneRec), (s.diskAct act).verify = some v
      ∧ s.bandRec (v.first + v.done) = some z ∧ s.actIdle act = false) :=
  ⟨⟨0, dz d0, by decide +kernel⟩,
   ⟨0, 0x5A, .core, svd.setF (F.dchPreampFrame 0) 0x8001, by decide +kernel⟩,
   ⟨0, true, true, false, rd .decode, dz { d0 with reads := [rd .decode] }, by decide +kernel⟩,
   ⟨0, wr .waitSlot, cellsFor (dz { d0 with writes := [wr .waitSlot] }) 1011, by decide +kernel, draw_dram (by
     decide +kernel)⟩,
   ⟨0, .core, 0x80000002, rdyZ, by decide +kernel⟩,
   ⟨0, .core, dz { d0 with verify := some bv }, by decide +kernel⟩,
   ⟨0, 3, 17, 600, 4, .cmd io, dzR, by decide +kernel⟩,
   ⟨0, 3, 1, 2, wbz, wqS, by decide +kernel⟩,
   ⟨0, 3, 1, 2, wbz, cellsFor wqS 1008, by decide +kernel⟩,
   ⟨0, rd .wait, dz { d0 with reads := [rd .wait] }, by decide +kernel⟩,
   ⟨0, syncAt, { rd .capture with step := 0 }, dz { d0 with reads := [{ rd .capture with step := 0 }] }, by
     decide +kernel⟩,
   ⟨0, false, true, false, rd0, dz { d0 with reads := [rd0], recovery := 4 }, by decide +kernel⟩,
   ⟨0, true, false, true, { rd .decode with starts := [] }, dz
     { d0 with reads := [{ rd .decode with starts := [] }] }, by decide +kernel⟩,
   ⟨0, wr .waitSlot, dz { d0 with writes := [wr .waitSlot] }, by decide +kernel, no_draw_dram (by decide +kernel)⟩,
   ⟨0, wr .writing, dz { d0 with writes := [wr .writing], gate := true }, by decide +kernel⟩,
   ⟨0, 2, syncAt, 0, 1, true, true, wr .verifyWait, dz { d0 with writes := [wr .verifyWait] }, by decide +kernel⟩,
   ⟨0, [], { bv with first := 90 }, dz { d0 with verify := some { bv with first := 90 } }, by decide +kernel⟩,
   ⟨0, [], bv, bvS, zs0, by decide +kernel⟩,
   ⟨0, [], bv, bvB, zs0, by decide +kernel⟩⟩

end Disks

namespace Servos

abbrev late (s : State) (t : Nat := 10^16) : State := { s with fab := { s.fab with timecode := t } }
abbrev sa (st : Nat) (x : ActServo := ActServo.reset) (s : State := act) : State :=
  let s := late ((s.setF (F.srvActStatusState 0) st).setF F.srvStatusTableValid 1)
  { s with srv := { s.srv with acts := if x = ActServo.reset then [] else [(0, x)] } }
abbrev a0 := ActServo.reset
abbrev sk : Seek := { start := 0, dist := 5, wedges := 3, n := 3, acquire := false }
abbrev sp_ (n : Nat) : State := (sa 0).setF F.srvStatusSpinState n
abbrev ckS : State := { act with srv := { act.srv with profile := (List.range 256).map fun i => i * 128 + i / 2, seekTimes := List.replicate 32 1 } }
abbrev lp : Loop := { Loop.reset with kind := 1, trigger := 0, outSel := 55 }
abbrev tuS (x : Option Tune) : State := let s := sa 5 a0 svc; { s with srv := { s.srv with loops := [(3, lp)], tune := x } }
abbrev tu : Tune := { loop := 3, rule := 0, h := 1, u0 := 0, high := none, samples := 0, lastSwitch := 0, rising := [], maxIn := 0, minIn := 0, invalid := 0, ended := some 4 }

theorem witness_ActuatorsMoveThroughTheirStates :
    (∃ (act : Nat) (path : Path) (s : State) (head track : Nat), act < 2 ∧ s.admits path (A.srvActCmd act) ∧ (s.regsWf
      ∧ Sparse.wf (fun x => ActServo.reset) s.srv.acts = true) ∧ s.onF (F.srvActStatusBusy act) = false ∧ s.onF
      F.srvStatusTableValid = true ∧ s.actState act = 5 ∧ head < 10) ∧
    (∃ (act wedge id : Nat) (a1 b1 a2 b2 : Int) (s : State), act < 2 ∧ (s.regsWf ∧ Sparse.wf (fun x => ActServo.reset)
      s.srv.acts = true) ∧ s.actState act = 2 ∧ (s.servoAct act).tAA = 0 ∧ 0 < a2 - a1 ∧ idParityOk id = true ∧
      grayDecode id < 2 ^ 24 ∧ s.onF (F.srvActStatusWriteSafe act) = false ∧ (s.servoAct act).seek = none ∧ (s.diskAct
      act).reads = [] ∧ (s.diskAct act).writes = []) ∧
    (∃ (act : Nat) (path : Path) (s : State), act < 2 ∧ s.admits path (A.srvActCmd act) ∧ (s.regsWf ∧ Sparse.wf (fun x
      => ActServo.reset) s.srv.acts = true) ∧ s.onF (F.srvActStatusBusy act) = false ∧ s.onF F.srvStatusTableValid =
      true ∧ s.actState act = 0 ∧ s.spinState = 5) ∧
    (∃ (cause : Nat) (s : State), s.retractCause cause = true ∧ s.onF F.drvStatusRetract = false ∧ (s.regsWf ∧
      Sparse.wf (fun x => ActServo.reset) s.srv.acts = true) ∧ (∃ a, a < 2 ∧ 1 ≤ s.actState a ∧ s.actState a ≤ 6)) ∧
    (∃ (act : Nat) (s : State), (act < 2 ∧ (s.regsWf ∧ Sparse.wf (fun x => ActServo.reset) s.srv.acts = true) ∧
      s.actState act = 7 ∧ s.onF F.drvStatusPwrFail = false ∧ (s.servoAct act).failing = false ∧ (∀ (a : Nat), a < 2 →
      a ≠ act → (s.servoAct a).retract = none)) ∧ ((∃ a, (s.servoAct act).holdAt = some a ∧ s.since a 50000000 = true)
      ∨ ∃ a, (s.servoAct act).retract = some a ∧ s.since a ((50 + (Option.map (fun x => x.retractMs)
      s.srv.header).getD 150) * 1000000) = true)) ∧
    (∃ (act : Nat) (path : Path) (s : State), act < 2 ∧ s.admits path (A.srvActCmd act) ∧ (s.regsWf ∧ Sparse.wf (fun x
      => ActServo.reset) s.srv.acts = true) ∧ s.onF (F.srvActStatusBusy act) = false ∧ s.onF F.srvStatusTableValid =
      true ∧ s.actState act = 5) ∧
    (∃ (act : Nat) (path : Path) (s : State), act < 2 ∧ s.admits path (A.srvActCmd act) ∧ (s.regsWf ∧ Sparse.wf (fun x
      => ActServo.reset) s.srv.acts = true) ∧ s.onF (F.srvActStatusBusy act) = false ∧ s.onF F.srvStatusTableValid =
      true ∧ s.actState act = 8 ∧ s.inMode Mode.service = true) ∧
    (∃ (act : Nat) (s : State), act < 2 ∧ (s.regsWf ∧ Sparse.wf (fun x => ActServo.reset) s.srv.acts = true) ∧
      s.actState act = 5 ∧ 32 ≤ (s.servoAct act).invalidRun ∧ (s.servoAct act).lostTimes = []) ∧
    (∃ (act : Nat) (s : State), act < 2 ∧ (s.regsWf ∧ Sparse.wf (fun x => ActServo.reset) s.srv.acts = true) ∧
      s.actState act = 1) ∧
    (∃ (act : Nat) (s : State), act < 2 ∧ (s.regsWf ∧ Sparse.wf (fun x => ActServo.reset) s.srv.acts = true) ∧
      s.actState act = 1 ∧ s.since (s.servoAct act).enteredAt 500000000 = true) ∧
    (∃ (act : Nat) (s : State), act < 2 ∧ (s.regsWf ∧ Sparse.wf (fun x => ActServo.reset) s.srv.acts = true) ∧
      s.actState act = 2 ∧ 4 ≤ (s.servoAct act).validRun) ∧
    (∃ (act : Nat) (s : State) (k : Seek), act < 2 ∧ (s.regsWf ∧ Sparse.wf (fun x => ActServo.reset) s.srv.acts =
      true) ∧ s.actState act = 3 ∧ (s.servoAct act).seek = some k ∧ k.acquire = false ∧ k.wedges ≤ k.n) ∧
    (∃ (act : Nat) (s : State), act < 2 ∧ (s.regsWf ∧ Sparse.wf (fun x => ActServo.reset) s.srv.acts = true) ∧
      s.actState act = 4 ∧ (s.servoAct act).write = false ∧ s.onF (F.srvActStatusOnTrack act) = true ∧ (s.diskAct
      act).reads = [] ∧ (s.diskAct act).writes = []) ∧
    (∃ (act : Nat) (s : State), act < 2 ∧ (s.regsWf ∧ Sparse.wf (fun x => ActServo.reset) s.srv.acts = true) ∧
      s.actState act = 4 ∧ 64 ≤ (s.servoAct act).settleWedges ∧ (s.servoAct act).settleFails < 2) ∧
    (∃ (act : Nat) (s : State), act < 2 ∧ (s.regsWf ∧ Sparse.wf (fun x => ActServo.reset) s.srv.acts = true) ∧
      s.actState act = 6 ∧ (s.servoAct act).failing = false) ∧
    (∃ (act : Nat) (s : State), act < 2 ∧ (s.regsWf ∧ Sparse.wf (fun x => ActServo.reset) s.srv.acts = true) ∧
      s.actState act = 0 ∧ (s.servoAct act).failing = true ∧ (s.diskAct act).reads = [] ∧ (s.diskAct act).writes = []
      ∧ s.ftl.moves = [] ∧ (s.diskAct act).verify = none) ∧
    (∃ (act : Nat) (s : State), act < 2 ∧ (s.regsWf ∧ Sparse.wf (fun x => ActServo.reset) s.srv.acts = true) ∧
      s.actState act = 0 ∧ preampRecordOk (s.calibBytes 1 act 20) = false ∧ s.ftl.moves = [] ∧ (s.diskAct act).verify
      = none ∧ (s.diskAct act).reads = [] ∧ (s.diskAct act).writes = []) ∧
    (∃ (act : Nat) (s : State), act < 2 ∧ (s.regsWf ∧ Sparse.wf (fun x => ActServo.reset) s.srv.acts = true) ∧
      s.actState act = 7 ∧ (s.servoAct act).holdAt = none) ∧
    (∃ (act : Nat) (s : State) (path : Path), act < 2 ∧ (s.regsWf ∧ Sparse.wf (fun x => ActServo.reset) s.srv.acts =
      true) ∧ s.actState act = 0 ∧ preampRecordOk (s.calibBytes 1 act 20) = false ∧ s.ftl.moves = [] ∧ (s.diskAct
      act).verify = none ∧ (s.diskAct act).reads = [] ∧ (s.diskAct act).writes = [] ∧ s.admits path (A.dchCtrl act) ∧
      s.inMode Mode.service = true) :=
  ⟨⟨0, .core, sa 5, 1, 500, by decide +kernel⟩,
   ⟨0, 5, 77, 12, 9, 30, 9, sa 2, by decide +kernel⟩,
   ⟨0, .core, (sa 0).setF F.srvStatusSpinState 5, by decide +kernel⟩,
   ⟨1, (sa 5).setF F.drvStatusPwrFail 1, by decide +kernel⟩,
   ⟨0, sa 7 { a0 with retract := some 0, holdAt := some 0 }, by decide +kernel, Or.inl ⟨0, by decide +kernel⟩⟩,
   ⟨0, .core, sa 5, by decide +kernel⟩,
   ⟨0, .core, sa 8 { a0 with recorded := true } svc, by decide +kernel⟩,
   ⟨0, sa 5 { a0 with invalidRun := 32 }, by decide +kernel⟩,
   ⟨0, sa 1 { a0 with loadFails := 1 }, by decide +kernel⟩,
   ⟨0, sa 1 { a0 with loadFails := 1 }, by decide +kernel⟩,
   ⟨0, sa 2 { a0 with validRun := 4 }, by decide +kernel⟩,
   ⟨0, sa 3 { a0 with seek := some sk }, sk, by decide +kernel⟩,
   ⟨0, (sa 4).setF (F.srvActStatusOnTrack 0) 1, by decide +kernel⟩,
   ⟨0, sa 4 { a0 with settleWedges := 64, settleFails := 1 }, by decide +kernel⟩,
   ⟨0, sa 6 { a0 with head := 2 }, by decide +kernel⟩,
   ⟨0, sa 0 { a0 with failing := true }, by decide +kernel⟩,
   ⟨0, sa 0, by decide +kernel⟩,
   ⟨0, sa 7 { a0 with retract := some 0 }, by decide +kernel⟩,
   ⟨0, sa 0 a0 svc, .core, by decide +kernel⟩⟩

theorem witness_SpindleLoopsAndTuning :
    (∃ (s : State) (rpm : Nat), s.regsWf ∧ s.spinState = 2 ∧ 120 ≤ rpm ∧ rpm < 2 ^ 14) ∧
    (∃ (s : State) (path : Path) (v : Word), s.regsWf ∧ s.admits path A.srvSpin ∧ F.srvSpinStart.get v = 1 ∧
      s.spinState = 0 ∧ s.onF F.srvStatusTableValid = true ∧ s.onF F.devSpliceStatusUp = true) ∧
    (∃ (path : Path) (v : Word) (s : State), s.admits path A.srvTuneCtrl ∧ s.regsWf ∧ F.srvTuneCtrlStart.get v = 1 ∧
      s.srv.tune = none ∧ F.srvTuneCtrlRule.get v < 6 ∧ s.tuneAllowed (F.srvTuneCtrlLoop.get v) = true) ∧
    (∃ (path : Path) (v : Word) (s : State), s.admits path A.srvTuneCtrl ∧ s.regsWf ∧ F.srvTuneCtrlAbort.get v = 1 ∧
      s.srv.tune.isSome = true) ∧
    (∃ (path : Path) (v : Word) (s : State) (x : Tune) (code : Nat), s.admits path A.srvTuneCtrl ∧ s.regsWf ∧
      s.srv.tune = some x ∧ x.ended = some (code + 1) ∧ code + 1 < 8) ∧
    (∃ (s : State), s.regsWf ∧ s.spinState = 1 ∧ s.since s.srv.spinAt 200000000 = true) ∧
    (∃ (s : State) (crossings : Nat), s.regsWf ∧ s.spinState = 3 ∧ 12 ≤ crossings) ∧
    (∃ (s : State), s.regsWf ∧ s.spinState = 3 ∧ s.since s.srv.spinAt 200000000 = true ∧ s.srv.handoverFails < 2) ∧
    (∃ (s : State) (rpms : List Nat), s.regsWf ∧ s.spinState = 4 ∧ 64 ≤ rpms.length ∧ (∀ (rpm : Nat), rpm ∈ List.take
      64 rpms → 2000 * ((rpm : Int) - (s.getF F.srvSpinTargetRpm : Int)).natAbs ≤ s.getF F.srvSpinTargetRpm)) ∧
    (∃ (s : State) (rpm : Nat), s.regsWf ∧ s.spinState = 5 ∧ 100 * rpm < 99 * s.getF F.srvSpinTargetRpm) ∧
    (∃ (s : State) (rpm : Nat), s.regsWf ∧ s.spinState = 6 ∧ rpm < 300) ∧
    (∃ (s : State), s.regsWf ∧ s.spinState = 7 ∧ s.since s.srv.spinAt 1000000000 = true) ∧
    (∃ (s : State), s.regsWf ∧ s.spinState = 4 ∧ s.actState 0 = 8 ∧ s.actState 1 = 8) ∧
    (∃ (s : State) (path : Path) (v : Word), s.regsWf ∧ s.admits path A.srvSpin ∧ s.spinState = 0 ∧ 5400 ≤
      F.srvSpinTargetRpm.get v ∧ F.srvSpinTargetRpm.get v ≤ 10000) ∧
    (∃ (s : State) (path : Path) (v : Word), s.regsWf ∧ s.admits path A.srvSpin ∧ s.spinState ≠ 0 ∧
      F.srvSpinTargetRpm.get v ≠ s.getF F.srvSpinTargetRpm) ∧
    (∃ (s : State) (path : Path) (v : Word), s.regsWf ∧ s.admits path A.srvSpin ∧ F.srvSpinStop.get v = 1 ∧
      s.spinState = 5 ∧ s.actState 0 = 0 ∧ s.actState 1 = 0) ∧
    (∃ (act : Nat) (e : Nat × Nat) (s : State), act < 2 ∧ List.find? (fun e => decide (e.fst = act)) s.srv.waiting =
      some e ∧ 40 ≤ (s.fab.cycleLogic + 2 ^ 32 - e.snd) % 2 ^ 32 ∧ s.srv.waiting = [e]) ∧
    (∃ (path : Path) (v : Word) (s : State), s.admits path A.srvCtrl ∧ s.regsWf ∧ F.srvCtrlCheck.get v = 1 ∧
      s.windowReject = none) ∧
    (∃ (path : Path) (v : Word) (s : State), s.admits path A.srvCtrl ∧ s.regsWf ∧ F.srvCtrlClearFlags.get v = 1) ∧
    (∃ (path : Path) (i off : Nat) (v : Word) (s : State), i < 48 ∧ off < 8 ∧ s.admits path (33792 + i * 64 + off * 4)
      ∧ s.regsWf ∧ s.onF F.srvStatusTableValid = true ∧ s.recordIdle (s.loop i) = true) ∧
    (∃ (path : Path) (i off : Nat) (v : Word) (s : State), i < 48 ∧ off < 8 ∧ s.admits path (33792 + i * 64 + off * 4)
      ∧ s.regsWf ∧ s.onF F.srvStatusTableValid = true ∧ s.recordIdle (s.loop i) = false) ∧
    (∃ (s : State) (rpm : Nat), s.regsWf ∧ 10 * rpm < 9 * s.getF F.srvSpinTargetRpm ∧ s.actState 0 = 0 ∧ s.actState 1
      = 0) ∧
    (∃ (s : State), s.onF F.devSpliceStatusUp = true ∧ (s.fab.cycleLogic + 2 ^ 32 - s.srv.tickDue) % 2 ^ 32 < 2 ^ 31 ∧
      (s.srv.ticks + 1) % 10 ≠ 0 ∧ s.srv.waiting = []) :=
  ⟨⟨sp_ 2, 200, by decide +kernel⟩,
   ⟨sp_ 0, .core, 0x80000000 + 7200, by decide +kernel⟩,
   ⟨.core, 0x80000003, tuS none, by decide +kernel⟩,
   ⟨.core, 0x40000003, tuS (some tu), by decide +kernel⟩,
   ⟨.core, 0x40000003, tuS (some tu), tu, 3, by decide +kernel⟩,
   ⟨sp_ 1, by decide +kernel⟩,
   ⟨sp_ 3, 12, by decide +kernel⟩,
   ⟨sp_ 3, by decide +kernel⟩,
   ⟨sp_ 4, List.replicate 64 ((sp_ 4).getF F.srvSpinTargetRpm), by decide +kernel⟩,
   ⟨sp_ 5, 5000, by decide +kernel⟩,
   ⟨sp_ 6, 200, by decide +kernel⟩,
   ⟨sp_ 7, by decide +kernel⟩,
   ⟨((sp_ 4).setF (F.srvActStatusState 0) 8).setF (F.srvActStatusState 1) 8, by decide +kernel⟩,
   ⟨sp_ 0, .core, (F.srvSpinTargetRpm.put 0 7200), by decide +kernel⟩,
   ⟨sp_ 5, .core, 6000, by decide +kernel⟩,
   ⟨sp_ 5, .core, 0x40000000 + 7200, by decide +kernel⟩,
   ⟨0, (0, 0),
     { sa 5 with fab := { (sa 5).fab with cycleLogic := 40 }, srv := { (sa 5).srv with waiting := [(0, 0)] } }, by
     decide +kernel⟩,
   ⟨.core, (F.srvCtrlCheck.put 0 1), ckS, by decide +kernel⟩,
   ⟨.core, (F.srvCtrlClearFlags.put 0 1), act, by decide +kernel⟩,
   ⟨.core, 3, 2, 77, svc.setF F.srvStatusTableValid 1, by decide +kernel⟩,
   ⟨.core, 3, 2, 77, act.setF F.srvStatusTableValid 1, by decide +kernel⟩,
   ⟨sp_ 5, 5000, by decide +kernel⟩,
   ⟨(sa 5).setF F.devSpliceStatusUp 1, by decide +kernel⟩⟩

end Servos

namespace Stores

abbrev late (s : State) (t : Nat := 10^16) : State := { s with fab := { s.fab with timecode := t } }
abbrev nv (f : Nvs → Nvs) (s : State := act) : State := late { s with nvs := f s.nvs }
abbrev na (f : Nvs → Nvs) (u : Nat) : State := ((nv f).setF F.nvsAddrUnit u).setF F.nvsStatusArmed 1
abbrev op (e : Bool) (su : Option Nat) : NvsOp := { erase := e, unit := 600000, slot := 1171, data := 77, ranFrom := 0, suspendedAt := su, suspendHeld := false }
abbrev upf (f : Upd → Upd) (s : State := act) : State := late { s with upd := f s.upd }
abbrev stg : List Byte := makeSettings 1 1 []
abbrev stS : State := upf (fun x => { x with stage := ((stg.zipIdx.filter fun e => e.1 ≠ 0).map fun e => (e.2, e.1)) }) svc
abbrev cm : Commit := { key := none, action := 2, slot := 1, active := true }
abbrev trS : State := let s := nv (fun x => { x with trial := true }); { s with pwr := { s.pwr with openedAt := some 0, pathOpen := true } }

theorem witness_NvsCommandsTakeEffect :
    (∃ (path : Path) (s : State), s.admits path A.nvsCmd ∧ s.regsWf ∧ path = Path.core ∧ s.onF F.nvsStatusArmed = true
      ∧ s.getF F.nvsAddrUnit * 8 ≤ 7864312 ∧ s.slotProtected (s.getF F.nvsAddrUnit / 512) = false ∧ s.nvs.op = none ∧
      s.nvs.gapDue = false ∧ s.nvs.stopped = false ∧ s.nvs.counted < 64) ∧
    (∃ (path : Path) (s : State) (o : NvsOp), s.admits path A.nvsCmd ∧ s.regsWf ∧ s.nvs.op = some o ∧ o.suspendedAt =
      none ∧ s.since o.ranFrom 200000 = true ∧ s.nvs.readWaits = none) ∧
    (∃ (path : Path) (s : State) (o : NvsOp), s.admits path A.nvsCmd ∧ s.regsWf ∧ s.nvs.op = some o ∧
      o.suspendedAt.isSome = true ∧ s.nvs.stopped = false) ∧
    (∃ (o : NvsOp) (pulses : Nat) (s : State), s.nvs.op = some o ∧ 0 < pulses ∧ (pulses ≤ if o.erase = true then 64
      else 16) ∧ o.suspendedAt = none ∧ s.nvs.readWaits = none ∧ s.regsWf ∧ Sparse.wf (fun x => State.erasedUnit)
      s.nvs.units = true) ∧
    (∃ (path : Path) (s : State), s.admits path A.nvsCmd ∧ s.regsWf ∧ s.getF F.nvsAddrUnit * 8 ≤ 7864312 ∧ s.nvs.op =
      none ∧ s.nvs.errs = []) ∧
    (∃ (path : Path) (s : State), s.admits path A.nvsCmd ∧ s.regsWf ∧ path = Path.core ∧ s.onF F.nvsStatusArmed = true
      ∧ s.getF F.nvsAddrUnit * 8 ≤ 7864312 ∧ s.rawUnit (s.unitKey (s.getF F.nvsAddrUnit)) = State.erasedUnit ∧
      s.nvs.op = none ∧ s.nvs.gapDue = false ∧ s.nvs.stopped = false) ∧
    (∃ (path : Path) (v : Word) (s : State) (a : Nat) (p : Path), s.admits path A.nvsUnlock ∧ s.regsWf ∧
      s.nvs.unlockAt = some (a, p) ∧ F.nvsUnlockKey.get v = 90 ∧ s.fab.timecode ≤ a + 64 * 160) ∧
    (∃ (path : Path) (s : State), s.admits path A.nvsCmd ∧ s.regsWf ∧ 7864312 < s.getF F.nvsAddrUnit * 8) ∧
    (∃ (path : Path) (s : State), s.admits path A.nvsCmd ∧ s.regsWf ∧ s.getF F.nvsAddrUnit / 512 < 1920 ∧ s.nvs.units
      = [] ∧ s.nvs.flags = []) ∧
    (∃ (path : Path) (v : Word) (s : State), s.admits path A.nvsUnlock ∧ s.regsWf ∧ s.nvs.unlockAt = none ∧
      F.nvsUnlockKey.get v = 165) ∧
    (∃ (path : Path) (v : Word) (s : State) (a : Nat) (p : Path), s.admits path A.nvsUnlock ∧ s.regsWf ∧
      s.nvs.unlockAt = some (a, p) ∧ F.nvsUnlockKey.get v ≠ 90) ∧
    (∃ (a : Nat) (s : State), s.nvs.armedAt = some a ∧ s.since a 1000000 = true ∧ s.regsWf) ∧
    (∃ (path : Path) (s : State), s.admits path A.nvsCmd ∧ s.regsWf ∧ path = Path.core ∧ s.onF F.nvsStatusArmed =
      false) ∧
    (∃ (o : NvsOp) (a : Nat) (s : State), s.nvs.op = some o ∧ o.suspendedAt = some a ∧ s.since a 10000000 = true ∧
      s.nvs.readWaits = none) :=
  ⟨⟨.core, na id 600000, by decide +kernel⟩,
   ⟨.core, na (fun x => { x with op := some (op true none) }) 600000, op true none, by decide +kernel⟩,
   ⟨.core, na (fun x => { x with op := some (op true (some 5)) }) 600000, op true (some 5), by decide +kernel⟩,
   ⟨op true none, 1, na (fun x => { x with op := some (op true none), units := [(1171*512 + 5, 9)] }) 600000, by
     decide +kernel⟩,
   ⟨.core, na (fun x => { x with units := [((nv id).unitKey 100, 0x123456789ABCDEF0)] }) 100, by decide +kernel⟩,
   ⟨.core, na id 600000, by decide +kernel⟩,
   ⟨.core, 0x5A, nv fun x => { x with unlockAt := some (10^16, .core), owner := some .core }, 10^16, .core, by
     decide +kernel⟩,
   ⟨.core, na id 983040, by decide +kernel⟩,
   ⟨.core, na id 600000, by decide +kernel⟩,
   ⟨.core, 0xA5, nv id, by decide +kernel⟩,
   ⟨.core, 0x5B, nv fun x => { x with unlockAt := some (10^16, .core), owner := some .core }, 10^16, .core, by
     decide +kernel⟩,
   ⟨7, (nv fun x => { x with armedAt := some 7}).setF F.nvsStatusArmed 1, by decide +kernel⟩,
   ⟨.core, (na (fun x => { x with counted := 63 }) 600000).setF F.nvsStatusArmed 0, by decide +kernel⟩,
   ⟨op true (some 5), 5, na (fun x => { x with op := some (op true (some 5)) }) 600000, by decide +kernel⟩⟩

theorem witness_UpdateCommandsTakeEffect :
    (∃ (c : Commit) (s : State), s.upd.commit = some c ∧ c.key = none ∧ s.regsWf ∧ c.slot < 2) ∧
    (∃ (path : Path) (v : Word) (slot : Nat) (s : State), s.admits path A.updData ∧ s.regsWf ∧ s.getF F.updStatusOwner
      ≠ 1 ∧ s.onF F.updStatusBusy = false ∧ s.upd.commit = none ∧ s.stagingSlot = some slot ∧ Sparse.wf (fun x =>
      false) s.upd.valid = true ∧ s.upd.chunk.length < 4092) ∧
    (∃ (path : Path) (v : Word) (slot : Nat) (s : State), (s.regsWf ∧ s.getF F.updStatusOwner ≠ 1 ∧ s.onF
      F.updStatusBusy = false ∧ s.upd.commit = none ∧ s.stagingSlot = some slot ∧ Sparse.wf (fun x => false)
      s.upd.valid = true) ∧ (s.admits path A.updData) ∧ (s.upd.chunk.length = 4092)) ∧
    (∃ (path : Path) (v : Word) (s : State), s.admits path A.updCtrl ∧ s.regsWf ∧ s.onF F.updStatusBusy = false) ∧
    (∃ (a : Nat) (s : State), s.pwr.openedAt = some a ∧ s.nvs.trial = true ∧ s.pwr.pathOpen = true ∧ s.since a
      60000000000 = true ∧ s.getF F.updSlotsActive = s.nvs.bootNext ∧ s.regsWf) ∧
    (∃ (path : Path) (v : Word) (s : State), s.admits path A.updCtrl ∧ s.regsWf ∧ s.onF F.updStatusBusy = false ∧
      F.updCtrlAction.get v = 2 ∧ (s.orderBarred fun x => true) = false) ∧
    (∃ (path : Path) (v : Word) (s : State), s.admits path A.updSetData ∧ s.regsWf ∧ Sparse.wf (fun x => 0)
      s.upd.stage = true) ∧
    (∃ (path : Path) (v : Word) (s : State), s.admits path A.updCtrl ∧ s.regsWf ∧ s.onF F.updStatusBusy = false ∧
      s.inMode Mode.service = false) ∧
    (∃ (path : Path) (v : Word) (s : State) (items : List (Nat × List Byte)), s.admits path A.updCtrl ∧ s.regsWf ∧
      s.onF F.updStatusBusy = false ∧ s.inMode Mode.service = true ∧ settingsItems (field s.stagedSettings 12 2)
      (List.drop 32 s.stagedSettings) = some items ∧ settingsValid s.stagedSettings = true ∧ settingsItemsOk
      s.stagedSettings = true) ∧
    (∃ (s : State), s.getF F.updStatusOwner ≠ 0 ∧ s.since s.upd.lastStage 600000000000 = true ∧ s.regsWf) ∧
    (∃ (path : Path) (v : Word) (s : State) (slot : Nat), s.admits path A.updCtrl ∧ s.regsWf ∧ s.onF F.updStatusBusy =
      false ∧ s.stagingSlot = some slot ∧ Sparse.wf (fun x => false) s.upd.valid = true) :=
  ⟨⟨cm, upf fun x => { x with commit := some cm }, by decide +kernel⟩,
   ⟨.core, 0x12345678, 1, act, by decide +kernel⟩,
   ⟨.core, 0x12345678, 1, upf fun x => { x with chunk := zeros 4092 }, by decide +kernel, admits_of (by
     decide +kernel), List.length_replicate⟩,
   ⟨.core, 2, upf fun x => { x with chunk := [1,2] }, by decide +kernel⟩,
   ⟨0, trS, by decide +kernel⟩,
   ⟨.core, (2 <<< 4) ||| 1, act, by decide +kernel⟩,
   ⟨.core, 0x12003400, stS, by decide +kernel⟩,
   ⟨.core, 2, act, by decide +kernel⟩,
   ⟨.core, 2, stS, [], by decide +kernel⟩,
   ⟨(upf (fun x => { x with chunk := [1] })).setF F.updStatusOwner 2, by decide +kernel⟩,
   ⟨.core, 2, upf fun x => { x with chunk := [1,2] }, (upf fun x => { x with chunk := [1,2] }).stagingSlot.getD 0, by
     decide +kernel⟩⟩

end Stores

namespace Pairs

abbrev late (s : State) (t : Nat := 10^16) : State := { s with fab := { s.fab with timecode := t } }
abbrev lm (type : Nat) (body : List Byte) : LinkMsg := { magic := 0x434D, version := 1, type := type, ackNow := false, epoch := 5, tenant := 0, gen := 0, seq := 9, nsid := 1, body := body }
abbrev pc0 (role st : Nat) (f : Cnt → Cnt := id) (s : State := withNs act (nsOf .flash)) : State :=
  let s := late (((((s.setF F.cntDevnumPartner 1).setF F.cntStatusRole role).setF F.cntStatusPairState st).setF F.cntNegotiatedVersion 1).setF F.cntCtrlLinkEn 1)
  { s with cnt := f { s.cnt with proven := true, msgRx := 9, epoch := 5, role := role, keys := some (zeros 32, zeros 32) } }
abbrev pc (role st : Nat) (f : Cnt → Cnt := id) (s : State := withNs act (nsOf .flash)) : State := cellsFor (pc0 role st f s) 1010
abbrev wire (m : LinkMsg) : List Byte := sealMsg (zeros 32) 1 m
abbrev om (t q : Nat) : OutMsg := { seq := q, type := t, epoch := 5, nsid := 1, tenant := 0, gen := 0, body := [], key := none, unit := 0, sentAt := 0 }
abbrev nsZ : Namespace := { nsOf .zoned with zones := [(0, 3), (1, 20)] }
abbrev zbS : State := let s := pc 2 4 id (withNs act nsZ); { s with dch := { s.dch with zones := [zone0, { zone0 with act := 1, firstBand := 20, bandCount := 2 }], bands := [(3, { Band.reset with st := .opened, nextPos := 9, vwp := 9 })] } }
abbrev prd : PairRead := { tag := 77, key := io, nsid := 1, lba := 0, count := 1, group := 77, data := none, gen := 0 }
abbrev rdd := lm msgReadData (leBytes 4 77 ++ leBytes 4 0 ++ zeros 4096)
abbrev rds : State := pc 1 4 (fun c => { c with reads := [prd] }) (withCmd (withNs act (nsOf .flash)) io (sqeOf 2))
abbrev hdr (code seq ack low : Nat) : Word := BitVec.ofNat 32 (code * 2^28 + seq * 2^16 + ack * 2^4 + low)
abbrev crcOf (h : Word) : Word := BitVec.ofNat 32 (crc32c (leBytes 4 h.toNat ++ fit 256 [1,2]))
abbrev lf (q n : Nat) : LinkFrame := { seq := q, data := [], sends := n, msg := 0, head := none, owner := 1010 }
abbrev hb (dom dev : Nat) : List Byte := leBytes 2 1 ++ leBytes 2 1 ++ leBytes 2 dev ++ leBytes 2 0 ++ leBytes 4 dom ++ leBytes 4 0 ++ zeros 16
abbrev hm (b : List Byte) : LinkMsg := { lm 1 b with seq := 0 }
abbrev lks : State := let s := ((pc 2 2 fun c => { c with proven := false }).setF F.cntVersionMaxVersion 1).setF F.cntVersionMinVersion 1; { s with sec := { s.sec with slots := [(0, some { cls := clsLink, label := 0, key := zeros 32 })] } }
abbrev cfS : State := { lks with cnt := { lks.cnt with helloSent := some (hb 0 0), helloSeen := some (hb 0 1) } }
abbrev pf := State.linkProof (zeros 32) (hb 0 0) (hb 0 1) (1 - 0)
abbrev rs : Resync := { total := 3, copied := 2, refused := [(1, 7)], doneSeq := none, lock := none }

theorem witness_PairMessagesTakeEffect :
    (∃ (w : List Byte) (m : LinkMsg) (s : State), (s.cnt.resync = none ∧ s.cnt.order = none) ∧ (s.Opens w m ∧ m.magic
      = 17229 ∧ m.type = msgAck ∧ m.version = s.getF F.cntNegotiatedVersion ∧ m.seq = s.cnt.msgRx ∧ m.epoch =
      s.cnt.epoch)) ∧
    (∃ (w : List Byte) (m : LinkMsg) (s : State), (s.cnt.waiting = []) ∧ ((s.Opens w m ∧ m.magic = 17229 ∧ m.type =
      msgWrite ∧ m.version = s.getF F.cntNegotiatedVersion ∧ m.seq = s.cnt.msgRx ∧ m.epoch = s.cnt.epoch) ∧ s.role =
      roleDouble ∧ s.cnt.hold = false)) ∧
    (∃ (w : List Byte) (m : LinkMsg) (o : OutMsg) (s : State), (s.cnt.out = [o] ∧ o.seq = field m.body 0 8 ∧ o.type =
      msgSlate ∧ s.regsWf) ∧ (s.Opens w m ∧ m.magic = 17229 ∧ m.type = msgRefuse ∧ m.version = s.getF
      F.cntNegotiatedVersion ∧ m.seq = s.cnt.msgRx ∧ m.epoch = s.cnt.epoch)) ∧
    (∃ (w : List Byte) (m : LinkMsg) (s : State) (n : Namespace) (u b v : Nat), (s.ns m.nsid = some n ∧ field m.body 0
      8 + field m.body 8 4 ≤ n.size ∧ s.keyDenied m.nsid = none ∧ List.map (fun x => (s.unitRun m.nsid (field m.body 0
      8) (field m.body 8 4)).fst + x) (List.range (s.unitRun m.nsid (field m.body 0 8) (field m.body 8 4)).snd) = [u]
      ∧ s.wbFind m.nsid u = none ∧ s.unitEmpty m.nsid u = false ∧ s.unitBand m.nsid u = some (b, v) ∧ s.bandGone b =
      false ∧ s.ftl.reads = [] ∧ (∀ (x : PairServe), x ∈ s.cnt.serving → x.tag ≠ field m.body 12 4)) ∧ ((s.Opens w m ∧
      m.magic = 17229 ∧ m.type = msgReadReq ∧ m.version = s.getF F.cntNegotiatedVersion ∧ m.seq = s.cnt.msgRx ∧
      m.epoch = s.cnt.epoch) ∧ s.role = roleDouble ∧ s.cnt.hold = false)) ∧
    (∃ (w : List Byte) (s : State), (s.cnt.proven = true) ∧ (s.canDraw (s.recvNeeds w) = false)) ∧
    (∃ (w : List Byte) (s : State), (s.cnt.proven = true ∧ s.openMsg w = none) ∧ (s.canDraw (s.recvNeeds w) = true)) ∧
    (∃ (w : List Byte) (m : LinkMsg) (s : State), (m.seq ≠ s.cnt.msgRx) ∧ (s.Opens w m)) ∧
    (∃ (w : List Byte) (m : LinkMsg) (s : State), (s.cnt.waiting = []) ∧ ((s.Opens w m ∧ m.magic = 17229 ∧ m.type =
      msgTakeCommit ∧ m.version = s.getF F.cntNegotiatedVersion ∧ m.seq = s.cnt.msgRx ∧ m.epoch = s.cnt.epoch) ∧
      s.role = roleDouble ∧ s.cnt.hold = false)) ∧
    (∃ (w : List Byte) (m : LinkMsg) (s : State), (s.cnt.waiting = []) ∧ ((s.Opens w m ∧ m.magic = 17229 ∧ m.type =
      msgSlate ∧ m.version = s.getF F.cntNegotiatedVersion ∧ m.seq = s.cnt.msgRx ∧ m.epoch = s.cnt.epoch) ∧ s.role =
      roleDouble ∧ s.cnt.hold = false)) ∧
    (∃ (w : List Byte) (m : LinkMsg) (s : State), (s.cnt.waiting = []) ∧ ((s.Opens w m ∧ m.magic = 17229 ∧ m.type =
      msgResyncData ∧ m.version = s.getF F.cntNegotiatedVersion ∧ m.seq = s.cnt.msgRx ∧ m.epoch = s.cnt.epoch) ∧
      s.role = roleDouble ∧ s.cnt.hold = false)) ∧
    (∃ (w : List Byte) (m : LinkMsg) (s : State), (s.cnt.waiting = []) ∧ ((s.Opens w m ∧ m.magic = 17229 ∧ m.type =
      msgResyncDone ∧ m.version = s.getF F.cntNegotiatedVersion ∧ m.seq = s.cnt.msgRx ∧ m.epoch = s.cnt.epoch) ∧
      s.role = roleDouble ∧ s.cnt.hold = false)) ∧
    (∃ (w : List Byte) (m : LinkMsg) (s : State), (s.cnt.waiting = [] ∧ field m.body 0 4 < 4) ∧ ((s.Opens w m ∧
      m.magic = 17229 ∧ m.type = msgMapDelta ∧ m.version = s.getF F.cntNegotiatedVersion ∧ m.seq = s.cnt.msgRx ∧
      m.epoch = s.cnt.epoch) ∧ s.role = roleDouble ∧ s.cnt.hold = false)) ∧
    (∃ (w : List Byte) (m : LinkMsg) (s : State), (s.cnt.waiting = [] ∧ field m.body 0 1 = 5) ∧ ((s.Opens w m ∧
      m.magic = 17229 ∧ m.type = msgConfig ∧ m.version = s.getF F.cntNegotiatedVersion ∧ m.seq = s.cnt.msgRx ∧ m.epoch
      = s.cnt.epoch) ∧ s.role = roleDouble ∧ s.cnt.hold = false)) ∧
    (∃ (w : List Byte) (m : LinkMsg) (s : State), (4 ≤ field m.body 0 4) ∧ ((s.Opens w m ∧ m.magic = 17229 ∧ m.type =
      msgMapDelta ∧ m.version = s.getF F.cntNegotiatedVersion ∧ m.seq = s.cnt.msgRx ∧ m.epoch = s.cnt.epoch) ∧ s.role
      = roleDouble ∧ s.cnt.hold = false)) ∧
    (∃ (w : List Byte) (m : LinkMsg) (s : State), (field m.body 0 1 = 1) ∧ ((s.Opens w m ∧ m.magic = 17229 ∧ m.type =
      msgConfig ∧ m.version = s.getF F.cntNegotiatedVersion ∧ m.seq = s.cnt.msgRx ∧ m.epoch = s.cnt.epoch) ∧ s.role =
      roleDouble ∧ s.cnt.hold = false)) ∧
    (∃ (w : List Byte) (m : LinkMsg) (s : State), (field m.body 0 1 = 2) ∧ ((s.Opens w m ∧ m.magic = 17229 ∧ m.type =
      msgConfig ∧ m.version = s.getF F.cntNegotiatedVersion ∧ m.seq = s.cnt.msgRx ∧ m.epoch = s.cnt.epoch) ∧ s.role =
      roleDouble ∧ s.cnt.hold = false)) ∧
    (∃ (w : List Byte) (m : LinkMsg) (s : State), ((s.Opens w m ∧ m.magic = 17229 ∧ m.type = msgKey ∧ m.version =
      s.getF F.cntNegotiatedVersion ∧ m.seq = s.cnt.msgRx ∧ m.epoch = s.cnt.epoch) ∧ s.role = roleDouble ∧ s.cnt.hold
      = false)) ∧
    (∃ (w : List Byte) (m : LinkMsg) (s : State), (m.magic = 17229 ∧ m.type = msgEpoch ∧ m.version = s.getF
      F.cntNegotiatedVersion ∧ m.seq = s.cnt.msgRx ∧ field m.body 0 4 ≤ s.cnt.epoch ∧ m.epoch = s.cnt.epoch) ∧
      (s.Opens w m)) ∧
    (∃ (w : List Byte) (m : LinkMsg) (s : State), (m.magic = 17229 ∧ m.type = msgEpoch ∧ m.version = s.getF
      F.cntNegotiatedVersion ∧ m.seq = s.cnt.msgRx ∧ s.cnt.epoch < field m.body 0 4 ∧ s.cnt.epoch ≤ m.epoch ∧ bit
      (field m.body 4 4) 0 = false) ∧ (s.Opens w m)) ∧
    (∃ (w : List Byte) (m : LinkMsg) (s : State), (m.magic = 17229 ∧ m.type = msgEpoch ∧ m.version = s.getF
      F.cntNegotiatedVersion ∧ m.seq = s.cnt.msgRx ∧ s.cnt.epoch < field m.body 0 4 ∧ s.cnt.epoch ≤ m.epoch ∧ bit
      (field m.body 4 4) 0 = true ∧ s.anyDirty = false) ∧ (s.Opens w m)) ∧
    (∃ (w : List Byte) (m : LinkMsg) (s : State), (m.body.length = 8 ∧ s.role = rolePrincipal ∧ s.mirrorUp = true) ∧
      (s.Opens w m ∧ m.magic = 17229 ∧ m.type = msgDirty ∧ m.version = s.getF F.cntNegotiatedVersion ∧ m.seq =
      s.cnt.msgRx ∧ m.epoch = s.cnt.epoch)) ∧
    (∃ (w : List Byte) (m : LinkMsg) (s : State), (s.ns m.nsid = none) ∧ ((s.Opens w m ∧ m.magic = 17229 ∧ m.type =
      msgReadReq ∧ m.version = s.getF F.cntNegotiatedVersion ∧ m.seq = s.cnt.msgRx ∧ m.epoch = s.cnt.epoch) ∧ s.role =
      roleDouble ∧ s.cnt.hold = false)) ∧
    (∃ (w : List Byte) (m : LinkMsg) (s : State) (n : Namespace), (s.ns m.nsid = some n ∧ n.size < field m.body 0 8 +
      field m.body 8 4) ∧ ((s.Opens w m ∧ m.magic = 17229 ∧ m.type = msgReadReq ∧ m.version = s.getF
      F.cntNegotiatedVersion ∧ m.seq = s.cnt.msgRx ∧ m.epoch = s.cnt.epoch) ∧ s.role = roleDouble ∧ s.cnt.hold =
      false)) ∧
    (∃ (w : List Byte) (m : LinkMsg) (s : State) (n : Namespace), (s.ns m.nsid = some n ∧ field m.body 0 8 + field
      m.body 8 4 ≤ n.size ∧ s.keyDenied m.nsid = none ∧ (∀ (u : Nat), u ∈ List.map (fun x => (s.unitRun m.nsid (field
      m.body 0 8) (field m.body 8 4)).fst + x) (List.range (s.unitRun m.nsid (field m.body 0 8) (field m.body 8
      4)).snd) → (s.wbFind m.nsid u).isSome = true ∨ s.unitEmpty m.nsid u = true) ∧ s.cnt.serving = [] ∧ s.ftl.reads =
      []) ∧ ((s.Opens w m ∧ m.magic = 17229 ∧ m.type = msgReadReq ∧ m.version = s.getF F.cntNegotiatedVersion ∧ m.seq
      = s.cnt.msgRx ∧ m.epoch = s.cnt.epoch) ∧ s.role = roleDouble ∧ s.cnt.hold = false)) ∧
    (∃ (w : List Byte) (m : LinkMsg) (r : PairRead) (s : State), (s.cnt.reads = [r] ∧ r.tag = field m.body 0 4 ∧ field
      m.body 4 4 = 0 ∧ s.isStale (State.fnInst r.key.fn) r.gen = false ∧ s.ctxsOf r.key = []) ∧ (s.Opens w m ∧ m.magic
      = 17229 ∧ m.type = msgReadData ∧ m.version = s.getF F.cntNegotiatedVersion ∧ m.seq = s.cnt.msgRx ∧ m.epoch =
      s.cnt.epoch)) :=
  ⟨⟨wire (lm msgAck (leBytes 8 4)), lm msgAck (leBytes 8 4), pc 1 4 fun c =>
     { c with out := [om 3 3, om 3 4, om 3 5] }, by decide +kernel, ⟨opens_wire (by decide +kernel) (by
     decide +kernel) (by decide +kernel), by decide +kernel⟩⟩,
   ⟨wire (lm msgWrite (zeros 16 ++ zeros 4096)), lm msgWrite (zeros 16 ++ zeros 4096), pc 2 4, by decide +kernel,
     ⟨⟨opens_wire (by decide +kernel) (by decide +kernel) (by decide +kernel), by decide +kernel⟩, by decide +kernel⟩⟩,
   ⟨wire (lm msgRefuse (leBytes 8 4)), lm msgRefuse (leBytes 8 4), om msgSlate 4, pc 1 4 fun c =>
     { c with out := [om msgSlate 4] }, by decide +kernel, ⟨opens_wire (by decide +kernel) (by decide +kernel) (by
     decide +kernel), by decide +kernel⟩⟩,
   ⟨wire (lm msgReadReq (leBytes 8 0 ++ leBytes 4 1 ++ leBytes 4 77)), lm msgReadReq (leBytes 8 0 ++ leBytes 4 1 ++
     leBytes 4 77), zbS, nsZ, 0, 3, 0, by decide +kernel, ⟨⟨opens_wire (by decide +kernel) (by decide +kernel) (by
     decide +kernel), by decide +kernel⟩, by decide +kernel⟩⟩,
   ⟨wire (lm 3 []), pc0 2 4, by decide +kernel, draw_append_left (by decide +kernel)⟩,
   ⟨msgHead (lm 3 []), pc 2 4, by decide +kernel, draw_append (by decide +kernel) (draw_dram (by decide +kernel))⟩,
   ⟨wire { lm 3 [] with seq := 10 }, { lm 3 [] with seq := 10 }, pc 2 4, by decide +kernel, opens_wire (by
     decide +kernel) (by decide +kernel) (by decide +kernel)⟩,
   ⟨wire (lm msgTakeCommit (zeros 8)), lm msgTakeCommit (zeros 8), pc 2 4, by decide +kernel, ⟨⟨opens_wire (by
     decide +kernel) (by decide +kernel) (by decide +kernel), by decide +kernel⟩, by decide +kernel⟩⟩,
   ⟨wire (lm msgSlate (zeros 64)), lm msgSlate (zeros 64), pc 2 4, by decide +kernel, ⟨⟨opens_wire (by decide +kernel)
     (by decide +kernel) (by decide +kernel), by decide +kernel⟩, by decide +kernel⟩⟩,
   ⟨wire (lm msgResyncData (zeros 64)), lm msgResyncData (zeros 64), pc 2 3, by decide +kernel, ⟨⟨opens_wire (by
     decide +kernel) (by decide +kernel) (by decide +kernel), by decide +kernel⟩, by decide +kernel⟩⟩,
   ⟨wire (lm msgResyncDone (zeros 4)), lm msgResyncDone (zeros 4), pc 2 3, by decide +kernel, ⟨⟨opens_wire (by
     decide +kernel) (by decide +kernel) (by decide +kernel), by decide +kernel⟩, by decide +kernel⟩⟩,
   ⟨wire (lm msgMapDelta (leBytes 4 0 ++ zeros 16)), lm msgMapDelta (leBytes 4 0 ++ zeros 16), pc 2 3, by
     decide +kernel, ⟨⟨opens_wire (by decide +kernel) (by decide +kernel) (by decide +kernel), by decide +kernel⟩, by
     decide +kernel⟩⟩,
   ⟨wire (lm msgConfig (leBytes 4 5 ++ zeros 16)), lm msgConfig (leBytes 4 5 ++ zeros 16), pc 2 3, by decide +kernel,
     ⟨⟨opens_wire (by decide +kernel) (by decide +kernel) (by decide +kernel), by decide +kernel⟩, by decide +kernel⟩⟩,
   ⟨wire (lm msgMapDelta (leBytes 4 4 ++ zeros 16)), lm msgMapDelta (leBytes 4 4 ++ zeros 16), pc 2 3, by
     decide +kernel, ⟨⟨opens_wire (by decide +kernel) (by decide +kernel) (by decide +kernel), by decide +kernel⟩, by
     decide +kernel⟩⟩,
   ⟨wire (lm msgConfig (leBytes 4 1 ++ zeros 16)), lm msgConfig (leBytes 4 1 ++ zeros 16), pc 2 3, by decide +kernel,
     ⟨⟨opens_wire (by decide +kernel) (by decide +kernel) (by decide +kernel), by decide +kernel⟩, by decide +kernel⟩⟩,
   ⟨wire (lm msgConfig (leBytes 4 2 ++ zeros 16)), lm msgConfig (leBytes 4 2 ++ zeros 16), pc 2 3, by decide +kernel,
     ⟨⟨opens_wire (by decide +kernel) (by decide +kernel) (by decide +kernel), by decide +kernel⟩, by decide +kernel⟩⟩,
   ⟨wire (lm msgKey (leBytes 4 4 ++ zeros 16)), lm msgKey (leBytes 4 4 ++ zeros 16), pc 2 3, ⟨⟨opens_wire (by
     decide +kernel) (by decide +kernel) (by decide +kernel), by decide +kernel⟩, by decide +kernel⟩⟩,
   ⟨wire (lm msgEpoch (leBytes 4 5 ++ leBytes 4 0)), lm msgEpoch (leBytes 4 5 ++ leBytes 4 0), pc 1 4, by
     decide +kernel, opens_wire (by decide +kernel) (by decide +kernel) (by decide +kernel)⟩,
   ⟨wire (lm msgEpoch (leBytes 4 6 ++ leBytes 4 0)), lm msgEpoch (leBytes 4 6 ++ leBytes 4 0), pc 1 4, by
     decide +kernel, opens_wire (by decide +kernel) (by decide +kernel) (by decide +kernel)⟩,
   ⟨wire (lm msgEpoch (leBytes 4 6 ++ leBytes 4 1)), lm msgEpoch (leBytes 4 6 ++ leBytes 4 1), pc 2 4, by
     decide +kernel, opens_wire (by decide +kernel) (by decide +kernel) (by decide +kernel)⟩,
   ⟨wire (lm msgDirty (leBytes 4 1 ++ leBytes 4 2)), lm msgDirty (leBytes 4 1 ++ leBytes 4 2), pc 1 3, by
     decide +kernel, ⟨opens_wire (by decide +kernel) (by decide +kernel) (by decide +kernel), by decide +kernel⟩⟩,
   ⟨wire ({ lm msgReadReq (leBytes 8 0 ++ leBytes 4 1 ++ leBytes 4 77) with nsid := 2 }),
     { lm msgReadReq (leBytes 8 0 ++ leBytes 4 1 ++ leBytes 4 77) with nsid := 2 }, pc 2 4, by decide +kernel,
     ⟨⟨opens_wire (by decide +kernel) (by decide +kernel) (by decide +kernel), by decide +kernel⟩, by decide +kernel⟩⟩,
   ⟨wire (lm msgReadReq (leBytes 8 (65536*4) ++ leBytes 4 1 ++ leBytes 4 77)), lm msgReadReq (leBytes 8 (65536*4) ++
     leBytes 4 1 ++ leBytes 4 77), pc 2 4, nsOf .flash, by decide +kernel, ⟨⟨opens_wire (by decide +kernel) (by
     decide +kernel) (by decide +kernel), by decide +kernel⟩, by decide +kernel⟩⟩,
   ⟨wire (lm msgReadReq (leBytes 8 0 ++ leBytes 4 1 ++ leBytes 4 77)), lm msgReadReq (leBytes 8 0 ++ leBytes 4 1 ++
     leBytes 4 77), pc 2 4, nsOf .flash, by decide +kernel, ⟨⟨opens_wire (by decide +kernel) (by decide +kernel) (by
     decide +kernel), by decide +kernel⟩, by decide +kernel⟩⟩,
   ⟨wire rdd, rdd, prd, rds, by decide +kernel, ⟨opens_wire (by decide +kernel) (by decide +kernel) (by
     decide +kernel), by decide +kernel⟩⟩⟩

theorem witness_PairLinkTakesEffect :
    (∃ (path : Path) (v : Word) (s : State), s.admits path A.cntCtrl ∧ s.lockedAt A.cntCtrl = false ∧ s.regsWf ∧ s.onF
      F.cntCtrlLinkEn = true ∧ F.cntCtrlLinkEn.get v = 0 ∧ s.mirrorUp = false ∧ s.inMode Mode.service = true) ∧
    (∃ (width : Nat) (s : State), s.pairState = pairTraining ∧ s.logicOn = true ∧ (width = 1 ∨ width = 2 ∨ width = 4)
      ∧ s.regsWf) ∧
    (∃ (j : Nat) (s : State), s.cnt.journaled = some j ∧ s.cnt.ackSent = none ∧ s.cnt.proven = true ∧ s.since
      s.cnt.ackAt 2000 = true) ∧
    (∃ (path : Path) (v : Word) (s : State), s.admits path A.cntCtrl ∧ s.lockedAt A.cntCtrl = false ∧ s.regsWf ∧ s.onF
      F.cntCtrlLinkEn = false ∧ F.cntCtrlLinkEn.get v = 1 ∧ s.role ≠ rolePrincipal ∧ s.host.cmds = [] ∧
      F.cntCtrlRetrain.get v = 0) ∧
    (∃ (hdr : Word) (data : List Byte) (crc : Word) (s : State), (s.pairState = pairInSync ∧ s.regsWf) ∧
      (¬BitVec.toNat crc = crc32c (leBytes 4 (BitVec.toNat hdr) ++ fit 256 data))) ∧
    (∃ (a : Nat) (s : State), s.cnt.partnerAt = some a ∧ s.onF F.cntStatusHbPresent = true ∧ s.since a (s.getF
      F.cntHbTimeout * 1000000) = true ∧ s.regsWf) ∧
    (∃ (path : Path) (v : Word) (s : State), s.admits path A.cntCtrl ∧ s.lockedAt A.cntCtrl = false ∧ s.regsWf ∧
      F.cntCtrlRetrain.get v = 1 ∧ s.mirrorUp = false ∧ s.pairState ≠ pairDown ∧ F.cntCtrlLinkEn.get v = s.getF
      F.cntCtrlLinkEn) ∧
    (∃ (a : Nat) (s : State), s.cnt.retryDue = some a ∧ a ≤ s.fab.timecode ∧ s.pairState = pairNegotiating ∧ s.regsWf) ∧
    (∃ (w : List Byte) (s : State), s.pairState = pairNegotiating ∧ (clearMsg w).magic = 17229 ∧ (clearMsg w).type = 1
      ∧ s.regsWf ∧ field (clearMsg w).body 8 4 ≠ s.getF F.cntDomainDomain) ∧
    (∃ (w : List Byte) (s : State) (v : Nat) (k : List Byte), s.pairState = pairNegotiating ∧ (clearMsg w).magic =
      17229 ∧ (clearMsg w).type = 1 ∧ s.regsWf ∧ field (clearMsg w).body 8 4 = s.getF F.cntDomainDomain ∧ field
      (clearMsg w).body 4 2 % 1024 = s.getF F.cntDevnumDevnum ^^^ 1 ∧ s.commonVersion (field (clearMsg w).body 0 2)
      (field (clearMsg w).body 2 2) = some v ∧ v < 2 ^ 8 ∧ s.cnt.proven = false ∧ s.linkKey = some k) ∧
    (∃ (r : Resync) (nsid ext : Nat) (s : State), s.role = rolePrincipal ∧ s.pairState = pairResync ∧ s.cnt.resync =
      some r ∧ r.doneSeq = none ∧ r.lock = none ∧ s.nextExtent r = none) ∧
    (∃ (low : Nat) (s : State), 5000 ≤ low ∧ s.regsWf) ∧
    (∃ (path : Path) (s : State), s.admits path A.cntOrder ∧ s.onF F.cntOrderStatusBusy = false ∧ s.inMode Mode.safe =
      false ∧ (s.orderBarred fun m => decide (m ≠ Mode.safe)) = false) ∧
    (∃ (r : Resync) (nsid ext : Nat) (s : State), s.role = rolePrincipal ∧ s.pairState = pairResync ∧ s.cnt.resync =
      some r ∧ r.doneSeq = none ∧ r.lock = some (nsid, ext) ∧ s.mediaWaits ReadFor.resync 0 = false ∧ Sparse.wf (fun x
      => false) s.cnt.dirty = true) ∧
    (∃ (w mine theirs lower higher k : List Byte) (dir : Byte) (s : State), s.cnt.helloSent = some mine ∧
      s.cnt.helloSeen = some theirs ∧ s.pairState = pairNegotiating ∧ s.onF F.cntNegotiatedVersion = true ∧
      s.cnt.proven = false ∧ (clearMsg w).magic = 17229 ∧ (clearMsg w).type = 2 ∧ s.helloPair mine theirs = (lower,
      higher, dir) ∧ s.linkKey = some k ∧ (clearMsg w).body ≠ State.linkProof k lower higher (1 - dir)) ∧
    (∃ (hdr : Word) (data : List Byte) (crc : Word) (s : State), (s.pairState = pairInSync ∧ s.regsWf ∧ bits
      (BitVec.toNat hdr) 28 4 = 1 ∧ bit (BitVec.toNat hdr) 0 = false ∧ s.cnt.frames = [] ∧ bits (BitVec.toNat hdr) 16
      12 = s.cnt.rxSeq) ∧ (BitVec.toNat crc = crc32c (leBytes 4 (BitVec.toNat hdr) ++ fit 256 data))) ∧
    (∃ (hdr : Word) (data : List Byte) (crc : Word) (s : State), (s.pairState = pairInSync ∧ s.regsWf ∧ bits
      (BitVec.toNat hdr) 28 4 = 1 ∧ bit (BitVec.toNat hdr) 0 = false ∧ s.cnt.frames = [] ∧ bits (BitVec.toNat hdr) 16
      12 ≠ s.cnt.rxSeq) ∧ (BitVec.toNat crc = crc32c (leBytes 4 (BitVec.toNat hdr) ++ fit 256 data))) ∧
    (∃ (hdr : Word) (data : List Byte) (crc : Word) (s : State) (f g : LinkFrame), (s.pairState = pairInSync ∧
      s.regsWf ∧ bits (BitVec.toNat hdr) 28 4 = 2 ∧ bit (BitVec.toNat hdr) 0 = false ∧ s.cnt.frames = [f, g] ∧ f.seq ≠
      bits (BitVec.toNat hdr) 16 12 ∧ g.seq = bits (BitVec.toNat hdr) 16 12 ∧ bits (BitVec.toNat hdr) 4 12 = f.seq ∧
      g.sends < 8) ∧ (BitVec.toNat crc = crc32c (leBytes 4 (BitVec.toNat hdr) ++ fit 256 data))) ∧
    (∃ (s : State), s.pairState = pairInSync ∧ s.since s.cnt.lastFrameAt 100000 = true) ∧
    (∃ (w mine theirs lower higher k : List Byte) (dir : Byte) (s : State), (s.cnt.helloSent = some mine ∧
      s.cnt.helloSeen = some theirs ∧ s.pairState = pairNegotiating ∧ s.onF F.cntNegotiatedVersion = true ∧
      s.cnt.proven = false ∧ (clearMsg w).magic = 17229 ∧ (clearMsg w).type = 2 ∧ s.helloPair mine theirs = (lower,
      higher, dir) ∧ s.linkKey = some k) ∧ ((clearMsg w).body = State.linkProof k lower higher (1 - dir))) ∧
    (∃ (o : OutMsg) (rest : List OutMsg) (s : State), s.cnt.out = o :: rest ∧ s.mirrorUp = true ∧ s.since (max
      o.sentAt s.cnt.ackAt) (s.getF F.cntCfgAckTimeout * 1000000) = true) ∧
    (∃ (a : Nat) (s : State) (nsid ext : Nat), s.role = rolePrincipal ∧ s.pairState = pairResync ∧ s.cnt.resync = none
      ∧ s.cnt.passDue = none) ∧
    (∃ (a : Nat) (s : State), s.role = rolePrincipal ∧ s.pairState = pairResync ∧ s.cnt.resync = none ∧ s.cnt.passDue
      = some a ∧ a ≤ s.fab.timecode) ∧
    (∃ (s : State), s.cnt.pulseAt + 64000000 + s.cnt.pulseDelay ≤ s.fab.timecode) ∧
    (∃ (r : Resync) (nsid ext : Nat) (s : State), (s.role = rolePrincipal ∧ s.pairState = pairResync ∧ s.cnt.resync =
      some r ∧ r.doneSeq = none ∧ r.lock = none ∧ s.nextExtent r = some (State.extKey nsid ext) ∧ s.extentLocked nsid
      ext = false) ∧ (∀ (u : Nat), u / 256 = ext → s.unitClass nsid u ≠ 0)) :=
  ⟨⟨.core, 0, pc 2 5 id svc, by decide +kernel⟩,
   ⟨4, pc 2 1, by decide +kernel⟩,
   ⟨6, pc 2 4 fun c => { c with journaled := some 6, ackNow := true, ackSent := none }, by decide +kernel⟩,
   ⟨.core, 1, (pc 0 0).setF F.cntCtrlLinkEn 0, by decide +kernel⟩,
   ⟨hdr 1 0 0 0, [1,2], 0, pc 2 4, by decide +kernel, crc_ne (by decide +kernel)⟩,
   ⟨0, (pc 1 3 fun c => { c with partnerAt := some 0 }).setF F.cntStatusHbPresent 1, by decide +kernel⟩,
   ⟨.core, 3, pc 2 5, by decide +kernel⟩,
   ⟨7, pc 2 2 fun c => { c with retryDue := some 7, helloSeen := some [1] }, by decide +kernel⟩,
   ⟨msgHead (hm (hb 5 1)) ++ hb 5 1, pc 2 2, by decide +kernel⟩,
   ⟨msgHead (hm (hb 0 1)) ++ hb 0 1, lks, 1, zeros 32, by decide +kernel⟩,
   ⟨rs, 1, 2, pc 1 3 fun c => { c with resync := some rs, dirty := [(2^32+7, true)] }, by decide +kernel⟩,
   ⟨5000, pc 1 3, by decide +kernel⟩,
   ⟨.core, pc 1 3, by decide +kernel⟩,
   ⟨{ rs with lock := some (1, 7) }, 1, 7, pc 1 3 fun c =>
     { c with resync := some { rs with lock := some (1, 7) }, dirty := [(2^32+7, true)] }, by decide +kernel⟩,
   ⟨msgHead { lm 2 [] with seq := 0 }, hb 0 0, hb 0 1, hb 0 0, hb 0 1, zeros 32, 0, cfS, by decide +kernel⟩,
   ⟨hdr 1 0 0 0, [1,2], crcOf (hdr 1 0 0 0), pc 2 4, by decide +kernel, crc_word _⟩,
   ⟨hdr 1 4095 0 0, [1,2], crcOf (hdr 1 4095 0 0), pc 2 4, by decide +kernel, crc_word _⟩,
   ⟨hdr 2 3 2 0, [1,2], crcOf (hdr 2 3 2 0), pc 2 4 fun c => { c with frames := [lf 2 1, lf 3 1] }, lf 2 1, lf 3 1, by
     decide +kernel, crc_word _⟩,
   ⟨pc 2 4, by decide +kernel⟩,
   ⟨msgHead { lm 2 (zeros 32) with seq := 0 } ++ pf, hb 0 0, hb 0 1, hb 0 0, hb 0 1, zeros 32, 0, cfS, by
     decide +kernel, clearMsg_body (by decide +kernel) (by decide +kernel)⟩,
   ⟨om 3 4, [], pc 1 4 fun c => { c with out := [om 3 4] }, by decide +kernel⟩,
   ⟨5, pc 1 3 (fun c => { c with passDue := none }), 1, 2, by decide +kernel⟩,
   ⟨5, pc 1 3 fun c => { c with passDue := some 5 }, by decide +kernel⟩,
   ⟨pc 1 3, by decide +kernel⟩,
   ⟨rs, 1, 8, pc 1 3 fun c => { c with resync := some rs, dirty := [(2^32+8, true)] }, by decide +kernel, fun _ _ =>
     class_unwritten (by decide +kernel)⟩⟩

end Pairs

namespace Managing

abbrev late (s : State) (t : Nat := 10^16) : State := { s with fab := { s.fab with timecode := t } }
abbrev mg (f : Mgmt → Mgmt) (s : State := act) : State := late { s with mgt := f s.mgt }
abbrev lbd (k : Nat) : LbDesc := { pid := 77, static := 0, kind := k, reg := 0, len := 2, period := 10, limit := 50, below := false, required := true }
abbrev lbp (n : Nat) : LbPartner := { pid := 77, addr := 9, i2c := false, kind := 1, desc := some 0, naks := n, value := 0, lastPoll := 0, ctrl := none }
abbrev lb (k n : Nat) (s : State := act) : State := (mg (fun m => { m with lbDescs := [lbd k], lbTable := [(2, some (lbp n))], lbFoundAt := some 0 }) s).setF F.mgtLbCtrlEn 1
abbrev lbFull : State := (mg (fun m => { m with lbTable := (List.range 16).map fun i => (i, some (lbp 0)) })).setF F.mgtLbCtrlEn 1
abbrev tfS (op : Nat) : State := (((((late (withNs act (nsOf .flash))).setF F.tfCmdOp op).setF F.tfNsidNsid 1).setF F.tfCountBlocks 1).setF F.tfLengthBytes 4096).setF F.tfReceivedBytes 4096
abbrev tfL (op : Nat) (rd : Bool) : State := let s := tfS op; { s with mgt := { s.mgt with tf := { s.mgt.tf with phase := .lock, reading := rd } } }
abbrev tf6 : State := cellsFor ((tfL 6 false).setF F.tfArgArg 2) 1008
abbrev mh (f : Mgmt → Mgmt) (s : State := act) : State := mg (fun m => f { m with hdr := false }) s
abbrev cr (op tag count addr : Nat) (d : List Word) : Byte := crc8 (requestBytes op tag count addr d)

theorem witness_ManagementTakesEffect :
    (∃ (s : State), s.mgt.tf.phase = TfPhase.ended ∧ s.mgt.tf.sct < 8 ∧ s.mgt.tf.sc < 256 ∧ s.mgt.tf.mode < 8 ∧
      s.regsWf) ∧
    (∃ (found : List LbFound) (s : State), s.regsWf ∧ (s.onF F.mgtLbCtrlRescan = true ∨ s.mgt.lbFoundAt = none) ∧
      s.onF F.mgtLbCtrlEn = false) ∧
    (∃ (s : State), s.mgt.tf.phase = TfPhase.lock ∧ s.tfLockFree = true ∧ s.regsWf ∧ (s.getF F.tfCmdOp = 2 →
      s.mgt.tf.reading = true) ∧ s.mediaWaits ReadFor.taskFile 0 = false ∧ s.getF F.tfCmdOp = 5) ∧
    (∃ (s : State) (l : List Byte), (s.mgt.tf.phase = TfPhase.lock ∧ s.tfLockFree = true ∧ s.regsWf ∧ (s.getF
      F.tfCmdOp = 2 → s.mgt.tf.reading = true) ∧ s.mediaWaits ReadFor.taskFile 0 = false ∧ s.getF F.tfCmdOp = 6) ∧
      (s.canDraw s.tfNeeds = true) ∧ ((s.spend s.tfNeeds).logPage 0 (s.getF F.tfNsidNsid) (s.getF F.tfArgArg) = some
      l)) ∧
    (∃ (path : Path) (s : State), s.admits path A.tfCtrl ∧ s.getF F.tfStatusState ≠ 1 ∧ s.regsWf ∧ s.getF F.tfCmdOp =
      1 ∧ s.tfCheck 1 = none) ∧
    (∃ (path : Path) (s : State), s.admits path A.tfCtrl ∧ s.getF F.tfStatusState ≠ 1 ∧ s.regsWf ∧ s.getF F.tfCmdOp =
      2 ∧ s.tfCheck 2 = none) ∧
    (∃ (path : Path) (s : State), s.admits path A.tfCtrl ∧ s.getF F.tfStatusState ≠ 1 ∧ s.regsWf ∧ s.getF F.tfCmdOp =
      3 ∧ s.tfCheck 3 = none) ∧
    (∃ (path : Path) (s : State), s.admits path A.tfCtrl ∧ s.getF F.tfStatusState ≠ 1 ∧ s.regsWf ∧ s.getF F.tfCmdOp =
      4 ∧ s.tfCheck 4 = none) ∧
    (∃ (path : Path) (s : State), s.admits path A.tfCtrl ∧ s.getF F.tfStatusState ≠ 1 ∧ s.regsWf ∧ s.getF F.tfCmdOp =
      5 ∧ s.tfCheck 5 = none) ∧
    (∃ (path : Path) (s : State), s.admits path A.tfCtrl ∧ s.getF F.tfStatusState ≠ 1 ∧ s.regsWf ∧ s.getF F.tfCmdOp =
      6 ∧ s.tfCheck 6 = none) ∧
    (∃ (path : Path) (v : Word) (s : State), s.admits path A.tfData ∧ s.regsWf ∧ s.getF F.tfStatusState ≠ 1 ∧
      s.mgt.tf.inBuf.length ≤ 65532 ∧ s.getF F.tfReceivedBytes < 2 ^ 32 - 4) ∧
    (∃ (path : Path) (s : State), s.admits path A.mgtLbCtrl ∧ s.regsWf) ∧
    (∃ (pid : Nat) (s : State) (p : Nat), pid ≠ 0 ∧ s.onF F.mgtLbCtrlEn = true ∧ s.lbFreeEntry = some p ∧ (∀ (d :
      LbDesc), d ∈ s.mgt.lbDescs → d.pid ≠ pid) ∧ s.onF { addr := A.mgtAlertStatus, lo := 10, width := 1 } = true ∧
      Sparse.wf (fun x => none) s.mgt.lbTable = true) ∧
    (∃ (path : Path) (s : State) (st : Status), s.admits path A.tfCtrl ∧ s.getF F.tfStatusState ≠ 1 ∧ s.regsWf ∧
      s.getF F.tfCmdOp = 2 ∧ s.tfCheck 2 = some st) ∧
    (∃ (p i : Nat) (x : LbPartner) (d : LbDesc) (v : Int) (s : State), s.lbEntry p = some x ∧ x.desc = some i ∧
      s.mgt.lbDescs[i]? = some d ∧ s.onF F.mgtLbCtrlEn = true ∧ d.period ≠ 0 ∧ s.since x.lastPoll (d.period * 1000000)
      = true ∧ d.len = 2 ∧ -32768 ≤ v ∧ v < 32768 ∧ d.below = false ∧ v ≤ d.limit ∧ x.naks < 2) ∧
    (∃ (p i : Nat) (x : LbPartner) (d : LbDesc) (v : Int) (s : State), s.lbEntry p = some x ∧ x.desc = some i ∧
      s.mgt.lbDescs[i]? = some d ∧ s.onF F.mgtLbCtrlEn = true ∧ d.period ≠ 0 ∧ s.since x.lastPoll (d.period * 1000000)
      = true ∧ d.len = 2 ∧ -32768 ≤ v ∧ v < 32768 ∧ d.below = false ∧ d.limit < v ∧ d.kind = 1 ∧ 2 ≤ x.naks) ∧
    (∃ (path : Path) (v : Word) (s : State), s.admits path A.tfData ∧ s.regsWf ∧ s.mgt.tf.outBuf = []) ∧
    (∃ (pid : Nat) (s : State), pid ≠ 0 ∧ s.onF F.mgtLbCtrlEn = true ∧ s.lbFreeEntry = none) ∧
    (∃ (p i : Nat) (x : LbPartner) (d : LbDesc) (v : Int) (s : State), s.lbEntry p = some x ∧ x.desc = some i ∧
      s.mgt.lbDescs[i]? = some d ∧ s.onF F.mgtLbCtrlEn = true ∧ d.period ≠ 0 ∧ s.since x.lastPoll (d.period * 1000000)
      = true ∧ d.len = 2 ∧ -32768 ≤ v ∧ v < 32768 ∧ d.below = false ∧ d.limit < v ∧ d.kind ≠ 1) ∧
    (∃ (desc a : Nat) (d : LbDesc) (s : State), s.mgt.lbFoundAt = some a ∧ s.mgt.lbDescs[desc]? = some d ∧ d.required
      = true ∧ ¬desc ∈ s.mgt.lbChecked ∧ s.since a 1000000000 = true ∧ s.mgt.lbTable = []) ∧
    (∃ (path : Path) (s : State), s.admits path A.tfCtrl ∧ (s.mgt.tf.phase = TfPhase.order ∨ s.mgt.tf.phase =
      TfPhase.lock) ∧ s.mgt.tf.reading = false) ∧
    (∃ (path : Path) (v : Word) (s : State), s.admits path A.tfData ∧ s.regsWf ∧ s.mgt.tf.outBuf ≠ []) ∧
    (∃ (s : State), s.mgt.tf.phase = TfPhase.lock ∧ s.tfLockFree = true ∧ s.regsWf ∧ s.getF F.tfCmdOp = 2 ∧
      s.mgt.tf.reading = false) ∧
    (∃ (s : State), (s.mgt.tf.phase = TfPhase.lock ∧ s.tfLockFree = true ∧ s.regsWf ∧ (s.getF F.tfCmdOp = 2 →
      s.mgt.tf.reading = true) ∧ s.mediaWaits ReadFor.taskFile 0 = false) ∧ (s.canDraw s.tfNeeds = false)) :=
  ⟨⟨mg fun m => { m with tf := { m.tf with phase := .ended, sct := 7, sc := 0xC5, mode := 3 } }, by decide +kernel⟩,
   ⟨[{ pid := 77, static := 0 }], ((lb 1 0).setF F.mgtLbCtrlEn 0).modMgt fun m => { m with lbFoundAt := none }, by
     decide +kernel⟩,
   ⟨tfL 5 false, by decide +kernel⟩,
   ⟨tf6, ((tf6.spend tf6.tfNeeds).logPage 0 1 2).getD [], by decide +kernel, draw_dram (by decide +kernel),
     (by rw [spend_only]; exact some_getD (by decide +kernel))⟩,
   ⟨.i3c, tfS 1, by decide +kernel⟩,
   ⟨.i3c, tfS 2, by decide +kernel⟩,
   ⟨.i3c, tfS 3, by decide +kernel⟩,
   ⟨.i3c, tfS 4, by decide +kernel⟩,
   ⟨.i3c, tfS 5, by decide +kernel⟩,
   ⟨.i3c, tfS 6, by decide +kernel⟩,
   ⟨.i3c, 0x01020304, mg id, by decide +kernel⟩,
   ⟨.core, lb 1 0, by decide +kernel⟩,
   ⟨78, (lb 1 0).setF ⟨A.mgtAlertStatus, 10, 1⟩ 1, 0, by decide +kernel⟩,
   ⟨.i3c, (tfS 2).setF F.tfLengthBytes 8192, ((tfS 2).setF F.tfLengthBytes 8192).tfCheck 2 |>.getD (0,0,0), by
     decide +kernel⟩,
   ⟨2, 0, lbp 0, lbd 1, 50, lb 1 0, by decide +kernel⟩,
   ⟨2, 0, lbp 2, lbd 1, 51, lb 1 2, by decide +kernel⟩,
   ⟨.i3c, 0, mg id, by decide +kernel⟩,
   ⟨78, lbFull, by decide +kernel⟩,
   ⟨2, 0, lbp 2, lbd 2, 51, lb 2 2, by decide +kernel⟩,
   ⟨0, 0, lbd 1, mg (fun m => { m with lbDescs := [lbd 1], lbFoundAt := some 0 }), by decide +kernel⟩,
   ⟨.i3c, mg fun m => { m with tf := { m.tf with phase := .lock } }, by decide +kernel⟩,
   ⟨.i3c, 0, mg fun m => { m with tf := { m.tf with outBuf := [1,2,3,4,5,6,7,8] } }, by decide +kernel⟩,
   ⟨tfL 2 false, by decide +kernel⟩,
   ⟨tfL 2 true, by decide +kernel, no_draw_dram (by decide +kernel)⟩⟩

theorem witness_I3cTargetAnswers :
    (∃ (da : Nat) (s : State), s.mgt.hdr = false ∧ da < 128 ∧ s.regsWf ∧ s.hasAddress = false ∧ s.onF
      F.mgtI3cCfgI2cOnly = false) ∧
    (∃ (s : State), s.mgt.hdr = false ∧ s.regsWf) ∧
    (∃ (a b : Bool) (s : State), s.mgt.hdr = false ∧ s.regsWf) ∧
    (∃ (s : State), s.mgt.hdr = false ∧ s.hasAddress = true) ∧
    (∃ (da : Nat) (s : State), s.mgt.hdr = false ∧ da < 128 ∧ s.regsWf ∧ s.hasAddress = true) ∧
    (∃ (tag count addr : Nat) (data : List Word) (crc : Byte) (s : State), (crc8 (requestBytes 1 tag count addr data)
      = crc ∧ s.requestLegal count addr (requestBytes 1 tag count addr data).length = true) ∧ data.length = count ∧
      crc8 (requestBytes 2 tag count addr []) ≠ crc ∧ crc8 (requestBytes 3 tag count addr data) ≠ crc ∧ crc8
      (requestBytes 4 tag count addr []) ≠ crc) ∧
    (∃ (len : Nat) (s : State), s.mgt.hdr = false ∧ 12 ≤ len ∧ len ≤ 265 ∧ 8 ≤ len ∧ len ≤ 261) ∧
    (∃ (tag count addr : Nat) (data : List Word) (crc : Byte) (s : State), crc8 (requestBytes 1 tag count addr data) ≠
      crc ∧ (crc8 (requestBytes 3 tag count addr data) = crc ∧ s.requestLegal count addr (requestBytes 3 tag count
      addr data).length = true) ∧ data.length = count) ∧
    (∃ (b : Nat) (s : State), List.find? (fun b => s.mgt.ibiPending.contains b && s.onF
      { addr := A.mgtAlertStatus, lo := b, width := 1 }) (List.range 32) = some b ∧ s.onF F.mgtI3cStatusIntEn = true ∧
      s.hasAddress = true ∧ s.onF F.mgtI3cCfgI2cOnly = false ∧ s.mgt.hdr = false ∧ s.mgt.ibiRetryAt ≤ s.tick) ∧
    (∃ (a b : Bool) (n m : Nat) (s : State) (i : Instr), (s.mgt.hdr = true) ∧ (i ∈ [Instr.enec a b, Instr.disec a b,
      Instr.rstdaa, Instr.entdaa n, Instr.setmwl n, Instr.setmrl n, Instr.rstact n, Instr.setdasa n m, Instr.setnewda
      n, Instr.getmwl, Instr.getmrl, Instr.getpid, Instr.getbcr, Instr.getdcr, Instr.getstatus, Instr.getmxds,
      Instr.getcaps])) ∧
    (∃ (a : Nat) (s : State), s.mgt.hjDue = some a ∧ a ≤ s.tick ∧ s.hasAddress = false ∧ s.onF F.mgtI3cCfgI2cOnly =
      false ∧ s.onF F.mgtI3cStatusHjEn = true) ∧
    (∃ (tag count addr : Nat) (data : List Word) (crc : Byte) (s : State), (crc8 (requestBytes 2 tag count addr []) =
      crc ∧ s.requestLegal count addr (requestBytes 2 tag count addr []).length = true)) ∧
    (∃ (tag count addr : Nat) (data : List Word) (crc : Byte) (s : State), (crc8 (requestBytes 4 tag count addr []) =
      crc ∧ s.requestLegal count addr (requestBytes 4 tag count addr []).length = true)) ∧
    (∃ (tag count addr : Nat) (data : List Word) (crc : Byte) (s : State), crc8 (requestBytes 4 tag count addr []) =
      crc ∧ (count = 0 ∨ 64 < count ∨ addr % 4 ≠ 0 ∨ 4194304 ≤ addr)) ∧
    (∃ (tag count addr : Nat) (data : List Word) (crc : Byte) (s : State), crc8 (requestBytes 1 tag count addr data) =
      crc ∧ (count = 0 ∨ 64 < count ∨ data.length ≠ count)) ∧
    (∃ (s : State), s.mgt.response = none) :=
  ⟨⟨9, (mh id).setF F.mgtI3cStatusDaValid 0, by decide +kernel⟩,
   ⟨(mh id).setF F.mgtI3cStatusDaValid 1, by decide +kernel⟩,
   ⟨true, false, mh id, by decide +kernel⟩,
   ⟨(mh fun m => { m with protoErr := true }).setF F.mgtI3cStatusDaValid 1, by decide +kernel⟩,
   ⟨9, (mh id).setF F.mgtI3cStatusDaValid 1, by decide +kernel⟩,
   ⟨3, 2, 0x100, [5,6], cr 1 3 2 0x100 [5, 6], mh id, by decide +kernel⟩,
   ⟨12, mh id, by decide +kernel⟩,
   ⟨3, 2, 0x100, [5,6], cr 3 3 2 0x100 [5, 6], mh id, by decide +kernel⟩,
   ⟨9, ((((mh fun m => { m with ibiPending := [9], ibiRetryAt := 0 }).setF F.mgtI3cStatusDaValid 1).setF
     ⟨A.mgtAlertStatus, 9, 1⟩ 1).setF F.mgtI3cStatusIntEn 1), by decide +kernel⟩,
   ⟨true, false, 5, 6, mg (fun m => { m with hdr := true }), .enec true false, by decide +kernel, by simp⟩,
   ⟨5, ((mh fun m => { m with hjDue := some 5 }).setF F.mgtI3cStatusDaValid 0).setF F.mgtI3cStatusHjEn 1, by
     decide +kernel⟩,
   ⟨3, 2, 0x100, [], cr 2 3 2 0x100 [], mh id, by decide +kernel⟩,
   ⟨3, 2, 0x100, [], cr 4 3 2 0x100 [], mh id, by decide +kernel⟩,
   ⟨3, 65, 0x100, [], cr 4 3 65 0x100 [], mh id, by decide +kernel⟩,
   ⟨3, 65, 0x100, [], cr 1 3 65 0x100 [], mh id, by decide +kernel⟩,
   ⟨mh id, by decide +kernel⟩⟩

end Managing

namespace ModeOrders

abbrev late (s : State) (t : Nat := 10^16) : State := { s with fab := { s.fab with timecode := t } }
abbrev pw (f : Power → Power) (s : State := rdy) : State := late { s with pwr := f s.pwr }
abbrev idS (n : Nat) : State := ((pw fun p => { p with idleSince := some 0 }).setF F.pwrIdleEntryMs 10).setF F.pwrWakeBudgetUs n
abbrev trn (m : Mode) : Transition := { target := m, cause := 1, start := 0, side := .device, reg := false, leave := false, pwrdis := false, idle := false, drained := false }
abbrev ts_ (m : Mode) (s : State := rdy) : State := pw (fun p => { p with trans := some (trn m), starting := none }) s
abbrev spun : State := ((rdy.setF F.srvStatusSpinState 5).setF (F.srvActStatusState 0) 5).setF (F.srvActStatusState 1) 5
abbrev wbe : WbEntry := { nsid := 1, unit := 4, data := zeros 4096, lo := 0, hi := 4096, key := io, gen := 0, complete := true, age := 0, order := 0, flushing := false, slot := none, mapped := none }
abbrev rec1 : InstRec := { rec0 with dramBase := 600 }
abbrev r1S : State := let s := (idS 40000).setF (F.instStatusState 0) 2; { s with ten := [(0, { Tenant.reset with record := some rec1 })] }
abbrev stq (n : Nat) : StartSeq := { kind := .cold, step := n, wantReady := false, service := false }
abbrev stS (n : Nat) : State := pw (fun p => { p with starting := some (stq n), pathOpen := false }) (inM .dormant)
abbrev nsp : State := (pw id rdy).setF F.devSpliceStatusTrained 0
abbrev kpS : State := let s := ts_ .ready (inM .standby); { s with pwr := { s.pwr with keptDigest := some (sha384 []) } }
abbrev rsq : ResetSeq := { dumped := false, unloadAt := 0 }
abbrev rsS : State := pw fun p => { p with nreset := true, resetting := some rsq }
abbrev prS (s : State) : State := pw (fun p => { p with v12UpSince := some 0, failing := true }) s

theorem witness_PinsAndModeOrdersArePlaced :
    (∃ (path : Path) (s : State), s.admits path A.pwrModeCmd ∧ s.regsWf ∧ s.pwr.trans = none ∧ s.pwr.pwrdis = false) ∧
    (∃ (path : Path) (s : State), s.admits path A.pwrModeCmd ∧ s.regsWf ∧ s.pwr.trans = none ∧ s.pwr.pwrdis = true) ∧
    (∃ (held : Nat) (s : State), 10000 ≤ held ∧ s.pwr.pwrdis = false ∧ (s.mode = Mode.dormant ∨ s.mode = Mode.standby
      ∨ s.mode = Mode.doze) ∧ s.pwr.trans = none) ∧
    (∃ (held : Nat) (s : State), 100000 ≤ held ∧ s.pwr.pwrdis = false ∧ s.pwr.trans = none) ∧
    (∃ (held : Nat) (s : State), held < 50000) ∧
    (∃ (held : Nat) (s : State), held < 2000) ∧
    (∃ (held : Nat) (s : State), 100000 ≤ held ∧ s.pwr.pwrdis = true ∧ s.inMode Mode.dormant = false) :=
  ⟨⟨.core, pw id, by decide +kernel⟩,
   ⟨.core, pw fun p => { p with pwrdis := true }, by decide +kernel⟩,
   ⟨10000, pw id (inM .dormant), by decide +kernel⟩,
   ⟨100000, pw id, by decide +kernel⟩,
   ⟨10000, pw id, by decide +kernel⟩,
   ⟨500, rdy, by decide +kernel⟩,
   ⟨100000, pw fun p => { p with pwrdis := true }, by decide +kernel⟩⟩

theorem witness_ModeTransitionsEnd :
    (∃ (a : Nat) (s : State), s.pwr.idleSince = some a ∧ s.inMode Mode.ready = true ∧ s.isIdle = true ∧ s.getF
      F.pwrIdleEntryMs ≠ 0 ∧ s.since a (s.getF F.pwrIdleEntryMs * 1000000) = true ∧ s.diskData = false ∧ s.regsWf ∧ 2
      ≤ s.getF F.pwrWakeBudgetUs ∧ s.getF F.pwrWakeBudgetUs < 30000) ∧
    (∃ (a : Nat) (s : State), s.pwr.idleSince = some a ∧ s.inMode Mode.ready = true ∧ s.isIdle = true ∧ s.getF
      F.pwrIdleEntryMs ≠ 0 ∧ s.since a (s.getF F.pwrIdleEntryMs * 1000000) = true ∧ s.diskData = false ∧ s.regsWf ∧
      s.getF F.pwrWakeBudgetUs < 2) ∧
    (∃ (x : Transition) (s : State), s.pwr.trans = some x ∧ s.pwr.starting = none ∧ x.target = Mode.doze ∧
      s.headsParked = true ∧ s.spinStopped = true ∧ s.pwr.pwrdisWait = false ∧ s.regsWf ∧ s.role = roleNone) ∧
    (∃ (a : Nat) (s : State), s.pwr.idleSince = some a ∧ s.inMode Mode.ready = true ∧ s.isIdle = true ∧ s.getF
      F.pwrIdleEntryMs ≠ 0 ∧ s.since a (s.getF F.pwrIdleEntryMs * 1000000) = true ∧ s.diskData = false ∧ s.regsWf ∧
      30000 ≤ s.getF F.pwrWakeBudgetUs ∧ s.rank1Quiet = false) ∧
    (∃ (a : Nat) (s : State), s.pwr.idleSince = some a ∧ s.inMode Mode.active = true ∧ s.isIdle = true ∧ s.since a
      10000 = true) ∧
    (∃ (a : Nat) (s : State), s.pwr.idleSince = some a ∧ s.inMode Mode.active = true ∧ s.isIdle = true ∧ s.since a
      10000 = false) ∧
    (∃ (x : Transition) (s : State), s.pwr.trans = some x ∧ x.idle = false ∧ x.drained = false ∧ (x.target =
      Mode.dormant ∨ x.target = Mode.standby ∨ x.target = Mode.service) ∧ s.since x.start 1000000000 = true) ∧
    (∃ (x : Transition) (s : State), s.pwr.trans = some x ∧ x.idle = false ∧ x.drained = false ∧ (x.target =
      Mode.dormant ∨ x.target = Mode.standby ∨ x.target = Mode.service) ∧ s.since x.start 1000000000 = false) ∧
    (∃ (x : Transition) (s : State), s.pwr.trans = some x ∧ s.pwr.starting = none ∧ x.target = Mode.doze ∧
      (s.headsParked = false ∨ s.spinStopped = false)) ∧
    (∃ (x : Transition) (s : State), s.pwr.trans = some x ∧ s.pwr.starting = none ∧ x.target = Mode.readOnly) ∧
    (∃ (x : Transition) (s : State), s.pwr.trans = some x ∧ s.pwr.starting = none ∧ x.target = Mode.ready ∧ x.leave =
      false ∧ 2 ≤ s.getF F.pwrModeMode ∧ s.diskUp = true) ∧
    (∃ (x : Transition) (s : State), s.pwr.trans = some x ∧ s.pwr.starting = none ∧ x.target = Mode.ready ∧ x.leave =
      false ∧ s.diskUp = false) ∧
    (∃ (x : Transition) (s : State), s.pwr.trans = some x ∧ s.pwr.starting = none ∧ x.target = Mode.service ∧ s.ftl.wb
      = [] ∧ s.host.cmds = [] ∧ s.tsk.ctxs = []) ∧
    (∃ (x : Transition) (s : State), s.pwr.trans = some x ∧ s.pwr.starting = none ∧ x.target = Mode.service ∧ s.ftl.wb
      ≠ []) ∧
    (∃ (x : Transition) (s : State), s.pwr.trans = some x ∧ s.pwr.starting = none ∧ x.target = Mode.safe ∧ s.logicOn =
      true ∧ s.ftl.dumping = false ∧ s.headsParked = true) ∧
    (∃ (x : Transition) (s : State), s.pwr.trans = some x ∧ s.pwr.starting = none ∧ x.target = Mode.safe ∧
      s.ftl.dumping = true) ∧
    (∃ (x : Transition) (s : State), s.pwr.trans = some x ∧ s.pwr.starting = none ∧ x.target = Mode.standby ∧
      s.headsParked = true ∧ s.spinStopped = true ∧ s.ftl.wb = [] ∧ s.drained = true ∧ s.rank1Quiet = true ∧
      s.journalDurable = true) ∧
    (∃ (x : Transition) (s : State), s.pwr.trans = some x ∧ s.pwr.starting = none ∧ x.target = Mode.standby ∧
      s.headsParked = true ∧ s.spinStopped = true ∧ s.ftl.wb = [] ∧ s.drained = false) ∧
    (∃ (x : Transition) (s : State), s.pwr.trans = some x ∧ s.pwr.starting = none ∧ x.target = Mode.dormant ∧
      s.headsParked = true ∧ s.spinStopped = true ∧ s.drained = true ∧ s.ftl.wb = [] ∧ s.journalDurable = true ∧
      s.logicOn = true) :=
  ⟨⟨0, idS 2, by decide +kernel⟩,
   ⟨0, idS 1, by decide +kernel⟩,
   ⟨trn .doze, ts_ .doze, by decide +kernel⟩,
   ⟨0, r1S, by decide +kernel⟩,
   ⟨0, pw (fun p => { p with idleSince := some 0 }) act, by decide +kernel⟩,
   ⟨10^16, pw (fun p => { p with idleSince := some (10^16) }) act, by decide +kernel⟩,
   ⟨trn .standby, ts_ .standby, by decide +kernel⟩,
   ⟨{ trn .standby with start := 10^16 }, pw (fun p => { p with trans := some { trn .standby with start := 10^16 } }),
     by decide +kernel⟩,
   ⟨trn .doze, ts_ .doze spun, by decide +kernel⟩,
   ⟨trn .readOnly, ts_ .readOnly, by decide +kernel⟩,
   ⟨trn .ready, ts_ .ready (spun.setF F.pwrModeMode Mode.doze.code), by decide +kernel⟩,
   ⟨trn .ready, (ts_ .ready (rdy.setF F.pwrModeMode Mode.doze.code)).setF F.srvStatusTableValid 1, by decide +kernel⟩,
   ⟨trn .service, ts_ .service, by decide +kernel⟩,
   ⟨trn .service, let s := ts_ .service; { s with ftl := { s.ftl with wb := [wbe] } }, by decide +kernel⟩,
   ⟨trn .safe, ts_ .safe, by decide +kernel⟩,
   ⟨trn .safe, let s := ts_ .safe; { s with ftl := { s.ftl with dumping := true } }, by decide +kernel⟩,
   ⟨trn .standby, ts_ .standby, by decide +kernel⟩,
   ⟨trn .standby, withCmd (ts_ .standby) io (sqeOf 2), by decide +kernel⟩,
   ⟨trn .dormant, ts_ .dormant, by decide +kernel⟩⟩

theorem witness_StartsAndResets :
    (∃ (x : StartSeq) (bad : Nat) (s : State), s.pwr.starting = some x ∧ s.pwr.nreset = false ∧ x.step = 4 ∧
      s.pwr.failing = false ∧ s.pwr.resetting = none ∧ s.regsWf) ∧
    (∃ (bad : Nat) (s : State), s.pwr.starting = none ∧ s.onF F.devSpliceStatusTrained = false ∧ s.logicOn = true ∧
      s.fab.heldEvents = [] ∧ s.regsWf) ∧
    (∃ (held : Nat) (s : State), 10000 ≤ held ∧ s.pwr.resetting = none ∧ s.pwr.failing = false ∧ s.logicOn = false ∧
      s.headsParked = true ∧ s.spinStopped = true ∧ s.ftl.dumping = false) ∧
    (∃ (s : State) (x : ResetSeq), s.pwr.nreset = true ∧ s.pwr.resetting = some x ∧ s.ftl.dumping = false ∧
      s.headsParked = true ∧ s.spinStopped = true) ∧
    (∃ (act : Nat) (x : ResetSeq) (s : State), s.pwr.resetting = some x ∧ act < 2 ∧ s.actState act = 6 ∧ s.since
      x.unloadAt 500000000 = true ∧ s.regsWf ∧ Sparse.wf (fun x => ActServo.reset) s.srv.acts = true ∧ (∀ (w :
      SectorWrite), w ∈ (s.diskAct act).writes → w.st ≠ WriteSt.writing)) ∧
    (∃ (x : Transition) (bad : Nat) (s : State), s.pwr.starting = none ∧ s.pwr.trans = some x ∧ s.pwr.nreset = false ∧
      s.pwr.failing = false ∧ s.pwr.resetting = none ∧ s.inMode Mode.standby = true ∧ x.target = Mode.ready ∧
      s.pwr.keptDigest = some (sha384 s.upd.runningImage)) ∧
    (∃ (lf : Bool) (s : State), s.pairState = pairDown) ∧
    (∃ (x : Transition) (bad : Nat) (s : State), s.pwr.starting = none ∧ s.pwr.trans = some x ∧ s.pwr.nreset = false ∧
      s.pwr.failing = false ∧ s.pwr.resetting = none ∧ s.inMode Mode.dormant = true ∧ x.target = Mode.ready) ∧
    (∃ (x : StartSeq) (bad : Nat) (s : State), s.pwr.starting = some x ∧ s.pwr.nreset = false ∧ x.step ≠ 4) ∧
    (∃ (x : Transition) (bad : Nat) (s : State) (ok : Bool), s.pwr.starting = none ∧ s.pwr.trans = some x ∧
      s.pwr.nreset = false ∧ s.pwr.failing = false ∧ s.pwr.resetting = none ∧ s.inMode Mode.standby = true ∧ x.target
      = Mode.ready ∧ (ok = false ∨ s.pwr.keptDigest ≠ some (sha384 s.upd.runningImage))) ∧
    (∃ (held : Nat) (s : State), held < 1000) ∧
    (∃ (s : State), s.pwr.nreset = true ∧ s.pwr.resetting = none) ∧
    (∃ (s : State) (x : ResetSeq), s.pwr.nreset = true ∧ s.pwr.resetting = some x ∧ s.ftl.dumping = true) ∧
    (∃ (act : Nat) (x : ResetSeq) (s : State), s.pwr.resetting = some x ∧ act < 2 ∧ s.actState act = 6 ∧ s.since
      x.unloadAt 500000000 = false) :=
  ⟨⟨stq 4, 0, stS 4, by decide +kernel⟩,
   ⟨0, nsp, by decide +kernel⟩,
   ⟨10000, inM .dormant, by decide +kernel⟩,
   ⟨rsS, rsq, by decide +kernel⟩,
   ⟨0, rsq, rsS.setF (F.srvActStatusState 0) 6, by decide +kernel⟩,
   ⟨trn .ready, 0, kpS, by decide +kernel⟩,
   ⟨true, rdy, by decide +kernel⟩,
   ⟨trn .ready, 0, ts_ .ready (inM .dormant), by decide +kernel⟩,
   ⟨stq 3, 5, stS 3, by decide +kernel⟩,
   ⟨trn .ready, 3, ts_ .ready (inM .standby), false, by decide +kernel⟩,
   ⟨500, rdy, by decide +kernel⟩,
   ⟨pw fun p => { p with nreset := true, resetting := none }, by decide +kernel⟩,
   ⟨{ rsS with ftl := { rsS.ftl with dumping := true } }, rsq, by decide +kernel⟩,
   ⟨0, { rsq with unloadAt := 10^16 }, (pw fun p =>
     { p with nreset := true, resetting := some { rsq with unloadAt := 10^16 } }).setF (F.srvActStatusState 0) 6, by
     decide +kernel⟩⟩

theorem witness_SuppliesTakeEffect :
    (∃ (mv : Nat) (s : State), mv < 10000 ∧ s.nvs.op = none ∧ s.srv.tune = none ∧ s.logicOn = false ∧ s.onF
      F.drvStatusRetract = false ∧ s.regsWf ∧ s.actState 0 = 0 ∧ s.actState 1 = 0) ∧
    (∃ (mv : Nat) (s : State), mv < 2 ^ 16 ∧ s.regsWf ∧ 10700 ≤ mv) ∧
    (∃ (mv : Nat) (s : State), s.regsWf ∧ mv < 7800 ∧ s.ftl.dumping = true) ∧
    (∃ (a : Nat) (s : State), s.pwr.v12UpSince = some a ∧ s.pwr.failing = true ∧ s.ftl.dumping = false ∧
      s.pwr.resetting = none ∧ s.since a 100000000 = true ∧ s.inMode Mode.ready = true) ∧
    (∃ (act : Nat) (s : State), act < 2 ∧ s.regsWf ∧ Sparse.wf (fun x => ActServo.reset) s.srv.acts = true) ∧
    (∃ (mv : Nat) (s : State), 10500 ≤ mv) ∧
    (∃ (mv : Nat) (s : State), mv < 2 ^ 16 ∧ s.regsWf ∧ mv < 10500) ∧
    (∃ (mv : Nat) (s : State), s.regsWf ∧ 8200 ≤ mv) ∧
    (∃ (a : Nat) (s : State), s.pwr.v12UpSince = some a ∧ s.pwr.failing = true ∧ s.ftl.dumping = false ∧
      s.pwr.resetting = none ∧ s.since a 100000000 = true ∧ s.inMode Mode.dormant = true ∧ s.pwr.starting = none ∧
      s.pwr.logicHeld = false) ∧
    (∃ (a : Nat) (s : State), s.pwr.v12UpSince = some a ∧ s.pwr.failing = true ∧ s.ftl.dumping = false ∧
      s.pwr.resetting = none ∧ s.since a 100000000 = false) :=
  ⟨⟨9000, inM .dormant, by decide +kernel⟩,
   ⟨10700, rdy, by decide +kernel⟩,
   ⟨7000, { rdy with ftl := { rdy.ftl with dumping := true } }, by decide +kernel⟩,
   ⟨0, prS rdy, by decide +kernel⟩,
   ⟨0, rdy, by decide +kernel⟩,
   ⟨10500, rdy, by decide +kernel⟩,
   ⟨10400, rdy, by decide +kernel⟩,
   ⟨8200, rdy, by decide +kernel⟩,
   ⟨0, prS (inM .dormant), by decide +kernel⟩,
   ⟨10^16, pw (fun p => { p with v12UpSince := some (10^16), failing := true }), by decide +kernel⟩⟩

end ModeOrders

namespace Further

abbrev hst (s : State) : State := { s with host := { s.host with ctrls := [(0, { Ctrl.reset with cc := 1, rdy := true })] } }
abbrev hs : State := withNs (hst act) (nsOf .flash)
abbrev stS (e : Bool) (n : Nat) (f : Option (Nat × Nat)) : State := { hs with pwr := { hs.pwr with selfTest := some { extended := e, segment := n, failed := f } } }
abbrev wz : Sqe := { sqeOf 8 with dw10 := 3 }
abbrev dsm : Sqe := { sqeOf 9 with dw11 := 4, data := leBytes 4 0 ++ leBytes 4 8 ++ leBytes 8 16 }
abbrev late (s : State) (t : Nat := 10^16) : State := { s with fab := { s.fab with timecode := t } }
abbrev mg (f : Mgmt → Mgmt) (s : State := act) : State := late { s with mgt := f s.mgt }
abbrev mh (f : Mgmt → Mgmt) (s : State := act) : State := mg (fun m => f { m with hdr := false }) s
abbrev cr (op tag count addr : Nat) (d : List Word) : Byte := crc8 (requestBytes op tag count addr d)
abbrev jt := (jh 2 true)
abbrev tgS : State := (aS jt).jobWrite jt (0x80000000 + 64) (gcmTag jt.key ((jt.saved.getD []).take 12) ((jt.saved.getD []).drop 12) jt.taken)
abbrev tgU : State := tgS.modJob 2 4 1 fun k => { k with hits := 0 }
abbrev ue : State := let s := at_ 0x40; { s with mem := { s.mem with valid := [(memKey 0x24 16, true)], masks := [(memKey 0x24 16, 3)] } }
abbrev pd (s : State) : State := { (((s.setF F.cntStatusRole 1).setF F.cntStatusPairState 5).setF F.cntCtrlLinkEn 1).setF F.cntCfgPolicy 1 with cnt := { s.cnt with role := 1 } }
abbrev tKey (x : Ctx) : State := let s := txs { x with desc := { desc0 with outs := [{ rgO with kind := 0 }] } } u0; { s with sec := { s.sec with slots := [], nsKeys := [] } }
abbrev cOut (w : Option Nat) : Ctx := { cx .preparing with desc := { desc0 with outs := [{ rgO with kind := 0 }] }, waiting := w }
abbrev xnw : Ctx := { cx .preparing with desc := { desc0 with clusters := 0 }, waiting := some 3 }
abbrev xgw : Ctx := { cx .preparing with desc := { desc0 with shared := 65536 * 65 }, waiting := some 3 }

theorem witness_AdminCommandsComplete_more :
    ∃ (seg unit : Nat) (x : SelfTest) (s : State), s.pwr.selfTest = some x ∧ x.segment = seg ∧ s.selfTestMode
      x.extended = true ∧ ¬seg < State.SelfTest.last x :=
  ⟨6, 0, { extended := false, segment := 6, failed := some (2, 0) }, stS false 6 (some (2, 0)), by decide +kernel⟩

theorem witness_ReadsAndDeallocations_more :
    (∃ (key : CmdKey) (c : Cmd) (s : State) (st : Status), (s.executing key 8 false = some c ∧ (∀ (e : WbEntry), e ∈
      s.ftl.wb → e.key ≠ key) ∧ (s.keyDenied c.sqe.nsid).or (s.pairDenied.or (s.promoteDenied c.sqe.nsid c.sqe.lba
      c.sqe.blocks)) = some st) ∧ (s.noErrors) ∧ (∀ (fn : Nat), ¬key ∈ (s.ctrl fn).aers)) ∧
    (∃ (key : CmdKey) (c : Cmd) (s : State) (st : Status), s.executing key 9 false = some c ∧ c.sqe.deallocates = true
      ∧ s.pairDenied = some st) :=
  ⟨⟨io, cmdOf io wz .executing, withCmd (pd hs) io wz, (7, 0xCD, 0), by decide +kernel, noErrors_of (by
     decide +kernel), no_aer (by decide +kernel)⟩,
   ⟨io, cmdOf io dsm .executing, withCmd (pd hs) io dsm, (7, 0xCD, 0), by decide +kernel⟩⟩

theorem witness_TakesAreSubmittedAndPlaced_more :
    (∃ (h : Nat) (x : Ctx) (s : State), (Sparse.wf (fun x => none) s.tsk.ctxs = true ∧ s.ctx h = some x ∧ x.st =
      TakeSt.preparing ∧ x.waiting ≠ none ∧ s.takeKeyGone x.desc = false ∧ ((x.desc.nsRanges.any fun x => x.fst) &&
      s.mirrorRequired) = false ∧ List.filter (fun c => bit x.desc.clusters c && s.clusterRuns c) (List.range 4) = [])
      ∧ (s.canDraw (s.dramNeeds x.tenant (Config.bufferPlace 6) ((Option.map Script.consts (sparseGet (fun x => none)
      s.tsk.images x.script)).getD []).length false) = true)) ∧
    (∃ (h : Nat) (x : Ctx) (s : State), (Sparse.wf (fun x => none) s.tsk.ctxs = true ∧ s.ctx h = some x ∧ x.st =
      TakeSt.preparing ∧ x.waiting = none ∧ s.takeKeyGone x.desc = true) ∧ (s.canDraw (s.dramNeeds x.tenant
      (Config.bufferPlace 6) ((Option.map Script.consts (sparseGet (fun x => none) s.tsk.images x.script)).getD
      []).length false) = true)) ∧
    (∃ (h : Nat) (x : Ctx) (s : State), (Sparse.wf (fun x => none) s.tsk.ctxs = true ∧ s.ctx h = some x ∧ x.st =
      TakeSt.preparing ∧ x.waiting ≠ none ∧ s.takeKeyGone x.desc = true) ∧ (s.canDraw (s.dramNeeds x.tenant
      (Config.bufferPlace 6) ((Option.map Script.consts (sparseGet (fun x => none) s.tsk.images x.script)).getD
      []).length false) = true)) ∧
    (∃ (h : Nat) (x : Ctx) (s : State), (Sparse.wf (fun x => none) s.tsk.ctxs = true ∧ s.ctx h = some x ∧ x.st =
      TakeSt.preparing ∧ x.waiting ≠ none ∧ s.takeKeyGone x.desc = false ∧ ((x.desc.nsRanges.any fun x => x.fst) &&
      s.mirrorRequired) = false ∧ List.filter (fun c => bit x.desc.clusters c && s.clusterRuns c) (List.range 4) ≠ []
      ∧ (∀ (c : Nat), c ∈ List.filter (fun c => bit x.desc.clusters c && s.clusterRuns c) (List.range 4) → s.sharedRun
      c (x.desc.shared / 65536) = none)) ∧ (s.canDraw (s.dramNeeds x.tenant (Config.bufferPlace 6) ((Option.map
      Script.consts (sparseGet (fun x => none) s.tsk.images x.script)).getD []).length false) = true)) :=
  ⟨⟨5, xnw, txs xnw u0, by decide +kernel, draw_dram (by decide +kernel)⟩,
   ⟨5, cOut (none), tKey (cOut (none)), by decide +kernel, draw_dram (by decide +kernel)⟩,
   ⟨5, cOut (some 3), tKey (cOut (some 3)), by decide +kernel, draw_dram (by decide +kernel)⟩,
   ⟨5, xgw, txs xgw u0, by decide +kernel, draw_dram (by decide +kernel)⟩⟩

theorem witness_LoadsAndStores :
    (∃ (p : Nat) (f : BitVec 24) (s : State) (off : Nat), (s.Issues p 256 ∧ (List.filter (fun e => decide (e.shared =
      false)) (s.proc p).merge).length < 8 ∧ Sparse.wf (fun x => 0) (s.proc p).local_ = true ∧ List.find? (fun e =>
      decide (e.shared = false) && decide (e.word = off / 4)) (s.proc p).merge = none) ∧ (s.noErrors) ∧ (s.accessAt p
      (BitVec.toNat (s.gReg p (fieldA f) + BitVec.signExtend 32 (BitVec.extractLsb' 0 14 f))) 1 true = Except.ok
      (Place.loc off))) ∧
    (∃ (p : Nat) (f : BitVec 24) (s : State) (off : Nat), (s.Issues p 256 ∧ (List.filter (fun e => decide (e.shared =
      false)) (s.proc p).merge).length < 8 ∧ Sparse.wf (fun x => 0) (s.proc p).local_ = true ∧ List.find? (fun e =>
      decide (e.shared = false) && decide (e.word = off / 4)) (s.proc p).merge = none) ∧ (s.noErrors) ∧ (s.accessAt p
      (BitVec.toNat (s.gReg p (fieldA f) + BitVec.signExtend 32 (BitVec.extractLsb' 0 14 f))) 2 true = Except.ok
      (Place.loc off))) ∧
    (∃ (p : Nat) (f : BitVec 24) (s : State) (off : Nat), (s.Issues p 256 ∧ (List.filter (fun e => decide (e.shared =
      false)) (s.proc p).merge).length < 8 ∧ Sparse.wf (fun x => 0) (s.proc p).local_ = true) ∧ (s.noErrors) ∧
      (s.accessAt p (BitVec.toNat (s.gReg p (fieldA f) + BitVec.signExtend 32 (BitVec.extractLsb' 0 14 f))) 4 true =
      Except.ok (Place.loc off))) ∧
    (∃ (p : Nat) (f : BitVec 24) (s : State) (pl : Place) (l : List Byte) (u : State), (s.Issues p 256 ∧ s.canDraw
      (s.accessNeeds p (BitVec.toNat (s.gReg p (fieldA f) + BitVec.signExtend 32 (BitVec.extractLsb' 0 14 f))) 1
      false) = true ∧ (s.spend (s.accessNeeds p (BitVec.toNat (s.gReg p (fieldA f) + BitVec.signExtend 32
      (BitVec.extractLsb' 0 14 f))) 1 false)).memLoad p pl 1 = (some l, u)) ∧ (s.accessAt p (BitVec.toNat (s.gReg p
      (fieldA f) + BitVec.signExtend 32 (BitVec.extractLsb' 0 14 f))) 1 false = Except.ok pl)) ∧
    (∃ (p : Nat) (f : BitVec 24) (s : State) (port off : Nat), (s.Issues p 256 ∧ off < 4 ∧ s.popReady p port 1 =
      false) ∧ (s.accessAt p (BitVec.toNat (s.gReg p (fieldA f) + BitVec.signExtend 32 (BitVec.extractLsb' 0 14 f))) 1
      false = Except.ok (Place.inPort port off))) ∧
    (∃ (p : Nat) (f : BitVec 24) (s : State) (pl : Place) (l : List Byte) (u : State), (s.Issues p 256 ∧ s.canDraw
      (s.accessNeeds p (BitVec.toNat (s.gReg p (fieldA f) + BitVec.signExtend 32 (BitVec.extractLsb' 0 14 f))) 2
      false) = true ∧ (s.spend (s.accessNeeds p (BitVec.toNat (s.gReg p (fieldA f) + BitVec.signExtend 32
      (BitVec.extractLsb' 0 14 f))) 2 false)).memLoad p pl 2 = (some l, u)) ∧ (s.accessAt p (BitVec.toNat (s.gReg p
      (fieldA f) + BitVec.signExtend 32 (BitVec.extractLsb' 0 14 f))) 2 false = Except.ok pl)) ∧
    (∃ (p : Nat) (f : BitVec 24) (s : State) (port off : Nat), (s.Issues p 256 ∧ off < 4 ∧ s.popReady p port 2 =
      false) ∧ (s.accessAt p (BitVec.toNat (s.gReg p (fieldA f) + BitVec.signExtend 32 (BitVec.extractLsb' 0 14 f))) 2
      false = Except.ok (Place.inPort port off))) ∧
    (∃ (p : Nat) (f : BitVec 24) (s : State) (pl : Place) (l : List Byte) (u : State), (s.Issues p 256 ∧ s.canDraw
      (s.accessNeeds p (BitVec.toNat (s.gReg p (fieldA f) + BitVec.signExtend 32 (BitVec.extractLsb' 0 14 f))) 4
      false) = true ∧ (s.spend (s.accessNeeds p (BitVec.toNat (s.gReg p (fieldA f) + BitVec.signExtend 32
      (BitVec.extractLsb' 0 14 f))) 4 false)).memLoad p pl 4 = (some l, u)) ∧ (s.accessAt p (BitVec.toNat (s.gReg p
      (fieldA f) + BitVec.signExtend 32 (BitVec.extractLsb' 0 14 f))) 4 false = Except.ok pl)) ∧
    (∃ (p : Nat) (f : BitVec 24) (s : State) (port off : Nat), (s.Issues p 256 ∧ off < 4 ∧ s.popReady p port 4 =
      false) ∧ (s.accessAt p (BitVec.toNat (s.gReg p (fieldA f) + BitVec.signExtend 32 (BitVec.extractLsb' 0 14 f))) 4
      false = Except.ok (Place.inPort port off))) ∧
    (∃ (p : Nat) (f : BitVec 24) (s : State) (port off : Nat), (s.Issues p 256 ∧ off < 4 ∧ s.pushReady p port = false)
      ∧ (s.accessAt p (BitVec.toNat (s.gReg p (fieldA f) + BitVec.signExtend 32 (BitVec.extractLsb' 0 14 f))) 1 true =
      Except.ok (Place.outPort port off))) ∧
    (∃ (p : Nat) (f : BitVec 24) (s : State) (port off : Nat), (s.Issues p 256 ∧ off < 4 ∧ s.pushReady p port = false)
      ∧ (s.accessAt p (BitVec.toNat (s.gReg p (fieldA f) + BitVec.signExtend 32 (BitVec.extractLsb' 0 14 f))) 2 true =
      Except.ok (Place.outPort port off))) ∧
    (∃ (p : Nat) (f : BitVec 24) (s : State) (port off : Nat), (s.Issues p 256 ∧ off < 4 ∧ s.pushReady p port = false)
      ∧ (s.accessAt p (BitVec.toNat (s.gReg p (fieldA f) + BitVec.signExtend 32 (BitVec.extractLsb' 0 14 f))) 4 true =
      Except.ok (Place.outPort port off))) ∧
    (∃ (p : Nat) (f : BitVec 24) (s : State), s.Issues p 256 ∧ s.canDraw (s.accessNeeds p (BitVec.toNat (s.gReg p
      (fieldA f) + BitVec.signExtend 32 (BitVec.extractLsb' 0 14 f))) 1 false) = false) ∧
    (∃ (p : Nat) (f : BitVec 24) (s : State) (c : Nat), (s.Issues p 256) ∧ (s.accessAt p (BitVec.toNat (s.gReg p
      (fieldA f) + BitVec.signExtend 32 (BitVec.extractLsb' 0 14 f))) 1 false = Except.error c)) ∧
    (∃ (p : Nat) (f : BitVec 24) (s : State) (pl : Place) (u : State), (s.Issues p 256 ∧ s.canDraw (s.accessNeeds p
      (BitVec.toNat (s.gReg p (fieldA f) + BitVec.signExtend 32 (BitVec.extractLsb' 0 14 f))) 1 false) = true ∧
      pl.isMemory = true) ∧ (s.accessAt p (BitVec.toNat (s.gReg p (fieldA f) + BitVec.signExtend 32
      (BitVec.extractLsb' 0 14 f))) 1 false = Except.ok pl) ∧ ((s.spend (s.accessNeeds p (BitVec.toNat (s.gReg p
      (fieldA f) + BitVec.signExtend 32 (BitVec.extractLsb' 0 14 f))) 1 false)).memLoad p pl 1 = (none, u))) ∧
    (∃ (p : Nat) (f : BitVec 24) (s : State), s.Issues p 256 ∧ s.canDraw (s.accessNeeds p (BitVec.toNat (s.gReg p
      (fieldA f) + BitVec.signExtend 32 (BitVec.extractLsb' 0 14 f))) 2 false) = false) ∧
    (∃ (p : Nat) (f : BitVec 24) (s : State) (c : Nat), (s.Issues p 256) ∧ (s.accessAt p (BitVec.toNat (s.gReg p
      (fieldA f) + BitVec.signExtend 32 (BitVec.extractLsb' 0 14 f))) 2 false = Except.error c)) ∧
    (∃ (p : Nat) (f : BitVec 24) (s : State) (pl : Place) (u : State), (s.Issues p 256 ∧ s.canDraw (s.accessNeeds p
      (BitVec.toNat (s.gReg p (fieldA f) + BitVec.signExtend 32 (BitVec.extractLsb' 0 14 f))) 2 false) = true ∧
      pl.isMemory = true) ∧ (s.accessAt p (BitVec.toNat (s.gReg p (fieldA f) + BitVec.signExtend 32
      (BitVec.extractLsb' 0 14 f))) 2 false = Except.ok pl) ∧ ((s.spend (s.accessNeeds p (BitVec.toNat (s.gReg p
      (fieldA f) + BitVec.signExtend 32 (BitVec.extractLsb' 0 14 f))) 2 false)).memLoad p pl 2 = (none, u))) ∧
    (∃ (p : Nat) (f : BitVec 24) (s : State), s.Issues p 256 ∧ s.canDraw (s.accessNeeds p (BitVec.toNat (s.gReg p
      (fieldA f) + BitVec.signExtend 32 (BitVec.extractLsb' 0 14 f))) 4 false) = false) ∧
    (∃ (p : Nat) (f : BitVec 24) (s : State) (c : Nat), (s.Issues p 256) ∧ (s.accessAt p (BitVec.toNat (s.gReg p
      (fieldA f) + BitVec.signExtend 32 (BitVec.extractLsb' 0 14 f))) 4 false = Except.error c)) ∧
    (∃ (p : Nat) (f : BitVec 24) (s : State) (pl : Place) (u : State), (s.Issues p 256 ∧ s.canDraw (s.accessNeeds p
      (BitVec.toNat (s.gReg p (fieldA f) + BitVec.signExtend 32 (BitVec.extractLsb' 0 14 f))) 4 false) = true ∧
      pl.isMemory = true) ∧ (s.accessAt p (BitVec.toNat (s.gReg p (fieldA f) + BitVec.signExtend 32
      (BitVec.extractLsb' 0 14 f))) 4 false = Except.ok pl) ∧ ((s.spend (s.accessNeeds p (BitVec.toNat (s.gReg p
      (fieldA f) + BitVec.signExtend 32 (BitVec.extractLsb' 0 14 f))) 4 false)).memLoad p pl 4 = (none, u))) ∧
    (∃ (p : Nat) (f : BitVec 24) (s : State) (port off : Nat), (s.Issues p 256) ∧ (s.accessAt p (BitVec.toNat (s.gReg
      p (fieldA f) + BitVec.signExtend 32 (BitVec.extractLsb' 0 14 f))) 4 false = Except.ok (Place.outPort port off))) ∧
    (∃ (p : Nat) (f : BitVec 24) (s : State) (port off : Nat), (s.Issues p 256 ∧ 4 ≤ off) ∧ (s.accessAt p
      (BitVec.toNat (s.gReg p (fieldA f) + BitVec.signExtend 32 (BitVec.extractLsb' 0 14 f))) 4 false = Except.ok
      (Place.inPort port off))) ∧
    (∃ (p : Nat) (f : BitVec 24) (s : State) (x v : Nat) (u : State), (s.Issues p 256 ∧ s.busRead Path.core x = (v,
      u)) ∧ (s.accessAt p (BitVec.toNat (s.gReg p (fieldA f) + BitVec.signExtend 32 (BitVec.extractLsb' 0 14 f))) 4
      false = Except.ok (Place.mgmt x))) ∧
    (∃ (p : Nat) (f : BitVec 24) (s : State) (c : Nat), (s.Issues p 256) ∧ (s.accessAt p (BitVec.toNat (s.gReg p
      (fieldA f) + BitVec.signExtend 32 (BitVec.extractLsb' 0 14 f))) 1 true = Except.error c)) ∧
    (∃ (p : Nat) (f : BitVec 24) (s : State), s.Issues p 256 ∧ s.canDraw (s.accessNeeds p (BitVec.toNat (s.gReg p
      (fieldA f) + BitVec.signExtend 32 (BitVec.extractLsb' 0 14 f))) 1 true) = false) ∧
    (∃ (p : Nat) (f : BitVec 24) (s : State) (pl : Place), (s.Issues p 256 ∧ s.canDraw (s.accessNeeds p (BitVec.toNat
      (s.gReg p (fieldA f) + BitVec.signExtend 32 (BitVec.extractLsb' 0 14 f))) 1 true) = true ∧ pl.isMemory = true) ∧
      (s.accessAt p (BitVec.toNat (s.gReg p (fieldA f) + BitVec.signExtend 32 (BitVec.extractLsb' 0 14 f))) 1 true =
      Except.ok pl)) ∧
    (∃ (p : Nat) (f : BitVec 24) (s : State) (port off : Nat), (s.Issues p 256 ∧ BitVec.toNat (s.gReg p (fieldA f) +
      BitVec.signExtend 32 (BitVec.extractLsb' 0 14 f)) % 1 = 0 ∧ s.mpuOk p (BitVec.toNat (s.gReg p (fieldA f) +
      BitVec.signExtend 32 (BitVec.extractLsb' 0 14 f))) 1 true = true) ∧ (s.placeOf p (BitVec.toNat (s.gReg p (fieldA
      f) + BitVec.signExtend 32 (BitVec.extractLsb' 0 14 f))) 1 = Except.ok (Place.inPort port off))) ∧
    (∃ (p : Nat) (f : BitVec 24) (s : State) (c : Nat), (s.Issues p 256) ∧ (s.accessAt p (BitVec.toNat (s.gReg p
      (fieldA f) + BitVec.signExtend 32 (BitVec.extractLsb' 0 14 f))) 2 true = Except.error c)) ∧
    (∃ (p : Nat) (f : BitVec 24) (s : State), s.Issues p 256 ∧ s.canDraw (s.accessNeeds p (BitVec.toNat (s.gReg p
      (fieldA f) + BitVec.signExtend 32 (BitVec.extractLsb' 0 14 f))) 2 true) = false) ∧
    (∃ (p : Nat) (f : BitVec 24) (s : State) (pl : Place), (s.Issues p 256 ∧ s.canDraw (s.accessNeeds p (BitVec.toNat
      (s.gReg p (fieldA f) + BitVec.signExtend 32 (BitVec.extractLsb' 0 14 f))) 2 true) = true ∧ pl.isMemory = true) ∧
      (s.accessAt p (BitVec.toNat (s.gReg p (fieldA f) + BitVec.signExtend 32 (BitVec.extractLsb' 0 14 f))) 2 true =
      Except.ok pl)) ∧
    (∃ (p : Nat) (f : BitVec 24) (s : State) (port off : Nat), (s.Issues p 256 ∧ BitVec.toNat (s.gReg p (fieldA f) +
      BitVec.signExtend 32 (BitVec.extractLsb' 0 14 f)) % 2 = 0 ∧ s.mpuOk p (BitVec.toNat (s.gReg p (fieldA f) +
      BitVec.signExtend 32 (BitVec.extractLsb' 0 14 f))) 2 true = true) ∧ (s.placeOf p (BitVec.toNat (s.gReg p (fieldA
      f) + BitVec.signExtend 32 (BitVec.extractLsb' 0 14 f))) 2 = Except.ok (Place.inPort port off))) ∧
    (∃ (p : Nat) (f : BitVec 24) (s : State) (c : Nat), (s.Issues p 256) ∧ (s.accessAt p (BitVec.toNat (s.gReg p
      (fieldA f) + BitVec.signExtend 32 (BitVec.extractLsb' 0 14 f))) 4 true = Except.error c)) ∧
    (∃ (p : Nat) (f : BitVec 24) (s : State), s.Issues p 256 ∧ s.canDraw (s.accessNeeds p (BitVec.toNat (s.gReg p
      (fieldA f) + BitVec.signExtend 32 (BitVec.extractLsb' 0 14 f))) 4 true) = false) ∧
    (∃ (p : Nat) (f : BitVec 24) (s : State) (pl : Place), (s.Issues p 256 ∧ s.canDraw (s.accessNeeds p (BitVec.toNat
      (s.gReg p (fieldA f) + BitVec.signExtend 32 (BitVec.extractLsb' 0 14 f))) 4 true) = true ∧ pl.isMemory = true) ∧
      (s.accessAt p (BitVec.toNat (s.gReg p (fieldA f) + BitVec.signExtend 32 (BitVec.extractLsb' 0 14 f))) 4 true =
      Except.ok pl)) ∧
    (∃ (p : Nat) (f : BitVec 24) (s : State) (port off : Nat), (s.Issues p 256 ∧ BitVec.toNat (s.gReg p (fieldA f) +
      BitVec.signExtend 32 (BitVec.extractLsb' 0 14 f)) % 4 = 0 ∧ s.mpuOk p (BitVec.toNat (s.gReg p (fieldA f) +
      BitVec.signExtend 32 (BitVec.extractLsb' 0 14 f))) 4 true = true) ∧ (s.placeOf p (BitVec.toNat (s.gReg p (fieldA
      f) + BitVec.signExtend 32 (BitVec.extractLsb' 0 14 f))) 4 = Except.ok (Place.inPort port off))) ∧
    (∃ (p : Nat) (f : BitVec 24) (s : State) (x : Nat), (s.Issues p 256) ∧ (s.accessAt p (BitVec.toNat (s.gReg p
      (fieldA f) + BitVec.signExtend 32 (BitVec.extractLsb' 0 14 f))) 4 true = Except.ok (Place.mgmt x))) :=
  ⟨⟨4, fr, at_ 0x41, 0x41, by decide +kernel, noErrors_of (by decide +kernel), except_eq (by decide +kernel)⟩,
   ⟨4, fr, at_ 0x42, 0x42, by decide +kernel, noErrors_of (by decide +kernel), except_eq (by decide +kernel)⟩,
   ⟨4, fr, at_ 0x44, 0x44, by decide +kernel, noErrors_of (by decide +kernel), except_eq (by decide +kernel)⟩,
   ⟨4, fr, at_ 0x40, .loc 0x40, (ml (at_ 0x40) 4 (.loc 0x40) 1).1.getD [], (ml (at_ 0x40) 4 (.loc 0x40) 1).2, by
     decide +kernel, except_eq (by decide +kernel)⟩,
   ⟨4, fr, at_ 0x02000300, 3, 0, by decide +kernel, except_eq (by decide +kernel)⟩,
   ⟨4, fr, at_ 0x40, .loc 0x40, (ml (at_ 0x40) 4 (.loc 0x40) 2).1.getD [], (ml (at_ 0x40) 4 (.loc 0x40) 2).2, by
     decide +kernel, except_eq (by decide +kernel)⟩,
   ⟨4, fr, at_ 0x02000300, 3, 0, by decide +kernel, except_eq (by decide +kernel)⟩,
   ⟨4, fr, at_ 0x40, .loc 0x40, (ml (at_ 0x40) 4 (.loc 0x40) 4).1.getD [], (ml (at_ 0x40) 4 (.loc 0x40) 4).2, by
     decide +kernel, except_eq (by decide +kernel)⟩,
   ⟨4, fr, at_ 0x02000300, 3, 0, by decide +kernel, except_eq (by decide +kernel)⟩,
   ⟨4, fr, at_ 0x02008300, 3, 0, by decide +kernel, except_eq (by decide +kernel)⟩,
   ⟨4, fr, at_ 0x02008300, 3, 0, by decide +kernel, except_eq (by decide +kernel)⟩,
   ⟨4, fr, at_ 0x02008300, 3, 0, by decide +kernel, except_eq (by decide +kernel)⟩,
   ⟨4, fr, at_ 0x80000100, by decide +kernel⟩,
   ⟨4, fr, at_ 0x800000, 6, by decide +kernel, except_eq (by decide +kernel)⟩,
   ⟨4, fr, ue, .loc 0x40, (ml ue 4 (.loc 0x40) 1).2, by decide +kernel, except_eq (by decide +kernel), pair_ext (by
     decide +kernel) rfl⟩,
   ⟨4, fr, at_ 0x80000100, by decide +kernel⟩,
   ⟨4, fr, at_ 0x41, 5, by decide +kernel, except_eq (by decide +kernel)⟩,
   ⟨4, fr, ue, .loc 0x40, (ml ue 4 (.loc 0x40) 2).2, by decide +kernel, except_eq (by decide +kernel), pair_ext (by
     decide +kernel) rfl⟩,
   ⟨4, fr, at_ 0x80000100, by decide +kernel⟩,
   ⟨4, fr, at_ 0x42, 5, by decide +kernel, except_eq (by decide +kernel)⟩,
   ⟨4, fr, ue, .loc 0x40, (ml ue 4 (.loc 0x40) 4).2, by decide +kernel, except_eq (by decide +kernel), pair_ext (by
     decide +kernel) rfl⟩,
   ⟨4, fr, at_ 0x02008304, 3, 4, by decide +kernel, except_eq (by decide +kernel)⟩,
   ⟨4, fr, at_ 0x02000304, 3, 4, by decide +kernel, except_eq (by decide +kernel)⟩,
   ⟨0x3E, fr, atc 0x40000000, 0, ((atc 0x40000000).busRead .core 0).1, ((atc 0x40000000).busRead .core 0).2, by
     decide +kernel, except_eq (by decide +kernel)⟩,
   ⟨4, fr, at_ 0x800000, 6, by decide +kernel, except_eq (by decide +kernel)⟩,
   ⟨4, fr, at_ 0x80000100, by decide +kernel⟩,
   ⟨4, fr, at_ 0x44, .loc 0x44, by decide +kernel, except_eq (by decide +kernel)⟩,
   ⟨4, fr, at_ 0x02000300, 3, 0, by decide +kernel, except_eq (by decide +kernel)⟩,
   ⟨4, fr, at_ 0x41, 5, by decide +kernel, except_eq (by decide +kernel)⟩,
   ⟨4, fr, at_ 0x80000100, by decide +kernel⟩,
   ⟨4, fr, at_ 0x44, .loc 0x44, by decide +kernel, except_eq (by decide +kernel)⟩,
   ⟨4, fr, at_ 0x02000300, 3, 0, by decide +kernel, except_eq (by decide +kernel)⟩,
   ⟨4, fr, at_ 0x42, 5, by decide +kernel, except_eq (by decide +kernel)⟩,
   ⟨4, fr, at_ 0x80000100, by decide +kernel⟩,
   ⟨4, fr, at_ 0x44, .loc 0x44, by decide +kernel, except_eq (by decide +kernel)⟩,
   ⟨4, fr, at_ 0x02000300, 3, 0, by decide +kernel, except_eq (by decide +kernel)⟩,
   ⟨0x3E, fr, atc 0x40001000, 0x1000, by decide +kernel, except_eq (by decide +kernel)⟩⟩

theorem witness_CipherAndDigestJobs_more :
    ∃ (p slot : Nat) (j : AccJob) (s : State) (x : List Byte) (v : State), s.job? 2 p slot = some j ∧ j.hits ≠ 0 ∧
      j.code = none ∧ j.unit.isSome = true ∧ j.eos = true ∧ j.op = 2 ∧ j.dfa = 0 ∧ (s.modJob 2 p slot fun k =>
      { k with hits := 0 }).jobRead j (field j.desc 8 4 + 16 * field j.desc 30 2) 16 = (some x, v) ∧ x = gcmTag j.key
      (List.take 12 (j.saved.getD [])) (List.drop 12 (j.saved.getD [])) j.taken :=
  ⟨4, 1, jt, tgS, (tgU.jobRead jt (0x80000000 + 64) 16).1.getD [], (tgU.jobRead jt (0x80000000 + 64) 16).2, by
    decide +kernel⟩

theorem witness_I3cTargetAnswers_more :
    (∃ (len : Nat) (s : State), s.mgt.hdr = false ∧ (len < 12 ∨ 265 < len) ∧ (len < 8 ∨ 261 < len)) ∧
    (∃ (tag count addr : Nat) (data : List Word) (crc : Byte) (s : State), crc8 (requestBytes 2 tag count addr []) =
      crc ∧ (count = 0 ∨ 64 < count ∨ addr % 4 ≠ 0 ∨ 4194304 ≤ addr)) ∧
    (∃ (tag count addr : Nat) (data : List Word) (crc : Byte) (s : State), crc8 (requestBytes 3 tag count addr data) =
      crc ∧ (count = 0 ∨ 64 < count ∨ data.length ≠ count)) :=
  ⟨⟨266, mh id, by decide +kernel⟩,
   ⟨3, 65, 0x100, [], cr 2 3 65 0x100 [], mh id, by decide +kernel⟩,
   ⟨3, 65, 0x100, [], cr 3 3 65 0x100 [], mh id, by decide +kernel⟩⟩

end Further

/-! ## Statements whose hypotheses need a proof of their own -/

theorem witness_StepRunsFrontCommand : ∃ (c : Instr) (rest : List Instr) (s : State), s.pending = c :: rest :=
  ⟨.slateHeal, [], { State.reset with pending := [.slateHeal] }, rfl⟩

theorem witness_EveryStepKeepsTheMachineInOrder :
    ∃ s t : State, s.regsWf ∧ step s = .next t ∧ ∀ lf, s.pending.head? ≠ some (.coldReset lf) :=
  ⟨{ State.reset with pending := [.slateHeal] }, State.reset, by decide +kernel, rfl, by simp⟩

theorem witness_DruotRoundTrip :
    (∃ (i : Instr) (w : BitVec 32), encodeDruot i = some w)
    ∧ (∃ (p : Nat) (w : BitVec 32) (i : Instr), decodeDruot p w = some i) :=
  ⟨⟨.add 0 0x18CE00, 0x0018CE00, by decide +kernel⟩, ⟨0, 0x0018CE00, .add 0 0x18CE00, rfl⟩⟩

theorem slotSector_injective {i j : Nat} (h : slotSector i = slotSector j) : i = j := by
  unfold slotSector at h
  split at h <;> split at h <;> omega

/-- A gap move due, with units that hold data, the gap at a ring slot. -/
def gapState (gap start : Nat) : State :=
  ((({ act with nvs := { act.nvs with gapDue := true, units := [(0, 7), (80000, 5), (900000, 1)] } } : State).setF
    F.nvsRingGap gap).setF F.nvsRingStart start)

theorem gapState_slotPhys (gap start : Nat) {i j : Nat} (h : (gapState gap start).slotPhys i = (gapState gap start).slotPhys j) :
    i = j := by
  have e : ∀ r, (gapState gap start).slotPhys r = slotSector r := fun _ => rfl
  rw [e, e] at h
  exact slotSector_injective h

theorem slotSector_plain (i : Nat) (h : i ≤ 1920) : slotSector i % 1024 ≠ 0 := by
  unfold slotSector
  split <;> omega

theorem witness_GapMoveKeepsContents :
    (∃ s : State, (s.nvs.gapDue = true ∧ s.nvs.op = none ∧ s.nvs.stopped = false ∧ s.regsWf ∧
      Sparse.wf (fun _ => State.erasedUnit) s.nvs.units = true ∧ s.nvsGap ≤ 1920 ∧ s.nvsStart < 1920 ∧ s.nvsGap = 0 ∧
        s.nvs.remaps.length ≤ 508) ∧
      (∀ i ≤ 1920, ∀ j ≤ 1920, s.slotPhys i = s.slotPhys j → i = j) ∧ ∀ i ≤ 1920, s.slotPhys i % 1024 ≠ 0) ∧
    (∃ s : State, (s.nvs.gapDue = true ∧ s.nvs.op = none ∧ s.nvs.stopped = false ∧ s.regsWf ∧
      Sparse.wf (fun _ => State.erasedUnit) s.nvs.units = true ∧ s.nvsGap ≤ 1920 ∧ s.nvsStart < 1920 ∧ s.nvsGap = 1920 ∧
        s.nvs.remaps.length ≤ 508) ∧
      (∀ i ≤ 1920, ∀ j ≤ 1920, s.slotPhys i = s.slotPhys j → i = j) ∧ ∀ i ≤ 1920, s.slotPhys i % 1024 ≠ 0) :=
  ⟨⟨gapState 0 1919, by decide +kernel, fun _ _ _ _ h => gapState_slotPhys 0 1919 h, slotSector_plain⟩,
   ⟨gapState 1920 0, by decide +kernel, fun _ _ _ _ h => gapState_slotPhys 1920 0 h, slotSector_plain⟩⟩

end Sys2Proof.Tests
end

/-! PROOFS for chapter 00: the machine after reset, what a register write does to each field (R8, R10), and the
accesses that reach nothing, LOCK, the timecode latch and unclaimed windows (R9, R11, R31, R33-R35). -/

namespace Sys2Proof.Machine

/-! ## Reset -/

theorem reset_reg (a : Nat) : State.reset.reg a = regReset a := rfl

theorem reset_ctx (h : Nat) : State.reset.ctx h = none := rfl

theorem reset_mode : State.reset.mode = .dormant := by decide +kernel

/-- Settles O3: the register table is empty at reset, so that each register reads its table's reset value. -/
theorem resetState : Obligations.ResetState :=
  ⟨reset_reg, rfl, reset_mode, rfl, rfl, rfl, rfl, reset_ctx, rfl⟩

/-! ## The layout of a register: its fields fit the word and share no bit -/

/-- The place of a described field in the register at address `a`. -/
def FieldDesc.at (f : FieldDesc) (a : Nat) : Field := ⟨a, f.lo, f.width⟩

/-- Two fields of one register share no bit. -/
abbrev FieldDesc.Apart (f g : FieldDesc) : Prop := f.lo + f.width ≤ g.lo ∨ g.lo + g.width ≤ f.lo

/-- The fields of a register fit its word and share no bit. -/
abbrev RegDesc.LaidOut (r : RegDesc) : Prop :=
  (∀ f ∈ r.fields, f.lo + f.width ≤ 32) ∧ r.fields.Pairwise FieldDesc.Apart

theorem regTable_laidOut (a : Nat) : ∀ r ∈ regTable a, r.LaidOut := by
  unfold regTable
  repeat' split
  all_goals decide +kernel

theorem regDesc?_laidOut {a : Nat} {r : RegDesc} (h : regDesc? a = some r) : r.LaidOut :=
  regTable_laidOut a r (List.mem_of_find?_eq_some h)

theorem FieldDesc.at_fits {f : FieldDesc} (h : f.lo + f.width ≤ 32) (a : Nat) : (f.at a).fits = true :=
  decide_eq_true h

/-! ## Rewriting the fields of a word one after another -/

/-- Replaces each listed field of a word by `val`, but for those that `keep` names. -/
def putFields (a : Nat) (keep : FieldDesc → Bool) (val : FieldDesc → Nat) (l : List FieldDesc) (w : Word) : Word :=
  l.foldl (fun w f => if keep f then w else (f.at a).put w (val f)) w

section
variable {a : Nat} {keep : FieldDesc → Bool} {val : FieldDesc → Nat}

theorem putFields_cons (f : FieldDesc) (l : List FieldDesc) (w : Word) :
    putFields a keep val (f :: l) w = putFields a keep val l (if keep f then w else (f.at a).put w (val f)) := rfl

/-- Rewriting other fields leaves a field as it was. -/
theorem get_putFields_other {g : FieldDesc} (hg : g.lo + g.width ≤ 32) {l : List FieldDesc}
    (hfit : ∀ f ∈ l, f.lo + f.width ≤ 32) (hap : ∀ f ∈ l, g.Apart f) (w : Word) :
    (g.at a).get (putFields a keep val l w) = (g.at a).get w := by
  induction l generalizing w with
  | nil => rfl
  | cons f l ih =>
    rw [List.forall_mem_cons] at hfit hap
    rw [putFields_cons, ih hfit.2 hap.2]
    split
    · rfl
    · exact Field.get_put_other _ _ _ _ (FieldDesc.at_fits hfit.1 a) (FieldDesc.at_fits hg a) hap.1

/-- A listed field takes its value unless it is kept. -/
theorem get_putFields {l : List FieldDesc} (hfit : ∀ f ∈ l, f.lo + f.width ≤ 32) (hap : l.Pairwise FieldDesc.Apart)
    {g : FieldDesc} (hg : g ∈ l) (w : Word) :
    (g.at a).get (putFields a keep val l w) = if keep g then (g.at a).get w else val g % 2 ^ g.width := by
  induction l generalizing w with
  | nil => cases hg
  | cons f l ih =>
    rw [List.forall_mem_cons] at hfit
    rw [List.pairwise_cons] at hap
    rw [putFields_cons]
    rcases List.mem_cons.1 hg with rfl | hmem
    · rw [get_putFields_other hfit.1 hfit.2 hap.1]
      split
      · rfl
      · exact Field.get_put_same _ _ _ (FieldDesc.at_fits hfit.1 a)
    · rw [ih hfit.2 hap.2 hmem]
      split
      · split
        · rfl
        · exact Field.get_put_other _ _ _ _ (FieldDesc.at_fits hfit.1 a) (FieldDesc.at_fits (hfit.2 g hmem) a)
            (hap.1 g hmem).symm
      · rfl

end

/-! ## What a plain write stores (R10) -/

/-- A written field holds no more than its width, whatever its access code. -/
theorem FieldDesc.written_lt (f : FieldDesc) (locked service : Bool) {old new : Nat} (ho : old < 2 ^ f.width)
    (hn : new < 2 ^ f.width) : f.written locked service old new < 2 ^ f.width := by
  have hclear : old &&& (2 ^ f.width - 1 - new) < 2 ^ f.width := Nat.lt_of_le_of_lt Nat.and_le_left ho
  have hset : old ||| new < 2 ^ f.width := Nat.or_lt_two_pow ho hn
  unfold FieldDesc.written
  repeat' split
  all_goals assumption

theorem writtenWord_eq_putFields (r : RegDesc) (a : Nat) (locked service : Bool) (old new : Word) :
    writtenWord r a locked service old new =
      putFields a (fun f => fieldIgnores a f.lo ((f.at a).get new) new)
        (fun f => f.written locked service ((f.at a).get old) ((f.at a).get new)) r.fields old := rfl

/-- Each field of a written word by its access code, but for the values that it ignores. -/
theorem get_writtenWord {r : RegDesc} (hr : r.LaidOut) {f : FieldDesc} (hf : f ∈ r.fields) (a : Nat)
    (locked service : Bool) (old new : Word) :
    (f.at a).get (writtenWord r a locked service old new) =
      if fieldIgnores a f.lo ((f.at a).get new) new then (f.at a).get old
      else f.written locked service ((f.at a).get old) ((f.at a).get new) := by
  rw [writtenWord_eq_putFields, get_putFields hr.1 hr.2 hf]
  simp only [Nat.mod_eq_of_lt (f.written_lt locked service (Field.get_lt (f.at a) old) (Field.get_lt (f.at a) new))]

/-! ## CODE_RATE (R173) -/

/-- The field of address `a` at bit `lo` is a CODE_RATE, and a page has no room for the codewords of rate `v` (R173). -/
def State.rateHasNoRoom (s : State) (a lo v : Nat) : Bool :=
  a / 0x1000 = 5 && a = A.fchCfg ((a - 0x5000) / 0x100) && lo = 4
    && s.fch.geom.any fun g => g.pageSize / cwLength v < g.dataArea / 4096

/-- The register row of FCH_CFG (Table 05.12). -/
def fchCfgRow : RegDesc :=
  ⟨0x5008, 0x100, 16, 0x1000000, 1, [⟨10, 2, .rwl, 0, false⟩, ⟨4, 3, .rwl, 4, false⟩, ⟨0, 3, .rwl, 6, false⟩]⟩

theorem regDesc?_fchCfg : ∀ ch < 16, regDesc? (A.fchCfg ch) = some fchCfgRow := by decide +kernel

theorem regDesc?_at_fchCfg {a : Nat} {r : RegDesc} (h5 : a / 0x1000 = 5) (ha : a = A.fchCfg ((a - 0x5000) / 0x100))
    (hr : regDesc? a = some r) : r = fchCfgRow := by
  have hch : (a - 0x5000) / 0x100 < 16 := by omega
  rw [ha, regDesc?_fchCfg _ hch] at hr
  exact (Option.some.inj hr).symm

/-- Of the fields of FCH_CFG, the one at bit 4 is CODE_RATE and RWL, and the others are apart from it. -/
theorem fchCfgRow_fields : ∀ f ∈ fchCfgRow.fields,
    if f.lo = 4 then f.width = 3 ∧ f.acc = .rwl else f.lo + f.width ≤ 4 ∨ 4 + 3 ≤ f.lo := by decide +kernel

/-- CODE_RATE of the channel configuration register at address `a` (Table 05.12). -/
def codeRateAt (a : Nat) : Field := ⟨a, 4, 3⟩

theorem codeRate_eq_codeRateAt {a ch : Nat} (h : a = A.fchCfg ch) : F.fchCfgCodeRate ch = codeRateAt a := by
  subst h; rfl

theorem State.rateHasNoRoom_iff {s : State} {a lo v : Nat} : s.rateHasNoRoom a lo v = true ↔
    (a / 0x1000 = 5 ∧ a = A.fchCfg ((a - 0x5000) / 0x100)) ∧ lo = 4 ∧
      (s.fch.geom.any fun g => g.pageSize / cwLength v < g.dataArea / 4096) = true := by
  simp [State.rateHasNoRoom, and_assoc]

theorem State.keepRate_eq (s : State) (a : Nat) (old w : Word) :
    s.keepRate a old w =
      if s.rateHasNoRoom a 4 ((codeRateAt a).get w) then (codeRateAt a).put w ((codeRateAt a).get old) else w := by
  by_cases h : a = A.fchCfg ((a - 0x5000) / 0x100)
  · have haddr : (codeRateAt a).addr = a := rfl
    simp only [State.keepRate, State.rateHasNoRoom, codeRate_eq_codeRateAt h, haddr, ← h, decide_true, Bool.and_true]
  · have haddr : (F.fchCfgCodeRate ((a - 0x5000) / 0x100)).addr ≠ a := Ne.symm h
    simp [State.keepRate, State.rateHasNoRoom, h, haddr]

/-- A CODE_RATE without room keeps its value; every other field stays as it was written. -/
theorem State.get_keepRate (s : State) {a : Nat} {r : RegDesc} (hr : regDesc? a = some r) {f : FieldDesc}
    (hf : f ∈ r.fields) (old w : Word) :
    (f.at a).get (s.keepRate a old w) =
      if s.rateHasNoRoom a f.lo ((f.at a).get w) then (f.at a).get old else (f.at a).get w := by
  rw [State.keepRate_eq]
  by_cases hcfg : a / 0x1000 = 5 ∧ a = A.fchCfg ((a - 0x5000) / 0x100)
  · have hfield := fchCfgRow_fields f (regDesc?_at_fchCfg hcfg.1 hcfg.2 hr ▸ hf)
    by_cases hlo : f.lo = 4
    · rw [if_pos hlo] at hfield
      have hat : f.at a = codeRateAt a := by rw [FieldDesc.at, hlo, hfield.1, codeRateAt]
      rw [hat, hlo]
      split
      · rw [Field.get_put_same _ _ _ rfl]
        exact Nat.mod_eq_of_lt (Field.get_lt _ _)
      · rfl
    · rw [if_neg hlo] at hfield
      have hroom : s.rateHasNoRoom a f.lo ((f.at a).get w) = false :=
        Bool.eq_false_iff.2 fun h => hlo (State.rateHasNoRoom_iff.1 h).2.1
      rw [hroom]
      split
      · exact Field.get_put_other _ _ _ _ rfl (FieldDesc.at_fits ((regDesc?_laidOut hr).1 f hf) a) hfield
      · rfl
  · have hroom (lo v : Nat) : s.rateHasNoRoom a lo v = false :=
      Bool.eq_false_iff.2 fun h => hcfg (State.rateHasNoRoom_iff.1 h).1
    simp only [hroom]
    rfl

/-- A field without room for its value is RWL (Table 05.12). -/
theorem State.acc_of_rateHasNoRoom {s : State} {a v : Nat} {r : RegDesc} (hr : regDesc? a = some r) {f : FieldDesc}
    (hf : f ∈ r.fields) (h : s.rateHasNoRoom a f.lo v = true) : f.acc = .rwl := by
  obtain ⟨⟨h5, ha⟩, hlo, -⟩ := State.rateHasNoRoom_iff.1 h
  have hfield := fchCfgRow_fields f (regDesc?_at_fchCfg h5 ha hr ▸ hf)
  rw [if_pos hlo] at hfield
  exact hfield.2

/-- An RWL field holds what is written, or its old value. -/
theorem FieldDesc.written_of_rwl (f : FieldDesc) (h : f.acc = .rwl) (locked service : Bool) (old new : Nat) :
    f.written locked service old new = old ∨ f.written locked service old new = new := by
  rw [FieldDesc.written, h]
  cases f.own <;> cases locked <;> simp

/-- Each field of the word that a plain write stores (R10, R173). -/
theorem State.get_wordAfter (s : State) {a : Nat} {r : RegDesc} (hr : regDesc? a = some r) {f : FieldDesc}
    (hf : f ∈ r.fields) (locked service : Bool) (v : Word) :
    (f.at a).get (s.wordAfter r a locked service v) =
      if fieldIgnores a f.lo ((f.at a).get v) v || s.rateHasNoRoom a f.lo ((f.at a).get v) then
        (f.at a).get (s.reg a)
      else f.written locked service ((f.at a).get (s.reg a)) ((f.at a).get v) := by
  rw [State.wordAfter, State.get_keepRate s hr hf, get_writtenWord (regDesc?_laidOut hr) hf]
  by_cases hign : fieldIgnores a f.lo ((f.at a).get v) v = true
  · simp [hign]
  · simp only [hign, Bool.false_eq_true, if_false, Bool.false_or]
    by_cases hacc : f.acc = .rwl
    · rcases f.written_of_rwl hacc locked service ((f.at a).get (s.reg a)) ((f.at a).get v) with hold | hnew
      · simp only [hold, ite_self]
      · simp only [hnew]
    · have hroom (x : Nat) : s.rateHasNoRoom a f.lo x = false :=
        Bool.eq_false_iff.2 fun h => hacc (State.acc_of_rateHasNoRoom hr hf h)
      simp only [hroom, Bool.false_eq_true, if_false]

/-! ## The register write (R8, R9, R10) -/

namespace State
variable {s : State} {path : Path} {a : Nat}

theorem regWrite_undefined (hadm : s.admits path a) (hr : regDesc? a = none) (v : Word) : s.regWrite path a v = s := by
  rw [regWrite, hadm, hr]

theorem regWrite_defined (hadm : s.admits path a) {r : RegDesc} (hr : regDesc? a = some r) (v : Word) :
    s.regWrite path a v = s.setReg a (s.wordAfter r a (s.lockedAt a) (s.inMode .service) v) := by
  rw [regWrite, hadm, hr]

/-- Away from the controller registers, the loop flags and the alert bits a write is a plain register write. -/
theorem plainWrite_eq_regWrite (hctrl : ctrlPlace path a = none) (hloop : a ≠ A.srvLoopFlags)
    (halert : a ≠ A.mgtAlertStatus) (v : Word) : s.plainWrite path a v = s.regWrite path a v := by
  rw [plainWrite, hctrl]
  simp only [hloop, halert, if_false]

theorem eq_with_regs_setReg (s : State) (a : Nat) (w : Word) :
    s.setReg a w = { s with regs := (s.setReg a w).regs } := rfl

theorem regsKept_setReg (s : State) (a : Nat) (w : Word) : RegsKept [a] s (s.setReg a w) := fun _ hb =>
  reg_setReg_other s w (List.ne_of_not_mem_cons hb)

theorem getF_at_setReg (s : State) (f : FieldDesc) (a : Nat) (w : Word) :
    (s.setReg a w).getF (f.at a) = (f.at a).get w := by
  rw [getF, FieldDesc.at, reg_setReg_same]

/-- A field of its own keeps its value, whatever is written (Table 00.3). -/
theorem get_wordAfter_own {r : RegDesc} (hr : regDesc? a = some r) {f : FieldDesc} (hf : f ∈ r.fields)
    (hown : f.own = true) (locked service : Bool) (v : Word) :
    (f.at a).get (s.wordAfter r a locked service v) = (f.at a).get (s.reg a) := by
  rw [get_wordAfter s hr hf, FieldDesc.written, if_pos hown, ite_self]

end State

theorem exec_registerWrite (path : Path) (a : Nat) (v : Word) (s : State) :
    exec (.registerWrite path a v) s = .next (s.plainWrite path a v) := rfl

/-- Settles O4: the written word field by field (`State.get_wordAfter`), and the frame of `setReg`. -/
theorem registerWriteSetsFieldsByAccessCode : Obligations.RegisterWriteSetsFieldsByAccessCode := by
  intro path a v s r _ hctrl hloop halert hadm hr
  refine ⟨_, exec_registerWrite path a v s, ?_⟩
  rw [State.plainWrite_eq_regWrite hctrl hloop halert, State.regWrite_defined hadm hr]
  refine ⟨State.eq_with_regs_setReg .., State.regsKept_setReg s a _, fun f hf => ?_⟩
  refine (State.getF_at_setReg s f a _).trans ?_
  cases hown : f.own
  · rw [State.get_wordAfter s hr hf, FieldDesc.written, hown]
    rfl
  · rw [State.get_wordAfter_own hr hf hown]
    rfl

/-! ## Accesses of the logic die while it is off (R35) -/

theorem State.admitWrite_logicOff {s : State} (path : Path) {a : Nat} (hoff : s.logicOn = false)
    (hdie : onDriveDie a = false) : s.admitWrite path a = (false, s) := by
  simp [State.admitWrite, hoff, hdie]

theorem State.plainWrite_refused {s : State} {path : Path} {a : Nat} (h : s.admitWrite path a = (false, s))
    (halert : a ≠ A.mgtAlertStatus) (v : Word) : s.plainWrite path a v = s := by
  unfold State.plainWrite State.regWrite
  rw [h]
  split
  · rfl
  · simp only [halert, if_false, ite_self]

/-! ## LOCK (R11) -/

/-- The LOCK field of a block is bit 31 of a register whose address ends in two zero digits. -/
theorem lockField_eq_some {a : Nat} {f : Field} (h : lockField a = some f) :
    f.lo = 31 ∧ f.width = 1 ∧ f.addr % 0x100 = 0 := by
  unfold lockField at h
  repeat' split at h
  all_goals cases h
  all_goals
    simp [F.sltCtrlLock, F.fchCtrlLock, F.ftlCtrlLock, F.dchCtrlLock, F.srvCtrlLock, F.memCtrlLock, F.cntCtrlLock]
  omega

/-- No register whose address ends in two zero digits ignores a value. -/
theorem fieldIgnores_of_mod {a : Nat} (h : a % 0x100 = 0) (lo v : Nat) (w : Word) : fieldIgnores a lo v w = false := by
  have hconst (b : Nat) (hb : b % 0x100 ≠ 0) : a ≠ b := fun e => hb (e ▸ h)
  have hfch (n : Nat) : a ≠ A.fchCfg n := hconst _ (by rw [A.fchCfg]; omega)
  have hdch (n : Nat) : a ≠ A.dchCfg n := hconst _ (by rw [A.dchCfg]; omega)
  simp [fieldIgnores, hfch, hdch, hconst A.ftlHeatEpoch (by decide), hconst (A.srvOffset 0) (by decide),
    hconst (A.srvOffset 1) (by decide), hconst A.srvSettle (by decide), hconst A.srvPwrBudget (by decide),
    hconst A.memRh (by decide), hconst A.memScrub (by decide), hconst A.memHealCtrl (by decide),
    hconst A.memFlipCtrl (by decide), hconst A.cntCfg (by decide), hconst A.cntLag (by decide),
    hconst A.cntHb (by decide), hconst A.mgtI3cCfg (by decide), hconst A.mgtProtoSel (by decide),
    hconst A.ftlMigrateCfg (by decide), hconst A.memWq (by decide), hconst A.memDdrCfg (by decide)]

theorem rateHasNoRoom_of_mod {s : State} {a : Nat} (h : a % 0x100 = 0) (lo v : Nat) :
    s.rateHasNoRoom a lo v = false := by
  refine Bool.eq_false_iff.2 fun hroom => ?_
  have ha := (State.rateHasNoRoom_iff.1 hroom).1.2
  rw [A.fchCfg] at ha
  omega

/-- `a` is the register that holds the LOCK field `f` of its block. -/
structure LockReg (a : Nat) (f : Field) : Prop where
  lockField : lockField a = some f
  addr : f.addr = a

namespace LockReg
variable {a : Nat} {f : Field} (h : LockReg a f)
include h

theorem mod : a % 0x100 = 0 := h.addr ▸ (lockField_eq_some h.lockField).2.2

theorem fits : f.fits = true := by
  obtain ⟨hlo, hwidth, -⟩ := lockField_eq_some h.lockField
  exact decide_eq_true (by omega)

theorem width : f.width = 1 := (lockField_eq_some h.lockField).2.1

theorem withoutLock (v : Word) : State.withoutLock a v = f.put v 0 := by
  rw [State.withoutLock, h.lockField]
  exact if_pos h.addr

theorem lockedAt (s : State) : s.lockedAt a = s.onF f := by
  rw [State.lockedAt, h.lockField]

theorem plainWrite {s : State} {path : Path} (hctrl : State.ctrlPlace path a = none) (v : Word) :
    s.plainWrite path a v = s.regWrite path a v := by
  have hmod := h.mod
  exact State.plainWrite_eq_regWrite hctrl (by rintro rfl; exact absurd hmod (by decide))
    (by rintro rfl; exact absurd hmod (by decide)) v

/-- A word that sets LOCK and requests no action: its fields without LOCK, then LOCK (R11). -/
theorem exec_blockLock {s : State} {path : Path} {r : RegDesc} (hadm : s.admits path a)
    (hctrl : State.ctrlPlace path a = none) (hr : regDesc? a = some r) {v : Word} (hv : f.get v = 1)
    (hacts : writeActions s path a (State.withoutLock a v) = []) :
    exec (.blockLock path a v) s =
      .next ((s.setReg a (s.wordAfter r a (s.onF f) (s.inMode .service) (f.put v 0))).setF f 1) := by
  have hexec : exec (.blockLock path a v) s = execBlockLock path a v s := rfl
  have hset : (decide (f.addr = a) && decide (f.get v = 1)) = true := by rw [h.addr, hv]; simp
  rw [hexec, execBlockLock, State.busWrite, hadm]
  simp only [h.lockField, hset, if_true, hacts, List.foldl_nil]
  rw [h.plainWrite hctrl, State.regWrite_defined hadm hr, h.lockedAt, h.withoutLock]

end LockReg

/-- Setting LOCK lets an RWL field of the same word take its value first (R11). -/
theorem registerAccesses_lock (path : Path) (a : Nat) (v : Word) (s : State) (r : RegDesc) (f : Field)
    (hadm : s.admits path a) (hctrl : State.ctrlPlace path a = none) (hr : regDesc? a = some r) (hlock : LockReg a f)
    (hv : f.get v = 1) (hacts : writeActions s path a (State.withoutLock a v) = []) :
    Completes (.blockLock path a v) s fun t =>
      t = { s with regs := t.regs } ∧ RegsKept [a] s t ∧ t.getF f = 1 ∧
      ∀ g ∈ r.fields, g.acc = .rwl → g.own = false → s.getF f = 0 →
        (g.lo + g.width ≤ f.lo ∨ f.lo + f.width ≤ g.lo) → t.getF (g.at a) = (g.at a).get v := by
  refine ⟨_, hlock.exec_blockLock hadm hctrl hr hv hacts, rfl, fun b hb => ?_, ?_, fun g hg hacc hown hopen hap => ?_⟩
  · have hba : b ≠ a := List.ne_of_not_mem_cons hb
    rw [State.setF, State.reg_setReg_other _ _ (hlock.addr ▸ hba), State.reg_setReg_other _ _ hba]
  · have hget := State.getF_setF_same (s.setReg a (s.wordAfter r a (s.onF f) (s.inMode .service) (f.put v 0))) f 1
      hlock.fits
    have hbit : 1 % 2 ^ f.width = 1 := congrArg (1 % 2 ^ ·) hlock.width
    exact hget.trans hbit
  · have hgfit := FieldDesc.at_fits ((regDesc?_laidOut hr).1 g hg) a
    have hfg : f.apart (g.at a) = true := by
      rcases hap with h | h
      · simp [Field.apart, FieldDesc.at, h]
      · simp [Field.apart, FieldDesc.at, h]
    have hoff : s.onF f = false := by rw [State.onF, hopen]; rfl
    rw [State.getF_setF_other _ _ _ _ hlock.fits hgfit hfg, State.getF_at_setReg, State.get_wordAfter s hr hg,
      fieldIgnores_of_mod hlock.mod, rateHasNoRoom_of_mod hlock.mod, FieldDesc.written, hown, hacc, hoff]
    exact Field.get_put_other f (g.at a) v 0 hlock.fits hgfit hap

/-! ## The timecode latch and the windows of virtual functions (R31, R34) -/

/-- A read of DEV_TIMECODE_LO returns the lower half and latches the upper one for its own path (R31). -/
theorem registerAccesses_timecodeLo (path : Path) (s : State) (hon : s.logicOn = true) (hvf : path ≠ .vf) :
    Completes (.timecodeLoRead path) s fun t =>
      t = { s with host := { s.host with bus := .data (s.now % 2 ^ 32) }, fab := t.fab } ∧
      let hi := s.now / 2 ^ 32 % 2 ^ 32
      t.fab = { s.fab with
        hiBar0 := if path = .bar0 then hi else s.fab.hiBar0
        hiI3c := if path = .i3c then hi else s.fab.hiI3c
        hiCore := if path = .core then hi else s.fab.hiCore } := by
  have hexec : exec (.timecodeLoRead path) s = execTimecodeLoRead path s := rfl
  rw [Completes, hexec, execTimecodeLoRead]
  simp only [hon, hvf]
  cases path with
  | vf => exact absurd rfl hvf
  | bar0 => exact ⟨_, rfl, rfl, rfl⟩
  | i3c => exact ⟨_, rfl, rfl, rfl⟩
  | core => exact ⟨_, rfl, rfl, rfl⟩

theorem exec_timecodeLoRead_vf (s : State) : exec (.timecodeLoRead .vf) s = .next s := by
  have hexec : exec (.timecodeLoRead .vf) s = execTimecodeLoRead .vf s := rfl
  rw [hexec, execTimecodeLoRead, if_pos (by simp)]

theorem exec_vfBar0Unclaimed_read {vf off : Nat} {s : State} (hvf : s.vfExists vf = true) (hoff : 0x1800 ≤ off) :
    exec (.vfBar0Unclaimed vf off false) s = .next { s with host := { s.host with bus := .data 0 } } := by
  have hexec : exec (.vfBar0Unclaimed vf off false) s = execVfBar0Unclaimed vf off false s := rfl
  have hwin : ¬ off < 0x1800 := by omega
  rw [hexec, execVfBar0Unclaimed, if_neg (by simp [hvf]), if_neg (by simp [hwin])]
  rfl

theorem exec_vfBar0Unclaimed_absent {vf off : Nat} {wr : Bool} {s : State} (hvf : s.vfExists vf = false) :
    exec (.vfBar0Unclaimed vf off wr) s = .next { s with host := { s.host with bus := .unsupported } } := by
  have hexec : exec (.vfBar0Unclaimed vf off wr) s = execVfBar0Unclaimed vf off wr s := rfl
  rw [hexec, execVfBar0Unclaimed, if_pos (by simp [hvf])]
  rfl

/-- Settles O5, clause by clause. -/
theorem registerAccesses : Obligations.RegisterAccesses := by
  refine ⟨?undefined, ?logicOff, ?lock, registerAccesses_timecodeLo, exec_timecodeLoRead_vf,
    fun vf off s => exec_vfBar0Unclaimed_read, fun vf off wr s => exec_vfBar0Unclaimed_absent⟩
  case undefined =>
    intro path a v s hctrl hloop halert hadm hr
    rw [exec_registerWrite, State.plainWrite_eq_regWrite hctrl hloop halert, State.regWrite_undefined hadm hr]
  case logicOff =>
    intro path a v s hoff hdie
    have halert : a ≠ A.mgtAlertStatus := by
      rintro rfl
      exact absurd hdie (by decide)
    rw [exec_registerWrite, State.plainWrite_refused (State.admitWrite_logicOff path hoff hdie) halert]
  case lock =>
    intro path a v s r f _ hadm hctrl hr hfield haddr hv hacts
    obtain ⟨t, hexec, hframe, hkept, hset, hfields⟩ :=
      registerAccesses_lock path a v s r f hadm hctrl hr ⟨hfield, haddr⟩ hv hacts
    exact ⟨t, hexec, hframe, hkept, hset, fun g hg hacc hown hopen _ => hfields g hg hacc hown hopen⟩

end Sys2Proof.Machine
